-- ==== Sys2Proof/Word.lean ====
section
/-!
DEFINITION. The word types of the Cordago 6400 model: bytes, the widths the manual names, and byte strings.
-/

namespace Sys2Proof

/-- One byte. -/
abbrev Byte := BitVec 8

/-- A 16-bit quantity: coordinates, tags, identities. -/
abbrev Half := BitVec 16

/-- A register of the management address space, or its address (R8). -/
abbrev Word := BitVec 32

/-- A 64-bit quantity: step numbers, times, identities. -/
abbrev DWord := BitVec 64

/-- A byte string: a Manifest, a frame, a digest, a key. -/
abbrev Bytes := List Byte

/-- A byte string is printed as the list of its bytes' numbers. -/
abbrev Bytes.nats (b : Bytes) : List Nat := b.map BitVec.toNat

end Sys2Proof
end

