-- ==== Sys2Proof/Syntax.lean ====
section
/-!
DEFINITION. The commands of the block, one constructor for each row of spec/opcode_table.json, with the operands
each takes from outside the device. What a command needs that the device itself holds (a descriptor, a Manifest,
a BODY instruction) is read from the state and is no operand.
-/

namespace Sys2Proof

/-- A physical cluster die.cluster (R9). -/
structure ClusterId where
  die  : BitVec 3
  phys : BitVec 8
  deriving DecidableEq, Repr

/-- The reference clocks of Table 16.4. -/
inductive RefClk where
  | sys | eth | pcie
  deriving DecidableEq, Repr

/-- The board inputs of Table 15.2 that a plain write changes. -/
inductive BoardInput where
  | coord | feed | linkMedium | straps | recoveryServer | ipv4
  deriving DecidableEq, Repr

/-- The two fetched operands of a tile (Table 3.4). -/
inductive TileOperand where
  | p | q
  deriving DecidableEq, Repr

/-- What a protected memory reports for a read (R318): good data, a corrected error whose re-read was clean, a
corrected error that repeated, an uncorrectable read whose second read was good, an uncorrectable read, or good data of a
hold device after 1 to 3 retries of its link (R317). -/
inductive ReadOutcome where
  | good | corrected | correctedRepeat | transient | uncorrectable | linkRetried (times : BitVec 2)
  deriving DecidableEq, Repr

/-- What the checks of the array find while a row runs (R97, R115, R116); an uncorrectable store error names its
operand and its slot. -/
inductive RowFault where
  | none | storeCorrected | residue | storeUe (op : TileOperand) (slot : Half)
  deriving DecidableEq, Repr

/-- What the checks of the vector engine find while a descriptor runs (R97, R239, R240): a corrected store error, a residue
mismatch that a re-issue passes, a second mismatch of the lane row, or an uncorrectable store error. -/
inductive LaneFault where
  | none | storeCorrected | residueOnce (row lane : Half) | residueTwice (row lane : Half) | storeUe (slot : Half)
  deriving DecidableEq, Repr

/-- A memory tier of R318. -/
inductive Tier where
  | near | hold
  deriving DecidableEq, Repr

/-- What the patrol scrub finds in a sector (R318, R320). -/
inductive ScrubKind where
  | correctedClean | correctedRepeat | ueTransient | ueLasting
  deriving DecidableEq, Repr

/-- One finding of a patrol scrub pass: the tier, the byte address of the sector, and its class. -/
structure ScrubFind where
  tier : Tier
  addr : Nat
  kind : ScrubKind
  deriving DecidableEq, Repr

/-- A message to a berth (R335): who writes it, its class (Table 9.2), the step it is assigned, and its bytes. For a
reduction engine, `serves` is the partition whose ROUTES section holds the group the write serves (R334); it says
nothing of another producer. -/
structure BerthMsg where
  serves   : BitVec 6
  producer : Half
  cls      : Byte
  step     : DWord
  bytes    : Bytes
  deriving DecidableEq, Repr

/-- A packet of the Kraek fabric (Table 10.3); `payload` carries its length. -/
structure Packet where
  dst     : Half
  src     : Half
  jobTag  : Half
  vc      : BitVec 3
  detour  : Bool
  kind    : BitVec 4
  tag     : Byte
  stream  : Half
  seq     : BitVec 36
  payload : Bytes
  deriving DecidableEq, Repr

/-- A flit as it arrives (R363): its sequence number, whether its CRC holds, whether it is a replay, and what its link
header acknowledges and returns. -/
structure FlitRx where
  seq      : DWord
  crcOk    : Bool
  replayed : Bool
  /-- The last flit that the peer acknowledges, and the flits of each virtual channel whose room it gives back. -/
  ack      : Option DWord
  credits  : List (BitVec 3 × Half)
  /-- The flit that failed its CRC at the peer, which wants it and those after it again (log entry 98). -/
  replay   : Option DWord := none
  deriving DecidableEq, Repr

/-- One reduction of the fabric: the partition's group, the step, and the shard (R383, R384). -/
structure RedKey where
  part  : BitVec 6
  group : Half
  step  : DWord
  shard : Half
  deriving DecidableEq, Repr

/-- What arrives for the add phase (R384): a contribution of a member with its scales (X16 or G8), or a partial in
P48 with one flag byte a block. -/
inductive RedTerm where
  | contribution (member : Half) (idx : BitVec 3) (scales elems : Bytes)
  | partialSum (members : List Half) (sums : List (BitVec 48)) (flags : Bytes)
  deriving DecidableEq, Repr

/-- How a received frame stood to MACsec (R396, R512): not protected, or protected by a peer's key with the result
of the integrity and the replay check. -/
inductive MacsecRx where
  | plain
  | secured (peer : BitVec 6) (an : BitVec 2) (integrityOk replayOk : Bool)
  deriving DecidableEq, Repr

/-- One operation of the management register protocol (R410). -/
structure MrpOp where
  write : Bool
  addr  : Word
  data  : Word
  deriving DecidableEq, Repr

/-- How an RDMA READ ends (R402): with the record's bytes, or with the QP's error syndrome (Table 11.14). -/
inductive RdmaOutcome where
  | data (bytes : Bytes)
  | error (syndrome : Byte)
  deriving DecidableEq, Repr

/-- What a keeper receives from its guest (R436). -/
inductive KeeperItem where
  | entry (bytes : Bytes)
  | snapshot (step : DWord) (image : Bytes)
  deriving DecidableEq, Repr

/-- A live stash entry as a copy of a member's state brings it (Table 7.3). -/
structure GuestStash where
  block      : Word
  tag        : Byte
  lost       : Bool
  readers    : Half
  stepOrigin : DWord
  size       : Word
  addr       : DWord
  deriving DecidableEq, Repr

/-- A configuration range of the lading state (R515). -/
structure LadingRange where
  first    : DWord
  last     : DWord
  replayed : Bool
  firmware : Bytes
  manifest : Bytes
  data     : Bytes
  deriving DecidableEq, Repr

/-- A device that served the logical coordinate before this one, with its steps, its identity digest, the head of its logbook
chain at the last of them, and its entries (Table 14.9). -/
structure LadingIdent where
  first   : DWord
  last    : DWord
  digest  : Bytes
  chain   : Bytes
  entries : Nat
  deriving DecidableEq, Repr

/-- The lading state of a lost device in its snapshot image (R514): its identity digest, its first step at the coordinate,
and the state itself. -/
structure GuestLading where
  identity : Bytes
  since    : DWord
  first    : DWord
  atFill   : Bool
  overflow : Bool
  served   : List LadingIdent
  ranges   : List LadingRange
  recovery : List (DWord × Byte × Bytes)
  counts   : List Nat
  states   : List Nat
  firstMismatch : Option DWord
  entries  : Nat
  deriving DecidableEq, Repr

/-- The items of protected storage (R493). -/
inductive StoreItem where
  | factoryCalibration | userCalibration | clusterMap | rowRemaps | identityCert | ownerState | ownerCounter | ownerKeys
  deriving DecidableEq, Repr

/-- What reaches a spare that takes a lost coordinate: from the keeper with a restore (R449), or from the partner with
the fill (R446). `last` is the step it stands at, `hold` the bytes of the hold tier by address, `entries` the logbook
entries at the keeper, oldest first; `active`, `shadow` and `amendment` are the Manifest store, `phase` is that of the
partition's changed routes (R77), the rest as the registers and the
sequencer hold it. -/
structure GuestImage where
  last       : DWord
  mean       : Word
  seen       : Word
  hold       : List (Nat × Bytes)
  entries    : List Bytes
  stash      : List GuestStash
  tags       : List (Word × Byte × Half × DWord)
  active     : Bytes
  shadow     : Bytes
  amendment  : Bytes
  phase      : Byte
  tag        : Byte
  prevTag    : Byte
  prevLive   : Bool
  pend       : DWord
  done       : DWord
  lading     : Option GuestLading := none
  deriving DecidableEq, Repr

/-- Instructions of the JTAG port as scanned in: the four of R498, and any other code. -/
inductive JtagIns where
  | bypass | idcode | samplePreload | extest | other (code : Word)
  deriving DecidableEq, Repr

/-- A claim on a spare (Table 14.14 of the fill: Table 12.14): the claimant, the lost device's logical and physical
coordinates, and the partition. -/
structure Claim where
  claimant : Half
  lostLogical : Half
  lostPhysical : Half
  part : BitVec 6
  deriving DecidableEq, Repr

/-- What was counted on a compute die in one microsecond (R462), for the partition and the intake berth whose work it is (R488):
chunks issued in each of three modes, lane rows, store accesses, near-tier and hold-tier sectors. -/
structure Activity where
  die    : BitVec 3
  part   : Option (BitVec 6) := none
  berth  : Option Nat := none
  counts : List Nat
  deriving DecidableEq, Repr

/-- What one 1 µs power estimate is formed from (R462): the activity of the compute dies, and at the spine the Kraek flits, the
Ethernet bytes and the PCIe bytes. -/
structure PowerEstimate where
  work  : List Activity
  spine : List Nat
  deriving DecidableEq, Repr

/-- What one 20 µs measurement holds (R463): 1 ms means in W, the input's mV and 0.1 A, and each die's core rail. -/
structure PowerMeasure where
  meanW    : Nat
  milliV   : Nat
  deciA    : Nat
  dieRails : List Nat
  deriving DecidableEq, Repr

/-- A hot spot as the thermal model updates it (R478): its index in the order of Table 13.5, the readings of its two
diodes (R476), the model's present estimate and its prediction 5 ms ahead, in °C, and the limit in W that keeps the
prediction 2 °C below the spot's limit. -/
structure SpotUpdate where
  spot       : Nat
  r0         : Nat
  r1         : Nat
  estimate   : Nat
  prediction : Nat
  limitW     : Nat
  deriving DecidableEq, Repr

/-- The commands. Each constructor is one row of the opcode table; its docstring names the row's rule. An operand with a
default says what an event found beside its effect: by default, nothing. -/
inductive Instr where
  /-- R12. -/ | registerWrite (addr data : Word)
  /-- R14; `upd` is what the hardware adds in the same access. -/ | rcRead (addr upd : Word)
  /-- R40; the die whose oldest record arrives. -/ | eventRecordAccept (die : BitVec 4)
  /-- R545. -/ | inputRise20V
  /-- R545. -/ | inputRise39V
  /-- R545. -/ | railsInRegulation
  /-- R548. -/ | brownOut
  /-- R549. -/ | inputOvervoltage
  /-- R549. -/ | inputStageClose
  /-- R553. -/ | refclkLost (clk : RefClk)
  /-- R546. -/ | resetNAssert
  /-- R501, R38. -/ | resetNDeassert
  /-- R35. -/ | mgmtClkLock
  /-- R501; the known-answer tests' result, the image read from the flash, and the items of protected storage that fail authentication (R493). -/ | imageVerifyComplete (kat : Bool) (image : Bytes) (absent : List StoreItem := [])
  /-- R504. -/ | tftpRetransmitTimeout
  /-- R504. -/ | tftpAttemptRestart
  /-- R505. -/ | recoveryImageReceived (image : Bytes) (flashOk : Bool)
  /-- R529. -/ | functionReady (bit : BitVec 5)
  /-- R529. -/ | bringupFailed (bit : BitVec 5) (cause : Byte)
  /-- R522. -/ | watchdogExpiry
  /-- R521. -/ | managementMemoryUe
  /-- R522. -/ | managementRestartComplete
  /-- R525; the bytes after the target's address, and the parity. -/ | i3cPrivateWrite (bytes : Bytes) (parityOk : Bool)
  /-- R525; the address written before the repeated start, if any. -/ | i3cPrivateRead (addr : Option Word) (len : Nat) (parityOk : Bool)
  /-- R524. -/ | rstdaa
  /-- R524. -/ | setdasa (addr : BitVec 7)
  /-- R524. -/ | entdaa (addr : BitVec 7)
  /-- R524. -/ | enec
  /-- R524. -/ | disec
  /-- R524. -/ | getpid
  /-- R524. -/ | getbcr
  /-- R524. -/ | getdcr
  /-- R524. -/ | getstatus
  /-- R524. -/ | getmwl
  /-- R524. -/ | getmrl
  /-- R527. -/ | boardInputChange (input : BoardInput) (value : Word)
  /-- R528. -/ | trayReading (flow : Word)
  /-- R468. -/ | headroomWrite (value : Word)
  /-- R455. -/ | envelopeWrite (value : Word)
  /-- R418. -/ | prioCfgWrite (value : Word)
  /-- R395. -/ | etsShareWrite (hi : Bool) (value : Word)
  /-- R536. -/ | sideCfgWrite (pin : BitVec 3) (value : Word)
  /-- R536. -/ | timerCfgWrite (timer : BitVec 3) (value : Word)
  /-- R535. -/ | leakInAssert (pin : BitVec 3)
  /-- R535. -/ | timerExpiry (timer : BitVec 3)
  /-- R533. -/ | restoreFactory
  /-- R534. -/ | clearFaultCounts
  /-- R409. -/ | manifestData (sess : Half) (seq : Word) (offset : Word) (bytes : Bytes)
  /-- R61. -/ | load
  /-- R62. -/ | manifestSignatureVerified
  /-- R62. -/ | manifestChecksComplete
  /-- R66. -/ | commit
  /-- R69. -/ | amend
  /-- R69. -/ | amendmentChecksComplete
  /-- R73. -/ | withdraw
  /-- R61. -/ | discard
  /-- R104. -/ | pilotAdmit (c : ClusterId) (slot : BitVec 1)
  /-- R104. -/ | tileNop (c : ClusterId) (slot : BitVec 1)
  /-- R107. -/ | tileFence (c : ClusterId) (slot : BitVec 1)
  /-- R106; the window entry and operand whose fetch ends. -/ | pilotFetchReturn (c : ClusterId) (slot : BitVec 1) (entry : Nat) (op : TileOperand) (outcome : ReadOutcome)
  /-- R151; what reading the operands' scales meets. -/
  | anchorReady (c : ClusterId) (slot : BitVec 1) (entry : Nat) (fault : RowFault := .none)
  /-- R108. -/ | tileProduct (c : ClusterId) (slot : BitVec 1) (fault : RowFault)
  /-- R111. -/ | tileRowIssue (c : ClusterId) (slot : BitVec 1) (fault : RowFault)
  /-- R563. -/ | rowDrain (c : ClusterId) (slot : BitVec 1) (residue : Bool)
  /-- R109; whether a store error was corrected on the way. -/
  | outputCopyComplete (c : ClusterId) (slot : BitVec 1) (corrected : Bool := false)
  /-- R129; the spare whose test ends. -/ | spareSelfTestComplete (spare : ClusterId) (pass : Bool)
  /-- R121. -/ | quantumExpiry (c : ClusterId) (slot : BitVec 1)
  /-- R123; whether a store error of the outgoing window was corrected, and how the incoming image reads (R126). -/
  | swapComplete (c : ClusterId) (slot : BitVec 1) (corrected : Bool) (outcome : ReadOutcome := .good)
  /-- R131. -/ | selfTest (c : ClusterId)
  /-- R131. -/ | selfTestComplete (c : ClusterId) (pass : Bool)
  /-- R132. -/ | haltSlot (c : ClusterId) (slot : BitVec 1)
  /-- R132. -/ | resumeSlot (c : ClusterId) (slot : BitVec 1)
  /-- R148; the record of Table 4.6. -/ | peakRecordReceive (p : BitVec 6) (record : DWord)
  /-- R237. -/ | vectorDescriptorAdmit (c : ClusterId) (slot : BitVec 1)
  /-- R213. -/ | vectorNop (c : ClusterId) (slot : BitVec 1)
  /-- R238; the lane rows after which a swap stops the run (R241): none, and it runs to its end. -/
  | vectorMap (c : ClusterId) (slot : BitVec 1) (fault : LaneFault) (stop : Option Nat := none)
  /-- R235. -/ | vectorQuant (c : ClusterId) (slot : BitVec 1) (fault : LaneFault) (stop : Option Nat := none)
  /-- R227. -/ | vectorMask (c : ClusterId) (slot : BitVec 1) (fault : LaneFault := .none) (stop : Option Nat := none)
  /-- R565. -/ | vectorLsum (c : ClusterId) (slot : BitVec 1) (fault : LaneFault := .none)
  /-- R242. -/ | vectorDiscard (c : ClusterId) (slot : BitVec 1)
  /-- R266. -/ | lastTileNotice (p : BitVec 6) (block : Word) (microBatch : Half) (step : DWord)
  /-- R267. -/ | stashCopyComplete (p : BitVec 6) (block : Word)
  /-- R269. -/ | stashWaitLimitExpiry (p : BitVec 6) (block : Word)
  /-- R307. -/ | lighterNop (die : BitVec 3) (n : BitVec 4)
  /-- R303. -/ | lighterCopy (die : BitVec 3) (n : BitVec 4) (outcome : ReadOutcome)
  /-- R312. -/ | lighterAdd (die : BitVec 3) (n : BitVec 4) (outcome : ReadOutcome)
  /-- R316. -/ | lighterSettle (die : BitVec 3) (n : BitVec 4) (outcome : ReadOutcome)
  /-- R303. -/ | lighterClear (die : BitVec 3) (n : BitVec 4)
  /-- R308. -/ | lighterResume (die : BitVec 3) (n : BitVec 4)
  /-- R308. -/ | lighterFlush (die : BitVec 3) (n : BitVec 4)
  /-- R320. -/ | scrubNow
  /-- R320. -/ | patrolScrub (finds : List ScrubFind)
  /-- R290. -/ | refresh (stack : BitVec 3) (pc : Byte)
  /-- R291. -/ | refreshBandRise (stack : BitVec 3) (dram : BitVec 2) (temp : Byte)
  /-- R291. -/ | refreshBandFall (stack : BitVec 3) (dram : BitVec 2) (temp : Byte)
  /-- R322. -/ | rowRepairComplete (stack : BitVec 3) (pc : Byte) (row : Nat)
  /-- R323. -/ | bankRepairComplete (stack : BitVec 3) (pc : Byte) (bank : Nat)
  /-- R325. -/ | holdSpareTestComplete (spare : BitVec 1) (pass oldReadable : Bool)
  /-- R325. -/ | holdSpareCopyComplete (spare : BitVec 1) (lost : List Nat := [])
      (partner : List (Nat × Bytes) := [])
  /-- R336. -/ | berthWrite (berth : BitVec 14) (msg : BerthMsg)
  /-- R346. -/ | berthDequeue (berth : BitVec 14)
  /-- R354. -/ | berthFlush (berth : BitVec 14)
  /-- R368. -/ | linkDetectProbe (k : BitVec 4) (present : Bool)
  /-- R368. -/ | linkEqualiseComplete (k : BitVec 4)
  /-- R368; the lanes that failed training: whether a transmit lane, and its physical number (4 the spare). -/
  | linkTrainingTimeout (k : BitVec 4) (badLanes : List (Bool × BitVec 3))
  /-- R368; the lane map of KX_LANE_MAP. -/ | linkLockComplete (k : BitVec 4) (laneMap : BitVec 24)
  /-- R362; the median round trip in ns. -/ | linkRttComplete (k : BitVec 4) (rtt : Word)
  /-- R368; the identity record of Table 10.5. -/ | linkIdentReceived (k : BitVec 4) (record : Bytes)
  /-- R369. -/ | linkCheck (k : BitVec 4)
  /-- R370. -/ | portMissingDeadline (port : BitVec 4)
  /-- R371. -/ | discoveryWaitExpiry
  /-- R371. -/ | proceed
  /-- R371. -/ | discoveryHalt
  /-- R368. -/ | enable (k : BitVec 4)
  /-- R368. -/ | disable (k : BitVec 4)
  /-- R371. -/ | retrain (k : BitVec 4)
  /-- R371. -/ | linkLossOfLock (k : BitVec 4)
  /-- R363. -/ | flitReceive (k : BitVec 4) (flit : FlitRx)
  /-- R363; symbols corrected on the lane in the window, and whether their rate is above 10⁻⁵. -/ | fecRateWindow (k : BitVec 4) (lane : BitVec 3) (corrected : Word) (high : Bool)
  /-- R373; the packet's dst is the logical destination. -/ | packetInject (p : BitVec 6) (pkt : Packet)
  /-- R374; the port of arrival, none from the device's own dies, and the hop's time in ns. -/ | packetForward (pkt : Packet) (ingress : Option (BitVec 4)) (hopNs : Word)
  /-- R383; a member's operand, little-endian. -/ | class0Operation (key : RedKey) (member : Half) (value : Bytes)
  /-- R384. -/ | reductionScaleReceive (key : RedKey) (member : Half) (idx : BitVec 3) (scales : Bytes)
  /-- R384. -/ | reductionScalePhaseClose (key : RedKey)
  /-- R385. -/ | reductionContributionReceive (key : RedKey) (term : RedTerm)
  /-- R386. -/ | reductionRound (key : RedKey)
  /-- R387. -/ | excusalReceive (key : RedKey) (member : Half) (action : Byte) (engine : Half)
  /-- R390. -/ | ethLinkUp (phy : Byte)
  /-- R397. -/ | ethLinkDown (cause : Byte)
  /-- R392; the frame from the destination address to the byte before the FCS. -/ | frameReceive (frame : Bytes) (sec : MacsecRx)
  /-- R394. -/ | pfcStuck (prio : BitVec 3)
  /-- R510. -/ | cctOpen (seq : Word) (payload : Bytes)
  /-- R406. -/ | cctClose (sess : Half) (seq : Word)
  /-- R406. -/ | cctKeepalive (sess : Half) (seq : Word)
  /-- R408. -/ | berthPut (sess : Half) (seq : Word) (berth : BitVec 14) (cls : Byte) (bytes : Bytes)
  /-- R408. -/ | berthTake (sess : Half) (seq : Word) (berth : BitVec 14) (maxItems : Half)
  /-- R393. -/ | frameSend (sess : Half) (seq : Word) (frame : Bytes)
  /-- R398. -/ | qpConnect (sess : Half) (seq : Word) (qp : Half) (mtu : Byte) (remoteQpn startPsn : Word) (gid : BitVec 128)
  /-- R398. -/ | qpDisconnect (sess : Half) (seq : Word) (qp : Half)
  /-- R410. -/ | mrpRequest (sess : Half) (seq : Word) (ops : List MrpOp)
  /-- R406. -/ | sessionTimeout (sess : BitVec 6)
  /-- R402; the read of a sample of a step. -/ | rdmaReadComplete (p : BitVec 6) (step : DWord) (sample : Nat) (outcome : RdmaOutcome)
  /-- R404. -/ | fetchTimeout (p : BitVec 6)
  /-- R397. -/ | ethRetrain
  /-- R412. -/ | pcieRetrain
  /-- R415. -/ | driveReset (drive : BitVec 1)
  /-- R412; the rate code of GW_STATUS.pcie_rate and the lanes in use. -/ | snapshotLinkUp (rate : BitVec 2) (width : BitVec 4)
  /-- R414. -/ | nvmeCommandComplete (drive : BitVec 1) (cid : Nat)
  /-- R415. -/ | nvmeCommandTimeout (drive : BitVec 1) (cid : Nat)
  /-- R415. -/ | driveReadyTimeout (drive : BitVec 1)
  /-- R416. -/ | logbookDriveTimeout
  /-- R420. -/ | loop (p : BitVec 6)
  /-- R420. -/ | endloop (p : BitVec 6)
  /-- R402. -/ | fetch (p : BitVec 6)
  /-- R256. -/ | post (p : BitVec 6)
  /-- R420. -/ | wait (p : BitVec 6)
  /-- R442. -/ | reduce (p : BitVec 6)
  /-- R192; the job's total as SUM128 gives it. -/ | loss (p : BitVec 6) (total : BitVec 128)
  /-- R195. -/ | verdict (p : BitVec 6)
  /-- R196; the flags combined over the job. -/ | verdictResult (p : BitVec 6) (nonfinite spike : Bool)
  /-- R420. -/ | endStep (p : BitVec 6)
  /-- R31. -/ | slackWaterOpen (p : BitVec 6)
  /-- R440; the digest the partner gives of its mirror region. -/ | partnerDigestReceive (p : BitVec 6) (digest : Bytes)
  /-- R414. -/ | logbookEntryWritten (p : BitVec 6)
  /-- R435. -/ | snapshotWriteOutComplete (p : BitVec 6)
  /-- R436; the guest's coordinate and its image size in bytes. -/ | guestSizeReceive (guest : Half) (size : DWord)
  /-- R436. -/ | keeperReceive (item : KeeperItem)
  /-- R423. -/ | start (sess : Half) (seq : Word) (p : Byte)
  /-- R423. -/ | stop (sess : Half) (seq : Word) (p : Byte)
  /-- R423. -/ | retry (sess : Half) (seq : Word) (p : Byte)
  /-- R423. -/ | skip (sess : Half) (seq : Word) (p : Byte)
  /-- R423. -/ | resume (sess : Half) (seq : Word) (p : Byte)
  /-- R449. -/ | restore (sess : Half) (seq : Word) (p : Byte) (step arg : DWord)
  /-- R445. -/ | declareLost (sess : Half) (seq : Word) (p : Byte) (arg : DWord)
  /-- R449; t of R450, whether the image and state digests agreed, and what the keeper gave. -/ | restoreLoadComplete (p : BitVec 6) (lastStep : DWord) (digestsOk : Bool) (guest : Option GuestImage := none)
  /-- R433. -/ | forceSnapshot (p : BitVec 6)
  /-- R442. -/ | readyPacketReceive (p : BitVec 6) (group : Half) (step : DWord) (member : Half)
  /-- R442. -/ | stragglerWaitExpiry (p : BitVec 6) (group : Half) (member : Half)
  /-- R426. -/ | haltNoticeReceive (p : BitVec 6) (step : DWord) (mode : Byte) (cause : Byte)
  /-- R445. -/ | heartbeatTick (p : BitVec 6)
  /-- R445. -/ | partnerLossTimeout (p : BitVec 6)
  /-- R445. -/ | unpartneredLossTimeout (p : BitVec 6) (member : Half)
  /-- R445. -/ | lossNoticeReceive (p : BitVec 6) (lost : Half) (step : DWord) (mode : Byte)
  /-- R446. -/ | claimReceive (claim : Claim)
  /-- R446. -/ | claimAnswer (p : BitVec 6) (accepted : Bool)
  /-- R446. -/ | claimTimeout (p : BitVec 6)
  /-- R446. -/ | remapAcknowledged (p : BitVec 6)
  /-- R446; whether both state digests equal the partner's, and on the spare what the copy brought. -/ | fillCopyComplete (p : BitVec 6) (digestsEqual : Bool) (guest : Option GuestImage := none)
  /-- R446. -/ | fillRegenComplete (p : BitVec 6)
  /-- R448. -/ | fillQueueExpiry (p : BitVec 6)
  /-- R462. -/ | powerEstimateTick (e : PowerEstimate)
  /-- R458; the burst's peak input power in W. -/ | burstLimitExpiry (peakW : Half)
  /-- R463. -/ | powerMeasurementTick (m : PowerMeasure)
  /-- R464. -/ | powerDisagreeExpiry
  /-- R464. -/ | powerSensorFaultExpiry (sensor : Byte)
  /-- R464. -/ | clearSensorFault
  /-- R456; the mean input power of the last millisecond, in W. -/ | ceilingUpdate (meanW : Nat)
  /-- R459; the frequency the controller asks of the die, in MHz. -/ | fvLoopTick (die : BitVec 3) (mhz : Nat)
  /-- R478. -/ | thermalModelUpdate (spots : List SpotUpdate)
  /-- R479. -/ | thermalQuiesceExpiry (spot : Nat)
  /-- R479. -/ | floorDutyRelease (die : BitVec 3)
  /-- R477. -/ | diodePairSuspect (spot : Nat) (r0 r1 : Byte)
  /-- R477. -/ | hotspotSensorFault (spot : Nat) (model : Byte)
  /-- R477. -/ | diodePairClear (spot : Nat)
  /-- R481. -/ | coolantStale
  /-- R481. -/ | coolantDefault
  /-- R471; the slack measured, in thousandths of the clock period. -/ | marginCheck (die : BitVec 3) (slackPerMille : Nat)
  /-- R471. -/ | marginLower (die : BitVec 3)
  /-- R467. -/ | supplyWarnFall
  /-- R467. -/ | supplyWarnHeld
  /-- R467. -/ | supplyWarnRise
  /-- R467. -/ | supplyWarnRelease
  /-- R469. -/ | sluiceWaveOpen (die : BitVec 3) (wave : BitVec 3)
  /-- R470. -/ | droopStretch (die : BitVec 3)
  /-- R470. -/ | droopRecover (die : BitVec 3)
  /-- R483; FLOW_STOP_N fell, or a flow reading below 1.2 L/min arrived. -/ | flowStop (pin : Bool)
  /-- R483. -/ | quiesceComplete
  /-- R484. -/ | quiesceEnd
  /-- R484. -/ | ptResume
  /-- R475. -/ | tideReset
  /-- R480. -/ | thermTrip (comparator : Byte)
  /-- R506. -/ | claim (i3c : Bool) (device counter : DWord) (key sig : Bytes)
  /-- R506. -/ | setManifestKey (i3c : Bool) (device counter : DWord) (slot : Byte) (key sig : Bytes)
  /-- R509. -/ | revokeManifestKey (i3c : Bool) (device counter : DWord) (slot : Byte) (sig : Bytes)
  /-- R506. -/ | setHostKey (i3c : Bool) (device counter : DWord) (slot : Byte) (key sig : Bytes)
  /-- R510. -/ | revokeHostKey (i3c : Bool) (device counter : DWord) (slot : Byte) (sig : Bytes)
  /-- R511; the 164 bytes of Table 14.8. -/ | installSak (i3c : Bool) (device counter : DWord) (args sig : Bytes)
  /-- R506. -/ | removePeer (i3c : Bool) (device counter : DWord) (peer : Byte) (sig : Bytes)
  /-- R506. -/ | raiseMinSvn (i3c : Bool) (device counter : DWord) (svn : Half) (sig : Bytes)
  /-- R506. -/ | forceNetworkBoot (i3c : Bool) (device counter : DWord) (sig : Bytes)
  /-- R506. -/ | release (i3c : Bool) (device counter : DWord) (sig : Bytes)
  /-- R499; in UNOWNED it is accepted unsigned over I3C. -/ | decommission (i3c : Bool) (device counter : DWord) (sig : Bytes)
  /-- R506. -/ | clearMailbox
  /-- R518. -/ | issue (p : BitVec 6)
  /-- R23. -/ | linkDieLoss (ld : BitVec 2)
  /-- R28, R324; the package link, in the order of Table 1.4, the direction, and the lane: of a near-tier bond, its number
  within the stack, 128 to a pseudo-channel. -/
  | packageLaneFault (link : Nat) (upward : Bool) (lane : Nat := 0)
  /-- R555. -/ | alwaysOnRailFall
  /-- R415; the blocks of namespace 1 that the drive reports. -/ | driveReady (drive : BitVec 1) (blocks : Nat)
  /-- R539. -/ | serviceManagementClear
  /-- R22; the package die index. -/ | deviceLoss (die : BitVec 4)
  /-- R498. -/ | jtagInstruction (ins : JtagIns)
  deriving DecidableEq, Repr

end Sys2Proof
end

