-- ==== Sys2Proof/Decode.lean ====
section
/-!
DEFINITION. The command that a word spells. The opcode table gives no row bits: its commands are accesses, arrivals
and events, named and not encoded, so no word spells one.
-/

namespace Sys2Proof

/-- The command that the `nbits` low bits of `w` spell: none, for no row of the table has bits. -/
def decodeTableWord (_nbits _w : Nat) : Option Instr := none

end Sys2Proof
end

