-- ==== Sys2Proof/Machine/Layout.lean ====
section
/-!
DEFINITION. Byte orders, bit fields and the little arithmetic every block uses (R6, R7): little-endian numbers,
big-endian numbers, slices, saturating counters, write-one-to-clear.
-/

namespace Sys2Proof.Machine

/-- Bits `[hi:lo]` of `w`, as a number (R6). -/
def bits {n : Nat} (w : BitVec n) (hi lo : Nat) : Nat := (w.toNat >>> lo) % 2 ^ (hi + 1 - lo)

/-- Bit `i` of `w`. -/
def bit {n : Nat} (w : BitVec n) (i : Nat) : Bool := w.getLsbD i

/-- `w` with the field of `len` bits at `lo` set to `v`. -/
def setField {n : Nat} (w : BitVec n) (lo len v : Nat) : BitVec n :=
  BitVec.ofNat n (w.toNat - (((w.toNat >>> lo) % 2 ^ len) <<< lo) + ((v % 2 ^ len) <<< lo))

/-- `w` with bit `i` set. -/
def setBit {n : Nat} (w : BitVec n) (i : Nat) : BitVec n := w ||| (BitVec.ofNat n 1 <<< i)

/-- `w` with bit `i` cleared. -/
def clearBit {n : Nat} (w : BitVec n) (i : Nat) : BitVec n := w &&& ~~~(BitVec.ofNat n 1 <<< i)

/-- `w` with bit `i` set or cleared. -/
def putBit {n : Nat} (w : BitVec n) (i : Nat) (b : Bool) : BitVec n := if b then setBit w i else clearBit w i

/-- A Boolean as a bit at a place. -/
def flagAt (b : Bool) (i : Nat) : Nat := if b then 2 ^ i else 0

/-- A Boolean as 0 or 1. -/
def b2n (b : Bool) : Nat := if b then 1 else 0

/-- A counter that saturates at all ones. -/
def satAdd {n : Nat} (w : BitVec n) (k : Nat) : BitVec n :=
  if w.toNat + k < 2 ^ n then BitVec.ofNat n (w.toNat + k) else BitVec.allOnes n

/-- A write of a write-one-to-clear register (R12), `mask` its W1C bits. -/
def w1c (old written mask : Word) : Word := old &&& ~~~(written &&& mask)

/-- A little-endian byte string as a number (R7). -/
def leNat : Bytes → Nat
  | [] => 0
  | b :: bs => b.toNat + 256 * leNat bs

/-- A big-endian byte string as a number. -/
def beNat (b : Bytes) : Nat := b.foldl (fun acc x => acc * 256 + x.toNat) 0

/-- `v` in `n` bytes, little-endian. -/
def natLe : Nat → Nat → Bytes
  | 0, _ => []
  | n + 1, v => BitVec.ofNat 8 v :: natLe n (v / 256)

/-- `v` in `n` bytes, big-endian. -/
def natBe (n v : Nat) : Bytes := (natLe n v).reverse

/-- A word of `k` bytes, little-endian. -/
def wordLe {w : Nat} (k : Nat) (v : BitVec w) : Bytes := natLe k v.toNat

/-- `n` zero bytes. -/
def zeros (n : Nat) : Bytes := List.replicate n 0

/-- `len` bytes from `off`. -/
def slice (b : Bytes) (off len : Nat) : Bytes := (b.drop off).take len

/-- The little-endian number of `len` bytes at `off`. -/
def leAt (b : Bytes) (off len : Nat) : Nat := leNat (slice b off len)

/-- The big-endian number of `len` bytes at `off`. -/
def beAt (b : Bytes) (off len : Nat) : Nat := beNat (slice b off len)

/-- `b` cut or padded with zero bytes to `n`. -/
def padTo (n : Nat) (b : Bytes) : Bytes := b.take n ++ zeros (n - b.length)

/-- `b` with the bytes `v` put at `off`; bytes between the old end and `off` become zero. -/
def splice (b : Bytes) (off : Nat) (v : Bytes) : Bytes := padTo off b ++ v ++ b.drop (off + v.length)

/-- The 32-bit little-endian words of a byte string. -/
def wordsOf (n : Nat) (b : Bytes) : List Word :=
  (List.range n).map (fun i => BitVec.ofNat 32 (leAt b (4 * i) 4))

/-- Word `i` of a descriptor; 0 past its end. -/
def wordAt (ws : List Word) (i : Nat) : Word := ws.getD i 0

/-- Records of `size` bytes, as many as fit. -/
def chunks (size : Nat) (b : Bytes) : List Bytes :=
  (List.range (b.length / size)).map (fun i => slice b (i * size) size)

/-- The least `q` with `q * d ≥ n`. -/
def ceilDiv (n d : Nat) : Nat := (n + d - 1) / d

/-- Bits of a two's complement field as an integer. -/
def signed (len v : Nat) : Int := if v < 2 ^ (len - 1) then v else (v : Int) - (2 ^ len : Nat)

/-- An integer in `len` bits, two's complement. -/
def twos (len : Nat) (v : Int) : Nat := (v % ((2 ^ len : Nat) : Int)).toNat

/-- `v` lies in `lo .. hi`. -/
def within (lo hi v : Nat) : Bool := decide (lo ≤ v) && decide (v ≤ hi)

/-- The bits set in a number below `2 ^ n`, ascending. -/
def bitsSet (n v : Nat) : List Nat := (List.range n).filter (fun i => v.testBit i)

/-- The number of bits set. -/
def popCount (n v : Nat) : Nat := (bitsSet n v).length

/-- The first element's index that satisfies `p`. -/
def indexOf? {α : Type} (p : α → Bool) : List α → Option Nat
  | [] => none
  | a :: as => if p a then some 0 else (indexOf? p as).map (· + 1)

/-- A list with its element at `i` put through `f`. -/
def modifyAt {α : Type} : List α → Nat → (α → α) → List α
  | [], _, _ => []
  | a :: as, 0, f => f a :: as
  | a :: as, i + 1, f => a :: modifyAt as i f

/-- Puts an element before the first that it does not come after. -/
def insertBy {α : Type} (le : α → α → Bool) (x : α) : List α → List α
  | [] => [x]
  | y :: ys => if le x y then x :: y :: ys else y :: insertBy le x ys

/-- A list in the order of `le`, equal elements in their first order. -/
def sortBy {α : Type} (le : α → α → Bool) (xs : List α) : List α := xs.foldr (insertBy le) []

/-- Two half-open intervals share no point. -/
def apart (a la b lb : Nat) : Bool := decide (a + la ≤ b) || decide (b + lb ≤ a)

end Sys2Proof.Machine
end

