-- ==== Sys2Proof/Config.lean ====
section
/-!
DEFINITION. What one part fixes and the manual does not give, and the free values: opaque constants, so that no
proof can see what they are. Each names its assumption log entry.
-/

namespace Sys2Proof.Config

/-- A free value: whatever the hardware leaves where the manual gives no value, one for each number drawn
(log entry 9). -/
opaque freeNat : Nat → Nat

/-- A code or an identity that an event names and the manual does not number, by topic and item (log entry 10). -/
opaque openCode : Nat → Nat → Nat

/-- The MAC address of the part (log entry 2). -/
opaque macAddress : BitVec 48

/-- The stepping of HM_ID (log entry 2). -/
opaque stepping : BitVec 4

/-- The provisioned identity of the I3C target, its BCR, DCR and status words (R524; log entry 12). -/
opaque i3cPid : BitVec 48
opaque i3cBcr : Byte
opaque i3cDcr : Byte
opaque i3cStatus : Half

/-- The device secret of the part, and how a scalar is made of an HMAC over it (R495; log entry 2). -/
opaque deviceSecret : Bytes
opaque scalarOf : Bytes → Nat

/-- The identity private key of the part, its serial number, the public key of the device CA and that CA's signature of the
identity certificate (R492, R496; log entry 2). -/
opaque idScalar : Nat
opaque serial : Bytes
opaque caPublicKey : Bytes
opaque caSignature : Bytes

/-- The nonces of a signature, by private key and message, one for each attempt: ECDSA leaves them open (log entry 2). -/
opaque signNonce : Nat → Bytes → Nat → Nat

/-- The firmware public keys of key slots 0 and 1, as x then y (R500; log entry 2). -/
opaque firmwareKey : Nat → Bytes

/-- The factory voltage in mV of a voltage-frequency point of a die (R459; log entry 2). -/
opaque factoryMilliV : Nat → Nat → Nat

/-- How far apart on the 25 MHz grid the six voltage-frequency points of a die between the lowest and the top one are (R459;
log entry 2). -/
opaque pointGap : Nat → Nat → Nat

/-- Calibration of the power estimate (R462; log entry 109): the energy in pJ of one count of a kind of activity at a die's
voltage in mV, and of a kind at the spine; leakage in µW; the conversion efficiency in 1/1,000 at a load; the power in W that
the Gateway and the Harbourmaster are predicted to take (R466). -/
opaque energyCoef : Nat → Nat → Nat → Nat
opaque spineCoef : Nat → Nat
opaque leakage : Nat → Nat → Nat
opaque efficiency : Nat → Nat
opaque spinePower : Nat

/-- The hold-tier page at which a partition's version stash begins, and the near-tier or Yard address to which a
version's images are staged, by partition, block and tag: no field of a Manifest names them (log entry 14). -/
opaque stashPage : Nat → Nat
opaque stagingAddr : Nat → Nat → Nat → Nat

/-- The set of a Yard cache of a number of sets that a line of its stack goes to (R296; log entry 71). -/
opaque cacheSet : Nat → Nat → Nat

/-- Fields of a frame that the manual leaves to its sender, by topic and number of the frame (log entry 100). -/
opaque frameField : Nat → Nat → Nat

/-- The MAC address that reaches an IP address, and the addresses from which a host's requests come whose row names none, by
session (log entry 100). -/
opaque neighbourMac : Bytes → BitVec 48
opaque hostMac : Nat → BitVec 48
opaque hostIp : Nat → BitVec 32
opaque hostPort : Nat → BitVec 16

end Sys2Proof.Config
end

