-- ==== Sys2Proof/Machine/Crypto.lean ====
section
/-!
DEFINITION. The cryptography of 14: SHA-384, HMAC and HKDF over it, ECDSA and ECDH on P-384, and AES key unwrap
(RFC 3394), computed from their standards. Private keys are of one part and live in Config.
-/

namespace Sys2Proof.Machine

/-! ## SHA-384 (FIPS 180-4) -/

/-- The round constants, sixteen at a time. -/
def shaK0 : List Nat :=
  [0x428A2F98D728AE22, 0x7137449123EF65CD, 0xB5C0FBCFEC4D3B2F, 0xE9B5DBA58189DBBC,
   0x3956C25BF348B538, 0x59F111F1B605D019, 0x923F82A4AF194F9B, 0xAB1C5ED5DA6D8118,
   0xD807AA98A3030242, 0x12835B0145706FBE, 0x243185BE4EE4B28C, 0x550C7DC3D5FFB4E2,
   0x72BE5D74F27B896F, 0x80DEB1FE3B1696B1, 0x9BDC06A725C71235, 0xC19BF174CF692694]
def shaK1 : List Nat :=
  [0xE49B69C19EF14AD2, 0xEFBE4786384F25E3, 0x0FC19DC68B8CD5B5, 0x240CA1CC77AC9C65,
   0x2DE92C6F592B0275, 0x4A7484AA6EA6E483, 0x5CB0A9DCBD41FBD4, 0x76F988DA831153B5,
   0x983E5152EE66DFAB, 0xA831C66D2DB43210, 0xB00327C898FB213F, 0xBF597FC7BEEF0EE4,
   0xC6E00BF33DA88FC2, 0xD5A79147930AA725, 0x06CA6351E003826F, 0x142929670A0E6E70]
def shaK2 : List Nat :=
  [0x27B70A8546D22FFC, 0x2E1B21385C26C926, 0x4D2C6DFC5AC42AED, 0x53380D139D95B3DF,
   0x650A73548BAF63DE, 0x766A0ABB3C77B2A8, 0x81C2C92E47EDAEE6, 0x92722C851482353B,
   0xA2BFE8A14CF10364, 0xA81A664BBC423001, 0xC24B8B70D0F89791, 0xC76C51A30654BE30,
   0xD192E819D6EF5218, 0xD69906245565A910, 0xF40E35855771202A, 0x106AA07032BBD1B8]
def shaK3 : List Nat :=
  [0x19A4C116B8D2D0C8, 0x1E376C085141AB53, 0x2748774CDF8EEB99, 0x34B0BCB5E19B48A8,
   0x391C0CB3C5C95A63, 0x4ED8AA4AE3418ACB, 0x5B9CCA4F7763E373, 0x682E6FF3D6B2B8A3,
   0x748F82EE5DEFB2FC, 0x78A5636F43172F60, 0x84C87814A1F0AB72, 0x8CC702081A6439EC,
   0x90BEFFFA23631E28, 0xA4506CEBDE82BDE9, 0xBEF9A3F7B2C67915, 0xC67178F2E372532B]
def shaK4 : List Nat :=
  [0xCA273ECEEA26619C, 0xD186B8C721C0C207, 0xEADA7DD6CDE0EB1E, 0xF57D4F7FEE6ED178,
   0x06F067AA72176FBA, 0x0A637DC5A2C898A6, 0x113F9804BEF90DAE, 0x1B710B35131C471B,
   0x28DB77F523047D84, 0x32CAAB7B40C72493, 0x3C9EBE0A15C9BEBC, 0x431D67C49C100D4C,
   0x4CC5D4BECB3E42B6, 0x597F299CFC657E2A, 0x5FCB6FAB3AD6FAEC, 0x6C44198C4A475817]
/-- The 80 round constants. -/
def shaK : List Nat := shaK0 ++ shaK1 ++ shaK2 ++ shaK3 ++ shaK4

/-- The initial hash value of SHA-384. -/
def shaInit : List Nat :=
  [0xCBBB9D5DC1059ED8, 0x629A292A367CD507, 0x9159015A3070DD17, 0x152FECD8F70E5939,
   0x67332667FFC00B31, 0x8EB44A8768581511, 0xDB0C2E0D64F98FA7, 0x47B5481DBEFA4FA4]

/-- 2^64. -/
def m64 : Nat := 2 ^ 64

def rotr64 (x k : Nat) : Nat := (x >>> k) ||| ((x <<< (64 - k)) % m64)

/-- The eight working words. -/
structure ShaWords where
  a : Nat
  b : Nat
  c : Nat
  d : Nat
  e : Nat
  f : Nat
  g : Nat
  h : Nat

/-- One round with its constant and its message word. -/
def shaRound (s : ShaWords) (k w : Nat) : ShaWords :=
  let s1 := rotr64 s.e 14 ^^^ rotr64 s.e 18 ^^^ rotr64 s.e 41
  let ch := (s.e &&& s.f) ^^^ ((m64 - 1 - s.e) &&& s.g)
  let t1 := s.h + s1 + ch + k + w
  let s0 := rotr64 s.a 28 ^^^ rotr64 s.a 34 ^^^ rotr64 s.a 39
  let maj := (s.a &&& s.b) ^^^ (s.a &&& s.c) ^^^ (s.b &&& s.c)
  { a := (t1 + s0 + maj) % m64, b := s.a, c := s.b, d := s.c, e := (s.d + t1) % m64, f := s.e, g := s.f, h := s.g }

/-- The next message word from the last sixteen, oldest first. -/
def shaNext (w : List Nat) : Nat :=
  let w1 := w.getD 1 0
  let w14 := w.getD 14 0
  let s0 := rotr64 w1 1 ^^^ rotr64 w1 8 ^^^ (w1 >>> 7)
  let s1 := rotr64 w14 19 ^^^ rotr64 w14 61 ^^^ (w14 >>> 6)
  (w.getD 0 0 + s0 + w.getD 9 0 + s1) % m64

/-- The rounds, over the constants that are left and the window of the message schedule. -/
def shaRounds : List Nat → List Nat → ShaWords → ShaWords
  | [], _, s => s
  | k :: ks, w, s => shaRounds ks (w.drop 1 ++ [shaNext w]) (shaRound s k (w.getD 0 0))

/-- The compression of one 128-byte block. -/
def shaBlock (h : List Nat) (block : Bytes) : List Nat :=
  let w := (List.range 16).map (fun i => beAt block (8 * i) 8)
  let g := fun i => h.getD i 0
  let s := shaRounds shaK w { a := g 0, b := g 1, c := g 2, d := g 3, e := g 4, f := g 5, g := g 6, h := g 7 }
  [(g 0 + s.a) % m64, (g 1 + s.b) % m64, (g 2 + s.c) % m64, (g 3 + s.d) % m64, (g 4 + s.e) % m64,
   (g 5 + s.f) % m64, (g 6 + s.g) % m64, (g 7 + s.h) % m64]

/-- The blocks of a padded message, in order. -/
def shaBlocks : Nat → Bytes → List Nat → List Nat
  | 0, _, h => h
  | n + 1, b, h => shaBlocks n (b.drop 128) (shaBlock h (b.take 128))

/-- The SHA-384 digest, 48 bytes. -/
def sha384 (m : Bytes) : Bytes :=
  let padded := m ++ [0x80] ++ zeros ((128 - (m.length + 17) % 128) % 128) ++ natBe 16 (8 * m.length)
  ((shaBlocks (padded.length / 128) padded shaInit).take 6).flatMap (natBe 8)

/-- HMAC-SHA-384. -/
def hmac384 (key m : Bytes) : Bytes :=
  let k := padTo 128 (if 128 < key.length then sha384 key else key)
  sha384 (k.map (· ^^^ 0x5C#8) ++ sha384 (k.map (· ^^^ 0x36#8) ++ m))

/-- HKDF-SHA-384 for an output of at most 48 bytes. -/
def hkdf384 (salt secret info : Bytes) (len : Nat) : Bytes :=
  (hmac384 (hmac384 salt secret) (info ++ [1])).take len

/-! ## P-384 -/

def p384 : Nat := 2 ^ 384 - 2 ^ 128 - 2 ^ 96 + 2 ^ 32 - 1
def n384 : Nat := 0xFFFFFFFFFFFFFFFFFFFFFFFFFFFFFFFFFFFFFFFFFFFFFFFFC7634D81F4372DDF581A0DB248B0A77AECEC196ACCC52973
def b384 : Nat := 0xB3312FA7E23EE7E4988E056BE3F82D19181D9C6EFE8141120314088F5013875AC656398D8A2ED19D2A85C8EDD3EC2AEF

/-- A point in Jacobian coordinates; z = 0 is the point at infinity. -/
structure Point where
  x : Nat
  y : Nat
  z : Nat

def gen384 : Point :=
  { x := 0xAA87CA22BE8B05378EB1C71EF320AD746E1D3B628BA79B9859F741E082542A385502F25DBF55296C3A545E3872760AB7
    y := 0x3617DE4A96262C6F5D9E98BF9292DC29F8F41DBD289A147CE9DA3113B5F0B8C00A60B1CE1D7E819D7A431D7C90EA0E5F
    z := 1 }

/-- Powers modulo m, over the exponent's bits from bit `i` down. -/
def powModFrom (m b e : Nat) : Nat → Nat → Nat
  | 0, acc => acc
  | i + 1, acc =>
    let sq := acc * acc % m
    powModFrom m b e i (if e.testBit i then sq * b % m else sq)

/-- The inverse modulo a prime of at most 384 bits. -/
def invMod (m a : Nat) : Nat := powModFrom m (a % m) (m - 2) 384 1

def subMod (a b : Nat) : Nat := (a + p384 - b % p384) % p384

/-- Doubling on y² = x³ − 3x + b. -/
def Point.double (a : Point) : Point :=
  if a.z = 0 ∨ a.y = 0 then { x := 1, y := 1, z := 0 }
  else
    let zz := a.z * a.z % p384
    let m := 3 * (subMod a.x zz) * ((a.x + zz) % p384) % p384
    let yy := a.y * a.y % p384
    let s := 4 * a.x * yy % p384
    let x := subMod (m * m % p384) (2 * s)
    { x := x, y := subMod (m * subMod s x % p384) (8 * yy * yy % p384), z := 2 * a.y * a.z % p384 }

/-- Addition. -/
def Point.add (a b : Point) : Point :=
  if a.z = 0 then b
  else if b.z = 0 then a
  else
    let za := a.z * a.z % p384
    let zb := b.z * b.z % p384
    let u1 := a.x * zb % p384
    let u2 := b.x * za % p384
    let s1 := a.y * b.z % p384 * zb % p384
    let s2 := b.y * a.z % p384 * za % p384
    if u1 = u2 then (if s1 = s2 then a.double else { x := 1, y := 1, z := 0 })
    else
      let h := subMod u2 u1
      let r := subMod s2 s1
      let hh := h * h % p384
      let hhh := h * hh % p384
      let v := u1 * hh % p384
      let x := subMod (subMod (r * r % p384) hhh) (2 * v)
      { x := x, y := subMod (r * subMod v x % p384) (s1 * hhh % p384), z := h * a.z % p384 * b.z % p384 }

/-- A multiple, over the scalar's bits from bit `i` down. -/
def mulFrom (k : Nat) (g : Point) : Nat → Point → Point
  | 0, acc => acc
  | i + 1, acc => mulFrom k g i (if k.testBit i then acc.double.add g else acc.double)

def Point.mul (k : Nat) (g : Point) : Point := mulFrom k g 384 { x := 1, y := 1, z := 0 }

/-- The affine x coordinate; 0 for infinity. -/
def Point.affX (a : Point) : Nat :=
  let i := invMod p384 a.z
  a.x * (i * i % p384) % p384

def Point.affY (a : Point) : Nat :=
  let i := invMod p384 a.z
  a.y * (i * i % p384 * i % p384) % p384

/-- A public key, x then y, each 48 bytes big-endian (R492), when it is a point of the curve. -/
def keyPoint (key : Bytes) : Option Point :=
  let x := beAt key 0 48
  let y := beAt key 48 48
  if key.length = 96 ∧ x < p384 ∧ y < p384 ∧ y * y % p384 = (x * x * x + (p384 - 3) * x + b384) % p384 then
    some { x := x, y := y, z := 1 }
  else none

/-- ECDSA verification of a signature r then s (R492) over a message's SHA-384 digest. -/
def ecdsaVerify (key msg sig : Bytes) : Bool :=
  match keyPoint key with
  | none => false
  | some q =>
    let r := beAt sig 0 48
    let s := beAt sig 48 48
    if sig.length = 96 ∧ 0 < r ∧ r < n384 ∧ 0 < s ∧ s < n384 then
      let w := invMod n384 s
      let e := beNat (sha384 msg)
      let pt := (Point.mul (e * w % n384) gen384).add (Point.mul (r * w % n384) q)
      decide (pt.z ≠ 0) && decide (pt.affX % n384 = r)
    else false

/-- The public key of a private scalar. -/
def publicKey (d : Nat) : Bytes :=
  let a := Point.mul d gen384
  natBe 48 a.affX ++ natBe 48 a.affY

/-- r and s of a signature with a nonce (R492): over the message's SHA-384 digest, by a private key. -/
def signPair (d : Nat) (msg : Bytes) (k : Nat) : Nat × Nat :=
  let r := (Point.mul k gen384).affX % n384
  (r, invMod n384 k * (beNat (sha384 msg) + r * d) % n384)

/-- A signature, r then s, each 48 bytes big-endian (R492): the first attempt whose r and s are not 0. -/
def ecdsaSign (d : Nat) (msg : Bytes) : Bytes :=
  let attempt := fun (i : Nat) => signPair d msg (1 + Config.signNonce d msg i % (n384 - 1))
  let x := ((List.range 8).findSome? (fun i =>
    let x := attempt i
    if x.1 ≠ 0 ∧ x.2 ≠ 0 then some x else none)).getD (attempt 8)
  natBe 48 x.1 ++ natBe 48 x.2

/-- The identity certificate of a key (Table 14.2), as the device CA signed it at the factory. -/
def identityCert (key : Bytes) : Bytes :=
  natLe 4 0x54434443 ++ [1, 1] ++ zeros 2 ++ (sha384 Config.caPublicKey).take 8 ++ padTo 96 key ++ zeros 96
    ++ padTo 16 Config.serial ++ zeros 32 ++ zeros 16 ++ padTo 96 Config.caSignature

/-- The ECDH shared secret: the x coordinate, 48 bytes. -/
def ecdh (d : Nat) (key : Bytes) : Option Bytes :=
  (keyPoint key).map (fun q => natBe 48 (Point.mul d q).affX)

/-! ## AES-256 and key unwrap (FIPS 197, RFC 3394) -/

/-- Multiplication by x in GF(2^8). -/
def gfDouble (a : Nat) : Nat := if a < 128 then 2 * a else (2 * a) % 256 ^^^ 0x1B

/-- The S-box, Figure 7 of FIPS 197: sixteen rows by the high four bits, the column of the low four bits in byte `low`. -/
def aesSbox : List Nat :=
  [0x76ABD7FE2B670130C56F6BF27B777C63, 0xC072A49CAFA2D4ADF04759FA7DC982CA,
   0x1531D871F1E5A534CCF73F362693FDB7, 0x75B227EBE28012079A059618C323C704,
   0x842FE329B3D63B52A05A6E1B1A2C8309, 0xCF584C4A39BECB6A5BB1FC20ED00D153,
   0xA89F3C507F02F94585334D43FBAAEFD0, 0xD2F3FF1021DAB6BCF5389D928F40A351,
   0x73195D643D7EA7C41744975FEC130CCD, 0xDB0B5EDE14B8EE4688902A22DC4F8160,
   0x79E4959162ACD3C25C2406490A3A32E0, 0x08AE7A65EAF4566CA94ED58D6D37C8E7,
   0x8A8BBD4B1F74DDE8C6B4A61C2E2578BA, 0x9E1DC186B95735610EF6034866B53E70,
   0xDF2855CEE9871E9B948ED9691198F8E1, 0x16BB54B00F2D99416842E6BF0D89A18C]

/-- The inverse S-box, Figure 14 of FIPS 197, in the same form. -/
def aesInvSbox : List Nat :=
  [0xFBD7F3819EA340BF38A53630D56A0952, 0xCBE9DEC444438E3487FF2F9B8239E37C,
   0x4EC3FA420B954CEE3D23C2A632947B54, 0x25D18B6D49A25B76B224D92866A12E08,
   0x92B6655DCC5CA4D41698688664F6F872, 0x849D8DA75746155EDAB9EDFD5048706C,
   0x0645B3B80558E4F70AD3BC8C00ABD890, 0x6B8A130103BDAFC1020F3FCA8F1E2CD0,
   0x73E6B4F0CECFF297EADC674F4111913A, 0x6EDF751CE837F9E28535ADE72274AC96,
   0x1BBE18AA0E62B76F89C5291D711AF147, 0xF45ACD78FEC0DB9A2079D2C64B3E56FC,
   0x5FEC8027591012B131C7078833A8DD1F, 0xEF9CC9939F7AE52D0D4AB519A97F5160,
   0x619953833CBBEBC8B0F52AAE4D3BE0A0, 0x7D0C2155631469E126D677BA7E042B17]

def aesTable (t : List Nat) (a : Nat) : Nat := (t.getD (a / 16) 0 >>> (8 * (a % 16))) % 256

def aesSub (a : Nat) : Nat := aesTable aesSbox a
def aesUnsub (a : Nat) : Nat := aesTable aesInvSbox a

/-- The key schedule of AES-256: four-byte words, newest first, extended to 60. -/
def aesExpand : Nat → Nat → Nat → List (List Nat) → List (List Nat)
  | 0, _, _, ws => ws
  | n + 1, i, rc, ws =>
    let prev := ws.headD []
    let t :=
      if i % 8 = 0 then
        let r := ((prev.drop 1) ++ prev.take 1).map aesSub
        (r.headD 0 ^^^ rc) :: r.drop 1
      else if i % 8 = 4 then prev.map aesSub
      else prev
    let w := List.zipWith (· ^^^ ·) (ws.getD 7 []) t
    aesExpand n (i + 1) (if i % 8 = 0 then gfDouble rc else rc) (w :: ws)

def aesRoundKeys (key : Bytes) : List (List Nat) :=
  let w := (List.range 8).map (fun i => (slice key (4 * i) 4).map BitVec.toNat)
  let all := (aesExpand 52 8 1 w.reverse).reverse
  (List.range 15).map (fun r => ((all.drop (4 * r)).take 4).flatten)

/-- Inverse row shift: byte (row, col) comes from column col − row. -/
def aesUnshift (s : List Nat) : List Nat :=
  (List.range 16).map (fun i => s.getD ((i % 4) + 4 * ((i / 4 + 4 - i % 4) % 4)) 0)

def aesUnmix (s : List Nat) : List Nat :=
  (List.range 16).map (fun i =>
    let c := i / 4 * 4
    let g := fun k => s.getD (c + (i % 4 + k) % 4) 0
    let x2 := gfDouble (g 0 ^^^ g 1 ^^^ g 2 ^^^ g 3)
    -- 14 a + 11 b + 13 c + 9 d = 8 (a + b + c + d) + 4 (a + c) + 2 (a + b) + b + c + d
    gfDouble (gfDouble (x2 ^^^ g 0 ^^^ g 2) ^^^ g 0 ^^^ g 1) ^^^ g 1 ^^^ g 2 ^^^ g 3)

/-- The inverse cipher, over the round keys from the last to the first. -/
def aesDecryptFrom : List (List Nat) → List Nat → List Nat
  | [], s => s
  | [k], s => List.zipWith (· ^^^ ·) ((aesUnshift s).map aesUnsub) k
  | k :: ks, s => aesDecryptFrom ks (aesUnmix (List.zipWith (· ^^^ ·) ((aesUnshift s).map aesUnsub) k))

def aesDecrypt (key : Bytes) (block : List Nat) : List Nat :=
  match (aesRoundKeys key).reverse with
  | [] => block
  | k :: ks => aesDecryptFrom ks (List.zipWith (· ^^^ ·) block k)

/-- The steps of RFC 3394 unwrap, from step `t` down, over A and the registers. -/
def unwrapFrom (key : Bytes) (n : Nat) : Nat → List Nat × List (List Nat) → List Nat × List (List Nat)
  | 0, st => st
  | t + 1, (a, rs) =>
    let i := t % n
    let at_ := (natBe 8 (t + 1)).map BitVec.toNat
    let d := aesDecrypt key (List.zipWith (· ^^^ ·) a at_ ++ rs.getD i [])
    unwrapFrom key n t (d.take 8, rs.set i (d.drop 8))

/-- AES key unwrap of a 40-byte wrapped key; none when the integrity check fails. -/
def aesUnwrap (kek wrapped : Bytes) : Option Bytes :=
  let b := wrapped.map BitVec.toNat
  let rs := (List.range 4).map (fun i => (b.drop (8 * (i + 1))).take 8)
  let (a, rs) := unwrapFrom kek 4 24 (b.take 8, rs)
  if a = List.replicate 8 0xA6 ∧ wrapped.length = 40 then some (rs.flatten.map (BitVec.ofNat 8)) else none

end Sys2Proof.Machine
end

