-- ==== Sys2Proof/Machine/Sparse.lean ====
section
/-!
DEFINITION. Sparse maps over natural keys, in one canonical form: keys strictly rising, and no entry equal to the
value an unlisted key has. Equal maps are then equal lists. Memories, register windows and per-unit records use it.
-/

namespace Sys2Proof.Machine

/-- A map from natural keys, listing only keys whose value is not the default. -/
abbrev Sparse (β : Type) := List (Nat × β)

/-- The value at `k`; `d k` is what an unlisted key holds. -/
def Sparse.get {β : Type} (d : Nat → β) : Sparse β → Nat → β
  | [], k => d k
  | (j, v) :: m, k => if j = k then v else Sparse.get d m k

/-- Puts `v` at `k` in a list sorted by key, whatever `v` is. -/
def Sparse.insert {β : Type} : Sparse β → Nat → β → Sparse β
  | [], k, v => [(k, v)]
  | (j, w) :: m, k, v =>
    if k < j then (k, v) :: (j, w) :: m
    else if j = k then (k, v) :: m
    else (j, w) :: Sparse.insert m k v

/-- Takes every entry of `k` away. -/
def Sparse.erase {β : Type} (m : Sparse β) (k : Nat) : Sparse β := m.filter (fun e => !decide (e.1 = k))

/-- Sets the value at `k`, keeping the canonical form: the default value is not listed. -/
def Sparse.set {β : Type} [DecidableEq β] (d : Nat → β) (m : Sparse β) (k : Nat) (v : β) : Sparse β :=
  if v = d k then m.erase k else m.insert k v

/-- Applies `f` to the value at `k`. -/
def Sparse.modify {β : Type} [DecidableEq β] (d : Nat → β) (m : Sparse β) (k : Nat) (f : β → β) : Sparse β :=
  m.set d k (f (m.get d k))

/-- Every key of the list is above `lo`. -/
def Sparse.above {β : Type} (lo : Nat) (m : Sparse β) : Bool := m.all (fun e => lo < e.1)

/-- Keys strictly rising. -/
def Sparse.sorted {β : Type} : Sparse β → Bool
  | [] => true
  | (k, _) :: m => Sparse.above k m && Sparse.sorted m

/-- The canonical form: keys strictly rising, no entry equal to the default of its key. -/
def Sparse.wf {β : Type} [DecidableEq β] (d : Nat → β) (m : Sparse β) : Bool :=
  m.sorted && m.all (fun e => !decide (e.2 = d e.1))

end Sys2Proof.Machine
end

