-- ==== Sys2Proof/Machine/Types.lean ====
section
/-!
DEFINITION. The records of the Manifest and of the queues, as plain data: what the sections of a Manifest say once
they are read (02, 08, 09, 10, 11, 12), and the records the units keep. Fields hold numbers; the byte layouts are
read and written in Machine/Layout.lean and Machine/Manifest.lean.
-/

namespace Sys2Proof.Machine

/-- A region entry (Table 8.3); `base` and `size` in 4 KiB units. -/
structure Region where
  kind         : Nat
  read         : Bool
  write        : Bool
  add          : Bool
  lightersOnly : Bool
  noCache      : Bool
  unit         : Nat
  base         : Nat
  size         : Nat
  deriving DecidableEq, Repr

/-- A numeric policy record (Table 2.6). -/
structure Policy where
  gradWire        : Nat
  stochRound      : Nat
  memsideFloat    : Nat
  nonfiniteAction : Nat
  spikeAction     : Nat
  spikeRatio      : Nat
  spikeWindow     : Nat
  deriving DecidableEq, Repr

/-- The CONTROL record of a step program (Table 12.2). -/
structure Control where
  runSeed       : DWord
  firstStep     : DWord
  stashCapacity : Nat
  stashWaitMs   : Nat
  tokensPerStep : Nat
  microBatches  : Nat
  imageRegion   : Nat
  stagingFirst  : Nat
  stagingCount  : Nat
  lateRegion    : Nat
  deriving DecidableEq, Repr

/-- The data order record (R399). -/
structure DataOrder where
  mode       : Nat
  fetchAhead : Nat
  samples    : Nat
  positions  : Nat
  timeoutMs  : Nat
  deriving DecidableEq, Repr

/-- A data source record (Table 11.3). -/
structure DataSource where
  first       : Nat
  count       : Nat
  remoteAddr  : Nat
  rkey        : Nat
  recordBytes : Nat
  qp          : Nat
  altQp       : Nat
  deriving DecidableEq, Repr

/-- A scope record (Table 12.4). -/
structure Scope where
  id         : Nat
  tensor     : Nat
  microBatch : Nat
  elemFirst  : Nat
  elemCount  : Nat
  deriving DecidableEq, Repr

/-- A weight block record (Table 12.4). -/
structure WeightBlock where
  block   : Nat
  region  : Nat
  readers : Nat
  lastTag : Nat
  base    : Nat
  size    : Nat
  deriving DecidableEq, Repr

/-- A tie record (Table 12.4). -/
structure Tie where
  block : Nat
  uses  : Nat
  deriving DecidableEq, Repr

/-- A BODY instruction (Table 12.3). -/
structure BodyIns where
  op    : Nat
  flags : Nat
  a     : Nat
  b     : Nat
  c     : Nat
  deriving DecidableEq, Repr

/-- A CONTEXTS record (Table 12.4, R119). -/
structure CtxRec where
  die      : Nat
  cluster  : Nat
  ctx      : Nat
  slot     : Nat
  priority : Nat
  base     : Nat
  size     : Nat
  deriving DecidableEq, Repr

/-- A MIRROR record (R437). -/
structure Mirror where
  partner      : Nat
  partnerFeed  : Nat
  shardRegion  : Nat
  mirrorRegion : Nat
  shardBytes   : Nat
  deriving DecidableEq, Repr

/-- A recovery policy record (Table 12.12). -/
structure Recovery where
  snapshotEvery : Nat
  cofeedEvery   : Nat
  stragglerUs   : Nat
  lateAction    : Nat
  rewindLimit   : Nat
  keeper        : Nat
  lossMs        : Nat
  fillQueueMs   : Nat
  deriving DecidableEq, Repr

/-- A remap record (R376). -/
structure Remap where
  logical  : Nat
  physical : Nat
  deriving DecidableEq, Repr

/-- A route record (R376). -/
structure RouteRec where
  dest   : Nat
  mask   : Nat
  port   : Nat
  escape : Bool
  deriving DecidableEq, Repr

/-- A reduction group record (Table 10.9). -/
structure Group where
  id         : Nat
  op         : Nat
  perDevice  : Nat
  base       : Nat
  dimMask    : Nat
  shardElems : Nat
  deriving DecidableEq, Repr

/-- A port record (Table 10.1). -/
structure PortRec where
  port      : Nat
  owner     : Nat
  width     : Nat
  firstLink : Nat
  dimension : Nat
  role      : Nat
  peerCoord : Nat
  peerJob   : Nat
  deriving DecidableEq, Repr

/-- A TRAFFIC_CLASSES record (R379). -/
structure TrafficRec where
  port         : Nat
  c0Limit      : Nat
  c1Share      : Nat
  c2Share      : Nat
  transitShare : Nat
  transitCtl   : Nat
  deriving DecidableEq, Repr

/-- A DISCOVERY_POLICY record (R372). -/
structure Discovery where
  missingDefault : Nat
  waitMs         : Nat
  deadlineMs     : Nat
  deriving DecidableEq, Repr

/-- A SPARE_POOLS record (R446). -/
structure PoolRec where
  spare : Nat
  feed  : Nat
  part  : Nat
  deriving DecidableEq, Repr

/-- A resource claim record (Table 2.5). -/
structure ClaimRec where
  kind    : Nat
  index   : Nat
  owner   : Nat
  feature : Nat
  bufOff  : Nat
  bufSize : Nat
  deriving DecidableEq, Repr

/-- A berth range record (Table 9.5); `config` holds words W0 to W7. -/
structure BerthRange where
  first  : Nat
  count  : Nat
  stride : Nat
  config : List Word
  deriving DecidableEq, Repr

/-- A COMMIT_PLAN record (R70). -/
structure PlanRec where
  part     : Nat
  earliest : Nat
  deriving DecidableEq, Repr

/-- A partition record (Table 2.4); `masks` holds the eight 256-bit cluster masks as numbers. -/
structure PartRec where
  id        : Nat
  timeSlice : Bool
  quantumUs : Nat
  masks     : List Nat
  deriving DecidableEq, Repr

/-- A step program as its subsections give it (Table 12.1). -/
structure StepProgram where
  control  : Control
  regions  : List Region
  order    : DataOrder
  sources  : List DataSource
  scopes   : List Scope
  blocks   : List WeightBlock
  ties     : List Tie
  body     : List BodyIns
  images   : Bytes
  contexts : List CtxRec
  deriving DecidableEq, Repr

/-- The sections of one partition. -/
structure PartCfg where
  part       : PartRec
  share      : Nat
  berths     : List BerthRange
  remaps     : List Remap
  routes     : List RouteRec
  groups     : List Group
  policy     : Policy
  program    : StepProgram
  mirror     : Option Mirror
  recovery   : Recovery
  hasRecovery : Bool
  deriving DecidableEq, Repr

/-- The device-wide sections. -/
structure DevCfg where
  yard      : List Nat
  ports     : List PortRec
  traffic   : List TrafficRec
  pools     : List PoolRec
  claims    : List ClaimRec
  discovery : Discovery
  deriving DecidableEq, Repr

/-- The header fields of a Manifest (Table 2.1). -/
structure MfHeader where
  magic         : Nat
  version       : Nat
  flags         : Nat
  totalLength   : Nat
  sectionCount  : Nat
  signerSlot    : Nat
  reserved      : Bool
  manifestId    : DWord
  baseId        : DWord
  jobId         : DWord
  deviceCoord   : Nat
  partCount     : Nat
  deriving DecidableEq, Repr

/-- An event record (Table 15.7). -/
structure EventRec where
  code    : Half
  die     : BitVec 4
  flags   : Byte
  payload : Bytes
  seq     : DWord
  time    : DWord
  step    : DWord
  /-- Raised in the event berth by the write of an event record: never goes to the event berth (R538). -/
  noBerth : Bool
  deriving DecidableEq, Repr

/-- A message that its producer holds until slots or credits free (R329, R338). -/
structure Waiting where
  msg  : BerthMsg
  /-- Bytes of the message that are enqueued. -/
  done : Nat
  deriving DecidableEq, Repr

/-- A record of the event log with its read mark (R538). -/
structure LogRec where
  ev   : EventRec
  read : Bool
  deriving DecidableEq, Repr

/-- Where frames of a host come from and go to: the MAC address, the IPv4 or IPv6 address, and the UDP port. -/
structure NetAddr where
  mac  : Bytes
  ip   : Bytes
  port : Nat
  deriving DecidableEq, Repr

/-- A request of the command transport or of the register protocol (R405, R410). -/
structure CctReq where
  mrp     : Bool
  opcode  : Byte
  sess    : Half
  seq     : Word
  payload : Bytes
  /-- Where the frame came from; none where the row names none (log entry 100). -/
  via     : Option NetAddr := none
  deriving DecidableEq, Repr

/-- What waits for the end of a management restart (R522): a register access or a request of a host session. -/
inductive Deferred where
  | cmd (c : Instr) | request (r : CctReq)
  deriving DecidableEq, Repr

/-- A response (R405). -/
structure CctResp where
  mrp     : Bool
  opcode  : Byte
  sess    : Half
  seq     : Word
  status  : Byte
  payload : Bytes
  deriving DecidableEq, Repr

/-- A class-0 or class-2 message that this device sends to members of a job: who gets it is the job of the
partition, or one logical coordinate. -/
inductive Notice where
  | halt (step : DWord) (mode cause : Byte)
  | loss (lost : Half) (step : DWord) (mode : Byte)
  | ready (group : Half) (step : DWord)
  | excusal (group : Half) (step : DWord) (member : Half) (action : Byte)
  | excusalReport (group : Half) (step : DWord) (member : Half) (phase : Byte)
  | heartbeat
  | claim (spare : Half) (lostLogical lostPhysical : Half)
  | claimAnswer (claimant : Half) (accepted : Bool)
  | remap (lost : Half) (spare : Half)
  /-- The remap entry is rewritten (R446). -/
  | remapAck (lost : Half) (spare : Half)
  | digest (step : DWord) (digest : Bytes)
  | pairing (partner : Half) (feed : Half)
  | manifestStore (id : DWord)
  | imageSize (size : DWord)
  | keeperEntry (bytes : Bytes)
  | keeperSnapshot (step : DWord)
  | keeperRefusal (guest : Half)
  | lossTotal (step : DWord) (total : BitVec 128)
  | partialPeak (step : DWord) (scope : Word) (peak : Byte) (invalid : Bool)
  | verdict (step : DWord) (nonfinite spike : Bool)
  | tide (give critical pool : Nat)
  | reducedShard (group : Half) (step : DWord) (shard : Half) (result : Bytes)
  /-- What the engines send in the phases of a reduction (R384): the scales of an own contribution to the group; toward a
  member, a contribution in the first exchange, and a partial in P48 with its members and flag bytes in a later one. -/
  | reductionScale (group : Half) (step : DWord) (shard : Half) (idx : BitVec 3) (scales : Bytes)
  | contribution (group : Half) (step : DWord) (shard : Half) (toward : Half) (idx : BitVec 3) (scales elems : Bytes)
  | partialSum (group : Half) (step : DWord) (shard : Half) (toward : Half) (members : List Half)
      (sums : List (BitVec 48)) (flags : Bytes)
  /-- An operand of operations 3 to 6, carried whole in the group's tree (R383). -/
  | class0 (group : Half) (step : DWord) (shard : Half) (value : Bytes)
  | fillCopy (spare : Half)
  | join (lost spare : Half)
  deriving DecidableEq, Repr

/-- A notice with the partition that sends it. -/
structure Sent where
  part   : BitVec 6
  notice : Notice
  deriving DecidableEq, Repr

/-- A weight version that its readers keep (Table 7.3). -/
structure StashEntry where
  block      : Word
  tag        : Byte
  staged     : Bool
  lost       : Bool
  readers    : Half
  stepOrigin : DWord
  size       : Word
  addr       : DWord
  deriving DecidableEq, Repr

/-- The current version of a weight block (R264, R266). -/
structure Version where
  block      : Word
  tag        : Byte
  readers    : Half
  stepOrigin : DWord
  copying    : Bool
  /-- The step of origin of the version that this one took the place of. -/
  prevOrigin : DWord
  deriving DecidableEq, Repr

/-- Where a live version of a weight block has its images: the memory, the first byte and the bytes, in the layout that was
in force when it was written (R274), and the place where a stashed one stands staged (R270). -/
structure VersionPlace where
  block  : Word
  tag    : Byte
  kind   : Nat
  addr   : Nat
  size   : Nat
  staged : Option (Nat × Nat)
  deriving DecidableEq, Repr

/-- The readers of a weight block that a micro-batch's forward pass bound (R266): the version's tag, how many, and the
tile_tag of the last one, as the program of its step of origin declares them (R274). -/
structure Bound where
  block   : Word
  step    : DWord
  mb      : Half
  tag     : Byte
  readers : Half
  lastTag : Half
  deriving DecidableEq, Repr

/-- An apply pass that waits under R268. -/
structure StashWait where
  block : Word
  space : Bool
  since : DWord
  deriving DecidableEq, Repr

/-- A peak record as the step sequencer keeps it (Table 4.6, R148), with the scope's lowest logical cluster that scaled
blocks of it here: its die, logical and physical number (R147). -/
structure PeakRec where
  step    : DWord
  scope   : Word
  peak    : Byte
  invalid : Bool
  fmt     : BitVec 3
  cluster : Option (Nat × Nat × Nat)
  deriving DecidableEq, Repr

/-- The update bound of a layer in a step (R187): of the job, by the MAX32 group that combined it, or of this device alone,
by the tile_tag of its bound pass (log entry 77); with the update exponent. -/
structure LayerBound where
  job      : Bool
  layer    : Nat
  bound    : Word
  exponent : Half
  deriving DecidableEq, Repr

end Sys2Proof.Machine
end

