-- ==== Sys2Proof/Machine/State.lean ====
section
/-!
DEFINITION. The state of the block: everything the manual gives the device, as plain data, block by block in the
manual's order; the reasons a step can stop; and the state right after reset. Registers that only show another
piece of state (a count of open sessions, the sum of a berth group) are computed when they are read
(Machine/Registers.lean) and have no field of their own.
-/

namespace Sys2Proof.Machine

/-- The reasons a step can fault. No meaning of this model answers with one: the manual gives every command an
effect, and the device reports its own faults as state. -/
inductive Fault where
  /-- Raised by nobody; kept so that the host's interface has a closed type. Safe: it is never answered. -/
  | unused
  deriving DecidableEq, Repr

/-- The reasons a step can be refused. -/
inductive Refusal where
  /-- Answered by `exec` alone, for a command that has no meaning yet. Safe: nothing is claimed of it. -/
  | notModelled (mnemonic : String)
  deriving DecidableEq, Repr

/-! ## Electrical state and boot (16, 14) -/

/-- The always-on logic, the input stage, the reference clocks and the input pins (R545 to R556). -/
structure Supply where
  alwaysOn      : Bool
  armed         : Bool
  stageClosed   : Bool
  bulkCharged   : Bool
  powerGood     : Bool
  resetN        : Bool
  tripLatched   : Bool
  sysLost       : Bool
  ethLost       : Bool
  pcieLost      : Bool
  /-- REFCLK_SYS was lost: reset is held until RESET_N is pulsed low with the clock present (R553). -/
  clkHold       : Bool
  warnLow       : Bool
  flowLow       : Bool
  sideIn        : BitVec 8
  snapPerst     : Bool
  deriving DecidableEq, Repr

/-- The boot ROM's place in Table 14.5 and R504. -/
inductive BootPhase where
  /-- Held in reset (R546). -/ | held
  /-- The boot ROM runs on the ring oscillator, MGMT_CLK not yet locked (step 1). -/ | ring
  /-- The boot ROM runs on MGMT_CLK and verifies the flash image (steps 2 to 7). -/ | rom
  /-- Network recovery: an attempt runs (R504). -/ | recovery
  /-- Network recovery: an attempt was abandoned (R504). -/ | abandoned
  /-- Firmware runs (step 8). -/ | firmware
  /-- Boot halted: a known-answer test failed (step 3), or the part is RETIRED (R499). -/ | stopped
  deriving DecidableEq, Repr

/-- Boot state (R500 to R505). -/
structure Boot where
  phase        : BootPhase
  retransmits  : Nat
  attempts     : Nat
  idLocked     : Bool
  fwDigest     : Bytes
  fwSvn        : Half
  fwVerified   : Bool
  recoveryBoot : Bool
  flashRewritten : Bool
  aliasCert    : Bytes
  /-- The alias private keys of this boot: the signing and the agreement key (R495). -/
  aliasSign    : Nat
  aliasAgree   : Nat
  deriving DecidableEq, Repr

/-! ## Security (14) -/

/-- The lifecycle states of Table 14.3. -/
inductive Lifecycle where
  | factory | unowned | owned | retired
  deriving DecidableEq, Repr

/-- A key slot: empty, provisioned with a public key, or revoked (R506, R509, R510). -/
inductive KeySlot where
  | empty | provisioned (key : Bytes) | revoked
  deriving DecidableEq, Repr

/-- A MACsec key of a peer (R511, R512). -/
structure Sak where
  an   : BitVec 2
  xpn  : Bool
  sak  : Bytes
  ssci : Word
  salt : Bytes
  pn   : DWord
  deriving DecidableEq, Repr

/-- A MACsec peer. -/
structure Peer where
  mac      : Bytes
  secured  : Bool
  keys     : List Sak
  txAn     : Option (BitVec 2)
  dropSeen : Bool
  deriving DecidableEq, Repr

/-- A peer with no key. -/
def Peer.none : Peer := { mac := [], secured := false, keys := [], txAn := .none, dropSeen := false }

/-- The SEC_ block and the protected storage that bears on it. -/
structure Sec where
  lifecycle    : Lifecycle
  ownerKey     : Option Bytes
  ownerCounter : DWord
  minSvn       : Half
  manifestKeys : List KeySlot
  hostKeys     : List KeySlot
  hostCounters : List (Option DWord)
  key0Revoked  : Bool
  forceNetwork : Bool
  /-- The identity key and the keys derived from the device secret are still held (R499). -/
  idKeyHeld    : Bool
  /-- The identity certificate failed authentication, and reads as absent (R493). -/
  certAbsent   : Bool
  /-- The identity public key (R496), and the firmware public keys of key slots 0 and 1 (R500), as x then y. -/
  idPublicKey  : Bytes
  fwKeys       : List Bytes
  busy         : Bool
  error        : Word
  cmdResult    : Word
  authFails    : Word
  mailbox      : Sparse Word
  peers        : Sparse Peer
  deriving DecidableEq, Repr

/-! ## Power and thermal (13) -/

/-- The limits of Table 13.1 in force, in W; none where a limit is not in force. -/
structure Limits where
  envelope : Nat
  headroom : Option Nat
  supply   : Option Nat
  coolant  : Option Nat
  thermal  : Option Nat
  tide     : Option Nat
  deriving DecidableEq, Repr

/-- A compute die's power state (Tables 13.2, 13.12): what each source cuts from the full duty, in 1/256 (R460), clock,
voltage points and counters. -/
structure PtDie where
  mhz        : Nat
  milliV     : Nat
  cutPin     : Nat
  cutFlow    : Nat
  cutLadder  : Nat
  cutQuiesce : Nat
  cutFast    : Nat
  stretched  : Bool
  fmax       : Nat
  estimateW  : Nat
  railW      : Nat
  stretch    : Word
  droop      : Word
  trimMv     : List Nat
  /-- The points as the user calibration layer holds them (R471). -/
  trimSaved  : List Nat
  trimSteps  : Nat
  roAge      : Half
  /-- The die's memory request rate in percent (R461). -/
  memRate    : Nat
  /-- Waves of the release in progress that have opened; 8 when none is in progress (R469). -/
  waves      : Nat
  deriving DecidableEq, Repr

/-- A hot spot (R476 to R479). -/
structure Spot where
  /-- The last readings of its two diodes. -/
  r0         : Nat
  r1         : Nat
  estimate   : Nat
  prediction : Nat
  suspect    : Bool
  fault      : Bool
  atLimit    : Bool
  /-- Local time of the last event 0x2007 of this spot (Table 13.6). -/
  limited    : Option DWord
  deriving DecidableEq, Repr

/-- A phase-profile entry (R465): learned power of the three classes, and observations. -/
structure Profile where
  compute : Nat
  memory  : Nat
  links   : Nat
  seen    : Nat
  deriving DecidableEq, Repr

/-- A tray reading (R481): inlet, outlet, flow. -/
structure Tray where
  inlet  : Nat
  outlet : Nat
  flow   : Nat
  deriving DecidableEq, Repr

/-- The flow-stop sequence of Table 13.7. -/
inductive FlowRow where
  | idle | running | quiesced
  deriving DecidableEq, Repr

/-- The PT_ block. -/
structure Pt where
  error      : Word
  envelope   : Word
  headroom   : Word
  limits     : Limits
  ceiling    : Nat
  peaks      : List Nat
  measuredW  : Nat
  /-- The last estimate, and those of the last millisecond, oldest first (R463). -/
  estimatedW : Nat
  estimates  : List Nat
  milliV     : Nat
  deciA      : Nat
  warn       : Word
  config     : Word
  burst      : Bool
  /-- Local time at which the last burst started (R458). -/
  burstSince : Option DWord
  disagree   : Bool
  sensorFault : Bool
  /-- Measurements in agreement, one after another (R464). -/
  agreeing   : Nat
  flowRow    : FlowRow
  /-- Local time t0 of the last flow stop (Table 13.7). -/
  flowSince  : Option DWord
  /-- The conditions of R484 hold and a RESUME is awaited. -/
  resumeReady : Bool
  /-- SUPPLY_WARN_N rose and the gate is held for 100 µs more (Table 13.4). -/
  warnHold   : Bool
  warnSince  : DWord
  deriving DecidableEq, Repr

/-- The estimates since the last measurement, in µW summed over the ticks: the whole, and what each partition and each intake
berth had of it (R488). -/
structure Interval where
  total  : Nat
  parts  : Sparse Nat
  berths : Sparse Nat
  deriving DecidableEq, Repr

/-- Tide (R473 to R475), coolant (R481, R482), energy (R486 to R488) and the counters of Table 13.11. -/
structure PtAux where
  tideCfg     : Word
  tidePool    : Word
  tideParam   : Word
  tideAlloc   : Nat
  tideReserve : Nat
  tideOn      : Bool
  /-- This member's part of the tide exchange: critical (R474). -/
  tideCritical : Bool
  /-- A management restart suspended tide until the next slack water of its partition (R522). -/
  tideHeld    : Bool
  /-- Local time of the last event 0x2009. -/
  coolEvent   : Option DWord
  /-- The coolant limit that the last reading gives, toward which limit 3 falls (R482). -/
  coolTarget  : Option Nat
  tray        : List Tray
  trayStale   : Bool
  trayDefault : Bool
  /-- Local time of the last tray reading (R528). -/
  trayTime    : DWord
  interval    : Interval
  energy      : DWord
  shared      : DWord
  berthSel    : Word
  berthEnergy : Sparse DWord
  bursts      : Word
  disagrees   : Word
  warnCount   : Word
  warnTime    : Word
  quiesceUs   : Word
  droopCfg    : Word
  spots       : Sparse Spot
  profiles    : Sparse Profile
  /-- The first entry of the profile and the number of entries that the last full commit assigned to a partition (R465). -/
  profileAt   : Sparse (Nat × Nat)
  kraekRate   : Sparse Nat
  /-- The request rate of a hold device's link in percent, by its hot spot (R479). -/
  holdRate    : Sparse Nat
  deriving DecidableEq, Repr

/-! ## Harbourmaster (15) -/

/-- A Harbourmaster timer (Table 15.11). -/
structure Timer where
  cfg    : Word
  period : Word
  target : Word
  count  : Word
  deriving DecidableEq, Repr

/-- The event path (R40, R537, R538). -/
structure Events where
  seq      : DWord
  /-- Raised by a die and not yet accepted, oldest first. -/
  ring     : List EventRec
  /-- Held over a boot or a management restart, oldest first (R503, R522). -/
  held     : List EventRec
  log      : List LogRec
  mask     : Word
  pending  : Word
  berth    : Word
  sel      : Word
  lost     : Word
  lostSeen : Bool
  deriving DecidableEq, Repr

/-- The I3C target (R524, R525): its dynamic address, whether interrupts are enabled, what the last read returned, and
whether the last transfer was acknowledged. -/
structure I3c where
  dynamic : Option (BitVec 7)
  ibi     : Bool
  reply   : Bytes
  acked   : Bool
  /-- In-band interrupts sent, oldest first, and the local time of the last (R538). -/
  ibis    : List Bytes
  lastIbi : Option DWord
  deriving DecidableEq, Repr

/-- The HM_ block. -/
structure Hm where
  error        : Word
  ready        : Word
  readyFail    : Word
  resetCause   : Word
  service      : Word
  reported     : Word
  time         : DWord
  timeHi       : Word
  aon          : BitVec 48
  aonFrac      : Nat
  aonHi        : Word
  boardCoord   : Word
  feed         : Word
  linkMedium   : Word
  straps       : Word
  recoveryServer : Word
  trayTemp     : Word
  trayTempSet  : Bool
  trayFlow     : Word
  deriving DecidableEq, Repr

/-- Service, features and restart state of the Harbourmaster (R521 to R523, R532 to R536). -/
structure HmAux where
  sideCfg      : Sparse Word
  timers       : Sparse Timer
  conflict     : Word
  faultTransient : Word
  faultCfg     : Word
  /-- Local times of the transient faults of each resource within 24 hours (R534). -/
  faultCounts  : List (Nat × List DWord)
  /-- The factory layer failed authentication (R493, R533). -/
  factoryAbsent : Bool
  userLayer    : Bool
  restorePending : Bool
  calWrites    : Nat
  /-- User calibration items written, with the local time of each item's last write (R532). -/
  calItems     : List (Nat × DWord)
  watchdog     : Word
  memCe        : Word
  restarting   : Bool
  escalated    : Bool
  lastRestart  : Option DWord
  restartTimes : List DWord
  /-- Yard buffers whose feature runs: die, feature, owner, offset, size (R536). -/
  yardBufs     : List ClaimRec
  /-- Pulses sent on output pins since reset (R535). -/
  pulses       : Sparse Nat
  jtag         : JtagIns
  deriving DecidableEq, Repr

/-! ## Manifest (02) -/

/-- The load states of Table 2.7. -/
inductive LoadState where
  | empty | receiving | verifying | checking | loaded | committed | rejected
  deriving DecidableEq, Repr

/-- The amendment states of Table 2.11. -/
inductive AmendState where
  | none | receiving | checking | staged | committing | rejected | retiring
  deriving DecidableEq, Repr

/-- The phase of a changed route (R77): nothing to switch, added, switched, retired. -/
inductive RoutePhase where
  | none | added | switched | retired
  deriving DecidableEq, Repr

/-- The MF_ block and the Manifest store. -/
structure Mf where
  activeBytes   : Bytes
  incoming      : Bytes
  shadow        : Bytes
  active        : Bool
  loadState     : LoadState
  amendState    : AmendState
  /-- The incoming slot holds an amendment that AMEND took (R60). -/
  slotHeld      : Bool
  owner         : Option (BitVec 6)
  activeId      : DWord
  reproducible  : Bool
  partCount     : Nat
  jobId         : DWord
  reject        : Word
  rejectDetail  : Word
  warn          : Word
  shadowId      : DWord
  pend          : DWord
  done          : DWord
  tag           : Byte
  prevTag       : Byte
  prevLive      : Bool
  deriving DecidableEq, Repr

/-- Commit progress and the counters of Table 2.10. -/
structure MfAux where
  locked        : Bool
  tagFallback   : Word
  commitTime    : Word
  loadCount     : Word
  amendCount    : Word
  digest        : Bytes
  shadowDigest  : Bytes
  plan          : List PlanRec
  phases        : Sparse RoutePhase
  dev           : DevCfg
  deriving DecidableEq, Repr

/-! ## Clusters (03, 06) -/

/-- Physical cluster states (Table 3.9). -/
inductive ClusterState where
  | active | spare | filling | retired | testing
  deriving DecidableEq, Repr

/-- A long accumulator (R153): the 128-bit L and its two sticky flags. -/
structure Acc where
  l       : BitVec 128
  inexact : Bool
  invalid : Bool
  deriving DecidableEq, Repr

/-- A value: NaN, an infinity, or (−1)^neg × mag × 2^exp; zero keeps its sign. -/
inductive Val where
  | nan
  | inf (neg : Bool)
  | fin (neg : Bool) (mag : Nat) (exp : Int)
  deriving DecidableEq, Repr

/-- The IEEE 754 flags, in the order of Table 6.5. -/
structure FpFlags where
  invalid   : Bool
  divZero   : Bool
  overflow  : Bool
  underflow : Bool
  inexact   : Bool
  deriving DecidableEq, Repr

/-- A reduction in progress: the largest magnitude, the long value, and the two flags. -/
structure Red where
  max     : Val
  acc     : Acc
  invalid : Bool
  inexact : Bool
  deriving DecidableEq, Repr

/-- How far a vector descriptor has run (R241): the lane rows done, and what they left for the status record. -/
structure VecPart where
  done   : Nat
  elems  : Nat
  bad    : Nat
  flags  : FpFlags
  red    : Red
  /-- The largest scale but 0xFF of a QUANT, and whether some block has scale 0xFF. -/
  peak   : Nat
  sawBad : Bool
  deriving DecidableEq, Repr

/-- A vector descriptor that has not begun. -/
def VecPart.zero : VecPart :=
  { done := 0, elems := 0, bad := 0,
    flags := { invalid := false, divZero := false, overflow := false, underflow := false, inexact := false },
    red := { max := .fin false 0 0, acc := { l := 0, inexact := false, invalid := false }, invalid := false,
             inexact := false },
    peak := 0, sawBad := false }

/-- Where a window entry stands. -/
inductive EntryPhase where
  /-- Admitted; fetches, anchor or hazards may be open. -/ | waiting
  /-- Rows issue or drain. -/ | running
  /-- Every row is written; the last output copy is not yet acknowledged (R109). -/ | copying
  deriving DecidableEq, Repr

/-- An entry of the pilot window: a tile or a vector descriptor (R105, R211), the berth and sequence number of its
item, its step, and what it still waits for. -/
structure Entry where
  words     : List Word
  vector    : Bool
  berth     : Nat
  itemSeq   : DWord
  step      : DWord
  phase     : EntryPhase
  pReady    : Bool
  qReady    : Bool
  anchor    : Option Int
  nextRow   : Nat
  inexact   : Bool
  invalid   : Bool
  /-- Events 0xB001 and 0xB002 were raised for this tile (R155, R156). -/
  sawAbove  : Bool
  sawInvalid : Bool
  /-- Rows with a residue error that has not passed yet, and those of them that issue again, with their accumulators and
  what 0xB001 and 0xB002 would report (R115); the tile had an uncorrectable operand error. -/
  retried    : List Nat
  again      : List (Nat × List Acc × Bool × Bool)
  ueRetried  : Bool
  /-- A vector descriptor's position and partial results (R241). -/
  vec        : VecPart
  deriving DecidableEq, Repr

/-- A row in the pipeline: the context slot, the item of its tile, the row, its accumulators (R111). -/
structure RowInFlight where
  slot : BitVec 1
  item : DWord
  row  : Nat
  accs : List Acc
  deriving DecidableEq, Repr

/-- A carry the context recorded (R103). -/
structure CarryRec where
  oAddr  : Nat
  nCols  : Nat
  anchor : Int
  deriving DecidableEq, Repr

/-- A context of a cluster (R118, R119). -/
structure Ctx where
  part     : BitVec 6
  id       : Nat
  slot     : BitVec 1
  priority : BitVec 2
  base     : Nat
  size     : Nat
  resident : Bool
  halted   : Bool
  /-- Entries at the front of the window that a halted context still completes (R104, R237). -/
  runsOn   : Nat
  since    : DWord
  /-- The context has held its slot for quantum_us (R121). -/
  due      : Bool
  window   : List Entry
  carries  : List CarryRec
  deriving DecidableEq, Repr

/-- A swap in progress (R121 to R123): the slot, the outgoing and the incoming context. -/
structure Swap where
  slot     : BitVec 1
  outgoing : Nat
  incoming : Nat
  deriving DecidableEq, Repr

/-- The counters of Table 3.12. -/
structure ClCounters where
  cycles        : DWord
  issueF4       : DWord
  issue8b       : DWord
  issueB16      : DWord
  stallOperand  : Word
  stallAnchor   : Word
  stallDrain    : Word
  stallHazard   : Word
  stallGate     : Word
  stallContext  : Word
  tilesDone     : Word
  storeCe       : Word
  faultTransient : Word
  swaps         : Word
  rowRetries    : Word
  deriving DecidableEq, Repr

/-- A physical cluster. -/
structure Cluster where
  logical   : Option (BitVec 8)
  state     : ClusterState
  error     : Word
  errorInfo : Word
  selftest  : Word
  testing   : Bool
  /-- While the slipway tests a spare: the cluster it is to replace (R129). -/
  replaces  : Option (BitVec 8)
  ctxs      : List Ctx
  swap      : Option Swap
  /-- Rows in the pipeline, oldest first (Table 3.7). -/
  flight    : List RowInFlight
  lastArray : BitVec 1
  lastVector : BitVec 1
  counters  : ClCounters
  store     : List Host.Cell
  deriving DecidableEq, Repr

/-! ## Memory (08) -/

/-- A lighter (R301, R304, R308). -/
structure Lighter where
  halted  : Bool
  /-- Descriptors taken from the intake and not completed: their words, berth, item sequence number and step. -/
  queue   : List (List Word × Nat × DWord × DWord)
  deriving DecidableEq, Repr

/-- A compute die's memory registers (Table 8.15). -/
structure MemDie where
  scratch      : Nat
  bands        : BitVec 12
  dramTemp     : Word
  refreshBusy  : Word
  refreshFrac  : Nat
  nearCe       : Word
  nearUe       : Word
  nearTransient : Word
  holdCe       : Word
  holdUe       : Word
  holdRetry    : Word
  yardCe       : Word
  yardUe       : Word
  deriving DecidableEq, Repr

/-- A line of a Yard cache (R296): the number of its 128 bytes within the stack, its way, and whether it is dirty. What the
line holds is what the near tier shows (R297), so `Mem.near` has it. -/
structure CacheLine where
  line  : Nat
  set   : Nat
  way   : Nat
  dirty : Bool
  deriving DecidableEq, Repr

/-- A compute die's Yard cache (R296) with its counters (Table 8.15): the lines it holds, and the pseudo-LRU tree of each
set. -/
structure YardCache where
  lines      : List CacheLine
  plru       : Sparse Nat
  hits       : Word
  misses     : Word
  writebacks : Word
  deriving DecidableEq, Repr

/-- A compute die's spares, adders and lighters (Table 8.15). -/
structure MemDieAux where
  poolFree     : List Nat
  rowsRepaired : Nat
  banksRepaired : Nat
  addSectors   : Word
  addInexact   : Word
  addInvalid   : Word
  lighters     : Sparse Lighter
  lighterError : Word
  lighterErrorInfo : Word
  deriving DecidableEq, Repr

/-- State of a spare hold device in Table 8.11. -/
inductive HoldSpare where
  | idle
  | testing (device : BitVec 4) (readable : Bool)
  | filling (device : BitVec 4) (readable : Bool)
  | serving (device : BitVec 4)
  | retired
  deriving DecidableEq, Repr

/-- A repaired row (R321): stack, pseudo-channel, row, and the pool row that serves it. -/
structure RowRemap where
  stack : Nat
  pc    : Nat
  row   : Nat
  pool  : Nat
  deriving DecidableEq, Repr

/-- The memories and their global registers. Bytes are keyed by the addresses of Table 8.2; poison lists the first
byte of each poisoned codeword. -/
structure Mem where
  near       : List Host.Cell
  yard       : List Host.Cell
  hold       : List Host.Cell
  nearPoison : List Nat
  yardPoison : List Nat
  holdPoison : List Nat
  h16        : HoldSpare
  h17        : HoldSpare
  holdRetired : BitVec 16
  remaps     : List RowRemap
  /-- Rows locked for repair (R322): stack, pseudo-channel, row. -/
  locked     : List (Nat × Nat × Nat)
  /-- Banks repaired whole, and banks whose copy runs (R323): stack, pseudo-channel, bank. -/
  banks      : List (Nat × Nat × Nat)
  bankJobs   : List (Nat × Nat × Nat)
  /-- How long each copy has run, in ticks of 10 ns: which row is in copy, and locked (R323). -/
  bankTicks  : List ((Nat × Nat × Nat) × Nat)
  /-- Lasting row faults of the last second (R323): stack, pseudo-channel, row, local time. -/
  rowFaults  : List (Nat × Nat × Nat × DWord)
  unserviceable : List (Nat × Nat × Nat)
  lastUnserviceable : BitVec 39
  /-- Failed near-tier bonds (R324): stack, pseudo-channel, bond. -/
  bonds      : List (Nat × Nat × Nat)
  /-- Logical hold devices with a lasting fault and no spare left (R326). -/
  holdLost   : BitVec 16
  caches     : Sparse YardCache
  scrubRunning : Bool
  scrubPasses : BitVec 31
  regionFaults : Word
  addRefused : Word
  holdTransient : Word
  deriving DecidableEq, Repr

/-! ## Berths (09) -/

/-- A berth's configuration, words W0 to W6 (Table 9.7). -/
structure BerthCfg where
  kind      : Word
  ringLo    : Word
  ringHi    : Word
  level     : Word
  links     : Word
  creditCfg : Word
  consumer  : Word
  deriving DecidableEq, Repr

/-- An unused berth's configuration. -/
def BerthCfg.zero : BerthCfg :=
  { kind := 0, ringLo := 0, ringHi := 0, level := 0, links := 0, creditCfg := 0, consumer := 0 }

/-- A berth. `oldItems` counts the items enqueued under the old descriptor and not yet consumed (R76). -/
structure Berth where
  cfg        : BerthCfg
  old        : Option BerthCfg
  oldItems   : Nat
  oldHead    : Nat
  tag        : Byte
  oldTag     : Byte
  occupancy  : Nat
  head       : Nat
  tail       : Nat
  credits    : Nat
  freed      : Nat
  armed      : Bool
  /-- Messages whose producers stall, oldest first (Table 9.1). -/
  waiting    : List Waiting
  openMarker : Bool
  status     : Word
  drops      : Word
  enqueued   : Word
  seq        : DWord
  deriving DecidableEq, Repr

/-- A berth before any commit. -/
def Berth.zero : Berth :=
  { cfg := BerthCfg.zero, old := none, oldItems := 0, oldHead := 0, tag := 0, oldTag := 0, occupancy := 0, head := 0,
    tail := 0, credits := 0, freed := 0, armed := false, waiting := [], openMarker := false, status := 0,
    drops := 0, enqueued := 0, seq := 0 }

/-! ## Kraek fabric (10) -/

/-- Link states (Table 10.4). -/
inductive LinkState where
  | dark | detect | equalise | lock | rtt | ident | check | active | fault
  deriving DecidableEq, Repr

/-- A flit that its sender keeps (R363). -/
structure Flit where
  seq     : DWord
  vc      : BitVec 3
  payload : Bytes
  deriving DecidableEq, Repr

/-- A Kraek link (Tables 10.4, 10.11, 10.13). -/
structure Link where
  state      : LinkState
  failures   : Nat
  /-- Lanes out of service in each direction, by physical number; 4 is the spare (R358, R359). -/
  badTx      : List (BitVec 3)
  badRx      : List (BitVec 3)
  rttOver    : Bool
  sameFeed   : Bool
  medium     : BitVec 2
  error      : Word
  rtt        : Word
  peerCoord  : Word
  peerId     : DWord
  peerJob    : DWord
  laneMap    : BitVec 24
  /-- A retrain runs (R371): the link was ACTIVE. -/
  retraining : Bool
  /-- The sequence number of the next flit, the flits kept until they are acknowledged, oldest first, and by virtual
  channel the flits sent whose room has not come back (R363, R379). -/
  txSeq      : DWord
  kept       : List Flit
  inFlight   : Sparse Nat
  /-- Kept flits that are sent again before any other, oldest first (R363). -/
  resend     : List Flit
  /-- The identity record last sent (Table 10.5). -/
  identSent  : Bytes
  deriving DecidableEq, Repr

/-- A link's counters (Table 10.11). -/
structure LinkCounters where
  fecCorrected : Word
  crcErrors    : Word
  replays      : Word
  faultTransient : Word
  retrains     : Word
  txFlits      : DWord
  rxFlits      : DWord
  creditStall  : Word
  class0Over   : Word
  class0Max    : Word
  /-- Replays of the flit that the receiver waits for (R363). -/
  replayRun    : Nat
  deriving DecidableEq, Repr

/-- Discovery states (Table 10.15). -/
inductive DiscState where
  | idle | running | complete | waiting | degraded | halted
  deriving DecidableEq, Repr

/-- A route entry in the tables (R374): its partition, its tag, and the record. -/
structure RouteEntry where
  part : BitVec 6
  tag  : Byte
  route : RouteRec
  deriving DecidableEq, Repr

/-- Where a weighted round robin stands (R380): the class whose turn it is, and the flits left in the turn. -/
structure Turn where
  cls  : Nat
  left : Nat
  deriving DecidableEq, Repr

/-- The egress of a port (R380): the bytes it may still send, what its shapers have let out ahead of their rates, the
turn of the weighted classes, the packets begun with their flits sent, and the link that takes the next flit; the bytes
that its way from the other link dies may still carry, and that way's turn. -/
structure PortEgress where
  budget      : Nat
  ownDebt     : Nat
  transitDebt : Nat
  /-- What own traffic of classes 1 and 2 has sent ahead of the Kraek rate (R461). -/
  bulkDebt    : Nat
  turn        : Turn
  begun       : List (Packet × Nat)
  next        : Nat
  relayBudget : Nat
  relayTurn   : Turn
  deriving DecidableEq, Repr

/-- The fabric registers of Table 10.12 and the traffic the device holds. -/
structure Kx where
  disc        : DiscState
  byDefault   : Bool
  missing     : BitVec 16
  extra       : BitVec 16
  waitLeft    : Word
  missingDims : List Nat
  redInvalid  : Word
  redInexact  : Word
  redExcused  : Word
  transitFlits : DWord
  noRoute     : Word
  routes      : List RouteEntry
  /-- Packets waiting at an egress port, those on their way to one of another link die, and those that have left,
  oldest first (R380). -/
  egress      : List (BitVec 4 × Packet)
  relay       : List (BitVec 4 × Packet)
  wire        : List (BitVec 4 × Packet)
  /-- The egress of each port. -/
  ports       : Sparse PortEgress
  /-- Packets delivered to this device for a unit other than a berth, oldest first. -/
  delivered   : List Packet
  class0Seen  : Option DWord
  deriving DecidableEq, Repr

/-- The phase of a reduction at an engine (R384). -/
inductive RedPhase where
  | scale | add | done
  deriving DecidableEq, Repr

/-- A reduction in an engine (R384 to R387). -/
structure Reduction where
  key      : RedKey
  /-- The tide exchange over the group, apart from the group's own operation (R474). -/
  tide     : Bool
  phase    : RedPhase
  /-- Scales present, by member and contribution index; of operations 3 to 6 the operands. -/
  scales   : List (Half × BitVec 3 × Bytes)
  /-- Contributions added, by member and contribution index. -/
  added    : List (Half × BitVec 3)
  excused  : List (Half × Byte)
  sb       : Bytes
  blockInvalid : List Bool
  blockInexact : List Bool
  sums     : List (BitVec 48)
  /-- What the sums are made of: the contributions and the partials added (R387). -/
  terms    : List RedTerm
  /-- Class-0 operands combined so far; those of SUM128 also as exact sums, none where an operand is invalid (R383). -/
  class0   : Bytes
  wide     : List (Option Int)
  /-- The rounded shard: its scales, then its elements (R386). -/
  result   : Bytes
  deriving DecidableEq, Repr

/-! ## Gateway (11) -/

/-- A session of the command transport (R406, R407). -/
structure Session where
  isOpen    : Bool
  slot      : Byte
  nextSeq   : Word
  held      : List CctReq
  responses : List CctResp
  deriving DecidableEq, Repr

/-- A closed session. -/
def Session.closed : Session := { isOpen := false, slot := 0, nextSeq := 0, held := [], responses := [] }

/-- Queue-pair states (R398). -/
inductive QpState where
  | idle | ready | error
  deriving DecidableEq, Repr

/-- A requester queue pair. -/
structure Qp where
  state     : QpState
  mtu       : Byte
  remoteQpn : Word
  startPsn  : Word
  gid       : BitVec 128
  /-- This end's number, and the packet sequence number of its next request. -/
  localQpn  : Nat
  nextPsn   : Nat
  deriving DecidableEq, Repr

/-- A queue pair not connected. -/
def Qp.none : Qp := { state := .idle, mtu := 0, remoteQpn := 0, startPsn := 0, gid := 0, localQpn := 0, nextPsn := 0 }

/-- An outstanding RDMA READ (R401, R402): which piece of whose sample it reads, whether it runs on the alternate QP, its
packet sequence number, and the bytes that have come back. -/
structure FetchRead where
  part   : BitVec 6
  step   : DWord
  mb     : Nat
  sample : Nat
  qp     : Nat
  retried : Bool
  piece  : Nat := 0
  psn    : Nat := 0
  got    : Bytes := []
  deriving DecidableEq, Repr

/-- What a command of an I/O queue does (Table 11.7); `fua` is Force Unit Access. -/
inductive NvmeOp where
  | read | write (fua : Bool)
  deriving DecidableEq, Repr

/-- An NVMe command outstanding on a drive (R414, R415): its queue pair, and the blocks of 4 KiB from `lba` on. -/
structure NvmeCmd where
  cid     : Nat
  queue   : Nat
  op      : NvmeOp
  lba     : Nat
  blocks  : Nat
  part    : BitVec 6
  retried : Bool
  deriving DecidableEq, Repr

/-- Commands of the admin queue (Table 11.7): the queues' numbers, and the command that is aborted. -/
inductive NvmeAdmin where
  | identify | createCq (n : Nat) | createSq (n : Nat) | abort (cid : Nat)
  deriving DecidableEq, Repr

/-- The label of a drive (R431): the layout, whose areas follow one another, the job, and the complete snapshots by partition,
slot and step. -/
structure DriveLabel where
  jobId       : DWord
  /-- Working drives that the layout was made for, S, and G. -/
  drives      : Nat
  slotBlocks  : Nat
  guestBlocks : Nat
  snaps       : List (BitVec 6 × Bool × DWord)
  deriving DecidableEq, Repr

/-- Where a drive stands (R415). -/
inductive DriveState where
  | absent | ready | resetting | failed
  deriving DecidableEq, Repr

/-- A drive and what was written to it (R414, R431). -/
structure Drive where
  state    : DriveState
  /-- Blocks of 4,096 bytes of namespace 1, as the drive identifies itself (R413). -/
  blocks   : Nat
  /-- Commands outstanding, in the order of submission: those of queue 0 ahead of the others (R414). -/
  cmds     : List NvmeCmd
  /-- I/O queue pairs created, and the commands of the admin queue since the controller became ready, oldest first. -/
  queues   : Nat
  admin    : List NvmeAdmin
  label    : Option DriveLabel
  deriving DecidableEq, Repr

/-- A priority of the Ethernet port (R394): bytes held, XOFF sent, paused by the peer, event 0x5003 raised. -/
structure Prio where
  held   : Nat
  xoff   : Bool
  paused : Bool
  stuck  : Bool
  deriving DecidableEq, Repr

/-- The GW_ block. -/
structure Gw where
  ethUp     : Bool
  anDone    : Bool
  pcieUp    : Bool
  pcieRate  : BitVec 2
  pcieWidth : BitVec 4
  /-- The strap as it stood when the snapshot port trained (R412, R527). -/
  bifurcated : Bool
  error     : Word
  prioCfg   : Word
  /-- The configuration each priority's frames are queued under (R418). -/
  prioInForce : Word
  etsLo     : Word
  etsHi     : Word
  etsLoApplied : Word
  etsHiApplied : Word
  ipv4      : Word
  ipv6      : Sparse Word
  passCfg   : Word
  passDrops : Word
  sessions  : Sparse Session
  qps       : Sparse Qp
  reads     : List FetchRead
  prios     : Sparse Prio
  drive0    : Drive
  drive1    : Drive
  nextCid   : Nat
  deriving DecidableEq, Repr

/-- The counters of Table 11.8 and the frames and responses sent. -/
structure GwAux where
  fetchBytes  : DWord
  fetchRetries : Word
  rxFrames    : DWord
  txFrames    : DWord
  fcsErrors   : Word
  fecUncorrected : Word
  pfcRxPause  : Word
  cnpRx       : Word
  macsecDrops : Word
  nvmeWritten : DWord
  nvmeRetries : Word
  faultTransient : Word
  /-- Frames sent and not yet taken by the wire's peer, with their priority, oldest first. -/
  tx          : List (BitVec 3 × Bytes)
  /-- Frames that wait to be sent, those of paused priorities (R394), oldest first, and the number of frames formed. -/
  txHeld      : List (BitVec 3 × Bytes)
  frames      : Nat
  /-- Responses sent, oldest first. -/
  sent        : List CctResp
  /-- Data of the last register read by a command (R12, R14). -/
  lastRead    : Word
  deriving DecidableEq, Repr

/-! ## Partitions: step loop, logbook, recovery (12) -/

/-- Partition states (R424). -/
inductive PState where
  | idle | running | halted | rewinding | fillWait | restoring | replaying | standby
  deriving DecidableEq, Repr

/-- Where the step stands. -/
inductive StepPhase where
  /-- No step runs. -/ | none
  /-- BODY runs. -/ | body
  /-- END was reached; write-backs may be outstanding. -/ | ended
  /-- Slack water is open, at an action of Table 12.8 (1 to 6). -/ | slack (action : Nat)
  deriving DecidableEq, Repr

/-- A loop of BODY (Table 12.3). -/
structure LoopFrame where
  start : Nat
  index : Nat
  count : Nat
  deriving DecidableEq, Repr

/-- A descriptor posted and not completed: berth and item sequence number, and whether it is a write-back (R422). -/
structure Posted where
  berth     : Nat
  itemSeq   : DWord
  writeBack : Bool
  image     : Nat
  step      : DWord
  mb        : Nat
  /-- Stashed versions that it reads staged: block and tag (R270). -/
  reads     : List (Word × Byte)
  deriving DecidableEq, Repr

/-- A micro-batch being fetched (R402): the region its records land in, the reads not yet issued, by sample and piece, and
samples still to land. -/
structure MbFetch where
  step   : DWord
  mb     : Nat
  region : Nat
  queue  : List (Nat × Nat)
  left   : List Nat
  deriving DecidableEq, Repr

/-- The verdict of a step (R195, R196). -/
inductive Action where
  | none | report | skip | halt
  deriving DecidableEq, Repr

/-- The step sequencer's state for a partition. -/
structure Sequencer where
  pc          : Nat
  loops       : List LoopFrame
  phase       : StepPhase
  /-- Completion notices received and not waited for: berth and tag. -/
  notices     : List (Nat × Nat)
  posted      : List Posted
  /-- Image indices of the step's write-back descriptors that completed (R443). -/
  writtenBack : List Nat
  fetches     : List MbFetch
  waitsData   : Option Nat
  /-- Micro-batches whose readers are bound (R266). -/
  boundMbs    : List Nat
  verdictSent : Bool
  verdict     : Option Action
  jobNonfinite : Bool
  jobSpike    : Bool
  spikeNotRun : Bool
  pendingHalt : Option (Byte × Byte)
  rewindsInStep : Nat
  /-- Partial peaks of scopes not complete on this device, with the elements scaled (R147). -/
  partials    : List (PeakRec × Nat)
  /-- Peak records posted to the sequencer and not yet taken, and those taken (R148). -/
  arrived     : List PeakRec
  peaks       : List PeakRec
  /-- Peak records of working copies made for later steps, each until replaced (R178). -/
  standing    : List PeakRec
  /-- Ready packets received as coordinator: step, group and member. -/
  ready       : List (DWord × Half × Half)
  ownReady    : List Half
  /-- Excusals: group, member, action. -/
  excused     : List (Half × Half × Byte)
  /-- Excusals by late fold of this step and the one before: step of origin, group, member (R442). -/
  lateFolds   : List (DWord × Half × Half)
  reduced     : List Half
  /-- Groups whose ready packet went out, with its local time, and the slack of R474 summed, in µs. -/
  readyAt     : List (Half × DWord)
  slackUs     : Nat
  /-- The BODY instruction that runs, as the power controller was told (R465). -/
  reported    : Option Nat
  /-- Update bounds of the step's layers (R187). -/
  bounds      : List LayerBound
  /-- The late contribution was added into this step's sum images (R442). -/
  lateAdded   : Bool
  /-- Apply passes put off under R268, as parts of BODY, and where the part ends that is made up for now. -/
  putOff      : List (Nat × Nat)
  partEnd     : Option Nat
  deriving DecidableEq, Repr

/-- The lading state and SEC_P_ registers of a partition (R513 to R518). -/
structure Lading where
  cfg      : Word
  kept     : Bool
  overflow : Bool
  last     : Word
  first    : DWord
  atFill   : Bool
  ranges   : List LadingRange
  recovery : List (DWord × Byte × Bytes)
  counts   : List Nat
  states   : List Nat
  firstMismatch : Option DWord
  entries  : Nat
  /-- The devices that served the coordinate before this one, and the first step of this one (Table 14.9). -/
  served   : List LadingIdent
  since    : DWord
  /-- The state digest of the shard at the last step (Table 14.9). -/
  shard    : Bytes
  deriving DecidableEq, Repr

/-- What a snapshot image holds (R433); its bytes have no layout in the manual, and its digest is free (log entry 40).
`hold` and `late` are the cells of the shard, of the stash entries and of the late sum images, at their addresses. -/
structure SnapImage where
  step    : DWord
  slot    : Bool
  digest  : Bytes
  bytes   : Nat
  hold    : List Host.Cell
  late    : List Host.Cell
  stash   : List StashEntry
  versions : List Version
  places  : List VersionPlace
  bound   : List Bound
  lateOrigin : Option DWord
  lateGroups : List Half
  active  : Bytes
  shadow  : Bytes
  /-- The bytes of the amendment in the incoming slot (R60), and the shadow's digest. -/
  incoming : Bytes
  shadowDigest : Bytes
  shadowId : DWord
  plan    : List PlanRec
  pend    : DWord
  done    : DWord
  tag     : Byte
  prevTag : Byte
  prevLive : Bool
  /-- The partition's route entries and their phase (R77). -/
  routes  : List RouteEntry
  phase   : RoutePhase
  mean    : Word
  seen    : Word
  lading  : Lading
  deriving DecidableEq, Repr

/-- An entry composed and not yet written (R414): the identifier of its drive commands, none while R432 holds it, whether it
is a step entry, and its first block. -/
structure Unwritten where
  cid   : Option Nat
  step  : Bool
  bytes : Bytes
  lba   : Nat := 0
  deriving DecidableEq, Repr

/-- The recorded steps that a replay follows (R450): the step and the records of its entry. -/
structure ReplayStep where
  step    : DWord
  records : List (Half × Bytes)
  deriving DecidableEq, Repr

/-- The rest of a step's record keeping: landed data, entry records, snapshots, late folds, replay. -/
structure StepLog where
  /-- Records landed, by step and sample, kept until their step's digest is formed (R403), and pieces of records that are
  not whole yet, by step, sample and piece (R401). -/
  landed      : List (DWord × Nat × Bytes)
  pieces      : List (DWord × Nat × Nat × Bytes)
  dataDigest  : Option Bytes
  partnerDigest : Option Bytes
  ownDigest   : Option Bytes
  /-- Records gathered for the entry: type and body. -/
  records     : List (Half × Bytes)
  unwritten   : List Unwritten
  sinceSnap   : Nat
  firstDone   : Bool
  /-- The snapshot captured and being written out, with its drive command. -/
  snapImage   : Option (SnapImage × Nat)
  /-- Complete snapshots, oldest first, at most two (R435). -/
  slots       : List SnapImage
  lateOrigin  : Option DWord
  /-- Groups whose late contribution of that step is still to be recorded (R442). -/
  lateGroups  : List Half
  /-- Entries written to the drives, oldest first. -/
  entries     : List Bytes
  replay      : List ReplayStep
  /-- The snapshot's step that a restore started from, and whether the keeper gives it (R449). -/
  restoring   : Option (DWord × Bool)
  /-- The drive command of the load's reads (R414). -/
  loadCid     : Option Nat
  /-- The claim of a lost coordinate waits for the replay's end, superseded entries (Table 12.15). -/
  superseded  : Nat
  deriving DecidableEq, Repr

/-- The detector of a partition (R191 to R201). -/
structure Detector where
  count  : Word
  /-- The part of the count, and its sources, that results of reductions gave: a rewind keeps them (R191, R443). -/
  kept   : Word
  keptMask : BitVec 7
  mask   : BitVec 7
  loss   : Option Word
  mean   : Word
  seen   : Word
  applyTag : Option Half
  deriving DecidableEq, Repr

/-- The version stash of a partition (R263 to R277). -/
structure Stash where
  versions : List Version
  entries  : List StashEntry
  waits    : List StashWait
  /-- Readers that forward passes bound and whose micro-batch goes on. -/
  bound    : List Bound
  /-- Blocks that waited in the step, and whether for space (R268): counted and reported once. -/
  waited   : List (Word × Bool)
  /-- Entries formed for the shard that this device mirrors (R273). -/
  mirrored : List StashEntry
  /-- The places of the live versions (R274). -/
  places   : List VersionPlace
  versionWaits : Word
  spaceWaits : Word
  waitTime : Word
  created  : Word
  released : Word
  limitHalt : Bool
  deriving DecidableEq, Repr

/-- Energy and tokens of a partition (Table 13.13, R487). -/
structure PartEnergy where
  stepStart : DWord
  stepUj    : DWord
  perToken  : Word
  energy    : DWord
  tokens    : DWord
  running   : DWord
  /-- Ticks of the step with a gate below full duty, and with each code as the one that set C (Table 13.10). -/
  gated     : Nat
  limits    : List Nat
  deriving DecidableEq, Repr

/-- A partition: what the Manifest gives it, its JR_P_ registers, and its engines' state. -/
structure Part where
  cfg        : Option PartCfg
  state      : PState
  cause      : Byte
  /-- The sender's cause where the cause is 7 (Table 12.7). -/
  noticeCause : Byte
  /-- The step of an abandon notice that came before the member reached it (R426). -/
  noticeAt   : Option DWord
  haltMode   : Byte
  latePending : Bool
  applyPassed : Bool
  skipped    : Bool
  /-- A device was lost in complete mode: FILL_WAIT follows the close of the step (R445). -/
  fillPending : Bool
  step       : DWord
  closed     : DWord
  snap       : DWord
  snapStatus : Word
  paired     : Bool
  lastEqual  : Bool
  mismatch   : Bool
  sharedFeed : Bool
  partnerLost : Bool
  /-- The feed identity that the partner gave in the exchange of R438; none before, and for a spare that took its place. -/
  partnerFeed : Option Half
  /-- Members of the job that are lost and whose coordinate no spare has taken (R445, R449). -/
  lostMembers : List Half
  rewinds    : Word
  excusals   : Word
  lateFolds  : Word
  drops      : Word
  replayTo   : DWord
  cadence    : Word
  detect     : Bytes
  chain      : Bytes
  chained    : Bool
  deriving DecidableEq, Repr

/-- A partition's engines beside its registers. -/
structure PartRun where
  seq      : Sequencer
  log      : StepLog
  det      : Detector
  stash    : Stash
  energy   : PartEnergy
  lading   : Lading
  held     : Bool
  restored : Option DWord
  deriving DecidableEq, Repr

/-- Spare-fill states (Table 12.14). -/
inductive FillState where
  | idle | claim | route | copy | verify | regen | join | failed
  deriving DecidableEq, Repr

/-- A spare fill (R446 to R448). -/
structure Fill where
  state    : FillState
  spareRole : Bool
  part     : BitVec 6
  lost     : Half
  tried    : Nat
  mismatches : Nat
  progress : Word
  started  : DWord
  queued   : List Half
  claimedBy : Option Half
  /-- The lost device's physical coordinate, as the claim names it (R447). -/
  lostPhys : Half
  /-- The claim was issued on a RESTORE: the spare loads from the keeper, and nothing is copied (R449). -/
  restore  : Bool
  /-- Another member's fill, which this member follows (R446, R447), and the spare that it is at. -/
  follows  : Bool
  spare    : Option Half
  deriving DecidableEq, Repr

/-- The JR_ global registers, the keeper's areas and the messages sent. -/
structure Jr where
  logbookReady : Bool
  keeperLink   : Bool
  /-- The keeper has refused a later size (R436). -/
  keeperFull   : Bool
  error        : Word
  entries      : DWord
  guest        : Option Half
  guestSize    : Option DWord
  guestSnap    : DWord
  guestEntries : List Bytes
  guestImages  : List (DWord × Bytes)
  fill         : Fill
  sent         : List Sent
  /-- The layout in force (R431), and the blocks of the entry ring written so far. -/
  label        : Option DriveLabel
  ringPos      : Nat
  deriving DecidableEq, Repr

/-- Package state (01): failed lanes by link and direction, and dies lost. -/
structure Package where
  lanes    : List (Nat × Bool × Nat)
  deadDies : List (BitVec 4)
  linkDies : List (BitVec 2)
  deriving DecidableEq, Repr

/-- The state of the device, with the queue of waiting commands. -/
structure State where
  pending  : List Instr
  /-- What waits for the end of a management restart, oldest first (R522). -/
  deferred : List Deferred
  free     : Nat
  supply   : Supply
  boot     : Boot
  sec      : Sec
  pt       : Pt
  ptAux    : PtAux
  ptDies   : Sparse PtDie
  hm       : Hm
  hmAux    : HmAux
  events   : Events
  i3c      : I3c
  mf       : Mf
  mfAux    : MfAux
  clusters : Sparse Cluster
  mem      : Mem
  memDies  : Sparse MemDie
  memAux   : Sparse MemDieAux
  berths   : Sparse Berth
  links    : Sparse Link
  linkCtrs : Sparse LinkCounters
  kx       : Kx
  reds     : List Reduction
  gw       : Gw
  gwAux    : GwAux
  parts    : Sparse Part
  runs     : Sparse PartRun
  jr       : Jr
  pkg      : Package
  deriving DecidableEq, Repr

/-! ## What an unlisted unit holds, and the state right after reset -/

/-- A compute die's power state at reset (Tables 13.12, R469): stopped, no cut asked, no release in progress. -/
def PtDie.zero : PtDie :=
  { mhz := 0, milliV := 0, cutPin := 0, cutFlow := 0, cutLadder := 0, cutQuiesce := 0, cutFast := 0,
    stretched := false, fmax := 1300, estimateW := 0, railW := 0, stretch := 0, droop := 0, trimMv := [],
    trimSaved := [], trimSteps := 0, roAge := 0x1000, memRate := 100, waves := 8 }

/-- A hot spot before any reading. -/
def Spot.zero : Spot :=
  { r0 := 0, r1 := 0, estimate := 0, prediction := 0, suspect := false, fault := false, atLimit := false, limited := none }

/-- A phase-profile entry before any observation. -/
def Profile.zero : Profile := { compute := 0, memory := 0, links := 0, seen := 0 }

/-- A timer at reset (Table 15.11). -/
def Timer.zero : Timer := { cfg := 0, period := 0, target := 0, count := 0 }

/-- The counters of Table 3.12 at reset. -/
def ClCounters.zero : ClCounters :=
  { cycles := 0, issueF4 := 0, issue8b := 0, issueB16 := 0, stallOperand := 0, stallAnchor := 0, stallDrain := 0,
    stallHazard := 0, stallGate := 0, stallContext := 0, tilesDone := 0, storeCe := 0, faultTransient := 0,
    swaps := 0, rowRetries := 0 }

/-- A physical cluster at the first bring-up (R128): clusters 0 to 249 of a die are active under their own number,
250 to 255 are spares. -/
def Cluster.first (phys : Nat) : Cluster :=
  { logical := if phys < 250 then some (BitVec.ofNat 8 phys) else none
    state := if phys < 250 then .active else .spare
    error := 0, errorInfo := 0, selftest := 0, testing := false, replaces := none, ctxs := [], swap := none, flight := [],
    lastArray := 0, lastVector := 0, counters := ClCounters.zero, store := [] }

/-- The cluster under the key die * 256 + physical number. -/
def Cluster.dflt (k : Nat) : Cluster := Cluster.first (k % 256)

/-- A lighter at reset. -/
def Lighter.zero : Lighter := { halted := false, queue := [] }

/-- A compute die's memory registers at reset (Table 8.15). -/
def MemDie.zero : MemDie :=
  { scratch := 0, bands := 0, dramTemp := 0, refreshBusy := 0, refreshFrac := 0, nearCe := 0, nearUe := 0,
    nearTransient := 0, holdCe := 0, holdUe := 0, holdRetry := 0, yardCe := 0, yardUe := 0 }

/-- An empty Yard cache. -/
def YardCache.zero : YardCache := { lines := [], plru := [], hits := 0, misses := 0, writebacks := 0 }

/-- A compute die's spare and lighter registers at the first bring-up (R321: nothing repaired). -/
def MemDieAux.zero : MemDieAux :=
  { poolFree := [], rowsRepaired := 0, banksRepaired := 0, addSectors := 0, addInexact := 0, addInvalid := 0,
    lighters := [], lighterError := 0, lighterErrorInfo := 0 }

/-- The memories at reset: nothing listed, nothing repaired. -/
def Mem.zero : Mem :=
  { near := [], yard := [], hold := [], nearPoison := [], yardPoison := [], holdPoison := [], h16 := .idle,
    h17 := .idle, holdRetired := 0, remaps := [], locked := [], banks := [], bankJobs := [], bankTicks := [], rowFaults := [],
    unserviceable := [], lastUnserviceable := 0, bonds := [], holdLost := 0, caches := [], scrubRunning := false,
    scrubPasses := 0, regionFaults := 0, addRefused := 0, holdTransient := 0 }

/-- A link at reset: DARK (Table 10.4). -/
def Link.zero : Link :=
  { state := .dark, failures := 0, badTx := [], badRx := [], rttOver := false, sameFeed := false, medium := 0,
    error := 0, rtt := 0, peerCoord := 0, peerId := 0, peerJob := 0, laneMap := 0, retraining := false, txSeq := 0,
    kept := [], inFlight := [], resend := [], identSent := [] }

/-- A link's counters at reset. -/
def LinkCounters.zero : LinkCounters :=
  { fecCorrected := 0, crcErrors := 0, replays := 0, faultTransient := 0, retrains := 0, txFlits := 0, rxFlits := 0,
    creditStall := 0, class0Over := 0, class0Max := 0, replayRun := 0 }

/-- An egress that has sent nothing. -/
def PortEgress.zero : PortEgress :=
  { budget := 0, ownDebt := 0, transitDebt := 0, bulkDebt := 0, turn := { cls := 0, left := 0 }, begun := [], next := 0, relayBudget := 0,
    relayTurn := { cls := 0, left := 0 } }

/-- The fabric at reset (Table 10.12). -/
def Kx.zero : Kx :=
  { disc := .idle, byDefault := false, missing := 0, extra := 0, waitLeft := 0, missingDims := [], redInvalid := 0,
    redInexact := 0, redExcused := 0, transitFlits := 0, noRoute := 0, routes := [], egress := [], relay := [],
    wire := [], ports := [], delivered := [], class0Seen := none }

/-- A priority of the Ethernet port that holds nothing. -/
def Prio.zero : Prio := { held := 0, xoff := false, paused := false, stuck := false }

/-- No drive. -/
def Drive.absent : Drive := { state := .absent, blocks := 0, cmds := [], queues := 0, admin := [], label := none }

/-- The Gateway at reset (Table 11.8). -/
def Gw.zero : Gw :=
  { ethUp := false, anDone := false, pcieUp := false, pcieRate := 0, pcieWidth := 0, bifurcated := false, error := 0,
    prioCfg := 0x00F40008, prioInForce := 0x00F40008, etsLo := 0x4600000A, etsHi := 0x000A000A,
    etsLoApplied := 0x4600000A, etsHiApplied := 0x000A000A, ipv4 := 0, ipv6 := [], passCfg := 0, passDrops := 0,
    sessions := [], qps := [], reads := [], prios := [], drive0 := Drive.absent, drive1 := Drive.absent, nextCid := 0 }

/-- The Gateway's counters at reset, and no frame or response sent. -/
def GwAux.zero : GwAux :=
  { fetchBytes := 0, fetchRetries := 0, rxFrames := 0, txFrames := 0, fcsErrors := 0, fecUncorrected := 0,
    pfcRxPause := 0, cnpRx := 0, macsecDrops := 0, nvmeWritten := 0, nvmeRetries := 0, faultTransient := 0, tx := [], txHeld := [], frames := 0,
    sent := [], lastRead := 0 }

/-- A step sequencer at rest. -/
def Sequencer.zero : Sequencer :=
  { pc := 0, loops := [], phase := .none, notices := [], posted := [], writtenBack := [], fetches := [], waitsData := none,
    boundMbs := [], verdictSent := false, verdict := none, jobNonfinite := false, jobSpike := false, spikeNotRun := true,
    pendingHalt := none, rewindsInStep := 0, partials := [], arrived := [], peaks := [], standing := [], ready := [], ownReady := [], excused := [], lateFolds := [], reduced := [],
    readyAt := [], slackUs := 0, reported := none, bounds := [], lateAdded := false, putOff := [], partEnd := none }

/-- No record kept. -/
def StepLog.zero : StepLog :=
  { landed := [], pieces := [], dataDigest := none, partnerDigest := none, ownDigest := none, records := [], unwritten := [],
    sinceSnap := 0, firstDone := false, snapImage := none, slots := [], lateOrigin := none, lateGroups := [], entries := [], replay := [],
    restoring := none, loadCid := none, superseded := 0 }

/-- A detector at reset. -/
def Detector.zero : Detector := { count := 0, kept := 0, keptMask := 0, mask := 0, loss := none, mean := 0, seen := 0, applyTag := none }

/-- An empty stash. -/
def Stash.zero : Stash :=
  { versions := [], entries := [], waits := [], bound := [], waited := [], mirrored := [], places := [], versionWaits := 0, spaceWaits := 0, waitTime := 0,
    created := 0, released := 0, limitHalt := false }

/-- No energy counted. -/
def PartEnergy.zero : PartEnergy :=
  { stepStart := 0, stepUj := 0, perToken := 0, energy := 0, tokens := 0, running := 0, gated := 0, limits := List.replicate 7 0 }

/-- Lading off. -/
def Lading.zero : Lading :=
  { cfg := 0, kept := false, overflow := false, last := 0, first := 0, atFill := false,
    ranges := [], recovery := [], counts := [], states := [], firstMismatch := none, entries := 0, served := [], since := 0, shard := [] }

/-- A partition that no Manifest gives. -/
def Part.zero : Part :=
  { cfg := none, state := .idle, cause := 0, noticeCause := 0, noticeAt := none, haltMode := 0, latePending := false, applyPassed := false,
    skipped := false, fillPending := false, step := 0, closed := 0, snap := 0, snapStatus := 0, paired := false, lastEqual := false,
    mismatch := false, sharedFeed := false, partnerLost := false, partnerFeed := none, lostMembers := [], rewinds := 0, excusals := 0, lateFolds := 0,
    drops := 0, replayTo := 0, cadence := 0, detect := [], chain := [], chained := false }

/-- A partition's engines at rest. -/
def PartRun.zero : PartRun :=
  { seq := Sequencer.zero, log := StepLog.zero, det := Detector.zero, stash := Stash.zero, energy := PartEnergy.zero,
    lading := Lading.zero, held := false, restored := none }

/-- No fill. -/
def Fill.zero : Fill :=
  { state := .idle, spareRole := false, part := 0, lost := 0, tried := 0, mismatches := 0, progress := 0,
    started := 0, queued := [], claimedBy := none, lostPhys := 0, restore := false, follows := false, spare := none }

/-- The JR_ global registers at reset. -/
def Jr.zero : Jr :=
  { logbookReady := false, keeperLink := false, keeperFull := false, error := 0, entries := 0, guest := none,
    guestSize := none, guestSnap := 0, guestEntries := [], guestImages := [], fill := Fill.zero, sent := [], label := none, ringPos := 0 }

/-- The board as it stands at `State.reset` (log entry 1): the always-on rail is up, the input stage is closed, the
bulk capacitors are charged, PWR_GOOD_OUT is released, RESET_N is low. -/
def Supply.powered : Supply :=
  { alwaysOn := true, armed := true, stageClosed := true, bulkCharged := true, powerGood := true, resetN := false,
    tripLatched := false, sysLost := false, ethLost := false, pcieLost := false, clkHold := false, warnLow := false,
    flowLow := false, sideIn := 0xFF, snapPerst := false }

/-- The boot state while reset is held. -/
def Boot.held : Boot :=
  { phase := .held, retransmits := 0, attempts := 0, idLocked := false, fwDigest := [], fwSvn := 0,
    fwVerified := false, recoveryBoot := false, flashRewritten := false, aliasCert := [], aliasSign := 0, aliasAgree := 0 }

/-- The protected storage as shipped (R506; log entry 2): UNOWNED, no key, counters and min_svn 0. -/
def Sec.shipped : Sec :=
  { lifecycle := .unowned, ownerKey := none, ownerCounter := 0, minSvn := 0,
    manifestKeys := [.empty, .empty, .empty, .empty],
    hostKeys := [.empty, .empty, .empty, .empty, .empty, .empty, .empty, .empty],
    hostCounters := [none, none, none, none, none, none, none, none], key0Revoked := false, forceNetwork := false,
    idKeyHeld := true, certAbsent := false, idPublicKey := publicKey Config.idScalar,
    fwKeys := [Config.firmwareKey 0, Config.firmwareKey 1], busy := false, error := 0, cmdResult := 0, authFails := 0,
    mailbox := [], peers := [] }

/-- The PT_ block at reset (Table 13.11). -/
def Pt.zero : Pt :=
  { error := 0, envelope := 0x2580, headroom := 0,
    limits := { envelope := 0x2580, headroom := none, supply := none, coolant := none, thermal := none, tide := none },
    ceiling := 0x5DC, peaks := [], measuredW := 0, estimatedW := 0, estimates := [], milliV := 0, deciA := 0, warn := 0x40,
    config := 2, burst := false, burstSince := none, disagree := false, sensorFault := false, agreeing := 0,
    flowRow := .idle, flowSince := none, resumeReady := false,
    warnHold := false, warnSince := 0 }

/-- Tide, coolant and energy at reset. -/
def PtAux.zero : PtAux :=
  { tideCfg := 0, tidePool := 0, tideParam := 0x00640032, tideAlloc := 0, tideReserve := 0, tideOn := false, tideCritical := false, tideHeld := false,
    coolEvent := none, coolTarget := none, tray := [], trayStale := false, trayDefault := false, trayTime := 0, interval := { total := 0, parts := [], berths := [] }, energy := 0, shared := 0, berthSel := 0, berthEnergy := [],
    bursts := 0, disagrees := 0, warnCount := 0, warnTime := 0, quiesceUs := 0, droopCfg := 0x23,
    spots := [], profiles := [], profileAt := [], kraekRate := [], holdRate := [] }

/-- The HM_ block at reset (Table 15.8); the cause is a rise of the always-on rail (log entry 1). -/
def Hm.zero : Hm :=
  { error := 0, ready := 0, readyFail := 0, resetCause := 1, service := 0, reported := 0, time := 0, timeHi := 0,
    aon := 0, aonFrac := 0, aonHi := 0, boardCoord := 0, feed := 0, linkMedium := 0x55555555, straps := 0,
    recoveryServer := 0, trayTemp := 0, trayTempSet := false, trayFlow := 0 }

/-- The rest of the Harbourmaster at reset. -/
def HmAux.zero : HmAux :=
  { sideCfg := [], timers := [], conflict := 0, faultTransient := 0, faultCfg := 0x10, faultCounts := [],
    factoryAbsent := false, userLayer := false, restorePending := false, calWrites := 0, calItems := [], watchdog := 0, memCe := 0, restarting := false,
    escalated := false, lastRestart := none, restartTimes := [], yardBufs := [], pulses := [], jtag := .bypass }

/-- The event path at reset: the log is empty, every block is delivered (HM_EVENT_MASK 0x0000_0FFF). -/
def Events.zero : Events :=
  { seq := 0, ring := [], held := [], log := [], mask := 0xFFF, pending := 0, berth := 0, sel := 0, lost := 0,
    lostSeen := false }

/-- The I3C target at reset: no dynamic address, in-band interrupts off (log entry 12). -/
def I3c.zero : I3c := { dynamic := none, ibi := false, reply := [], acked := false, ibis := [], lastIbi := none }

/-- The MF_ block at reset: no Manifest (Tables 2.10, 2.11). -/
def Mf.zero : Mf :=
  { activeBytes := [], incoming := [], shadow := [], active := false, loadState := .empty, amendState := .none,
    slotHeld := false, owner := none, activeId := 0, reproducible := false, partCount := 0, jobId := 0, reject := 0,
    rejectDetail := 0, warn := 0, shadowId := 0, pend := 0, done := 0, tag := 0, prevTag := 0, prevLive := false }

/-- A device that no commit has configured. -/
def DevCfg.zero : DevCfg :=
  { yard := [], ports := [], traffic := [], pools := [], claims := [],
    discovery := { missingDefault := 0, waitMs := 0, deadlineMs := 0 } }

/-- The rest of the MF_ block at reset: the RWL registers are unlocked. -/
def MfAux.zero : MfAux :=
  { locked := false, tagFallback := 0, commitTime := 0, loadCount := 0, amendCount := 0,
    digest := [], shadowDigest := [], plan := [], phases := [], dev := DevCfg.zero }

/-- The package as shipped: no lane lost, no die lost. -/
def Package.whole : Package := { lanes := [], deadDies := [], linkDies := [] }

/-- The device right after reset: powered, RESET_N still low, every register at the value its table gives and every
map and store at its first bring-up (log entries 1 to 4). -/
def State.reset : State :=
  { pending := [], deferred := [], free := 0, supply := Supply.powered, boot := Boot.held, sec := Sec.shipped, pt := Pt.zero,
    ptAux := PtAux.zero, ptDies := [], hm := Hm.zero, hmAux := HmAux.zero, events := Events.zero, i3c := I3c.zero,
    mf := Mf.zero, mfAux := MfAux.zero, clusters := [], mem := Mem.zero, memDies := [], memAux := [], berths := [],
    links := [], linkCtrs := [], kx := Kx.zero, reds := [], gw := Gw.zero, gwAux := GwAux.zero, parts := [],
    runs := [], jr := Jr.zero, pkg := Package.whole }

end Sys2Proof.Machine
end

