-- ==== Sys2Proof/Machine/Numbers.lean ====
section
/-!
DEFINITION. The number formats (04): codes as exact values, the two rounding modes, the long accumulator, block
scales and the random streams. Values are exact dyadic numbers; nothing is rounded but in `encodeFloat` and
`roundFixed`.
-/

namespace Sys2Proof.Machine

/-! ## Exact values -/

/-- Positive zero. -/
def Val.zero : Val := .fin false 0 0

/-- The value is an infinity or a NaN. -/
def Val.special : Val → Bool
  | .fin .. => false
  | _ => true

/-- The sign bit. -/
def Val.sign : Val → Bool
  | .nan => false
  | .inf n => n
  | .fin n _ _ => n

def Val.neg : Val → Val
  | .nan => .nan
  | .inf n => .inf (!n)
  | .fin n m e => .fin (!n) m e

def Val.abs : Val → Val
  | .nan => .nan
  | .inf _ => .inf false
  | .fin _ m e => .fin false m e

/-- A finite value times 2^k. -/
def Val.scale (v : Val) (k : Int) : Val :=
  match v with
  | .fin n m e => .fin n m (e + k)
  | v => v

/-- Signed magnitude as an integer. -/
def signedInt (neg : Bool) (m : Nat) : Int := if neg then -(m : Int) else (m : Int)

/-- An integer times 2^e as a value; zero is positive. -/
def Val.ofInt (i : Int) (e : Int) : Val := .fin (decide (i < 0)) i.natAbs e

/-- 2^k for a non-negative integer k, 1 below. -/
def pow2 (k : Int) : Nat := 2 ^ k.toNat

/-- The integer of m × 2^e in units of 2^u, for u ≤ e. -/
def inUnits (m : Int) (e u : Int) : Int := m * (pow2 (e - u) : Int)

/-- The number of bits of a magnitude. -/
def bitLen (n : Nat) : Nat := if n = 0 then 0 else Nat.log2 n + 1

/-- Comparison of finite or infinite values: −1, 0 or 1 as an ordering; none with a NaN. -/
def Val.cmp : Val → Val → Option Ordering
  | .nan, _ => none
  | _, .nan => none
  | .inf a, .inf b => some (compare (b2n b) (b2n a))
  | .inf a, _ => some (if a then .lt else .gt)
  | _, .inf b => some (if b then .gt else .lt)
  | .fin n m e, .fin n' m' e' =>
    let u := min e e'
    some (compare (inUnits (signedInt n m) e u) (inUnits (signedInt n' m') e' u))

/-- The exact sum; the sign of a zero sum is that of IEEE 754 under round to nearest. -/
def Val.add : Val → Val → Val
  | .nan, _ => .nan
  | _, .nan => .nan
  | .inf a, .inf b => if a = b then .inf a else .nan
  | .inf a, _ => .inf a
  | _, .inf b => .inf b
  | .fin n m e, .fin n' m' e' =>
    let u := min e e'
    let i := inUnits (signedInt n m) e u + inUnits (signedInt n' m') e' u
    if i = 0 then .fin (decide (m = 0) && n && n') 0 u else Val.ofInt i u

/-- The exact product. -/
def Val.mul : Val → Val → Val
  | .nan, _ => .nan
  | _, .nan => .nan
  | .inf a, .inf b => .inf (a != b)
  | .inf a, .fin n m _ => if m = 0 then .nan else .inf (a != n)
  | .fin n m _, .inf b => if m = 0 then .nan else .inf (n != b)
  | .fin n m e, .fin n' m' e' => .fin (n != n') (m * m') (e + e')

/-! ## Flags (R228) -/

def FpFlags.none : FpFlags :=
  { invalid := false, divZero := false, overflow := false, underflow := false, inexact := false }
def FpFlags.or (a b : FpFlags) : FpFlags :=
  { invalid := a.invalid || b.invalid, divZero := a.divZero || b.divZero, overflow := a.overflow || b.overflow,
    underflow := a.underflow || b.underflow, inexact := a.inexact || b.inexact }
def FpFlags.nat (f : FpFlags) : Nat :=
  flagAt f.invalid 0 + flagAt f.divZero 1 + flagAt f.overflow 2 + flagAt f.underflow 3 + flagAt f.inexact 4

/-! ## Rounding (R165 to R167) -/

/-- The rounding modes: to nearest, ties to even, and stochastic with a 16-bit draw. -/
inductive Rnd where
  | nearest
  | stoch (u : Nat)
  deriving DecidableEq, Repr

/-- The integer part of m / 2^shift, rounded (R165, R167); `sticky` says that bits beyond those of `m` are not all
zero. The second result says that something was discarded. -/
def roundShift (r : Rnd) (m shift : Nat) (sticky : Bool) : Nat × Bool :=
  let hi := m >>> shift
  let low := m % 2 ^ shift
  let lost := decide (low ≠ 0) || sticky
  let up :=
    match r with
    | .nearest =>
      let h := 2 ^ (shift - 1)
      decide (shift ≠ 0) && (decide (h < low) || (decide (low = h) && (sticky || decide (hi % 2 = 1))))
    | .stoch u =>
      let t := if 16 ≤ shift then low >>> (shift - 16) else low <<< (16 - shift)
      lost && decide (65536 ≤ t + u)
  (if up then hi + 1 else hi, lost)

/-- A float format: mantissa field bits, exponent field bits, bias, and whether the top exponent field is special. -/
structure FloatFmt where
  man  : Nat
  exp  : Nat
  bias : Nat
  deriving DecidableEq, Repr

def fmtF4 : FloatFmt := { man := 1, exp := 2, bias := 1 }
def fmtF8 : FloatFmt := { man := 3, exp := 4, bias := 7 }
def fmtG8 : FloatFmt := { man := 2, exp := 5, bias := 15 }
def fmtB16 : FloatFmt := { man := 7, exp := 8, bias := 127 }
def fmtF32 : FloatFmt := { man := 23, exp := 8, bias := 127 }

/-- The exponent of the least significant bit of a subnormal. -/
def FloatFmt.minExp (f : FloatFmt) : Int := 1 - (f.bias : Int) - (f.man : Int)

/-- A magnitude with its exponent rounded to `p` bits, no lower than `floor`: the integer and its exponent. -/
def roundPrec (r : Rnd) (p : Nat) (floor? : Option Int) (m : Nat) (e : Int) (sticky : Bool) : Nat × Int × Bool :=
  let q0 := e + (bitLen m : Int) - (p : Int)
  let q := match floor? with
    | some f => max q0 f
    | none => q0
  if q ≤ e then (m * pow2 (e - q), q, sticky)
  else
    let (k, lost) := roundShift r m (q - e).toNat sticky
    if k = 2 ^ p then (2 ^ (p - 1), q + 1, lost) else (k, q, lost)

/-- Packs sign, integer significand and exponent of its last bit as a code. -/
def packFloat (f : FloatFmt) (neg : Bool) (k : Nat) (q : Int) : Nat :=
  let s := flagAt neg (f.exp + f.man)
  if k < 2 ^ f.man then s + k
  else s + (q + (f.man : Int) + (f.bias : Int)).toNat * 2 ^ f.man + (k - 2 ^ f.man)

/-- A finite value rounded into F32 or B16 (R166, R222, R228), with the flags it raises. -/
def roundWide (f : FloatFmt) (r : Rnd) (neg : Bool) (m : Nat) (e : Int) (sticky : Bool) : Nat × FpFlags :=
  let (k, q, lost) := roundPrec r (f.man + 1) (some f.minExp) m e sticky
  let top : Int := (2 ^ f.exp : Nat) - 1 - (f.bias : Int)
  if k ≠ 0 ∧ (top : Int) ≤ q + (bitLen k : Int) - 1 then
    (flagAt neg (f.exp + f.man) + (2 ^ f.exp - 1) * 2 ^ f.man,
      { FpFlags.none with overflow := true, inexact := true })
  else
    let (k', q', _) := roundPrec r (f.man + 1) none m e sticky
    let tiny := decide (k' ≠ 0) && decide (q' + (bitLen k' : Int) - 1 < 1 - (f.bias : Int))
    (packFloat f neg k q, { FpFlags.none with underflow := tiny && lost, inexact := lost })

/-- The canonical NaN (R166, R223). -/
def nanCode (f : FloatFmt) : Nat := (2 ^ f.exp - 1) * 2 ^ f.man + 2 ^ (f.man - 1)

/-- Any value rounded into F32 or B16. -/
def encodeWide (f : FloatFmt) (r : Rnd) : Val → Nat × FpFlags
  | .nan => (nanCode f, FpFlags.none)
  | .inf n => (flagAt n (f.exp + f.man) + (2 ^ f.exp - 1) * 2 ^ f.man, FpFlags.none)
  | .fin n m e => if m = 0 then (flagAt n (f.exp + f.man), FpFlags.none) else roundWide f r n m e false

/-- The code of a wide format as a value (R135, R139). -/
def decodeWide (f : FloatFmt) (c : Nat) : Val :=
  let neg := c.testBit (f.exp + f.man)
  let e := (c >>> f.man) % 2 ^ f.exp
  let m := c % 2 ^ f.man
  if e = 2 ^ f.exp - 1 then (if m = 0 then .inf neg else .nan)
  else if e = 0 then .fin neg m f.minExp
  else .fin neg (2 ^ f.man + m) ((e : Int) - (f.bias : Int) - (f.man : Int))

/-- A code of F4, F8 or G8 before its block scale (R135 to R138); negative zero reads as zero (R141). -/
def decodeNarrow (f : FloatFmt) (c : Nat) : Val :=
  let neg := c.testBit (f.exp + f.man)
  let e := (c >>> f.man) % 2 ^ f.exp
  let m := c % 2 ^ f.man
  if f = fmtF8 ∧ c % 128 = 127 then .nan
  else if f = fmtG8 ∧ e = 31 then (if m = 0 then .inf neg else .nan)
  else if e = 0 then .fin (neg && decide (m ≠ 0)) m f.minExp
  else .fin neg (2 ^ f.man + m) ((e : Int) - (f.bias : Int) - (f.man : Int))

/-- A quotient magnitude no greater than the format's largest, rounded to a code of F4, F8 or G8 (R181, R182); a
zero result takes the positive zero code (R141). -/
def encodeNarrow (f : FloatFmt) (r : Rnd) (neg : Bool) (m : Nat) (e : Int) : Nat × Bool :=
  let (k, q, lost) := roundPrec r (f.man + 1) (some f.minExp) m e false
  (if k = 0 then 0 else packFloat f neg k q, lost)

/-- A magnitude rounded to an X16 integer in units of 2^u; 32,768 is written as 32,767 (R144). -/
def encodeX16 (r : Rnd) (neg : Bool) (m : Nat) (e u : Int) : Nat × Bool :=
  let (k, lost) :=
    if u ≤ e then (m * pow2 (e - u), false) else roundShift r m (u - e).toNat false
  let k' := min k 32767
  (twos 16 (signedInt neg k'), lost || decide (k ≠ k'))

/-! ## Formats by code (Tables 3.5, 6.1) -/

/-- The formats. -/
inductive Fmt where
  | f4 | f8 | g8 | b16 | f32 | l128 | x16
  deriving DecidableEq, Repr

def fmtOf : Nat → Option Fmt
  | 0 => some .f4
  | 1 => some .f8
  | 2 => some .g8
  | 3 => some .b16
  | 4 => some .f32
  | 5 => some .l128
  | 7 => some .x16
  | _ => none

def Fmt.code : Fmt → Nat
  | .f4 => 0
  | .f8 => 1
  | .g8 => 2
  | .b16 => 3
  | .f32 => 4
  | .l128 => 5
  | .x16 => 7

/-- The element size in bits. -/
def Fmt.bitsOf : Fmt → Nat
  | .f4 => 4
  | .f8 => 8
  | .g8 => 8
  | .b16 => 16
  | .f32 => 32
  | .l128 => 128
  | .x16 => 16

def Fmt.narrow : Fmt → Bool
  | .f4 => true
  | .f8 => true
  | .g8 => true
  | .x16 => true
  | _ => false

/-- The float layout of a format; X16 and L128 have none, and F32 stands for them. -/
def Fmt.float : Fmt → FloatFmt
  | .f4 => fmtF4
  | .f8 => fmtF8
  | .g8 => fmtG8
  | .b16 => fmtB16
  | _ => fmtF32

/-- An element's value: its code, with its block scale for a narrow format (R140, R142, R143). -/
def decodeElem (f : Fmt) (scale code : Nat) : Val :=
  match f with
  | .b16 => decodeWide fmtB16 code
  | .f32 => decodeWide fmtF32 code
  | .x16 => if scale = 255 then .nan else Val.ofInt (signed 16 code) ((scale : Int) - 142)
  | .l128 => .nan
  | f => if scale = 255 then .nan else (decodeNarrow f.float code).scale ((scale : Int) - 127)

/-! ## The scale pass (R144) -/

/-- fmt_max of F4, F8 and G8 as significand and exponent: 6, 448 and 57,344. -/
def fmtMax : Fmt → Nat × Int
  | .f4 => (3, 1)
  | .f8 => (7, 6)
  | _ => (7, 13)

/-- m × 2^e ≤ m' × 2^e'. -/
def magLe (m : Nat) (e : Int) (m' : Nat) (e' : Int) : Bool :=
  let u := min e e'
  decide (m * pow2 (e - u) ≤ m' * pow2 (e' - u))

/-- The smallest k with m × 2^e ≤ fmt_max × 2^k (F4, F8, G8), or with m × 2^e < 2^k (X16). -/
def scaleExp (f : Fmt) (m : Nat) (e : Int) : Int :=
  match f with
  | .x16 => e + (bitLen m : Int)
  | f =>
    let (fm, fe) := fmtMax f
    let k := e + (bitLen m : Int) - fe - (bitLen fm : Int)
    if magLe m e fm (fe + k) then k else k + 1

/-- The scale of a block of exact values, and k; scale 255 marks the block invalid (R144). -/
def blockScale (f : Fmt) (vs : List Val) : Nat × Int :=
  if vs.any Val.special then (255, 0)
  else
    let top := vs.foldl (fun (a : Nat × Int) v =>
      match v with
      | .fin _ m e => if magLe m e a.1 a.2 then a else (m, e)
      | _ => a) (0, 0)
    if top.1 = 0 then (0, -127)
    else
      let k := scaleExp f top.1 top.2
      let k := if k < -127 then -127 else k
      if 127 < k then (255, 0) else ((k + 127).toNat, k)

/-- An element divided by its block's 2^k and rounded to a code (R181); an invalid block writes zero. -/
def quantElem (f : Fmt) (r : Rnd) (scale : Nat) (k : Int) (v : Val) : Nat × Bool :=
  if scale = 255 then (0, false)
  else
    match v with
    | .fin n m e =>
      match f with
      | .x16 => encodeX16 r n m e (k - 15)
      | f => encodeNarrow f.float r n m (e - k)
    | _ => (0, false)

/-! ## The long accumulator (R153 to R161) -/

/-- The pattern of an invalid element (R161, R210). -/
def longInvalid : BitVec 128 := BitVec.ofNat 128 (2 ^ 127)

/-- A long value of L against an anchor (R153). -/
def longVal (l : BitVec 128) (anchor : Int) : Val := Val.ofInt l.toInt (anchor - 64)

/-- A value cut toward zero to a multiple of 2^u: the integer, and whether bits were lost (R154). -/
def cutTo (neg : Bool) (m : Nat) (e u : Int) : Int × Bool :=
  if u ≤ e then (signedInt neg (m * pow2 (e - u)), false)
  else
    let sh := (u - e).toNat
    (signedInt neg (m >>> sh), decide (m % 2 ^ sh ≠ 0))

/-- An empty accumulator. -/
def Acc.empty : Acc := { l := 0, inexact := false, invalid := false }

/-- What one term does to an accumulator (R154 to R156): cut and added, or the invalid flag. The second result says
that the term lay above the window, the third that it was not a number. -/
def Acc.addTerm (a : Acc) (anchor : Int) (v : Val) : Acc × Bool × Bool :=
  match v with
  | .fin n m e =>
    if magLe 1 (anchor + 44) m e then ({ a with invalid := true }, true, false)
    else
      let (i, lost) := cutTo n m e (anchor - 64)
      ({ a with l := a.l + BitVec.ofInt 128 i, inexact := a.inexact || lost }, false, false)
  | _ => ({ a with invalid := true }, false, true)

/-- The accumulator as an output value (R165, R166). -/
def Acc.value (a : Acc) (anchor : Int) : Val := if a.invalid then .nan else longVal a.l anchor

/-- L as a carry writes it (R161). -/
def Acc.carry (a : Acc) : BitVec 128 := if a.invalid then longInvalid else a.l

/-- An accumulator loaded from a carry and its mask bit (R161). -/
def Acc.load (l : BitVec 128) (inexact : Bool) : Acc :=
  if l = longInvalid then { l := 0, inexact := inexact, invalid := true }
  else { l := l, inexact := inexact, invalid := false }

/-! ## Random streams (R169, R170) -/

/-- One round of the generator. -/
def streamRound (seed stream : DWord) (i : Nat) (lr : DWord × DWord) : DWord × DWord :=
  let k := seed + BitVec.ofNat 64 (i + 1) * 0x9E3779B97F4A7C15#64 + stream * 0xC2B2AE3D27D4EB4F#64
  let f := (lr.2 ^^^ k) * 0xBF58476D1CE4E5B9#64
  let f := f ^^^ (f >>> 31)
  let f := f * 0x94D049BB133111EB#64
  let f := f ^^^ (f >>> 29)
  (lr.2, lr.1 ^^^ f)

/-- The generator's word (R169). -/
def streamWord (seed : DWord) (stream : Nat) (step word : DWord) : DWord :=
  let lr := (List.range 8).foldl (fun a i => streamRound seed (BitVec.ofNat 64 stream) i a) (step, word)
  lr.1 ^^^ lr.2

/-- A draw of `w` bits for element index `i` (R170). -/
def drawBits (w : Nat) (seed : DWord) (stream : Nat) (step : DWord) (i : Nat) : Nat :=
  ((streamWord seed stream step (BitVec.ofNat 64 (i * w / 64))).toNat >>> ((i * w) % 64)) % 2 ^ w

end Sys2Proof.Machine
end

