-- ==== Sys2Proof/Machine/Transcend.lean ====
section
/-!
DEFINITION. Division, roots, exponentials, logarithms and the hyperbolic tangent, correctly rounded for every input
(R222): each gives a magnitude of many bits with a sticky mark, so that the final rounding sees the exact result.
The transcendental ones refine an interval until both ends agree on those bits.
-/

namespace Sys2Proof.Machine

/-- A result before its one rounding: a value, or a magnitude whose true value lies strictly between `mag` and
`mag + 1` units when `sticky` is set; with the flags its operands raise. -/
structure Raw where
  val    : Val
  sticky : Bool
  flags  : FpFlags
  deriving DecidableEq, Repr

def Raw.exact (v : Val) : Raw := { val := v, sticky := false, flags := FpFlags.none }
/-- An invalid operation: NaN with the invalid flag. -/
def Raw.bad : Raw := { val := .nan, sticky := false, flags := { FpFlags.none with invalid := true } }
def Raw.byZero (v : Val) : Raw := { val := v, sticky := false, flags := { FpFlags.none with divZero := true } }

/-- Rounds a result into F32 or B16 (R222). -/
def Raw.round (f : FloatFmt) (r : Rnd) (x : Raw) : Nat × FpFlags :=
  match x.val with
  | .fin n m e =>
    let (c, fl) := if m = 0 ∧ !x.sticky then encodeWide f r x.val else roundWide f r n m e x.sticky
    (c, x.flags.or fl)
  | v => ((encodeWide f r v).1, x.flags)

/-! ## Division and roots -/

/-- The quotient, with at least 64 bits and a sticky mark. -/
def divRaw : Val → Val → Raw
  | .nan, _ => .exact .nan
  | _, .nan => .exact .nan
  | .inf _, .inf _ => .bad
  | .inf a, .fin n _ _ => .exact (.inf (a != n))
  | .fin n _ _, .inf b => .exact (.fin (n != b) 0 0)
  | .fin n m e, .fin n' m' e' =>
    if m' = 0 then (if m = 0 then .bad else .byZero (.inf (n != n')))
    else
      let sh := 64 + bitLen m'
      let num := m <<< sh
      { val := .fin (n != n') (num / m') (e - e' - (sh : Int)), sticky := decide (num % m' ≠ 0), flags := FpFlags.none }

/-- Bits of the integer square root, from bit `i` down. -/
def isqrtFrom (n : Nat) : Nat → Nat → Nat
  | 0, r => r
  | i + 1, r => if (r + 2 ^ i) * (r + 2 ^ i) ≤ n then isqrtFrom n i (r + 2 ^ i) else isqrtFrom n i r

/-- The integer square root. -/
def isqrt (n : Nat) : Nat := isqrtFrom n (bitLen n / 2 + 1) 0

/-- The square root; a negative operand is invalid, −0 gives −0. -/
def sqrtRaw : Val → Raw
  | .nan => .exact .nan
  | .inf n => if n then .bad else .exact (.inf false)
  | .fin n m e =>
    if m = 0 then .exact (.fin n 0 0)
    else if n then .bad
    else
      let odd := (e % 2).toNat
      let m := m <<< (130 + odd)
      let r := isqrt m
      { val := .fin false r ((e - odd - 130) / 2), sticky := decide (r * r ≠ m), flags := FpFlags.none }

/-- 1 / √x. -/
def rsqrtRaw : Val → Raw
  | .nan => .exact .nan
  | .inf n => if n then .bad else .exact (.fin false 0 0)
  | .fin n m e =>
    if m = 0 then .byZero (.inf n)
    else if n then .bad
    else
      let odd := (e % 2).toNat
      let m := m <<< odd
      let sh := 130 + 2 * bitLen m
      let q := 2 ^ sh / m
      let r := isqrt q
      { val := .fin false r (-((sh / 2 : Nat) : Int) - (e - odd) / 2), sticky := decide (r * r * m ≠ 2 ^ sh),
        flags := FpFlags.none }

/-! ## Intervals in fixed point: `lo ≤ x × 2^w ≤ hi` -/

/-- An interval of integers in units of 2^(−w). -/
structure Iv where
  lo : Int
  hi : Int
  deriving DecidableEq, Repr

/-- Terms of a series `t, t×z/d₁, …` truncated to integers: the sum of the first `n`, from term `t`. -/
def expTerms (w : Nat) (z : Nat) : Nat → Nat → Nat → Nat → Nat
  | 0, _, _, acc => acc
  | n + 1, k, t, acc => expTerms w z n (k + 1) (((t * z) >>> w) / (k + 1)) (acc + t)

/-- e^z for 0 ≤ z < 1 given as an integer below 2^w: below, and above by the cuts and the tail. -/
def expUnit (w z : Nat) : Iv :=
  let n := w / 2 + 8
  let s := expTerms w z n 0 (2 ^ w) 0
  { lo := (s : Int), hi := (s : Int) + 3 * (n : Int) + 4 }

/-- The sum of z^(2k+1) / (2k+1), truncated. -/
def atanhTerms (w : Nat) (z2 : Nat) : Nat → Nat → Nat → Nat → Nat
  | 0, _, _, acc => acc
  | n + 1, k, p, acc => atanhTerms w z2 n (k + 1) ((p * z2) >>> w) (acc + p / (2 * k + 1))

/-- ln m for m = 1 + t in [1, 2), `num / den` = m: twice atanh((m − 1)/(m + 1)). -/
def lnUnit (w num den : Nat) : Iv :=
  let z := ((num - den) <<< w) / (num + den)
  let n := w / 2 + 8
  let s := atanhTerms w ((z * z) >>> w) n 0 z 0
  { lo := (2 * s : Nat), hi := (2 * s : Nat) + 12 * (n : Int) + 16 }

/-- ln 2. -/
def ln2Iv (w : Nat) : Iv := lnUnit w 2 1

/-- The product of two intervals of which the first is not negative, in the same units. -/
def Iv.mul (w : Nat) (a b : Iv) : Iv :=
  let u : Int := (2 ^ w : Nat)
  let lo := if 0 ≤ b.lo then a.lo * b.lo else a.hi * b.lo
  let hi := if 0 ≤ b.hi then a.hi * b.hi else a.lo * b.hi
  { lo := lo / u, hi := hi / u + 1 }

/-- The quotient of an interval by a positive one. -/
def Iv.div (w : Nat) (a b : Iv) : Iv :=
  let u : Int := (2 ^ w : Nat)
  let lo := if 0 ≤ a.lo then a.lo * u / b.hi else a.lo * u / b.lo
  let hi := if 0 ≤ a.hi then a.hi * u / b.lo else a.hi * u / b.hi
  { lo := lo, hi := hi + 1 }

def Iv.add (a b : Iv) : Iv := { lo := a.lo + b.lo, hi := a.hi + b.hi }

/-- A dyadic number in units of 2^(−w). -/
def dyIv (w : Nat) (i : Int) (e : Int) : Iv :=
  let k := e + (w : Int)
  if 0 ≤ k then { lo := i * (pow2 k : Int), hi := i * (pow2 k : Int) }
  else
    let d : Int := (pow2 (-k) : Int)
    { lo := i / d, hi := i / d + 1 }

/-- What an interval result becomes when both ends agree on their bits above the guard bits: a signed magnitude with
a sticky mark and an exponent. -/
def agreed (w guard : Nat) (shift : Int) (v : Iv) : Option Raw :=
  let g : Int := (2 ^ guard : Nat)
  let neg := decide (v.hi < 0)
  let a := if neg then -v.hi else v.lo
  let b := if neg then -v.lo else v.hi
  if 0 < a ∧ a / g = b / g ∧ a / g ≠ 0 ∧ 64 ≤ bitLen (a / g).toNat then
    some { val := .fin neg (a / g).toNat ((guard : Int) - (w : Int) + shift), sticky := true, flags := FpFlags.none }
  else none

/-- The working widths, tried in turn. -/
def widths : List Nat := [160, 256, 512, 1024, 2048]

/-- The first width at which the interval decides. -/
def refine (f : Nat → Option Raw) : Raw := (widths.findSome? f).getD (.exact .nan)

/-- A magnitude just above 2^k, or just below it. -/
def justAbove (k : Int) : Raw := { val := .fin false (2 ^ 80) (k - 80), sticky := true, flags := FpFlags.none }
def justBelow (k : Int) : Raw := { val := .fin false (2 ^ 80 - 1) (k - 80), sticky := true, flags := FpFlags.none }

/-- 2^y for an interval y in units of 2^(−w): 2^n × e^(f ln 2). -/
def exp2Iv (w : Nat) (y : Iv) : Option Raw :=
  let u : Int := (2 ^ w : Nat)
  let n := y.lo / u
  let fl := y.lo - n * u
  let fh := y.hi - n * u
  if u ≤ fh then none
  else
    let l := ln2Iv w
    let zl := (fl * l.lo / u).toNat
    let zh := (fh * l.hi / u + 1).toNat
    agreed w 40 n { lo := (expUnit w zl).lo, hi := (expUnit w zh).hi }

/-- 2^x. -/
def exp2Raw : Val → Raw
  | .nan => .exact .nan
  | .inf n => .exact (if n then .fin false 0 0 else .inf false)
  | .fin n m e =>
    if m = 0 then .exact (.fin false 1 0)
    else if 10 ≤ e + (bitLen m : Int) then (if n then justAbove (-1024) else justAbove 1024)
    else if e + (bitLen m : Int) < -90 then (if n then justBelow 0 else justAbove 0)
    else
      let i := signedInt n m
      if 0 ≤ e then .exact (.fin false 1 (i * (pow2 e : Int)))
      else
        let d : Int := (pow2 (-e) : Int)
        if i % d = 0 then .exact (.fin false 1 (i / d)) else refine (fun w => exp2Iv w (dyIv w i e))

/-- e^x. -/
def expRaw : Val → Raw
  | .nan => .exact .nan
  | .inf n => .exact (if n then .fin false 0 0 else .inf false)
  | .fin n m e =>
    if m = 0 then .exact (.fin false 1 0)
    else if 9 ≤ e + (bitLen m : Int) then (if n then justAbove (-1024) else justAbove 1024)
    else if e + (bitLen m : Int) < -90 then (if n then justBelow 0 else justAbove 0)
    else refine (fun w => exp2Iv w ((dyIv w (signedInt n m) e).div w (ln2Iv w)))

/-- ln x in units of 2^(−w), for x = m × 2^e > 0. -/
def lnIv (w m : Nat) (e : Int) : Iv :=
  let b := bitLen m - 1
  let k := e + (b : Int)
  let u := lnUnit w m (2 ^ b)
  let l := ln2Iv w
  let kl : Iv := if 0 ≤ k then { lo := k * l.lo, hi := k * l.hi } else { lo := k * l.hi, hi := k * l.lo }
  u.add kl

/-- ln x. -/
def logRaw : Val → Raw
  | .nan => .exact .nan
  | .inf n => if n then .bad else .exact (.inf false)
  | .fin n m e =>
    if m = 0 then .byZero (.inf true)
    else if n then .bad
    else if Val.cmp (.fin false m e) (.fin false 1 0) = some .eq then .exact Val.zero
    else refine (fun w => agreed w 40 0 (lnIv w m e))

/-- log2 x. -/
def log2Raw : Val → Raw
  | .nan => .exact .nan
  | .inf n => if n then .bad else .exact (.inf false)
  | .fin n m e =>
    if m = 0 then .byZero (.inf true)
    else if n then .bad
    else
      let b := bitLen m - 1
      if m = 2 ^ b then .exact (Val.ofInt (e + (b : Int)) 0)
      else
        refine (fun w =>
          let u := (lnUnit w m (2 ^ b)).div w (ln2Iv w)
          agreed w 40 0 (u.add (dyIv w (e + (b : Int)) 0)))

/-- tanh x = 1 − 2 / (e^(2x) + 1); for a tiny x it lies just below x in magnitude. -/
def tanhRaw : Val → Raw
  | .nan => .exact .nan
  | .inf n => .exact (.fin n 1 0)
  | .fin n m e =>
    if m = 0 then .exact (.fin n 0 0)
    else if e + (bitLen m : Int) < -45 then
      { val := .fin n ((m <<< 80) - 1) (e - 80), sticky := true, flags := FpFlags.none }
    else if 7 ≤ e + (bitLen m : Int) then { justBelow 0 with val := .fin n (2 ^ 80 - 1) (-80) }
    else
      let r := refine (fun w =>
        let u : Int := (2 ^ w : Nat)
        match exp2Iv w ((dyIv w (m : Int) (e + 1)).div w (ln2Iv w)) with
        | some { val := .fin _ em ee, .. } =>
          let k := ee + (w : Int)
          let x : Iv :=
            if 0 ≤ k then { lo := (em : Int) * (pow2 k : Int), hi := ((em : Int) + 1) * (pow2 k : Int) }
            else { lo := (em : Int) / (pow2 (-k) : Int), hi := (em : Int) / (pow2 (-k) : Int) + 1 }
          agreed w 40 0
            { lo := (x.lo - u) * u / (x.lo + u), hi := (x.hi - u) * u / (x.hi + u) + 1 }
        | _ => none)
      match r.val with
      | .fin _ rm re => { r with val := .fin n rm re }
      | _ => r

end Sys2Proof.Machine
end

