-- ==== Sys2Proof/Machine/Ops.lean ====
section
/-!
DEFINITION. Named access to the units of the state, the free values, and the queue of records that the dies raise
(R40). Every read and write of a unit goes through here.
-/

namespace Sys2Proof.Machine

/-- What a command's meaning answers. -/
abbrev Out := Host.Outcome State Fault Refusal

/-! ## Units -/

/-- The key of a cluster. -/
def clusterKey (die phys : Nat) : Nat := die * 256 + phys

def State.cluster (s : State) (die phys : Nat) : Cluster := s.clusters.get Cluster.dflt (clusterKey die phys)
def State.setCluster (s : State) (die phys : Nat) (c : Cluster) : State :=
  { s with clusters := s.clusters.set Cluster.dflt (clusterKey die phys) c }
/-- The same by key. -/
def State.clusterAt (s : State) (k : Nat) : Cluster := s.clusters.get Cluster.dflt k
def State.setClusterAt (s : State) (k : Nat) (c : Cluster) : State :=
  { s with clusters := s.clusters.set Cluster.dflt k c }
def State.modCluster (s : State) (die phys : Nat) (f : Cluster → Cluster) : State :=
  s.setCluster die phys (f (s.cluster die phys))

def State.berth (s : State) (n : Nat) : Berth := s.berths.get (fun _ => Berth.zero) n
def State.setBerth (s : State) (n : Nat) (b : Berth) : State :=
  { s with berths := s.berths.set (fun _ => Berth.zero) n b }
def State.modBerth (s : State) (n : Nat) (f : Berth → Berth) : State := s.setBerth n (f (s.berth n))

def State.part (s : State) (p : Nat) : Part := s.parts.get (fun _ => Part.zero) p
def State.setPart (s : State) (p : Nat) (x : Part) : State :=
  { s with parts := s.parts.set (fun _ => Part.zero) p x }
def State.modPart (s : State) (p : Nat) (f : Part → Part) : State := s.setPart p (f (s.part p))

def State.run (s : State) (p : Nat) : PartRun := s.runs.get (fun _ => PartRun.zero) p
def State.setRun (s : State) (p : Nat) (x : PartRun) : State :=
  { s with runs := s.runs.set (fun _ => PartRun.zero) p x }
def State.modRun (s : State) (p : Nat) (f : PartRun → PartRun) : State := s.setRun p (f (s.run p))

/-- The step sequencer of a partition. -/
def State.seq (s : State) (p : Nat) : Sequencer := (s.run p).seq
def State.modSeq (s : State) (p : Nat) (f : Sequencer → Sequencer) : State :=
  s.modRun p (fun r => { r with seq := f r.seq })
def State.log (s : State) (p : Nat) : StepLog := (s.run p).log
def State.modLog (s : State) (p : Nat) (f : StepLog → StepLog) : State :=
  s.modRun p (fun r => { r with log := f r.log })
def State.det (s : State) (p : Nat) : Detector := (s.run p).det
def State.modDet (s : State) (p : Nat) (f : Detector → Detector) : State :=
  s.modRun p (fun r => { r with det := f r.det })
def State.stash (s : State) (p : Nat) : Stash := (s.run p).stash
def State.modStash (s : State) (p : Nat) (f : Stash → Stash) : State :=
  s.modRun p (fun r => { r with stash := f r.stash })
def State.lading (s : State) (p : Nat) : Lading := (s.run p).lading
def State.modLading (s : State) (p : Nat) (f : Lading → Lading) : State :=
  s.modRun p (fun r => { r with lading := f r.lading })

def State.link (s : State) (k : Nat) : Link := s.links.get (fun _ => Link.zero) k
def State.setLink (s : State) (k : Nat) (x : Link) : State :=
  { s with links := s.links.set (fun _ => Link.zero) k x }
def State.modLink (s : State) (k : Nat) (f : Link → Link) : State := s.setLink k (f (s.link k))

/-- A link enters DETECT (Table 10.4) after `n` failures in a row to reach LOCK, with the medium that the board states
(R362, HM_LINK_MEDIUM); flits that the peer has not acknowledged stay kept (R363, R371). -/
def Link.detect (l : Link) (media : Word) (k n : Nat) : Link :=
  { l with state := .detect, failures := n, medium := BitVec.ofNat 2 (media.toNat / 4 ^ k) }
def State.detectLink (s : State) (k n : Nat) : State := s.modLink k (fun l => l.detect s.hm.linkMedium k n)

def State.linkCtr (s : State) (k : Nat) : LinkCounters := s.linkCtrs.get (fun _ => LinkCounters.zero) k
def State.modLinkCtr (s : State) (k : Nat) (f : LinkCounters → LinkCounters) : State :=
  { s with linkCtrs := s.linkCtrs.set (fun _ => LinkCounters.zero) k (f (s.linkCtr k)) }

def State.ptDie (s : State) (d : Nat) : PtDie := s.ptDies.get (fun _ => PtDie.zero) d
def State.modPtDie (s : State) (d : Nat) (f : PtDie → PtDie) : State :=
  { s with ptDies := s.ptDies.set (fun _ => PtDie.zero) d (f (s.ptDie d)) }

def State.modMem (s : State) (f : Mem → Mem) : State := { s with mem := f s.mem }

def State.memDie (s : State) (d : Nat) : MemDie := s.memDies.get (fun _ => MemDie.zero) d
def State.modMemDie (s : State) (d : Nat) (f : MemDie → MemDie) : State :=
  { s with memDies := s.memDies.set (fun _ => MemDie.zero) d (f (s.memDie d)) }

def State.memDieAux (s : State) (d : Nat) : MemDieAux := s.memAux.get (fun _ => MemDieAux.zero) d
def State.modMemDieAux (s : State) (d : Nat) (f : MemDieAux → MemDieAux) : State :=
  { s with memAux := s.memAux.set (fun _ => MemDieAux.zero) d (f (s.memDieAux d)) }

def State.lighter (s : State) (d n : Nat) : Lighter := (s.memDieAux d).lighters.get (fun _ => Lighter.zero) n
def State.modLighter (s : State) (d n : Nat) (f : Lighter → Lighter) : State :=
  s.modMemDieAux d (fun x => { x with lighters := x.lighters.modify (fun _ => Lighter.zero) n f })

def State.session (s : State) (n : Nat) : Session := s.gw.sessions.get (fun _ => Session.closed) n
def State.modSession (s : State) (n : Nat) (f : Session → Session) : State :=
  { s with gw := { s.gw with sessions := s.gw.sessions.modify (fun _ => Session.closed) n f } }

def State.qp (s : State) (n : Nat) : Qp := s.gw.qps.get (fun _ => Qp.none) n
def State.modQp (s : State) (n : Nat) (f : Qp → Qp) : State :=
  { s with gw := { s.gw with qps := s.gw.qps.modify (fun _ => Qp.none) n f } }

def State.drive (s : State) (d : Nat) : Drive := if d = 0 then s.gw.drive0 else s.gw.drive1
def State.modDrive (s : State) (d : Nat) (f : Drive → Drive) : State :=
  if d = 0 then { s with gw := { s.gw with drive0 := f s.gw.drive0 } }
  else { s with gw := { s.gw with drive1 := f s.gw.drive1 } }

def State.timer (s : State) (t : Nat) : Timer := s.hmAux.timers.get (fun _ => Timer.zero) t
def State.modTimer (s : State) (t : Nat) (f : Timer → Timer) : State :=
  { s with hmAux := { s.hmAux with timers := s.hmAux.timers.modify (fun _ => Timer.zero) t f } }

def State.side (s : State) (n : Nat) : Word := s.hmAux.sideCfg.get (fun _ => 0) n
def State.modSide (s : State) (n : Nat) (f : Word → Word) : State :=
  { s with hmAux := { s.hmAux with sideCfg := s.hmAux.sideCfg.modify (fun _ => 0) n f } }

def State.peer (s : State) (n : Nat) : Peer := s.sec.peers.get (fun _ => Peer.none) n
def State.modPeer (s : State) (n : Nat) (f : Peer → Peer) : State :=
  { s with sec := { s.sec with peers := s.sec.peers.modify (fun _ => Peer.none) n f } }

/-! ## Free values -/

/-- Draws a free value (log entry 9): the value, and the state with the count advanced. -/
def State.draw (s : State) : Nat × State := (Config.freeNat s.free, { s with free := s.free + 1 })

/-- Draws `n` free values, each below `m`. -/
def State.draws (m : Nat) : Nat → State → List Nat × State
  | 0, s => ([], s)
  | n + 1, s =>
    let (v, s) := s.draw
    let (vs, s) := State.draws m n s
    (v % m :: vs, s)

/-! ## What the configuration says -/

/-- The committed configuration of a partition. -/
def State.cfg? (s : State) (p : Nat) : Option PartCfg := (s.part p).cfg

/-- A partition runs a job: it is not IDLE and not STANDBY (R424). -/
def PState.live : PState → Bool
  | .idle => false
  | .standby => false
  | _ => true

/-- A partition whose step sequencer runs: in a rewind it comes to the step's instructions again (R424, R443). -/
def PState.steps : PState → Bool
  | .running => true
  | .replaying => true
  | .rewinding => true
  | _ => false

/-- The step of a record (Table 15.7): that of the partition its payload names, else of the lowest-numbered running
partition, else all ones. -/
def State.recordStep (s : State) (part : Option Nat) : DWord :=
  match part with
  | some p => (s.part p).step
  | none =>
    match s.parts.find? (fun e => decide (e.2.state = PState.running)) with
    | some e => e.2.step
    | none => BitVec.allOnes 64

/-! ## Records raised by the dies (R40) -/

/-- Event reporting runs: the management firmware is up and not restarting (R503, R522, R529). -/
def State.reporting (s : State) : Bool := bit s.hm.ready 1 && !s.hmAux.restarting

/-- The record of an event raised now (Table 15.7). -/
def State.record (s : State) (code die : Nat) (part : Option Nat) (payload : Bytes) (noBerth : Bool) : EventRec :=
  { code := BitVec.ofNat 16 code, die := BitVec.ofNat 4 die, flags := 0, payload := payload, seq := 0,
    time := s.hm.time, step := s.recordStep part, noBerth := noBerth }

/-- Holds a record over a boot, without limit, or over a management restart, at most 32 from each die (R503, R522). -/
def State.hold (s : State) (r : EventRec) : State :=
  if s.hmAux.restarting then
    if (s.events.held.filter (fun x => decide (x.die = r.die))).length < 32 then
      { s with events := { s.events with held := s.events.held ++ [{ r with flags := 2 }] } }
    else { s with events := { s.events with lost := satAdd s.events.lost 1 } }
  else { s with events := { s.events with held := s.events.held ++ [{ r with flags := 1 }] } }

/-- A die other than the Harbourmaster raises an event: the record goes onto the management ring, or is held. -/
def State.raiseDie (s : State) (code die : Nat) (part : Option Nat) (payload : Bytes) (noBerth : Bool := false) :
    State :=
  let r := s.record code die part payload noBerth
  if s.reporting then { s with events := { s.events with ring := s.events.ring ++ [r] } } else s.hold r

/-- The package die index of a compute die, of the Gateway and of a link die (R20). -/
def cdIndex (die : Nat) : Nat := die + 6
def gwIndex : Nat := 1
def ldIndex (ld : Nat) : Nat := ld + 2

end Sys2Proof.Machine
end

