-- ==== Sys2Proof/Machine/Memory.lean ====
section
/-!
DEFINITION. The memories (08): bytes of the near tier, the Yard scratchpad and the hold tier, addressed as Table 8.2
gives; poison; the regions of a partition; the region fault. An unlisted byte reads as 0 (log entry 4).
-/

namespace Sys2Proof.Machine

/-- A memory's bytes: Host.Cell pairs in canonical form. -/
abbrev Cells := List Host.Cell

/-- What an unlisted byte reads as. -/
def unlisted : Nat → BitVec 8 := fun _ => 0

/-- The canonical form: addresses strictly rising, no listed byte 0. -/
def Cells.wf (m : Cells) : Bool := Sparse.wf unlisted m

/-- The byte at an address. -/
def Cells.byte (m : Cells) (a : Nat) : Byte := Sparse.get unlisted m a

/-- The bytes from an address. -/
def Cells.read (m : Cells) (a n : Nat) : Bytes :=
  let w : Cells := m.filter (fun c => decide (a ≤ c.1) && decide (c.1 < a + n))
  (List.range n).map (fun i => Cells.byte w (a + i))

/-- Bytes as cells from an address, zero bytes left out. -/
def Cells.ofBytes : Nat → Bytes → Cells
  | _, [] => []
  | a, b :: bs => if b = 0 then Cells.ofBytes (a + 1) bs else (a, b) :: Cells.ofBytes (a + 1) bs

/-- The cells of `n` addresses from `a` replaced by `mid`, which lies within them. -/
def Cells.put (m : Cells) (a n : Nat) (mid : Cells) : Cells :=
  m.filter (fun c => decide (c.1 < a)) ++ mid ++ m.filter (fun c => decide (a + n ≤ c.1))

/-- A write of bytes. -/
def Cells.write (m : Cells) (a : Nat) (b : Bytes) : Cells := m.put a b.length (Cells.ofBytes a b)

/-- The cells of `n` addresses from `a`, moved to start at `to`. -/
def Cells.moved (m : Cells) (a n dest : Nat) : Cells :=
  (m.filter (fun c => decide (a ≤ c.1) && decide (c.1 < a + n))).map (fun c => (c.1 - a + dest, c.2))

/-- `n` bytes from `a` cleared to zero. -/
def Cells.clear (m : Cells) (a n : Nat) : Cells := m.put a n []

/-- The three memories of Table 8.2. -/
inductive Space where
  | near | yard | hold
  deriving DecidableEq, Repr

/-- The space of a kind code (Table 8.2). -/
def spaceOf : Nat → Option Space
  | 1 => some .near
  | 2 => some .yard
  | 3 => some .hold
  | _ => none

/-- The kind code of a space. -/
def Space.code : Space → Nat
  | .near => 1
  | .yard => 2
  | .hold => 3

/-- The canonical form of every memory. -/
def Memory.wf (m : Mem) : Bool := Cells.wf m.near && Cells.wf m.yard && Cells.wf m.hold

/-- Bits of the offset within a unit (Table 8.2). -/
def Space.offsetBits : Space → Nat
  | .near => 36
  | .yard => 27
  | .hold => 36

/-- Bytes of a codeword (Table 8.9). -/
def Space.codeword : Space → Nat
  | .near => 32
  | .yard => 8
  | .hold => 64

/-- The unit (stack, die or logical hold device) and the offset of an address. -/
def Space.unit (sp : Space) (a : Nat) : Nat := a >>> sp.offsetBits
def Space.offset (sp : Space) (a : Nat) : Nat := a % 2 ^ sp.offsetBits

def Mem.cells (m : Mem) : Space → Cells
  | .near => m.near
  | .yard => m.yard
  | .hold => m.hold

def Mem.setCells (m : Mem) : Space → Cells → Mem
  | .near, c => { m with near := c }
  | .yard, c => { m with yard := c }
  | .hold, c => { m with hold := c }

def Mem.poison (m : Mem) : Space → List Nat
  | .near => m.nearPoison
  | .yard => m.yardPoison
  | .hold => m.holdPoison

def Mem.setPoison (m : Mem) : Space → List Nat → Mem
  | .near, l => { m with nearPoison := l }
  | .yard, l => { m with yardPoison := l }
  | .hold, l => { m with holdPoison := l }

/-- One byte of a memory: the read every frame statement is made of. -/
def State.byte (s : State) (sp : Space) (a : Nat) : Byte := Cells.byte (s.mem.cells sp) a

/-- Bytes of a memory. -/
def State.bytes (s : State) (sp : Space) (a n : Nat) : Bytes := Cells.read (s.mem.cells sp) a n

/-- Replaces the cells of a range, clearing the poison of the codewords that lie wholly in it (R318). -/
def State.putCells (s : State) (sp : Space) (a n : Nat) (mid : Cells) : State :=
  let keep := (s.mem.poison sp).filter (fun p => !(decide (a ≤ p) && decide (p + sp.codeword ≤ a + n)))
  { s with mem := (s.mem.setCells sp ((s.mem.cells sp).put a n mid)).setPoison sp keep }

/-- Writes bytes. -/
def State.store (s : State) (sp : Space) (a : Nat) (b : Bytes) : State :=
  s.putCells sp a b.length (Cells.ofBytes a b)

/-- Clears bytes to zero. -/
def State.clearBytes (s : State) (sp : Space) (a n : Nat) : State := s.putCells sp a n []

/-- Copies a range of one memory to a range of a memory. -/
def State.copyBytes (s : State) (src : Space) (a : Nat) (dst : Space) (dest n : Nat) : State :=
  s.putCells dst dest n (Cells.moved (s.mem.cells src) a n dest)

/-- Some codeword that the range touches is poisoned (R318). -/
def State.poisoned (s : State) (sp : Space) (a n : Nat) : Bool :=
  (s.mem.poison sp).any (fun p => decide (p < a + n) && decide (a < p + sp.codeword))

/-- The first of them. -/
def State.firstPoison (s : State) (sp : Space) (a n : Nat) : Option Nat :=
  ((s.mem.poison sp).filter (fun p => decide (p < a + n) && decide (a < p + sp.codeword))).min?

/-- Poisons the codewords that the range touches. -/
def State.poisonAt (s : State) (sp : Space) (a n : Nat) : State :=
  let first := a / sp.codeword
  let new := (List.range (ceilDiv (a % sp.codeword + n) sp.codeword)).map (fun i => (first + i) * sp.codeword)
  let old := s.mem.poison sp
  { s with mem := s.mem.setPoison sp (old ++ new.filter (fun p => !old.contains p)) }

/-- Every byte of the range lies in its kind's range (R280). -/
def State.inSpace (s : State) (sp : Space) (a n : Nat) : Bool :=
  let u := sp.unit a
  let e := sp.offset a + n
  match sp with
  | .near => decide (u < 8) && decide (e ≤ 0xFE0000000)
  | .yard => decide (u < 8) && decide (e ≤ (s.memDie u).scratch * 0x800000)
  | .hold => decide (u < 16) && decide (e ≤ if u = 0 then 0xFFA000000 else 0x1000000000)

/-! ## Regions (R284 to R286) -/

/-- The rights of Table 8.3. -/
inductive Right where
  | read | write | add
  deriving DecidableEq, Repr

def Region.grants (r : Region) (lighter : Bool) : Right → Bool
  | .read => r.read && (lighter || !r.lightersOnly)
  | .write => r.write && (lighter || !r.lightersOnly)
  | .add => r.add && (lighter || !r.lightersOnly)

/-- The address of a region's first byte and of the byte after its last. -/
def Region.lo (r : Region) : Nat :=
  match spaceOf r.kind with
  | some sp => r.unit * 2 ^ sp.offsetBits + r.base * 4096
  | none => 0
def Region.hi (r : Region) : Nat := r.lo + r.size * 4096

/-- Walks from entry to entry: every byte from `a` to `e` lies in one of the entries. -/
def coveredFrom (rs : List Region) (e : Nat) : Nat → Nat → Bool
  | 0, a => decide (e ≤ a)
  | fuel + 1, a =>
    if e ≤ a then true
    else
      match rs.find? (fun r => decide (r.lo ≤ a) && decide (a < r.hi)) with
      | none => false
      | some r => coveredFrom rs e fuel r.hi

/-- Every byte of the range lies in an entry, of the range's kind and unit, that grants the right (R286). -/
def regionsGrant (rs : List Region) (lighter : Bool) (sp : Space) (right : Right) (a n : Nat) : Bool :=
  let mine := rs.filter (fun r => decide (r.kind = sp.code) && decide (r.unit = sp.unit a) && r.grants lighter right)
  coveredFrom mine (a + n) mine.length a

/-- The access is inside the partition's regions (R286) and its kind's range (R280). -/
def State.mayAccess (s : State) (p : Nat) (lighter : Bool) (sp : Space) (right : Right) (a n : Nat) : Bool :=
  match s.cfg? p with
  | none => false
  | some c => s.inSpace sp a n && regionsGrant c.program.regions lighter sp right a n

/-- A refused access (R286): counted, and event 0x9010 from the compute die. -/
def State.regionFault (s : State) (die p requester addr : Nat) : State :=
  let s := { s with mem := { s.mem with regionFaults := satAdd s.mem.regionFaults 1 } }
  s.raiseDie 0x9010 (cdIndex die) (some p) (natLe 1 p ++ natLe 2 requester ++ natLe 8 addr)

/-! ## The Yard cache (R296 to R300)

The bytes of `Mem.near` are those a reader receives, from a line or from the DRAM: R297 makes a hit, a miss and an eviction
change no value. What the cache holds decides its counters, R298 and R319 (log entry 71). -/

/-- Ways of a set. -/
def cacheWays : Nat := 16

/-- Sets of a die's cache (R296). -/
def State.cacheSets (s : State) (die : Nat) : Nat := (12 - (s.memDie die).scratch) * 4096

def State.cache (s : State) (die : Nat) : YardCache := s.mem.caches.get (fun _ => YardCache.zero) die
def State.modCache (s : State) (die : Nat) (f : YardCache → YardCache) : State :=
  { s with mem := { s.mem with caches := s.mem.caches.modify (fun _ => YardCache.zero) die f } }

/-- The line of a near-tier address: its number within the stack, 128 bytes each. -/
def lineOf (a : Nat) : Nat := Space.near.offset a / 128

/-- The lines that `n` bytes from `a` touch. -/
def linesOf (a n : Nat) : List Nat :=
  (List.range (ceilDiv (a % 128 + n) 128)).map (fun i => lineOf a + i)

/-- The way that a pseudo-LRU tree of 15 nodes points at: a node's bit set points right. -/
def plruWay (tree : Nat) : Nat :=
  (List.range 4).foldl (fun n _ => 2 * n + 1 + b2n (tree.testBit n)) 0 - 15

/-- The tree after a use of a way: every node on its path points away from it. -/
def plruUse (tree way : Nat) : Nat :=
  ((List.range 4).foldl (fun (x : Nat × Nat) i =>
    let right := way.testBit (3 - i)
    let clear := x.1 - (if x.1.testBit x.2 then 2 ^ x.2 else 0)
    (if right then clear else clear + 2 ^ x.2, 2 * x.2 + 1 + b2n right)) (tree, 0)).1

/-- The way a new line of a set takes: one that is empty, else the one the tree points at. -/
def YardCache.wayFor (c : YardCache) (set : Nat) : Nat :=
  match (List.range cacheWays).find? (fun w => !c.lines.any (fun x => decide (x.set = set) && decide (x.way = w))) with
  | some w => w
  | none => plruWay (c.plru.get (fun _ => 0) set)

def YardCache.use (c : YardCache) (set way : Nat) : YardCache :=
  { c with plru := c.plru.modify (fun _ => 0) set (fun t => plruUse t way) }

/-- Lines leave the cache, the dirty ones written back first (R298, R300). -/
def YardCache.give (c : YardCache) (goes : CacheLine → Bool) : YardCache :=
  { c with
    lines := c.lines.filter (fun x => !goes x)
    writebacks := satAdd c.writebacks (c.lines.filter (fun x => goes x && x.dirty)).length }

/-- One access of a line (R296, R297): a hit is served from it; a miss allocates it where it may. -/
def YardCache.access (c : YardCache) (set line : Nat) (write alloc : Bool) : YardCache :=
  match c.lines.find? (fun x => decide (x.line = line)) with
  | some x =>
    { c.use set x.way with
      lines := c.lines.map (fun y => if y.line = line then { y with dirty := y.dirty || write } else y)
      hits := satAdd c.hits 1 }
  | none =>
    let c := { c with misses := satAdd c.misses 1 }
    if !alloc then c
    else
      let w := c.wayFor set
      let c := (c.give (fun x => decide (x.set = set) && decide (x.way = w))).use set w
      { c with lines := c.lines ++ [{ line := line, set := set, way := w, dirty := write }] }

/-- How an access reaches the near tier: through the Yard cache, for a partition, allocating lines or not (`no_alloc`,
R297). -/
structure Via where
  part    : Nat
  noAlloc : Bool
  deriving DecidableEq, Repr

/-- A miss at an address allocates a line: the region entry that holds it allows it (R286, R297). -/
def State.allocates (s : State) (v : Via) (a : Nat) : Bool :=
  !v.noAlloc && !(((s.cfg? v.part).map (fun c => c.program.regions)).getD []).any (fun r =>
    decide (r.kind = 1) && decide (r.lo ≤ a) && decide (a < r.hi) && r.noCache)

/-- `n` bytes from `a` pass the cache of the die that owns the stack (R279, R297): none where the memory is another, or
the die has no cache. -/
def State.touch (s : State) (v : Via) (write : Bool) (sp : Space) (a n : Nat) : State :=
  let die := sp.unit a
  let sets := s.cacheSets die
  if sp ≠ .near ∨ sets = 0 then s
  else s.modCache die (fun c => (linesOf a n).foldl (fun c l =>
    c.access (Config.cacheSet sets l % sets) l write (s.allocates v (die * 2 ^ 36 + l * 128))) c)

/-- The cached line of a near-tier address. -/
def State.lineAt (s : State) (a : Nat) : Option CacheLine :=
  (s.cache (Space.near.unit a)).lines.find? (fun x => decide (x.line = lineOf a))

/-- The lines of `n` bytes from `a` are written back where dirty, and invalidated: before an adder reads (R298). -/
def State.yieldLines (s : State) (a n : Nat) : State :=
  s.modCache (Space.near.unit a) (fun c => c.give (fun x => (linesOf a n).contains x.line))

/-- Every line of a die's cache is written back where dirty, and gone (R300; log entry 71). -/
def State.emptyCache (s : State) (die : Nat) : State :=
  s.modCache die (fun c => { c.give (fun _ => true) with plru := [] })

/-! ## Where a near-tier byte lies (R282) -/

/-- The pseudo-channel of a near-tier offset. -/
def pseudoChannel (offset : Nat) : Nat :=
  let g := offset >>> 8
  (g % 256) ^^^ ((g >>> 8) % 256)

/-- The row within the pseudo-channel: 2 KiB rows of its local bytes (R282, R321). -/
def rowOf (offset : Nat) : Nat := ((((offset >>> 8) >>> 8) <<< 8) + offset % 256) / 2048

/-- The bank of a row: 8,128 data rows each (R323; log entry 31). -/
def bankOf (row : Nat) : Nat := row / 8128

/-- The near-tier address of a row's first byte, the inverse of `pseudoChannel` and `rowOf`: eight granules of 256
bytes, in eight successive blocks of 64 KiB, make a row. -/
def rowGranules (stack pc row : Nat) : List Nat :=
  (List.range 8).map (fun i =>
    let hiG := row * 8 + i
    let lowG := pc ^^^ (hiG % 256)
    stack * 2 ^ 36 + ((hiG <<< 8) + lowG) * 256)

/-- The row in copy of a bank after so many ticks (R323): a row's 64 sectors are read and written at half the
pseudo-channel's rate, in 256 NEAR_CLK cycles, of which a tick of 10 ns has 31.25. -/
def copyRow (bank ticks : Nat) : Option Nat :=
  let i := ticks * 3125 / 25600
  if i < 8128 then some (bank * 8128 + i) else none

/-- The rows that are locked: in repair (R322), and in copy of a bank (R323). -/
def Mem.lockedRows (m : Mem) : List (Nat × Nat × Nat) :=
  m.locked ++ m.bankTicks.filterMap (fun b => (copyRow b.1.2.2 b.2).map (fun r => (b.1.1, b.1.2.1, r)))

/-- Some byte of the range lies in a row that is locked: a request to it waits (R322). -/
def State.rowLocked (s : State) (sp : Space) (a n : Nat) : Bool :=
  decide (sp = .near) && s.mem.lockedRows.any (fun k =>
    (rowGranules k.1 k.2.1 k.2.2).any (fun g => decide (g < a + n) && decide (a < g + 256)))

end Sys2Proof.Machine
end

