-- ==== Sys2Proof/Machine/Berths.lean ====
section
/-!
DEFINITION. Berths (09): configuration fields, admission of producers, the three kinds, packing, levels, credits,
flush. The events that a berth raises come from the Gateway's berth engine.
-/

namespace Sys2Proof.Machine

/-! ## Configuration (Tables 9.7 to 9.10) -/

def BerthCfg.kindOf (c : BerthCfg) : Nat := bits c.kind 1 0
def BerthCfg.writeWidth (c : BerthCfg) : Nat := 2 ^ (bits c.kind 5 2 + 2)
def BerthCfg.readWidth (c : BerthCfg) : Nat := 2 ^ (bits c.kind 9 6 + 2)
def BerthCfg.partition (c : BerthCfg) : Nat := bits c.kind 17 12
def BerthCfg.ringAddr (c : BerthCfg) : Nat := (bits c.ringHi 1 0) * 2 ^ 37 + c.ringLo.toNat * 32
def BerthCfg.ringSpace (c : BerthCfg) : Space := if bits c.ringHi 3 2 = 2 then .yard else .near
def BerthCfg.capacity (c : BerthCfg) : Nat := 2 ^ bits c.ringHi 8 4
def BerthCfg.levelOf (c : BerthCfg) : Nat := bits c.level 23 0
def BerthCfg.noticeBerth (c : BerthCfg) : Nat := bits c.links 13 0
def BerthCfg.noticeEvent (c : BerthCfg) : Bool := bit c.links 14
def BerthCfg.producer (c : BerthCfg) : Nat := bits c.links 31 16
def BerthCfg.creditBatch (c : BerthCfg) : Nat := bits c.creditCfg 20 0
def BerthCfg.consumerId (c : BerthCfg) : Nat := bits c.consumer 15 0
def BerthCfg.slotSize (c : BerthCfg) : Nat := 32 + c.readWidth
def BerthCfg.slotAddr (c : BerthCfg) (i : Nat) : Nat := c.ringAddr + i * c.slotSize

/-- A configuration word of a berth, RWL (Tables 9.7 to 9.10). -/
def BerthCfg.setWord (c : BerthCfg) (i : Nat) (v : Word) : BerthCfg :=
  match i with
  | 0 => { c with kind := v &&& 0x3FFFF }
  | 1 => { c with ringLo := v }
  | 2 => { c with ringHi := v &&& 0x1FF }
  | 3 => { c with level := v &&& 0xFFFFFF }
  | 4 => { c with links := v &&& 0xFFFF7FFF }
  | 5 => { c with creditCfg := v &&& 0x1FFFFF }
  | 6 => { c with consumer := v &&& 0xFFFF }
  | _ => c

/-- Kinds of Table 9.1. -/
def kindTensor : Nat := 1
def kindCommand : Nat := 2
def kindMarked : Nat := 3

/-! ## Identities (Table 9.3) -/

def idContext (die logical ctx : Nat) : Nat := die * 2048 + logical * 8 + ctx
def idLighter (die n : Nat) : Nat := 0x4000 + (die + 6) * 256 + n
def idUnit (die unit : Nat) : Nat := 0x4000 + die * 256 + unit
def idSession (n : Nat) : Nat := 0xC000 + n
def idSequencer : Nat := 0x4100
def idFetch : Nat := 0x4101
def idCct : Nat := 0x4102
def idBerthEngine : Nat := 0x4103
def idJournal : Nat := 0x4000
def idConcentrator : Nat := 0x4001

def isSession (id : Nat) : Bool := decide (id / 0x4000 = 3)
/-- An on-package unit of the Gateway or the Harbourmaster. -/
def isSpine (id : Nat) : Bool := decide (id / 0x4000 = 1) && decide ((id / 256) % 64 < 2)
def isUnit (id : Nat) : Bool := decide (id / 0x4000 = 1)
def isContext (id : Nat) : Bool := decide (id / 0x4000 = 0)
def isLighterId (id : Nat) : Bool := isUnit id && within 6 13 ((id / 256) % 64) && decide (id % 256 < 16)

/-- The consumer is a cluster context or a lighter: the berth is an intake (R331). -/
def BerthCfg.intake (c : BerthCfg) : Bool := isContext c.consumerId || isLighterId c.consumerId

/-- The physical cluster of a die that carries a logical number. -/
def State.physOf (s : State) (die logical : Nat) : Option Nat :=
  (List.range 256).find? (fun c => decide ((s.cluster die c).logical = some (BitVec.ofNat 8 logical)))

/-- The configuration under which the oldest item is taken: the old one while its items remain (R76). -/
def Berth.front (b : Berth) : BerthCfg := if b.oldItems = 0 then b.cfg else b.old.getD b.cfg

/-- The berth that feeds a consumer: the one of its partition that names it. -/
def State.intakeOf (s : State) (consumer : Nat) : Option Nat :=
  (s.berths.find? (fun e => decide (e.2.front.kindOf ≠ 0) && decide (e.2.front.consumerId = consumer))).map (·.1)

/-- A producer is admitted to a partition (R334); `serves` is the partition of a reduction engine's group. -/
def State.admitted (s : State) (producer part serves : Nat) : Bool :=
  if producer = idBerthEngine then false
  else
    match producer / 0x4000 with
    | 3 => true
    | 0 =>
      match s.physOf (producer / 2048) ((producer / 8) % 256) with
      | none => false
      | some c =>
        (s.cluster (producer / 2048) c).ctxs.any
          (fun x => decide (x.id = producer % 8) && decide (x.part.toNat = part))
    | 1 =>
      if isSpine producer then true
      else if isLighterId producer then
        match s.intakeOf producer with
        | none => false
        | some n => decide ((s.berth n).cfg.partition = part)
      else decide (serves = part)
    | _ => false

/-- A write to a berth is refused (R356, R329). -/
def State.berthRefuses (s : State) (n : Nat) (m : BerthMsg) : Bool :=
  let c := (s.berth n).cfg
  let prod := m.producer.toNat
  let cls := m.cls.toNat
  let free := decide (c.kindOf = kindMarked) && (isSpine prod || isSession prod)
  decide (c.kindOf = 0) || !(s.admitted prod c.partition m.serves.toNat)
    || (decide (c.producer ≠ 0xFFFF) && decide (c.producer ≠ prod) && !free)
    || (isContext c.consumerId && decide (cls ≠ 1) && decide (cls ≠ 2))
    || (isLighterId c.consumerId && decide (cls ≠ 3))
    || (isUnit prod && decide (c.kindOf ≠ kindMarked)
        && (decide (cls = 5) || decide (prod = idConcentrator) || (decide (prod = idCct) && decide (cls = 8))))

/-! ## Slots -/

/-- An item as its consumer takes it (Table 9.2). -/
structure Item where
  cls      : Nat
  flags    : Nat
  valid    : Nat
  tag      : Nat
  producer : Nat
  seq      : DWord
  step     : DWord
  drops    : Nat
  payload  : Bytes
  slot     : Nat
  poisoned : Bool
  deriving DecidableEq, Repr

/-- The slot header of Table 9.2. -/
def slotHeader (cls flags valid tag producer : Nat) (seq step : DWord) (drops : Nat) : Bytes :=
  natLe 1 cls ++ natLe 1 flags ++ natLe 2 valid ++ natLe 1 tag ++ [0] ++ natLe 2 producer ++ wordLe 8 seq
    ++ wordLe 8 step ++ natLe 4 drops ++ zeros 4

/-- An event of the berth engine about berth `n`; `quiet` is the event berth whose own write is under way. -/
def State.raiseBerth (s : State) (quiet : Option Nat) (n code : Nat) (more : Bytes) : State :=
  s.raiseDie code gwIndex none (natLe 2 n ++ more) (decide (quiet = some n))

/-- Two configurations have one ring: its memory, first byte, slot size and capacity are the same (R352). -/
def BerthCfg.sameRing (a b : BerthCfg) : Bool :=
  decide (a.ringSpace = b.ringSpace) && decide (a.ringAddr = b.ringAddr) && decide (a.slotSize = b.slotSize)
    && decide (a.capacity = b.capacity)

/-- Credits granted under the old configuration count against the new one (R352): tensor berths of one capacity. -/
def BerthCfg.creditsCarry (old new : BerthCfg) : Bool :=
  decide (old.kindOf = kindTensor) && decide (new.kindOf = kindTensor) && decide (old.capacity = new.capacity)

/-- Slots of the current ring in use: items of the old descriptor count only where the rings are one (R352). -/
def Berth.inRing (b : Berth) : Nat :=
  match b.old with
  | some o => if o.sameRing b.cfg then b.occupancy else b.occupancy - b.oldItems
  | none => b.occupancy

/-- The way of a ring's accesses to the near tier: the region that holds the ring says what is cached (R286, R332). -/
def BerthCfg.via (c : BerthCfg) : Via := { part := c.partition, noAlloc := false }

/-- Bytes written into a ring. -/
def State.ringStore (s : State) (c : BerthCfg) (a : Nat) (b : Bytes) : State :=
  (s.touch c.via true c.ringSpace a b.length).store c.ringSpace a b

/-- Writes one slot behind the newest: header, payload padded with zeros, pointers and counts (R333, R336). -/
def State.putSlot (s : State) (n cls flags valid producer : Nat) (step : DWord) (drops : Nat) (payload : Bytes) :
    State :=
  let b := s.berth n
  let c := b.cfg
  let s := s.ringStore c (c.slotAddr b.tail)
    (slotHeader cls flags valid b.tag.toNat producer b.seq step drops ++ padTo c.readWidth payload)
  s.setBerth n { b with tail := (b.tail + 1) % c.capacity, occupancy := b.occupancy + 1, seq := b.seq + 1,
                        enqueued := satAdd b.enqueued 1, openMarker := decide (cls = 6) }

/-- A marked-drop berth drops `k` slots of a message (R341). -/
def State.dropSlots (s : State) (quiet : Option Nat) (n k : Nat) (step : DWord) : State :=
  let b := s.berth n
  let first := !bit b.status 1
  let s := s.setBerth n { b with drops := satAdd b.drops k, status := setBit b.status 1 }
  let s := if first then s.raiseBerth quiet n 0x7002 (wordLe 8 step) else s
  if b.openMarker then
    let c := b.cfg
    let at_ := c.slotAddr ((b.tail + c.capacity - 1) % c.capacity)
    let old := leNat (s.bytes c.ringSpace (at_ + 24) 4)
    let new := min (old + k) 0xFFFFFFFF
    let s := s.ringStore c (at_ + 24) (natLe 4 new)
    if new = 0xFFFFFFFF then s.ringStore c (at_ + 1) [2] else s
  else s.putSlot n 6 (if 0xFFFFFFFF ≤ k then 2 else 0) 0 idBerthEngine step (min k 0xFFFFFFFF) []

/-- What an operation that took the occupancy from `before` does to the level (R342, R343): a notice may be an item
in the notice berth, whose own level is then evaluated; each crossing disarms a level, so the chain ends. -/
def State.levelAfter : Nat → Option Nat → Nat → Nat → DWord → State → State
  | 0, _, _, _, _, s => s
  | fuel + 1, quiet, n, before, step, s =>
    let b := s.berth n
    let lvl := b.cfg.levelOf
    let after := b.occupancy
    if lvl = 0 then s
    else if b.armed ∧ before < lvl ∧ lvl ≤ after then
      let s := s.setBerth n { b with armed := false, status := setBit b.status 0 }
      if b.cfg.noticeEvent then s.raiseBerth quiet n 0x7001 (natLe 4 after ++ wordLe 8 s.hm.time)
      else
        let nn := b.cfg.noticeBerth
        let nb := s.berth nn
        if nb.cfg.kindOf ≠ kindMarked then s
        else
          let occ := nb.occupancy
          let s :=
            if nb.inRing + 1 ≤ nb.cfg.capacity - 1 then
              s.putSlot nn 7 1 16 idBerthEngine step 0
                (natLe 2 n ++ zeros 2 ++ natLe 4 after ++ wordLe 8 s.hm.time)
            else s.dropSlots quiet nn 1 step
          State.levelAfter fuel quiet nn occ step s
    else if ¬ b.armed ∧ lvl ≤ before ∧ after < lvl then s.setBerth n { b with armed := true }
    else s

/-- The level after one operation on berth `n`. -/
def State.level (s : State) (quiet : Option Nat) (n before : Nat) (step : DWord) : State :=
  State.levelAfter (s.berths.length + 1) quiet n before step s

/-- The slots a message needs (R336). -/
def slotsNeeded (c : BerthCfg) (bytes : Bytes) : Nat := ceilDiv bytes.length c.readWidth

/-- Enqueues the slot of a message that begins with its byte `at_` (R336): full but for the last, which carries the last
flag. -/
def State.enqueueSlot (s : State) (quiet : Option Nat) (n : Nat) (m : BerthMsg) (at_ : Nat) : State :=
  let b := s.berth n
  let rw := b.cfg.readWidth
  let part := slice m.bytes at_ rw
  let last := if m.bytes.length ≤ at_ + rw then 1 else 0
  let s := s.putSlot n m.cls.toNat last part.length m.producer.toNat m.step 0 part
  s.level quiet n b.occupancy m.step

/-- A slot may be enqueued: a credit is held (tensor) or a slot is free (command, R329; a marked-drop berth keeps its last
slot for a marker, R341). -/
def Berth.room (b : Berth) : Bool :=
  if b.cfg.kindOf = kindTensor then decide (0 < b.credits)
  else decide (b.cfg.kindOf ≠ 0) && decide (b.inRing + b2n (decide (b.cfg.kindOf = kindMarked)) < b.cfg.capacity)

/-- Enqueues the slots of a message from its byte `at_` while there is room (R338, R329): the byte that the next slot
begins with. An amendment may change the read width between two calls (R352), so bytes are counted, not slots. -/
def State.feed (quiet : Option Nat) (n : Nat) (m : BerthMsg) : Nat → Nat → State → Nat × State
  | 0, at_, s => (at_, s)
  | fuel + 1, at_, s =>
    let b := s.berth n
    if at_ < m.bytes.length ∧ b.room then
      let s := if b.cfg.kindOf = kindTensor then s.setBerth n { b with credits := b.credits - 1 } else s
      State.feed quiet n m fuel (at_ + b.cfg.readWidth) (s.enqueueSlot quiet n m at_)
    else (at_, s)

/-- The slots of a message to a marked-drop berth that is then dropped, as they closed (R341): their payloads stand in
the free ring slots behind the newest, as many as leave the last slot free. A slot's header is what publishes it (R333),
so none is written (log entry 65). -/
def State.fillFree (s : State) (n : Nat) (bytes : Bytes) : State :=
  let b := s.berth n
  let c := b.cfg
  (List.range (min (slotsNeeded c bytes) (c.capacity - 1 - b.inRing))).foldl (fun s i =>
    s.ringStore c (c.slotAddr ((b.tail + i) % c.capacity) + 32)
      (padTo c.readWidth (slice bytes (i * c.readWidth) c.readWidth))) s

/-- A message that its berth did not refuse (R329, R336 to R341). A producer on the module that finds no room stalls,
and its message waits behind those that wait already (R337). -/
def State.acceptMessage (s : State) (quiet : Option Nat) (n : Nat) (m : BerthMsg) : State :=
  let b := s.berth n
  let k := slotsNeeded b.cfg m.bytes
  if b.cfg.kindOf = kindMarked then
    if b.inRing + k ≤ b.cfg.capacity - 1 then
      (List.range k).foldl (fun s i => s.enqueueSlot quiet n m (i * b.cfg.readWidth)) s
    else
      let s := (s.fillFree n m.bytes).dropSlots quiet n k m.step
      s.level quiet n b.occupancy m.step
  else if b.waiting = [] then
    let (i, s) := State.feed quiet n m k 0 s
    if i < m.bytes.length then s.modBerth n (fun b => { b with waiting := [{ msg := m, done := i }] }) else s
  else s.setBerth n { b with waiting := b.waiting ++ [{ msg := m, done := 0 }] }

/-- How a write of a message ended. -/
inductive WriteResult where
  | accepted | refused | noCredit
  deriving DecidableEq, Repr

/-- A write of a message to a berth (R335 to R341, R356). The event of a refused event record (class 5) is kept from the
event berth (R356). A message has at least one word (R335): an empty one does nothing. A host session with too few credits is refused whole (R340); so is a write with no credit by a named
producer that is not a unit of the module, for units stall. -/
def State.berthWrite (s : State) (quiet : Option Nat) (n : Nat) (m : BerthMsg) : WriteResult × State :=
  let b := s.berth n
  if m.bytes = [] then (.accepted, s)
  else if s.berthRefuses n m then
    let s := s.setBerth n { b with status := setBit b.status 4 }
    (.refused, s.raiseBerth (if m.cls = 5 then some n else quiet) n 0x7004 (natLe 2 m.producer.toNat))
  else if b.cfg.kindOf = kindTensor ∧ isSession m.producer.toNat ∧ b.credits < slotsNeeded b.cfg m.bytes then
    let s := s.setBerth n { b with status := setBit b.status 2 }
    (.noCredit, s.raiseBerth quiet n 0x7003 (natLe 2 m.producer.toNat))
  else (.accepted, s.acceptMessage quiet n m)

/-! ## Dequeue -/

/-- The slots that a waiting message still needs. -/
def Waiting.left (w : Waiting) (c : BerthCfg) : Nat := slotsNeeded c (w.msg.bytes.drop w.done)

/-- Stalled producers go on, oldest first, while there is room (R337). -/
def State.releaseWaiting (n : Nat) : Nat → State → State
  | 0, s => s
  | fuel + 1, s =>
    let b := s.berth n
    match b.waiting with
    | [] => s
    | w :: rest =>
      let (i, s) := State.feed none n w.msg (w.left b.cfg) w.done s
      if i < w.msg.bytes.length then s.modBerth n (fun b => { b with waiting := { w with done := i } :: rest })
      else State.releaseWaiting n fuel (s.modBerth n (fun b => { b with waiting := rest }))

/-- Credits go back in batches, and any smaller count when the berth is empty (R339); none while an old descriptor stands
whose credits do not count on (R352). -/
def Berth.returnCredits (b : Berth) : Berth :=
  if b.cfg.kindOf ≠ kindTensor ∨ b.old.any (fun o => !o.creditsCarry b.cfg) then b
  else
    let batch := max 1 b.cfg.creditBatch
    let n := if b.occupancy = 0 then b.freed else b.freed / batch * batch
    { b with credits := b.credits + n, freed := b.freed - n }

/-- The old descriptor is released after its last item (R76, R352): a tensor producer whose credits do not count on
receives the new capacity less the occupancy. -/
def State.releaseOld (s : State) (n : Nat) : State :=
  let b := s.berth n
  match b.old with
  | none => s
  | some o =>
    if b.oldItems ≠ 0 then s
    else
      let s := s.setBerth n { b with
        old := none
        credits := if b.cfg.kindOf = kindTensor ∧ !o.creditsCarry b.cfg then b.cfg.capacity - b.occupancy else b.credits
        freed := if o.creditsCarry b.cfg then b.freed else 0 }
      s.raiseBerth none n 0x7007 (natLe 1 b.oldTag.toNat ++ natLe 1 b.tag.toNat)

/-- The oldest item, if any: under the old descriptor while items of the old tag remain. -/
def State.headItem (s : State) (n : Nat) : Option Item :=
  let b := s.berth n
  let c := b.front
  let i := if b.oldItems = 0 then b.head else b.oldHead
  if b.occupancy = 0 ∨ s.rowLocked c.ringSpace (c.slotAddr i) c.slotSize then none
  else
    let h := s.bytes c.ringSpace (c.slotAddr i) c.slotSize
    let bad := s.poisoned c.ringSpace (c.slotAddr i) c.slotSize
    some { cls := leAt h 0 1, flags := leAt h 1 1 ||| (if bad then 4 else 0), valid := leAt h 2 2, tag := leAt h 4 1,
           producer := leAt h 6 2, seq := BitVec.ofNat 64 (leAt h 8 8), step := BitVec.ofNat 64 (leAt h 16 8),
           drops := leAt h 24 4, payload := h.drop 32, slot := i, poisoned := bad }

/-- Takes the oldest item (R346): head, occupancy, credits, level, waiting producers, release of an old descriptor.
A poisoned item sets BTH_STATUS.poisoned and raises 0x7005 (R353); what its consumer then does is the caller's. -/
def State.dequeue (s : State) (n : Nat) : Option Item × State :=
  match s.headItem n with
  | none => (none, s)
  | some it =>
    let b := s.berth n
    let c := b.front
    let b' :=
      if b.oldItems = 0 then { b with head := (b.head + 1) % b.cfg.capacity }
      else { b with oldHead := (b.oldHead + 1) % c.capacity, oldItems := b.oldItems - 1,
                    head := if c.sameRing b.cfg then (b.oldHead + 1) % c.capacity else b.head }
    let b' := { b' with occupancy := b.occupancy - 1, freed := b.freed + Bool.toNat (decide (c.kindOf = kindTensor)),
                        openMarker := if b.occupancy = 1 then false else b.openMarker,
                        status := if it.poisoned then setBit b.status 3 else b.status }
    let s := (s.touch c.via false c.ringSpace (c.slotAddr it.slot) c.slotSize).setBerth n b'.returnCredits
    let s := if it.poisoned then s.raiseBerth none n 0x7005 (natLe 4 it.slot ++ natLe 2 c.consumerId) else s
    let s := s.level none n b.occupancy it.step
    let s := s.releaseOld n
    (some it, State.releaseWaiting n (b.waiting.length + 1) s)

/-- FLUSH (R354): contents and waiting writes discarded, credits restored, level re-armed, event 0x7006. -/
def State.flushBerth (s : State) (n : Nat) : State :=
  let b := s.berth n
  if b.front.kindOf = 0 then s
  else
    let s := s.setBerth n
      { b with occupancy := 0, head := b.tail, oldItems := 0, oldHead := 0, waiting := [], openMarker := false,
               freed := 0, armed := decide (b.cfg.levelOf ≠ 0),
               credits := if b.cfg.kindOf = kindTensor then b.cfg.capacity else 0 }
    let s := s.releaseOld n
    s.raiseBerth none n 0x7006 (natLe 4 b.occupancy)

/-- The berths of a partition, with those that hold items under a descriptor it has given up (R76). -/
def State.berthsOf (s : State) (p : Nat) : List Nat :=
  (s.berths.filter (fun e => decide (e.2.front.kindOf ≠ 0) && decide (e.2.front.partition = p)
    || decide (e.2.cfg.kindOf ≠ 0) && decide (e.2.cfg.partition = p))).map (·.1)

/-- The configuration of a berth is programmed (R338, R342; R76 for a changed one that holds items, the unused configuration
among them). A berth that an amendment does not change keeps its descriptor, and its tag until the amendment is complete
(`State.retag`). One that another partition gave up by the same amendment keeps the items it still holds. -/
def State.placeBerth (s : State) (n : Nat) (c : BerthCfg) (tag : Byte) : State :=
  let b := s.berth n
  let full := if c.kindOf = kindTensor then c.capacity else 0
  if b.cfg = c ∧ b.cfg.kindOf ≠ 0 then s
  else if b.cfg.kindOf = 0 ∧ b.oldItems ≠ 0 then
    let o := b.front
    let at_ := if o.sameRing c then (b.oldHead + b.oldItems) % o.capacity else 0
    s.setBerth n { b with cfg := c, tag := tag, head := at_, tail := at_, armed := decide (c.levelOf ≠ 0),
                          credits := if o.creditsCarry c then b.credits else 0, openMarker := false }
  else if b.occupancy = 0 ∨ b.cfg.kindOf = 0 then
    s.setBerth n { b with cfg := c, tag := tag, oldTag := b.tag, head := 0, tail := 0, occupancy := 0, freed := 0,
                          credits := full, armed := decide (c.levelOf ≠ 0), old := none, oldItems := 0,
                          openMarker := false }
  else
    let same := b.cfg.sameRing c
    s.setBerth n { b with cfg := c, old := some b.cfg, oldItems := b.occupancy, oldHead := b.head, oldTag := b.tag,
                          tag := tag, head := if same then b.tail else 0, tail := if same then b.tail else 0,
                          openMarker := false, armed := decide (c.levelOf ≠ 0),
                          credits := if b.cfg.creditsCarry c then b.credits else 0 }

/-- Stalled writes that the berth refuses under its new configuration are not stored (R329, R356; log entry 89). -/
def State.refuseWaiting (s : State) (n : Nat) : State :=
  let b := s.berth n
  let bad := b.waiting.filter (fun w => s.berthRefuses n w.msg)
  if bad = [] then s
  else
    let s := s.setBerth n { b with waiting := b.waiting.filter (fun w => !bad.contains w), status := setBit b.status 4 }
    bad.foldl (fun s w => s.raiseBerth none n 0x7004 (natLe 2 w.msg.producer.toNat)) s

/-- A partition commit programs a berth. -/
def State.programBerth (s : State) (n : Nat) (c : BerthCfg) (tag : Byte) : State := (s.placeBerth n c tag).refuseWaiting n

/-- The configuration of a berth is programmed from a whole Manifest (R66, R72): empty, under the Manifest's tag, with no
old descriptor (log entry 63). -/
def State.freshBerth (s : State) (n : Nat) (c : BerthCfg) (tag : Byte) : State :=
  let b := s.berth n
  s.setBerth n { Berth.zero with cfg := c, tag := tag, oldTag := b.tag, armed := decide (c.levelOf ≠ 0),
                                 credits := if c.kindOf = kindTensor then c.capacity else 0, status := b.status,
                                 drops := b.drops, enqueued := b.enqueued, seq := b.seq }

/-- A completion notice (R349, Table 9.4): into `done`, class 4, with the step of the descriptor that completed. -/
def State.completionNotice (s : State) (done producer : Nat) (step : DWord) (tag source flags unit die cluster : Nat) :
    State :=
  let b := natLe 2 (tag % 16384 + source * 16384) ++ natLe 1 flags ++ natLe 1 (unit % 16 + (die % 8) * 16)
    ++ natLe 1 cluster ++ zeros 3 ++ wordLe 8 s.hm.time
  (s.berthWrite none done
    { serves := 0, producer := BitVec.ofNat 16 producer, cls := 4, step := step, bytes := b }).2

end Sys2Proof.Machine
end

