-- ==== Sys2Proof/Machine/Events.lean ====
section
/-!
DEFINITION. The Harbourmaster's acceptance and delivery of event records (R40, R537, R538), the replace request
(R539) and the count of transient faults (R534).
-/

namespace Sys2Proof.Machine

/-- A record as its 64 bytes (Table 15.7). -/
def EventRec.bytes (r : EventRec) : Bytes :=
  natLe 2 r.code.toNat ++ natLe 1 r.die.toNat ++ natLe 1 r.flags.toNat ++ natLe 1 r.payload.length ++ zeros 3
    ++ wordLe 8 r.seq ++ wordLe 8 r.time ++ wordLe 8 r.step ++ padTo 32 r.payload

/-- The block of an event code (R15). -/
def EventRec.block (r : EventRec) : Nat := bits r.code 15 12

/-- The newest records the log keeps (R538). -/
def logCapacity : Nat := 4096

/-- The record enters the log: whether an unread record was displaced. -/
def Events.append (e : Events) (r : EventRec) : Bool × Events :=
  let log := e.log ++ [{ ev := r, read := false }]
  if log.length ≤ logCapacity then (false, { e with log := log })
  else
    let unread := !(e.log.head?.map (·.read)).getD true
    (unread, { e with log := log.drop 1, lost := if unread then satAdd e.lost 1 else e.lost })

/-- The record goes to the event berth, when it is enabled (R538). -/
def State.toBerth (s : State) (r : EventRec) : State :=
  if bit s.events.berth 14 && !r.noBerth then
    let n := bits s.events.berth 13 0
    (s.berthWrite (some n) n
      { serves := 0, producer := BitVec.ofNat 16 idConcentrator, cls := 5, step := r.step, bytes := r.bytes }).2
  else s

/-- Ticks of the local time counter in 100 µs (R38). -/
def ticks100us : Nat := 10000

/-- The pending bit of the record's block, and the in-band interrupt, at most one each 100 µs (R538). -/
def State.signal (s : State) (r : EventRec) : State :=
  if bit s.events.mask r.block then
    let s := { s with events := { s.events with pending := setBit s.events.pending r.block } }
    let due := match s.i3c.lastIbi with
      | none => true
      | some t => decide (t.toNat + ticks100us ≤ s.hm.time.toNat)
    if s.i3c.ibi && due then
      { s with i3c := { s.i3c with ibis := s.i3c.ibis ++ [r.bytes.take 4], lastIbi := some s.hm.time } }
    else s
  else s

/-- Accepts and delivers one record (R40, R538): whether an unread record was lost. -/
def State.acceptOne (s : State) (r : EventRec) : Bool × State :=
  let r := { r with seq := s.events.seq }
  let (lost, e) := { s.events with seq := s.events.seq + 1 }.append r
  (lost, ({ s with events := e }.toBerth r).signal r)

/-- Accepts a record; the first loss since HM_EVLOG_LOST was read raises 0x0007 (R538). -/
def State.accept (s : State) (r : EventRec) : State :=
  let (lost, s) := s.acceptOne r
  if lost && !s.events.lostSeen then
    let s := { s with events := { s.events with lostSeen := true } }
    (s.acceptOne (s.record 0x0007 0 none (wordLe 4 s.events.lost) false)).2
  else s

/-- An event of the Harbourmaster's own blocks is accepted as it is raised (R40); one of another die goes onto the
ring. -/
def State.raise (s : State) (code die : Nat) (part : Option Nat) (payload : Bytes) : State :=
  if die = 0 then
    let r := s.record code 0 part payload false
    if s.reporting then s.accept r else s.hold r
  else s.raiseDie code die part payload

/-- An event of the Harbourmaster (blocks HM, SEC, PT, MF and JR). -/
def State.raiseHm (s : State) (code : Nat) (part : Option Nat) (payload : Bytes) : State := s.raise code 0 part payload

/-- Takes the first record of a die off a list. -/
def takeOf (die : BitVec 4) : List EventRec → Option (EventRec × List EventRec)
  | [] => none
  | r :: rs =>
    if r.die = die then some (r, rs)
    else (takeOf die rs).map (fun x => (x.1, r :: x.2))

/-- The oldest record of a die arrives and is accepted (R40). -/
def State.acceptFrom (s : State) (die : BitVec 4) : State :=
  match takeOf die s.events.ring with
  | none => s
  | some (r, rest) => { s with events := { s.events with ring := rest } }.accept r

/-- Every record on the ring is accepted, oldest first (R40: before a logbook entry is numbered). -/
def State.acceptAll (s : State) : State :=
  s.events.ring.foldl (fun s r => s.accept r) { s with events := { s.events with ring := [] } }

/-- The held records are delivered, oldest first, and numbered then (R40, R503, R522). -/
def State.deliverHeld (s : State) : State :=
  s.events.held.foldl (fun s r => s.accept r) { s with events := { s.events with held := [] } }

/-- The record sequence number that a logbook entry takes (R40). -/
def State.takeSeq (s : State) : DWord × State :=
  (s.events.seq, { s with events := { s.events with seq := s.events.seq + 1 } })

/-! ## The replace request (R539) -/

/-- Reports a change of HM_SERVICE. -/
def State.reportService (s : State) (old : Word) : State :=
  let new := s.hm.service
  if new = old then s
  else if new = 0 then { s with hm := { s.hm with reported := 0 } }.raiseHm 0x0006 none (wordLe 4 new)
  else if new = s.hm.reported then s
  else { s with hm := { s.hm with reported := new } }.raiseHm 0x0005 none (wordLe 4 new)

/-- Sets or clears a reason of Table 15.9. -/
def State.service (s : State) (b : Nat) (v : Bool) : State :=
  let old := s.hm.service
  { s with hm := { s.hm with service := putBit old b v } }.reportService old

/-! ## Transient faults (R534) -/

/-- The resources whose transient faults are counted. -/
inductive Resource where
  | cluster (die phys : Nat)
  | kraekLane (link lane : Nat)
  | dramRow (stack pc row : Nat)
  | holdDevice (phys : Nat)
  | drive (d : Nat)
  deriving DecidableEq, Repr

/-- A number for the resource, one for each. -/
def Resource.key : Resource → Nat
  | .cluster d c => 5 * (d * 256 + c)
  | .kraekLane k l => 5 * (k * 8 + l) + 1
  | .dramRow st pc r => 5 * ((st * 256 + pc) * 2 ^ 20 + r) + 2
  | .holdDevice p => 5 * p + 3
  | .drive d => 5 * d + 4

/-- The place of the resource's kind in R534's list. -/
def Resource.kind : Resource → Nat
  | .cluster .. => 0
  | .kraekLane .. => 1
  | .dramRow .. => 2
  | .holdDevice .. => 3
  | .drive .. => 4

/-- 24 hours of local time. -/
def ticks24h : Nat := 8640000000000

/-- Counts a transient fault: whether the resource's count within 24 hours reached HM_FAULT_CFG.promote, which hands
it to its slipway as a lasting fault and raises 0x000C. At most 1,024 resources are counted. -/
def State.transientFault (s : State) (r : Resource) : Bool × State :=
  let now := s.hm.time
  let a := s.hmAux
  let old := ((a.faultCounts.find? (fun e => decide (e.1 = r.key))).map (·.2)).getD []
  let times := old.filter (fun t => decide (now.toNat < t.toNat + ticks24h)) ++ [now]
  let rest := a.faultCounts.filter (fun e => decide (e.1 ≠ r.key))
  let limit := bits a.faultCfg 7 0
  let fires := decide (limit ≠ 0) && decide (limit ≤ times.length)
  let counts := if fires then rest else if rest.length < 1024 then rest ++ [(r.key, times)] else rest
  let s := { s with hmAux := { a with faultCounts := counts, faultTransient := satAdd a.faultTransient 1 } }
  if fires then
    (true, s.raiseHm 0x000C none (natLe 1 (Config.openCode 1 r.kind) ++ natLe 4 (Config.openCode 2 r.key)
      ++ natLe 4 times.length))
  else (false, s)

end Sys2Proof.Machine
end

