-- ==== Sys2Proof/Machine/LightDesc.lean ====
section
/-!
DEFINITION. Lighter descriptors as words (Table 8.5), and the sum images that a step's program names with them: tie slots
and the images of untied weights (R259, R316).
-/

namespace Sys2Proof.Machine

/-- A lighter descriptor's fields (Table 8.5). -/
structure Light where
  op      : Nat
  srcKind : Nat
  dstKind : Nat
  addFmt  : Nat
  round   : Bool
  blkCols : Bool
  indexed : Bool
  noAlloc : Bool
  notify  : Bool
  priority : Nat
  tag     : Nat
  done    : Nat
  src     : Nat
  dst     : Nat
  sectors : Nat
  rows    : Nat
  srcStride : Nat
  dstStride : Nat
  anchor  : Int
  stream  : Nat
  elemBase : Nat
  idx     : Nat
  idxKind : Nat
  deriving DecidableEq, Repr

def Light.of (ws : List Word) : Light :=
  let w := wordAt ws
  { op := bits (w 0) 3 0, srcKind := bits (w 0) 5 4, dstKind := bits (w 0) 7 6, addFmt := bits (w 0) 10 8,
    round := bit (w 0) 11, blkCols := bit (w 0) 12, indexed := bit (w 0) 13, noAlloc := bit (w 0) 14,
    notify := bit (w 0) 15, priority := bits (w 0) 17 16, tag := bits (w 1) 13 0, done := bits (w 1) 29 16, src := (w 2).toNat + bits (w 3) 15 0 * 2 ^ 32,
    dst := (w 4).toNat + bits (w 5) 15 0 * 2 ^ 32, sectors := bits (w 6) 19 0, rows := bits (w 7) 23 0,
    srcStride := (w 8).toNat, dstStride := (w 9).toNat, anchor := signed 10 (bits (w 10) 9 0),
    stream := bits (w 11) 15 0, elemBase := (w 12).toNat + (w 13).toNat * 2 ^ 32,
    idx := (w 14).toNat + bits (w 15) 15 0 * 2 ^ 32, idxKind := bits (w 15) 17 16 }

/-- A range of bytes: its first and its length. -/
abbrev Range := Nat × Nat

/-- The rows of a linear image (R303). -/
def linearRows (addr stride sectors rows : Nat) : List Range :=
  (List.range rows).map (fun r => (addr + r * stride * 32, sectors * 32))

/-- Columns of an S64 or X16 image: four elements to a sector of S64 (R316). -/
def Light.cols (d : Light) : Nat := d.sectors * 4

/-! ## The sum images of a step -/

/-- The S64 image that a descriptor adds X16 partials into or settles (R312, R316), row by row. -/
def Light.sumRows (d : Light) : List Range :=
  if d.op = 3 then linearRows d.src d.srcStride d.sectors d.rows
  else if d.op = 2 ∧ d.addFmt = 2 ∧ !d.indexed then linearRows d.dst d.dstStride d.sectors d.rows
  else []

/-- The images of a POST as the Manifest gives them (Table 12.3). -/
def StepProgram.imagesOf (g : StepProgram) (i : BodyIns) : List (List Word) :=
  (List.range i.b).map (fun k => wordsOf 16 (slice g.images ((i.c % 2 ^ 32 + k) * 64) 64))

/-- The lighter descriptors that the body of a partition posts. -/
def State.postedLights (s : State) (p : Nat) : List Light :=
  match s.cfg? p with
  | none => []
  | some c =>
    (c.program.body.filter (fun i => decide (i.op = 4) && isLighterId (s.berth i.a).cfg.consumerId)).flatMap
      (fun i => (c.program.imagesOf i).map Light.of)

/-- The tie slots and sum images of the step are cleared (R259, R443): no record of a Manifest places them, and they are
what the program's descriptors add X16 partials into or settle (log entry 78). A row outside the partition's regions is
touched by none of them, and not here either (R284). -/
def State.clearSums (s : State) (p : Nat) : State :=
  let mine := fun (r : Range) => s.mayAccess p true .near .add r.1 r.2 || s.mayAccess p true .near .write r.1 r.2
  (((s.postedLights p).flatMap Light.sumRows).eraseDups.filter mine).foldl (fun s r =>
    (s.touch { part := p, noAlloc := false } true .near r.1 r.2).clearBytes .near r.1 r.2) s

end Sys2Proof.Machine
end

