-- ==== Sys2Proof/Machine/Versions.lean ====
section
/-!
DEFINITION. The live versions of weight blocks (R263 to R266, R271, R274, R276): the current ones, the stash entries with
their records, and the release of an entry.
-/

namespace Sys2Proof.Machine

/-- The step of origin of a block's first version (Table 7.3). -/
def firstVersion (block : Word) : Version :=
  { block := block, tag := 0, readers := 0, stepOrigin := BitVec.allOnes 64, copying := false,
    prevOrigin := BitVec.allOnes 64 }

/-- The current version of a block (R264). -/
def Stash.version (st : Stash) (block : Word) : Version :=
  (st.versions.find? (fun v => decide (v.block = block))).getD (firstVersion block)

/-- The partition's program. -/
def State.program? (s : State) (p : Nat) : Option StepProgram := (s.cfg? p).map (·.program)

/-- The MIRROR record of a partition. -/
def State.mirror? (s : State) (p : Nat) : Option Mirror := (s.cfg? p).bind (·.mirror)

/-- Where a block's images lie: the space, the first byte and the bytes of its region that it takes. -/
def StepProgram.blockRange (g : StepProgram) (b : WeightBlock) : Option (Space × Nat × Nat) :=
  match g.regions[b.region]? with
  | none => none
  | some r => (spaceOf r.kind).map (fun sp => (sp, r.lo + b.base * 4096, b.size * 4096))

/-- A change of it. -/
def Stash.setVersion (st : Stash) (v : Version) : Stash :=
  { st with versions := st.versions.filter (fun x => decide (x.block ≠ v.block)) ++ [v] }

/-- Stash space in use, in 4 KiB units. -/
def Stash.used (st : Stash) : Nat := st.entries.foldl (fun n e => n + e.size.toNat) 0

/-- The declaration of a block. -/
def State.blockOf (s : State) (p : Nat) (block : Word) : Option WeightBlock :=
  (s.program? p).bind (fun g => g.blocks.find? (fun b => decide (b.block = block.toNat)))

/-- The entry of a version. -/
def Stash.entry? (st : Stash) (block : Word) (tag : Byte) : Option StashEntry :=
  st.entries.find? (fun e => decide (e.block = block) && decide (e.tag = tag))

/-- An entry with none of its images staged. -/
def StashEntry.unstaged (e : StashEntry) : StashEntry := { e with staged := false }

/-! ## Where versions lie (R274) -/

/-- The place of a version: as it was written, or as the present program has its block. -/
def State.versionPlace (s : State) (p : Nat) (block : Word) (tag : Byte) : Option VersionPlace :=
  ((s.stash p).places.find? (fun x => decide (x.block = block) && decide (x.tag = tag))).orElse (fun _ =>
    match s.program? p with
    | none => none
    | some g =>
      ((g.blocks.find? (fun b => decide (b.block = block.toNat))).bind g.blockRange).map (fun r =>
        { block := block, tag := tag, kind := r.1.code, addr := r.2.1, size := r.2.2, staged := none }))

/-- The range of a place. -/
def VersionPlace.range (x : VersionPlace) : Option (Space × Nat × Nat) :=
  (spaceOf x.kind).map (fun sp => (sp, x.addr, x.size))

def Stash.setPlace (st : Stash) (x : VersionPlace) : Stash :=
  { st with places := st.places.filter (fun y => !(decide (y.block = x.block) && decide (y.tag = x.tag))) ++ [x] }

/-- The versions that are current when a partition commits keep the layout they were written in (R274). -/
def State.pinPlaces (s : State) (p : Nat) : State :=
  match s.program? p with
  | none => s
  | some g => g.blocks.foldl (fun s b =>
      let blk := BitVec.ofNat 32 b.block
      match s.versionPlace p blk ((s.stash p).version blk).tag with
      | some x => s.modStash p (fun st => st.setPlace x)
      | none => s) s

/-! ## The entry records (R276) -/

/-- An entry's record (Table 7.3). -/
def StashEntry.bytes (e : StashEntry) : Bytes :=
  wordLe 4 e.block ++ [e.tag] ++ natLe 1 (flagAt e.staged 0 + flagAt e.lost 1) ++ wordLe 2 e.readers
    ++ wordLe 8 e.stepOrigin ++ wordLe 4 e.size ++ zeros 4 ++ wordLe 8 e.addr

/-- The records of the partition's entries stand at the begin of its stash region, in the order they were made; `gone`
records behind them are cleared (log entry 14). -/
def State.writeStash (s : State) (p gone : Nat) : State :=
  let rs := (s.stash p).entries.flatMap StashEntry.bytes
  s.store .hold (Config.stashPage p * 4096) (rs ++ zeros (32 * gone))

/-- A change of the entries, with their records. -/
def State.modEntries (s : State) (p : Nat) (f : StashEntry → StashEntry) : State :=
  let old := (s.stash p).entries
  if old.map f = old then s
  else (s.modStash p (fun st => { st with entries := st.entries.map f })).writeStash p 0

/-! ## Waits (R268, R271) -/

/-- Stash space of the partition, in 4 KiB units. -/
def State.stashCapacity (s : State) (p : Nat) : Nat := ((s.program? p).map (·.control.stashCapacity)).getD 0

/-- A block has 3 stashed versions; its images have no room (R268). -/
def Stash.full (st : Stash) (block : Word) : Bool := decide (3 ≤ (st.entries.filter (fun e => decide (e.block = block))).length)

/-- The pages that the images of a block's current version take. -/
def State.versionPages (s : State) (p : Nat) (b : WeightBlock) : Nat :=
  let blk := BitVec.ofNat 32 b.block
  ((s.versionPlace p blk ((s.stash p).version blk).tag).map (fun x => x.size / 4096)).getD b.size

def State.noRoom (s : State) (p : Nat) (b : WeightBlock) : Bool :=
  decide (s.stashCapacity p < (s.stash p).used + s.versionPages p b)

/-- The wait of a block ends: its time is counted. -/
def Stash.endWait (st : Stash) (block : Word) (now : DWord) : Stash :=
  st.waits.foldl (fun (st : Stash) w =>
    if w.block = block then { st with waitTime := satAdd st.waitTime (now.toNat - w.since.toNat) } else st)
    { st with waits := st.waits.filter (fun w => decide (w.block ≠ block)) }

/-- Waits whose reason is gone end (R271). -/
def State.endWaits (s : State) (p : Nat) : State :=
  (s.stash p).waits.foldl (fun s w =>
    let goes := if w.space then (s.blockOf p w.block).all (fun b => !s.noRoom p b) else !(s.stash p).full w.block
    if goes then s.modStash p (fun st => st.endWait w.block s.hm.time) else s) s

/-- Stashed versions with no reader, whose staged images no descriptor reads any more, are released (R271): their space
is free, and what waited for it may go on. -/
def State.releaseStash (s : State) (p : Nat) : State :=
  let st := s.stash p
  let read := fun (e : StashEntry) => (s.seq p).posted.any (fun x => x.reads.contains (e.block, e.tag))
  let gone := st.entries.filter (fun e => decide (e.readers = 0) && !read e)
  if gone = [] then s
  else
    let s := s.modStash p (fun st =>
      { st with entries := st.entries.filter (fun e => !gone.contains e), released := satAdd st.released gone.length
                mirrored := st.mirrored.filter (fun e => !gone.any (fun x => decide (x.block = e.block) && decide (x.tag = e.tag))),
                places := st.places.filter (fun y => !gone.any (fun x => decide (x.block = y.block) && decide (x.tag = y.tag))) })
    (s.endWaits p).writeStash p gone.length

/-! ## A version that its step takes back (R264, R443) -/

/-- A rewind before the apply commit point: no version of the step has been written, so that the versions are again those
that the step began with, with their readers; a copy into the stash that a lighter was making is flushed with it. -/
def State.unapply (s : State) (p : Nat) : State :=
  let step := (s.part p).step
  let st := s.stash p
  let back := fun (v : Version) =>
    if v.stepOrigin ≠ step then { v with copying := false }
    else
      match st.entry? v.block (v.tag - 1) with
      | some e => { v with tag := e.tag, readers := e.readers, stepOrigin := e.stepOrigin, copying := false }
      | none => { v with tag := v.tag - 1, readers := 0, stepOrigin := v.prevOrigin, copying := false }
  let made := st.versions.filter (fun v => decide (v.stepOrigin = step))
  let goes := fun (e : StashEntry) => made.any (fun v => decide (v.block = e.block) && decide (v.tag - 1 = e.tag))
  let gone := (st.entries.filter goes).length
  let s := st.waits.foldl (fun s w => s.modStash p (fun st => st.endWait w.block s.hm.time)) s
  let s := s.modStash p (fun st =>
    { st with versions := st.versions.map back, entries := st.entries.filter (fun e => !goes e),
              mirrored := st.mirrored.filter (fun e => !goes e),
              places := st.places.filter (fun x => !made.any (fun v => decide (v.block = x.block) && decide (v.tag = x.tag))) })
  if gone = 0 then s else s.writeStash p gone

end Sys2Proof.Machine
end

