-- ==== Sys2Proof/Machine/Partition.lean ====
section
/-!
DEFINITION. What every block may do to a partition (12): log a record, send a message to the job's members, request a
halt (R425, R426), withdraw what has not issued (R31), and rewind after a local fault (R443, R444).
-/

namespace Sys2Proof.Machine

/-- Record types of Table 12.10. -/
def recState : Nat := 0x01
def recData : Nat := 0x02
def recDetection : Nat := 0x03
def recExcusal : Nat := 0x04
def recLateIn : Nat := 0x05
def recCommit : Nat := 0x06
def recSnapshot : Nat := 0x07
def recRecovery : Nat := 0x08
def recHalt : Nat := 0x09
def recHost : Nat := 0x0A
def recFeed : Nat := 0x0B
def recPeaks : Nat := 0x0C
def recEnergy : Nat := 0x0D

/-- A record gathered for the partition's next entry. -/
def State.addRecord (s : State) (p type : Nat) (body : Bytes) : State :=
  s.modLog p (fun l => { l with records := l.records ++ [(BitVec.ofNat 16 type, body)] })

/-- The lading record's list or its ranges are full (R517): overflow, and event 0x100A once. -/
def State.ladingOverflow (s : State) (p : Nat) : State :=
  if (s.lading p).overflow then s
  else (s.modLading p (fun l => { l with overflow := true })).raiseHm 0x100A (some p) (natLe 1 p)

/-- A RECOVERY record (Table 12.15), and the lading state's recovery list for the kinds it lists (Table 14.9). -/
def State.recovery (s : State) (p kind : Nat) (detail : Bytes) : State :=
  let body := natLe 1 kind ++ zeros 7 ++ padTo 24 detail
  let s := s.addRecord p recRecovery body
  if kind = 2 ∨ 4 ≤ kind then
    if (s.lading p).recovery.length < 4096 then
      s.modLading p (fun l =>
        { l with recovery := l.recovery ++ [((s.part p).step, BitVec.ofNat 8 kind, padTo 24 detail)] })
    else s.ladingOverflow p
  else s

/-- Adds one to a count of the lading record (Table 14.9, Counts). -/
def State.countLading (s : State) (p i : Nat) : State :=
  s.modLading p (fun l =>
    { l with counts := modifyAt (if l.counts = [] then List.replicate 8 0 else l.counts) i (· + 1) })

/-- A class-0 or class-2 message to the job. -/
def State.send (s : State) (p : Nat) (n : Notice) : State :=
  { s with jr := { s.jr with sent := s.jr.sent ++ [{ part := BitVec.ofNat 6 p, notice := n }] } }

/-- Excusals of a step are known; those by late fold until their contributions are added (R442). -/
def Sequencer.excuse (q : Sequencer) (step : DWord) (xs : List (Half × Half × Byte)) : Sequencer :=
  { q with excused := q.excused ++ xs,
           lateFolds := q.lateFolds ++ (xs.filter (fun x => decide (x.2.2 = 1))).map (fun x => (step, x.1, x.2.1)) }

/-- An event of the JR block about a partition. -/
def State.raiseJr (s : State) (code p : Nat) (more : Bytes) : State :=
  s.raiseHm code (some p) (natLe 1 p ++ more)

/-- The recovery policy in force: the section's record, or the defaults of Table 12.12. -/
def defaultRecovery : Recovery :=
  { snapshotEvery := 1000, cofeedEvery := 100, stragglerUs := 0, lateAction := 0, rewindLimit := 3, keeper := 0xFFFF,
    lossMs := 500, fillQueueMs := 10000 }

def State.recoveryOf (s : State) (p : Nat) : Recovery :=
  match s.cfg? p with
  | some c => c.recovery
  | none => defaultRecovery

/-- The contexts of the partition's clusters, by cluster key. -/
def Cluster.hasPart (c : Cluster) (p : Nat) : Bool := c.ctxs.any (fun x => decide (x.part.toNat = p))

/-- Applies `f` to every context of a partition. -/
def State.modContexts (s : State) (p : Nat) (f : Ctx → Ctx) : State :=
  let keys := (s.clusters.filter (fun e => e.2.hasPart p)).map (·.1)
  keys.foldl (fun s k =>
    let c := s.clusterAt k
    s.setClusterAt k { c with ctxs := c.ctxs.map (fun x => if x.part.toNat = p then f x else x) }) s

/-- Rows in flight of a partition's resident contexts are dropped. -/
def State.dropFlights (s : State) (p : Nat) : State :=
  let keys := (s.clusters.filter (fun e => e.2.hasPart p)).map (·.1)
  keys.foldl (fun s k =>
    let c := s.clusterAt k
    s.setClusterAt k { c with flight := c.flight.filter (fun f =>
      !c.ctxs.any (fun x => decide (x.part.toNat = p) && x.resident && decide (x.slot = f.slot))) }) s

/-- The lighters of a partition: those whose intake lies in it. -/
def State.lightersOf (s : State) (p : Nat) : List (Nat × Nat) :=
  (s.berths.filter (fun e => decide (e.2.front.kindOf ≠ 0) && decide (e.2.front.partition = p)
      && isLighterId e.2.front.consumerId)).map
    (fun e => ((e.2.front.consumerId / 256) % 64 - 6, e.2.front.consumerId % 16))

/-- The number of the oldest item in a berth's ring: items before it have been taken. -/
def Berth.oldestSeq (b : Berth) : Nat := b.seq.toNat - b.occupancy

/-! ## The end of an amendment (R78) -/

/-- Some partition of the plan has still to commit, some berth holds its old descriptor, or some changed route has still
to retire. -/
def State.amendOpen (s : State) : Bool :=
  decide (s.mf.pend ≠ 0) || s.berths.any (fun e => e.2.old.isSome)
    || s.mfAux.phases.any (fun e => decide (e.2 = .added) || decide (e.2 = .switched))

/-- What the amendment left unchanged takes the current tag when it is complete, so that at most two tags are ever live
(R75; log entry 66). -/
def State.retag (s : State) : State :=
  let t := s.mf.tag
  let used := (s.berths.filter (fun e => decide (e.2.cfg.kindOf ≠ 0))).map (·.1)
  let s := used.foldl (fun s n => s.modBerth n (fun b => { b with tag := t })) s
  { s with kx := { s.kx with routes := s.kx.routes.map (fun e => { e with tag := t }) } }

/-- The amendment is complete when nothing of it is open: the shadow slot becomes the active slot (R78). No amendment is
then in progress that a partition could have committed (MF_COMMIT_DONE). -/
def State.amendCheck (s : State) : State :=
  if (s.mf.amendState ≠ .committing ∧ s.mf.amendState ≠ .retiring) ∨ s.amendOpen then s
  else
    let id : DWord := BitVec.ofNat 64 (leAt s.mf.shadow 16 8)
    let s := s.retag
    let m := { s.mf with activeBytes := s.mf.shadow, shadow := [], incoming := [], slotHeld := false, owner := none,
                         amendState := .none, activeId := id, prevLive := false, done := 0 }
    let a := { s.mfAux with digest := s.mfAux.shadowDigest, amendCount := s.mfAux.amendCount + 1, phases := [] }
    { s with mf := m, mfAux := a }.raiseHm 0x3007 none (wordLe 8 id)

/-- Withdraws from the partition's intakes every descriptor not yet issued (R31). An old descriptor whose items go is
released (R76). -/
def State.withdraw (s : State) (p : Nat) : State :=
  let mine := (s.berthsOf p).filter (fun n => (s.berth n).front.intake)
  let taken := (s.seq p).posted.filter (fun x => decide (x.itemSeq.toNat < (s.berth x.berth).oldestSeq))
  let s := mine.foldl (fun s n =>
    (s.modBerth n (fun b => { b with occupancy := 0, head := b.tail, oldItems := 0, waiting := [],
                                     armed := decide (b.cfg.levelOf ≠ 0) })).releaseOld n) s
  s.amendCheck.modSeq p (fun q => { q with posted := taken })

/-- Descriptors of a step that stand in windows and at lighters are cancelled (R266). -/
def State.cancelStep (s : State) (p : Nat) (step : DWord) : State :=
  let goes := fun (e : Entry) => decide (e.step = step)
  let keys := (s.clusters.filter (fun e => e.2.hasPart p)).map (·.1)
  let s := keys.foldl (fun s k =>
    let c := s.clusterAt k
    let gone := fun (f : RowInFlight) => c.ctxs.any (fun x => decide (x.part.toNat = p) && x.resident
      && decide (x.slot = f.slot) && x.window.any (fun e => decide (e.itemSeq = f.item) && goes e))
    s.setClusterAt k { c with flight := c.flight.filter (fun f => !gone f) }) s
  let s := s.modContexts p (fun x =>
    { x with window := x.window.filter (fun e => !goes e),
             runsOn := ((x.window.take x.runsOn).filter (fun e => !goes e)).length })
  let s := (s.lightersOf p).foldl (fun s dn => s.modLighter dn.1 dn.2 (fun l =>
    { l with queue := l.queue.filter (fun w => decide (w.2.2.2 ≠ step)) })) s
  s.modSeq p (fun q => { q with posted := q.posted.filter (fun x => decide (x.step ≠ step)) })

/-- The partition enters HALTED (R425): state, cause and mode, and event 0x4002. -/
def State.enterHalted (s : State) (p cause mode : Nat) : State :=
  let s := s.setPart p { s.part p with state := .halted, cause := BitVec.ofNat 8 cause, haltMode := BitVec.ofNat 8 mode }
  let s := s.modSeq p (fun q => { q with pendingHalt := none, phase := .none, ready := [] })
  let s := s.countLading p 6
  s.raiseJr 0x4002 p (wordLe 8 (s.part p).step ++ natLe 1 cause ++ natLe 1 mode)

/-- The mode of a halt (R426): complete when the verdict of the step has been received. -/
def State.haltMode (s : State) (p : Nat) : Nat := if (s.seq p).verdict.isSome then 2 else 1

/-- A halt that leaves its step complete: a STOP, an entry that no drive takes, and a notice in complete mode (Table 12.7,
R426). -/
def closesStep (cause mode : Nat) : Bool :=
  decide (cause = 1) || decide (cause = 6) || (decide (cause = 7) && decide (mode = 2))

/-- A pending halt stands against another: one that halts its step does, and cause 6 against a STOP, whose step's entry no
drive takes. -/
def State.haltTaken (s : State) (p cause : Nat) : Bool :=
  (s.seq p).pendingHalt.any (fun h => !closesStep h.1.toNat h.2.toNat || (decide (h.1 = 6) && decide (cause = 1)))

/-- A halt with a mode: pending until the step's slack water has passed (R31, R427), at once when no step runs. A
halt in abandon mode, and one while an apply pass waits (cause 4), withdraws what has not issued. A pending halt that
would close its step gives way to another cause: a step that a verdict or a fault halts does not advance (Table 5.6,
R428). -/
def State.haltWith (s : State) (p cause mode : Nat) : State :=
  let x := s.part p
  if !x.state.live ∨ x.state = .halted ∨ s.haltTaken p cause = true then s
  else
    let s := if cause = 7 ∨ (cause = 1 ∧ (s.seq p).phase ≠ .none) then s
      else s.send p (.halt x.step (BitVec.ofNat 8 mode) (BitVec.ofNat 8 cause))
    if (s.seq p).phase = .none then s.enterHalted p cause mode
    else
      let s := s.modSeq p (fun q => { q with pendingHalt := some (BitVec.ofNat 8 cause, BitVec.ofNat 8 mode) })
      if mode = 1 ∨ cause = 4 then
        (s.withdraw p).modSeq p (fun q => { q with phase := if q.phase = .body then .ended else q.phase })
      else s

/-- A halt for a cause of the partition's own (Table 12.7, R426). -/
def State.halt (s : State) (p cause : Nat) : State := s.haltWith p cause (s.haltMode p)

/-- The partitions whose regions satisfy `f`. -/
def State.partsWith (s : State) (f : Region → Bool) : List Nat :=
  (s.parts.filter (fun e =>
    match e.2.cfg with
    | some c => c.program.regions.any f
    | none => false)).map (·.1)

/-- The index after the first VERDICT of a body: where the apply pass begins. -/
def afterVerdict (body : List BodyIns) : Nat := ((indexOf? (fun i => decide (i.op = 8)) body).map (· + 1)).getD 0

def State.bodyOf (s : State) (p : Nat) : List BodyIns :=
  match s.cfg? p with
  | some c => c.program.body
  | none => []

/-- Counts non-finite values of a source of Table 5.5 (R191). -/
def State.countNonfinite (s : State) (p src k : Nat) : State :=
  if k = 0 then s else s.modDet p (fun d => { d with count := satAdd d.count k, mask := setBit d.mask src })

/-- Counts those of a reduction's result, which a rewind keeps (R443). -/
def State.countKept (s : State) (p src k : Nat) : State :=
  if k = 0 then s
  else (s.countNonfinite p src k).modDet p (fun d =>
    { d with kept := satAdd d.kept k, keptMask := setBit d.keptMask src })

/-! ## Update bounds (R187 to R190) -/

/-- floor(log2 b) of a finite F32 magnitude other than 0. -/
def floorLog2 (b : Word) : Int :=
  if bits b 30 23 = 0 then (Nat.log2 (bits b 22 0) : Int) - 149 else (bits b 30 23 : Int) - 127

/-- The update exponent of a bound (R187): 0 for a bound of 0 (R190), and where none is defined. -/
def updateExponent (b : Word) : Half :=
  if bits b 30 0 = 0 ∨ bits b 30 23 = 255 then 0 else BitVec.ofInt 16 (124 - floorLog2 b)

/-- A MAX32 group combines the bound of a layer across the job (R188): its elements are the layers from number 0 upward
(log entry 77). -/
def State.jobBounds (s : State) (p layer : Nat) : Bool :=
  (s.cfg? p).any (fun c => c.groups.any (fun g =>
    decide (g.op = 4) && decide (layer < g.shardElems * 2 ^ popCount 16 g.dimMask)))

/-- The bound of a layer is final and 0: its masters and moments keep their values (R190). -/
def State.layerStill (s : State) (p layer : Nat) : Bool :=
  (s.seq p).bounds.any (fun x => decide (x.layer = layer) && decide (x.job = s.jobBounds p layer)
    && decide (bits x.bound 30 0 = 0))

/-- A maximum joins the bound of a layer (R187, R188); a bound that becomes not finite counts once (R190, Table 5.5).
Which numbers name a layer is the model's choice (log entry 77). -/
def State.noteBound (s : State) (p : Nat) (job : Bool) (layer : Nat) (b : Word) : State :=
  let mine := fun (x : LayerBound) => decide (x.job = job) && decide (x.layer = layer)
  let old := (((s.seq p).bounds.find? mine).map (·.bound)).getD 0
  let new := if bits old 30 0 ≤ bits b 30 0 then clearBit b 31 else old
  let bad := fun (w : Word) => decide (bits w 30 23 = 255)
  let s := s.modSeq p (fun q =>
    { q with bounds := q.bounds.filter (fun x => !mine x)
        ++ [{ job := job, layer := layer, bound := new, exponent := updateExponent new }] })
  if !bad new || bad old then s
  else if job then s.countKept p 4 1
  else if s.jobBounds p layer then s
  else s.countNonfinite p 4 1

/-- BODY runs again from the start (R443): what reductions and the verdict exchange gave is kept, and what the step
counted besides is counted again. -/
def State.restartBody (s : State) (p : Nat) : State :=
  let s := (s.clearSums p).unapply p
  let s := s.modDet p (fun d => { d with count := d.kept, mask := d.keptMask, loss := none })
  s.modSeq p (fun q =>
    { q with pc := 0, loops := [], phase := .body, notices := [], posted := [], partials := [], waitsData := none,
             boundMbs := [], bounds := q.bounds.filter (·.job), lateAdded := false, putOff := [], partEnd := none, reported := none })

/-- The apply pass runs again from the verdict: write-backs that completed are passed over (R443). -/
def State.restartApply (s : State) (p : Nat) : State :=
  s.modSeq p (fun q =>
    { q with pc := afterVerdict (s.bodyOf p), loops := [], phase := .body, notices := [], posted := [], putOff := [],
             partEnd := none, reported := none })

/-- Empties the partition's intakes, tensor berths, windows and lighters (R443, R354, R308). Old descriptors may go with
their items, and an amendment end with them (R78). -/
def State.flushPartition (s : State) (p : Nat) : State :=
  let mine := (s.berthsOf p).filter (fun n => (s.berth n).front.intake || decide ((s.berth n).front.kindOf = kindTensor))
  let s := mine.foldl State.flushBerth s
  let s := (s.lightersOf p).foldl (fun s dn => s.modLighter dn.1 dn.2 (fun _ => Lighter.zero)) s
  let s := s.dropFlights p
  (s.modContexts p (fun x => { x with window := [], halted := false, runsOn := 0, carries := [] })).amendCheck

/-- A replay follows recorded steps (R450), also while a rewind of one of them runs. -/
def State.replays (s : State) (p : Nat) : Bool :=
  match (s.part p).state with
  | .replaying => true
  | .rewinding => decide ((s.log p).replay ≠ [])
  | _ => false

/-- The rewound step's instructions run again: the partition leaves REWINDING (R424; log entry 105). -/
def State.endRewind (s : State) (p : Nat) : State :=
  if (s.part p).state = .rewinding then
    s.modPart p (fun x => { x with state := if (s.log p).replay ≠ [] then .replaying else .running })
  else s

/-- A rewind for a local fault, with the event code that caused it (R443, R444): the partition is REWINDING until the first
instruction of BODY that it comes to. -/
def State.rewind (s : State) (p code : Nat) : State :=
  let x := s.part p
  if !x.state.steps ∨ (s.seq p).phase = .none then s
  else
    let point := b2n x.applyPassed
    let s := s.setPart p { x with rewinds := satAdd x.rewinds 1 }
    let s := s.modSeq p (fun q => { q with rewindsInStep := q.rewindsInStep + 1 })
    let s := (s.recovery p 1 (natLe 1 point ++ natLe 2 code)).countLading p 0
    let s := s.raiseJr 0x4004 p (wordLe 8 x.step ++ natLe 1 point ++ natLe 2 code)
    if (s.recoveryOf p).rewindLimit < (s.seq p).rewindsInStep then s.halt p 8
    else
      let s := (s.flushPartition p).modPart p (fun x => { x with state := .rewinding })
      if x.applyPassed then s.restartApply p else s.restartBody p

end Sys2Proof.Machine
end

