-- ==== Sys2Proof/Machine/Access.lean ====
section
/-!
DEFINITION. Readiness (R526, R529, R530): which blocks serve register accesses, and what a write to a block that is
not ready does. The issue gate of a compute die (R114, R207, R460, R469).
-/

namespace Sys2Proof.Machine

/-- Ready bits of Table 15.3. -/
def readySideband : Nat := 0
def readyHm : Nat := 1
def readySecurity : Nat := 2
def readyPower : Nat := 3
def readyGateway : Nat := 4
def readyEth : Nat := 5
def readySnapshot : Nat := 8
def readyLink (ld : Nat) : Nat := 12 + ld
def readyCompute (die : Nat) : Nat := 16 + die
def readyCoord : Nat := 24

/-- A function is usable (R529). -/
def State.ready (s : State) (b : Nat) : Bool := bit s.hm.ready b

/-- A package die is lost (R22). -/
def State.dead (s : State) (die : Nat) : Bool := s.pkg.deadDies.contains (BitVec.ofNat 4 die)

/-- A compute die works: it is ready and not lost. -/
def State.dieUp (s : State) (die : Nat) : Bool := s.ready (readyCompute die) && !s.dead (cdIndex die)

/-- The Gateway works. -/
def State.gatewayUp (s : State) : Bool := s.ready readyGateway && !s.dead gwIndex

/-- The boot ROM runs (R501, R504). -/
def State.romRuns (s : State) : Bool := decide (s.boot.phase ≠ .firmware)

/-- Register accesses are answered: the sideband is ready and no management restart runs (R522, R530). -/
def State.served (s : State) : Bool := s.ready readySideband && !s.hmAux.restarting

/-- A write to an address whose block is not ready (R530). -/
def State.writeNotReady (s : State) (addr : Nat) : State :=
  { s with hm := { s.hm with error := setBit s.hm.error 0 } }.raiseHm 0x000D none (natLe 4 addr)

/-- What reaches the management ring while the management cores restart waits, and is answered afterwards in its order
of arrival (R411, R522; log entry 60). -/
def State.defer (s : State) (d : Deferred) : State :=
  if s.ready readySideband then { s with deferred := s.deferred ++ [d] } else s

/-- A register write that reaches a block with the given ready bit, as the command `c`: its effect `k`, none while
nothing is served or the boot ROM runs (R526), the not-ready report otherwise. -/
def State.guardWrite (s : State) (c : Instr) (b addr : Nat) (k : State → State) : State :=
  if !s.ready readySideband then s
  else if s.hmAux.restarting then s.defer (.cmd c)
  else if s.ready b then k s
  else if s.romRuns then s
  else s.writeNotReady addr

/-- The base of a cluster window (R8). -/
def clusterBase (die phys : Nat) : Nat := 0x10000000 + die * 0x01000000 + phys * 0x10000

/-! ## The issue gate -/

/-- The duty of a die in 1/256: full less the deepest cut that any source asks (R460). -/
def PtDie.duty (d : PtDie) : Nat :=
  256 - max d.cutPin (max d.cutFlow (max d.cutLadder (max d.cutQuiesce d.cutFast)))

/-- The gate of a die opens in some cycles (R460, R480, R523). -/
def State.gateOpen (s : State) (die : Nat) : Bool :=
  decide (0 < (s.ptDie die).duty) && !s.supply.tripLatched && !s.hmAux.escalated

/-- A cluster may issue: the gate opens and the wave of its logical number has opened (R469). -/
def State.mayIssue (s : State) (die logical : Nat) : Bool :=
  s.gateOpen die && decide (logical % 8 < (s.ptDie die).waves)

end Sys2Proof.Machine
end

