-- ==== Sys2Proof/Machine/MemFaults.lean ====
section
/-!
DEFINITION. Refresh (R290 to R292), errors, retry and spares of the memories (R317 to R326), the patrol scrub (R320),
and the meanings of their commands.
-/

namespace Sys2Proof.Machine

/-! ## Pool rows (R321, R324) -/

/-- Pool rows of a DRAM die at the first bring-up. -/
def poolRows : Nat := 65536

/-- Free pool rows of DRAM die `n` of a stack. -/
def MemDieAux.free (a : MemDieAux) (n : Nat) : Nat := a.poolFree.getD n poolRows

def MemDieAux.setFree (a : MemDieAux) (n v : Nat) : MemDieAux :=
  { a with poolFree := (List.range 4).map (fun i => if i = n then v else a.free i) }

/-- The DRAM die of a pseudo-channel (R282). -/
def dramOf (pc : Nat) : Nat := pc / 64

/-- Some DRAM die of the stack is below 8,128 free pool rows. -/
def MemDieAux.low (a : MemDieAux) : Bool := (List.range 4).any (fun n => decide (a.free n < 8128))

/-- The resource reason of HM_SERVICE [1] (Table 15.9). -/
def State.memService (s : State) : State := s.service 1 true

/-- Takes `k` pool rows of a DRAM die; crossing below 8,128 raises 0x9007 and asserts SERVICE_N (R324). -/
def State.takePool (s : State) (stack dram k : Nat) : State :=
  let a := s.memDieAux stack
  let new := a.free dram - k
  let s := s.modMemDieAux stack (fun a => a.setFree dram new)
  if new < 8128 ∧ 8128 ≤ a.free dram then
    (s.raiseDie 0x9007 (cdIndex stack) none (natLe 1 stack ++ natLe 1 dram ++ natLe 4 new)).memService
  else s

/-- Partitions with a region on some granule of a row. -/
def State.partsOnRow (s : State) (granules : List Nat) : List Nat :=
  s.partsWith (fun r => decide (r.kind = 1) && granules.any (fun g => decide (r.lo < g + 256) && decide (g < r.hi)))

/-- The row has no pool row to go to (R324): its data is lost, its partition halts, 0x9008. -/
def State.loseRow (s : State) (stack pc row : Nat) : State :=
  let gs := rowGranules stack pc row
  let first := gs.headD 0
  let s := s.modMem (fun m => { m with unserviceable := m.unserviceable ++ [(stack, pc, row)],
                                       lastUnserviceable := BitVec.ofNat 39 first })
  let s := gs.foldl (fun s g => s.poisonAt .near g 256) s
  let ps := s.partsOnRow gs
  let s := ps.foldl (fun s p => s.halt p 11) s
  let s := s.raiseDie 0x9008 (cdIndex stack) none
    (natLe 8 first ++ natLe 1 (ps.headD (Config.openCode 3 0)))
  s.memService

/-- One second of local time. -/
def ticks1s : Nat := 100000000

/-- Repaired rows of a bank. -/
def Mem.rowsOfBank (m : Mem) (stack pc bank : Nat) : Nat :=
  (m.remaps.filter (fun r => decide (r.stack = stack) && decide (r.pc = pc) && decide (bankOf r.row = bank))).length

/-- Locked rows of a bank. -/
def Mem.lockedOf (m : Mem) (stack pc bank : Nat) : Nat :=
  (m.locked.filter (fun k => decide (k.1 = stack) && decide (k.2.1 = pc) && decide (bankOf k.2.2 = bank))).length

/-- Pool rows of a DRAM die that are promised to repairs under way: one to each locked row, and to a bank in copy one for
each of its rows that has none yet. -/
def Mem.promised (m : Mem) (stack dram : Nat) : Nat :=
  let rows := m.locked.filter (fun k => decide (k.1 = stack) && decide (dramOf k.2.1 = dram)
    && !m.bankJobs.contains (k.1, k.2.1, bankOf k.2.2))
  let banks := m.bankJobs.filter (fun b => decide (b.1 = stack) && decide (dramOf b.2.1 = dram))
  rows.length + (banks.map (fun b => 8128 - m.rowsOfBank b.1 b.2.1 b.2.2)).sum

/-- Pool rows of a DRAM die that are free and promised to nothing. -/
def State.rowsLeft (s : State) (stack dram : Nat) : Nat := (s.memDieAux stack).free dram - s.mem.promised stack dram

/-- The bank is copied whole from now on (R323), where its DRAM die has a pool row for each of its rows (log entry 72). -/
def State.startBank (s : State) (stack pc bank : Nat) : State :=
  let b := (stack, pc, bank)
  let short := decide (s.rowsLeft stack (dramOf pc) + s.mem.lockedOf stack pc bank < 8128 - s.mem.rowsOfBank stack pc bank)
  if s.mem.banks.contains b ∨ s.mem.bankJobs.contains b ∨ short then s
  else { s with mem := { s.mem with bankJobs := s.mem.bankJobs ++ [b], bankTicks := s.mem.bankTicks ++ [(b, 0)] } }

/-- A tick of every bank's copy (R323). -/
def State.bankTick (s : State) : State :=
  if s.mem.bankTicks = [] then s
  else { s with mem := { s.mem with bankTicks := s.mem.bankTicks.map (fun b => (b.1, b.2 + 1)) } }

/-- Two data bonds of a pseudo-channel have failed (R324). -/
def State.twoBonds (s : State) (stack pc : Nat) : Bool :=
  decide (2 ≤ (s.mem.bonds.filter (fun b => decide (b.1 = stack) && decide (b.2.1 = pc))).length)

/-- A lasting fault of a row (R322, R323, R324): locked for repair, or unserviceable. A bank is copied when 4 rows of it
fault within 1 s, where the pool has rows for it (log entry 72). -/
def State.rowFault (s : State) (stack pc row : Nat) : State :=
  let key := (stack, pc, row)
  if s.mem.locked.contains key ∨ s.mem.unserviceable.contains key then s
  else
    let now := s.hm.time
    let recent : List (Nat × Nat × Nat × DWord) :=
      s.mem.rowFaults.filter (fun f => decide (now.toNat < f.2.2.2.toNat + ticks1s)
        && !decide ((f.1, f.2.1, f.2.2.1) = key)) ++ [(stack, pc, row, now)]
    let s := s.modMem (fun m => { m with rowFaults := recent })
    let copied := s.mem.bankJobs.contains (stack, pc, bankOf row)
    if (!copied && decide (s.rowsLeft stack (dramOf pc) = 0)) ∨ s.twoBonds stack pc then s.loseRow stack pc row
    else
      let s := { s with mem := { s.mem with locked := s.mem.locked ++ [key] } }
      let same := recent.filter (fun f => decide (f.1 = stack) && decide (f.2.1 = pc) && decide (bankOf f.2.2.1 = bankOf row))
      if 4 ≤ same.length then s.startBank stack pc (bankOf row) else s

/-- The row of a near-tier address. -/
def State.rowFaultAt (s : State) (addr : Nat) : State :=
  let off := Space.near.offset addr
  s.rowFault (Space.near.unit addr) (pseudoChannel off) (rowOf off)

/-- The repair of a row ends (Table 8.10). -/
def State.rowRepaired (s : State) (stack pc row : Nat) : State :=
  if !s.mem.locked.contains (stack, pc, row) then s
  else
    let dram := dramOf pc
    let pool := poolRows - (s.memDieAux stack).free dram
    let rest := s.mem.remaps.filter
      (fun r => !(decide (r.stack = stack) && decide (r.pc = pc) && decide (r.row = row)))
    let s := s.modMem (fun m =>
      { m with locked := m.locked.filter (fun k => decide (k ≠ (stack, pc, row))),
               remaps := rest ++ [{ stack := stack, pc := pc, row := row, pool := pool }] })
    let s := s.modMemDieAux stack (fun a => { a with rowsRepaired := min (a.rowsRepaired + 1) 0xFFFF })
    let s := s.raiseDie 0x9005 (cdIndex stack) none
      (natLe 1 stack ++ natLe 1 dram ++ natLe 4 row ++ natLe 4 pool)
    let s := s.takePool stack dram 1
    if 32 < s.mem.rowsOfBank stack pc (bankOf row) then s.startBank stack pc (bankOf row) else s

/-- A whole-bank copy ends (R323). -/
def State.bankRepaired (s : State) (stack pc bank : Nat) : State :=
  let b := (stack, pc, bank)
  if !s.mem.bankJobs.contains b then s
  else
    let had := s.mem.rowsOfBank stack pc bank
    let s := s.modMem (fun m =>
      { m with
        bankJobs := m.bankJobs.filter (fun k => decide (k ≠ b)),
        bankTicks := m.bankTicks.filter (fun k => decide (k.1 ≠ b)),
        banks := m.banks ++ [b],
        remaps := m.remaps.filter
          (fun r => !(decide (r.stack = stack) && decide (r.pc = pc) && decide (bankOf r.row = bank))),
        locked := m.locked.filter
          (fun k => !(decide (k.1 = stack) && decide (k.2.1 = pc) && decide (bankOf k.2.2 = bank))) })
    let s := s.modMemDieAux stack (fun a => { a with banksRepaired := min (a.banksRepaired + 1) 63 })
    let s := s.raiseDie 0x9006 (cdIndex stack) none (natLe 1 stack ++ natLe 1 pc ++ natLe 1 bank)
    s.takePool stack (dramOf pc) (8128 - had)

/-! ## Hold devices (R281, R325, R326) -/

/-- The spare that serves logical device j. -/
def Mem.spareFor (m : Mem) (j : Nat) : HoldSpare := if j < 8 then m.h16 else m.h17

def Mem.setSpare (m : Mem) (h17 : Bool) (v : HoldSpare) : Mem := if h17 then { m with h17 := v } else { m with h16 := v }

/-- Every partition with a region on logical device j stops where it is. -/
def State.holdParts (s : State) (j : Nat) : State :=
  (s.partsWith (fun r => decide (r.kind = 3) && decide (r.unit = j))).foldl
    (fun s p => s.modRun p (fun r => { r with held := true })) s

/-- A lasting fault of logical device j finds no spare (R326): 0x900B, and the jobs with a region on j take the
device-loss path: they stop, and their heartbeats end, so that the mirror partner declares the device lost (R445). -/
def State.noHoldSpare (s : State) (j : Nat) : State :=
  let s := s.modMem (fun m => { m with holdLost := setBit m.holdLost j })
  (s.holdParts j).raiseDie 0x900B (cdIndex (j / 2)) none (natLe 1 j)

/-- A lasting fault of logical device j: the spare is set TESTING, or none is left (Table 8.11, R326). With the old
device unreadable, every partition with a region on j is held at once. A device that is being replaced already goes on
with that. -/
def State.holdFault (s : State) (j : Nat) (readable : Bool) : State :=
  let start := { s with mem := s.mem.setSpare (decide (8 ≤ j)) (.testing (BitVec.ofNat 4 j) readable) }
  if bit s.mem.holdLost j then s
  else
    match s.mem.spareFor j with
    | .idle => if readable then start else start.holdParts j
    | .testing k r =>
      if k.toNat ≠ j then s.noHoldSpare j
      else if readable ∨ !r then s
      else start.holdParts j
    | .filling k _ => if k.toNat ≠ j then s.noHoldSpare j else s
    | .serving k =>
      let s := if k.toNat = j then s.modMem (fun m => m.setSpare (decide (8 ≤ j)) .retired) else s
      s.noHoldSpare j
    | .retired => s.noHoldSpare j

/-- A lasting fault of a spare (R326), which its link to a compute die shows: in service, it is one of the device that it
serves, and in its copy the device that waits for it is left without one. In its test the test shows it. -/
def State.spareFault (s : State) (h17 : Bool) (die : Nat) : State :=
  match (if h17 then s.mem.h17 else s.mem.h16) with
  | .serving k => if k.toNat / 2 = die then s.holdFault k.toNat true else s
  | .filling k _ =>
    if k.toNat / 2 = die then (s.modMem (fun m => m.setSpare h17 .retired)).noHoldSpare k.toNat else s
  | _ => s

/-- Logical device j is served by its spare: the old device is RETIRED. -/
def Mem.replaced (m : Mem) (j : Nat) : Bool :=
  match m.spareFor j with
  | .serving k => decide (k.toNat = j)
  | _ => bit m.holdRetired j

/-- The spare's test ends: filled from the old device, cleared, or retired, which leaves the waiting device with none
(R326). -/
def State.spareTested (s : State) (h17 pass oldReadable : Bool) : State :=
  match (if h17 then s.mem.h17 else s.mem.h16) with
  | .testing j readable =>
    if pass then
      let s := { s with mem := s.mem.setSpare h17 (.filling j (readable && oldReadable)) }
      if readable && oldReadable then s
      else
        (s.clearBytes .hold (j.toNat * 2 ^ 36) (2 ^ 36)).holdParts j.toNat
    else
      let s := { s with mem := s.mem.setSpare h17 .retired }
      let s := s.raiseDie 0x900A (cdIndex (j.toNat / 2)) none (natLe 1 (if h17 then 17 else 16))
      s.noHoldSpare j.toNat
  | _ => s

/-- Lost hold-tier contents of a held partition (R443): repaired from the partner, whose bytes the command brings for the
ranges on the device, and the step rewound; with no partner, a halt with cause 14. -/
def State.recoverHold (s : State) (j : Nat) (bytes : List (Nat × Bytes)) : State :=
  (s.partsWith (fun r => decide (r.kind = 3) && decide (r.unit = j))).foldl (fun s p =>
    let s := s.modRun p (fun r => { r with held := false })
    match s.cfg? p with
    | none => s
    | some c =>
      if c.mirror.isSome && !(s.part p).partnerLost then
        let s := c.program.regions.zipIdx.foldl (fun s ri =>
          if ri.1.kind = 3 ∧ ri.1.unit = j then
            let s := (bytes.filter (fun r => decide (ri.1.lo ≤ r.1) && decide (r.1 + r.2.length ≤ ri.1.hi))).foldl
              (fun s r => s.store .hold r.1 r.2) s
            s.recovery p 3 (natLe 1 ri.2 ++ zeros 7 ++ natLe 8 0 ++ natLe 8 (ri.1.size * 4096))
          else s) s
        (s.countLading p 1).rewind p 0x9009
      else s.halt p 14) s

/-- The copy or clear ends and the map is switched (Table 8.11, orders 4 and 5). Sectors that the copy could not read are
poisoned on the spare (R325). The command brings both lists (log entry 112). -/
def State.spareServes (s : State) (h17 : Bool) (lost : List Nat) (bytes : List (Nat × Bytes)) : State :=
  match (if h17 then s.mem.h17 else s.mem.h16) with
  | .filling j readable =>
    let new := if h17 then 17 else 16
    let s := s.modMem (fun m => { m.setSpare h17 (.serving j) with holdRetired := setBit m.holdRetired j.toNat })
    let pay := natLe 1 j.toNat ++ natLe 1 j.toNat ++ natLe 1 new ++ natLe 1 (Config.openCode 4 (b2n readable))
    let s := s.raiseDie 0x9009 (cdIndex (j.toNat / 2)) none pay
    let s := (s.partsWith (fun r => decide (r.kind = 3) && decide (r.unit = j.toNat))).foldl
      (fun s p => s.recovery p 2 (natLe 2 0x9009 ++ pay)) s
    let s := s.service 2 true
    if readable then
      (lost.filter (fun a => decide (a / 2 ^ 36 = j.toNat))).foldl (fun s a => s.poisonAt .hold (a / 32 * 32) 32) s
    else s.recoverHold j.toNat bytes
  | _ => s

/-- The physical device that serves logical j. -/
def Mem.holdPhys (m : Mem) (j : Nat) : Nat :=
  match m.spareFor j with
  | .serving k => if k.toNat = j then (if j < 8 then 16 else 17) else j
  | _ => j

/-! ## Reads (R318, R319) -/

/-- The compute die that a unit of a memory is attached to (R281). -/
def Space.dieOf (sp : Space) (addr : Nat) : Nat := if sp = .hold then sp.unit addr / 2 else sp.unit addr

/-- A memory fault classified transient: counted, 0x900F, and promoted when its resource reaches the threshold. -/
def State.memTransient (s : State) (sp : Space) (addr : Nat) : State :=
  let die := sp.dieOf addr
  let s := s.raiseDie 0x900F (cdIndex die) none (natLe 1 sp.code ++ natLe 8 addr)
  match sp with
  | .near =>
    let s := s.modMemDie die (fun m => { m with nearTransient := satAdd m.nearTransient 1 })
    let off := sp.offset addr
    let (p, s) := s.transientFault (.dramRow (sp.unit addr) (pseudoChannel off) (rowOf off))
    if p then s.rowFaultAt addr else s
  | .hold =>
    let s := { s with mem := { s.mem with holdTransient := satAdd s.mem.holdTransient 1 } }
    let (p, s) := s.transientFault (.holdDevice (s.mem.holdPhys (sp.unit addr)))
    if p then s.holdFault (sp.unit addr) true else s
  | .yard => s

/-- A transient error of a cached line of the near tier (R319): counted, and reported; no row of the DRAM had it. -/
def State.lineTransient (s : State) (addr : Nat) : State :=
  let die := Space.near.unit addr
  let s := s.raiseDie 0x900F (cdIndex die) none (natLe 1 1 ++ natLe 8 addr)
  s.modMemDie die (fun m => { m with nearTransient := satAdd m.nearTransient 1 })

/-- A corrected error is counted (Table 8.15). -/
def State.countCe (s : State) (sp : Space) (die : Nat) : State :=
  s.modMemDie die (fun m =>
    match sp with
    | .near => { m with nearCe := satAdd m.nearCe 1 }
    | .hold => { m with holdCe := satAdd m.holdCe 1 }
    | .yard => { m with yardCe := satAdd m.yardCe 1 })

/-- An uncorrectable read is counted (Table 8.15). -/
def State.countUe (s : State) (sp : Space) (die : Nat) : State :=
  s.modMemDie die (fun m =>
    match sp with
    | .near => { m with nearUe := satAdd m.nearUe 1 }
    | .hold => { m with holdUe := satAdd m.holdUe 1 }
    | .yard => { m with yardUe := satAdd m.yardUe 1 })

/-- An uncorrectable read after retry: counted, poisoned, and its event (R318, R319). In a pseudo-channel with two
failed bonds the row is unserviceable from now on (R324). -/
def State.readLost (s : State) (sp : Space) (addr requester : Nat) : State :=
  let die := sp.dieOf addr
  let s := (s.poisonAt sp addr 1).countUe sp die
  match sp with
  | .near =>
    let s := s.raiseDie 0x9002 (cdIndex die) none (natLe 8 addr ++ natLe 2 requester)
    let off := sp.offset addr
    if s.twoBonds die (pseudoChannel off) then s.rowFaultAt addr else s
  | .hold => s.raiseDie 0x9003 (cdIndex die) none (natLe 1 (sp.unit addr) ++ natLe 8 (sp.offset addr))
  | .yard => s.raiseDie 0x9004 (cdIndex die) none
      (natLe 1 die ++ natLe 8 (sp.offset addr) ++ natLe 1 (Config.openCode 5 0))

/-- What a memory's fault does to a read, where no cached line serves it (R318): whether its data may be used, and the
state. A hold device spares its own rows (R294); an uncorrectable read of it that repeats is its lasting fault (R325). -/
def State.readFault (s : State) (sp : Space) (addr requester : Nat) : ReadOutcome → Bool × State
  | .good => (true, s)
  | .corrected => (true, (s.countCe sp (sp.dieOf addr)).memTransient sp addr)
  | .correctedRepeat =>
    let s := s.countCe sp (sp.dieOf addr)
    (true, if sp = .near then s.rowFaultAt addr else s)
  | .transient => (true, s.memTransient sp addr)
  | .uncorrectable =>
    let s := s.readLost sp addr requester
    (false, if sp = .hold then s.holdFault (sp.unit addr) true else s)
  | .linkRetried k =>
    (true, if sp = .hold then s.modMemDie (sp.dieOf addr) (fun m => { m with holdRetry := satAdd m.holdRetry k.toNat })
      else s)

/-- What a Yard error does to a read that a cached near-tier line serves (R319): a clean line is invalidated and fetched
again; the data of a dirty one is lost. -/
def State.lineFault (s : State) (v : Via) (x : CacheLine) (addr : Nat) : ReadOutcome → Bool × State
  | .good | .linkRetried _ => (true, s)
  | .corrected => (true, (s.countCe .yard (Space.near.unit addr)).lineTransient addr)
  | .correctedRepeat => (true, s.countCe .yard (Space.near.unit addr))
  | .transient => (true, s.lineTransient addr)
  | .uncorrectable =>
    let die := Space.near.unit addr
    let first := die * 2 ^ 36 + x.line * 128
    let s := (s.countUe .yard die).modCache die (fun c => { c with lines := c.lines.filter (fun y => decide (y.line ≠ x.line)) })
    if x.dirty then
      (false, (s.poisonAt .near first 128).raiseDie 0x9004 (cdIndex die) none
        (natLe 1 die ++ natLe 8 (Space.near.offset addr) ++ natLe 1 (Config.openCode 5 1)))
    else (true, (s.touch v false .near addr 1).lineTransient addr)

/-- What a read of `n` bytes from `addr` meets: whether its data may be used, and the state with the fault
classified (R318, R319). Poisoned data is uncorrectable whatever the outcome of this read. Through the Yard cache (`via`), a
line that was cached serves it. -/
def State.readMem (s : State) (via : Option Via) (sp : Space) (addr n requester : Nat) (o : ReadOutcome) : Bool × State :=
  let hit := if sp = .near then via.bind (fun v => (s.lineAt addr).map (fun x => (v, x))) else none
  let s := match via with
    | some v => s.touch v false sp addr n
    | none => s
  match s.firstPoison sp addr n with
  | some a => (false, s.readLost sp a requester)
  | none =>
    match hit with
    | some (v, x) => s.lineFault v x addr o
    | none => s.readFault sp addr requester o

/-- The requester identity of the patrol scrub: none of Table 9.3 names it (log entry 10). -/
def scrubRequester : Nat := Config.openCode 6 0

/-- One finding of a scrub pass (R318, R320). -/
def State.scrubFind (s : State) (f : ScrubFind) : State :=
  let sp := match f.tier with
    | .near => Space.near
    | .hold => Space.hold
  let o := match f.kind with
    | .correctedClean => ReadOutcome.corrected
    | .correctedRepeat => ReadOutcome.correctedRepeat
    | .ueTransient => ReadOutcome.transient
    | .ueLasting => ReadOutcome.uncorrectable
  (s.readMem none sp f.addr 1 scrubRequester o).2

/-- A patrol scrub pass: what it finds, and the count of passes (MEM_SCRUB_STATUS). -/
def State.scrub (s : State) (finds : List ScrubFind) : State :=
  let s := finds.foldl State.scrubFind s
  { s with mem := { s.mem with scrubRunning := false, scrubPasses := s.mem.scrubPasses + 1 } }

/-- MEM_CONTROL SCRUB_NOW. -/
def State.scrubStart (s : State) : State := { s with mem := { s.mem with scrubRunning := true } }

/-! ## Refresh (R290 to R292) -/

/-- The band of a temperature (Table 8.4). -/
def bandOfTemp (t : Nat) : Nat := if t < 45 then 0 else if t < 85 then 1 else if t < 95 then 2 else if t < 105 then 3 else 4

/-- The band of DRAM die `n`. -/
def MemDie.band (m : MemDie) (n : Nat) : Nat := bits m.bands (3 * n + 2) (3 * n)

/-- DRAM die `n`'s sensor pair is suspect: hot spot 128 + 4 × stack + n in the order of Table 13.5 (R291,
R477). -/
def State.dramSuspect (s : State) (stack n : Nat) : Bool :=
  (s.ptAux.spots.get (fun _ => Spot.zero) (128 + stack * 4 + n)).suspect

/-- A band, and event 0x9001 where it changes (R292). -/
def State.setBand (s : State) (stack n band temp : Nat) : State :=
  let old := (s.memDie stack).band n
  let s := s.modMemDie stack (fun m =>
    { m with bands := setField m.bands (3 * n) 3 band, dramTemp := setField m.dramTemp (8 * n) 8 temp })
  if band = old then s
  else s.raiseDie 0x9001 (cdIndex stack) none (natLe 1 stack ++ natLe 1 n ++ natLe 1 band ++ natLe 1 temp)

/-- The band a reading gives, one above it while the pair is suspect, at most 4 (R291). -/
def State.bandFor (s : State) (stack n temp : Nat) : Nat :=
  min 4 (bandOfTemp temp + b2n (s.dramSuspect stack n))

/-- A reading crossed a threshold upward and the die's next refresh comes. -/
def State.bandRise (s : State) (stack n temp : Nat) : State :=
  s.setBand stack n (max ((s.memDie stack).band n) (s.bandFor stack n temp)) temp

/-- A reading has stayed 3 °C below its threshold for 10 ms. -/
def State.bandFall (s : State) (stack n temp : Nat) : State :=
  s.setBand stack n (min ((s.memDie stack).band n) (s.bandFor stack n (temp + 2))) temp

/-- The temperature MEM_DRAM_TEMP shows of DRAM die `n`. -/
def MemDie.temp (m : MemDie) (n : Nat) : Nat := bits m.dramTemp (8 * n + 7) (8 * n)

/-- A DRAM die's pair becomes suspect or clear (R291, R477): hot spot `i` of Table 13.5, those of the DRAM dies from 128.
One band more while it is suspect, never above 4. -/
def State.suspectBand (s : State) (i : Nat) (before after : Bool) : State :=
  if !within 128 159 i ∨ before = after then s
  else
    let stack := (i - 128) / 4
    let n := i % 4
    let m := s.memDie stack
    let band := if after then min 4 (m.band n + 1) else max (bandOfTemp (m.temp n)) (m.band n - 1)
    s.setBand stack n band (m.temp n)

/-- One refresh of a pseudo-channel: 250 NEAR_CLK cycles, counted in units of 256 (R290). -/
def State.refresh (s : State) (stack : Nat) : State :=
  s.modMemDie stack (fun m =>
    let f := m.refreshFrac + 250
    { m with refreshFrac := f % 256, refreshBusy := satAdd m.refreshBusy (f / 256) })

/-! ## The commands -/

/-- The address of MEM_CONTROL. -/
def memControl : Nat := 0x2000001C

/-- SCRUB_NOW (R320). -/
def execScrubNow (s : State) : Out := .next (s.guardWrite .scrubNow readyHm memControl State.scrubStart)

/-- PATROL_SCRUB (R320). -/
def execPatrolScrub (finds : List ScrubFind) (s : State) : Out := .next (s.scrub finds)

/-- REFRESH (R290). -/
def execRefresh (stack : BitVec 3) (_pc : Byte) (s : State) : Out := .next (s.refresh stack.toNat)

/-- REFRESH_BAND_RISE (R291). -/
def execRefreshBandRise (stack : BitVec 3) (dram : BitVec 2) (temp : Byte) (s : State) : Out :=
  .next (s.bandRise stack.toNat dram.toNat temp.toNat)

/-- REFRESH_BAND_FALL (R291). -/
def execRefreshBandFall (stack : BitVec 3) (dram : BitVec 2) (temp : Byte) (s : State) : Out :=
  .next (s.bandFall stack.toNat dram.toNat temp.toNat)

/-- ROW_REPAIR_COMPLETE (R322). -/
def execRowRepairComplete (stack : BitVec 3) (pc : Byte) (row : Nat) (s : State) : Out :=
  .next (s.rowRepaired stack.toNat pc.toNat row)

/-- BANK_REPAIR_COMPLETE (R323). -/
def execBankRepairComplete (stack : BitVec 3) (pc : Byte) (bank : Nat) (s : State) : Out :=
  .next (s.bankRepaired stack.toNat pc.toNat bank)

/-- HOLD_SPARE_TEST_COMPLETE (R325). -/
def execHoldSpareTestComplete (spare : BitVec 1) (pass oldReadable : Bool) (s : State) : Out :=
  .next (s.spareTested (decide (spare = 1)) pass oldReadable)

/-- HOLD_SPARE_COPY_COMPLETE (R325). -/
def execHoldSpareCopyComplete (spare : BitVec 1) (s : State) (lost : List Nat := []) (partner : List (Nat × Bytes) := []) :
    Out :=
  .next (s.spareServes (decide (spare = 1)) lost partner)

end Sys2Proof.Machine
end

