-- ==== Sys2Proof/Machine/Store.lean ====
section
/-!
DEFINITION. The cluster store (R92, R93): panel layout, spans of slots, the granules of R107; the window entries of a
context and the common parts of array and vector execution.
-/

namespace Sys2Proof.Machine

/-! ## Panel layout -/

/-- The width of a subtile in elements (R93, R208): a subtile row is 8 bytes. -/
def Fmt.width (f : Fmt) : Nat := 64 / f.bitsOf

/-- A panel region: its first slot in the context's window, its stride, and its format. -/
structure Panel where
  slot   : Nat
  stride : Nat
  fmt    : Fmt
  deriving DecidableEq, Repr

/-- The byte of element (r, c) from the window's first byte, and the bit within it (R93). -/
def Panel.place (p : Panel) (r c : Nat) : Nat × Nat :=
  let w := p.fmt.width
  let bits := ((r % 16) * w + c % w) * p.fmt.bitsOf
  ((p.slot + (r / 16) * p.stride + c / w) * 128 + bits / 8, bits % 8)

/-- The code of element (r, c), for a window that begins at byte `base` of the store. -/
def Panel.code (p : Panel) (m : Cells) (base r c : Nat) : Nat :=
  let (b, i) := p.place r c
  if p.fmt = .f4 then ((Cells.byte m (base + b)).toNat >>> i) % 16
  else leNat (m.read (base + b) (p.fmt.bitsOf / 8))

/-- Consecutive slots: the first, and how many. -/
abbrev Span := Nat × Nat

/-- The subtile rows of a region of `rows` × `cols` elements, gaps left out (R102). -/
def Panel.spans (p : Panel) (rows cols : Nat) : List Span :=
  (List.range (ceilDiv rows 16)).map (fun a => (p.slot + a * p.stride, ceilDiv cols p.fmt.width))

/-- The last slot of every span lies in a window of `n` slots. -/
def inWindow (n : Nat) (xs : List Span) : Bool := xs.all (fun x => decide (x.1 + x.2 ≤ n))

/-- Two spans share a 4 KiB granule of 32 slots (R107). -/
def Span.meets (x y : Span) : Bool :=
  decide (0 < x.2) && decide (0 < y.2) && decide (x.1 / 32 ≤ (y.1 + y.2 - 1) / 32)
    && decide (y.1 / 32 ≤ (x.1 + x.2 - 1) / 32)

/-- Some granule is common. -/
def spansMeet (xs ys : List Span) : Bool := xs.any (fun x => ys.any (fun y => Span.meets x y))

/-- Some slot is common. -/
def spansOverlap (xs ys : List Span) : Bool := xs.any (fun x => ys.any (fun y => !apart x.1 x.2 y.1 y.2))

/-- Codes of `f`, packed from bit 0 upward (R93). -/
def packCodes (f : Fmt) (codes : List Nat) : Bytes :=
  if f = .f4 then
    (List.range (ceilDiv codes.length 2)).map
      (fun i => BitVec.ofNat 8 (codes.getD (2 * i) 0 + 16 * codes.getD (2 * i + 1) 0))
  else (codes.map (natLe (f.bitsOf / 8))).flatten

/-- Writes codes into stored row `r` from column `c0` of a panel: one element at a time for F4, whose neighbours keep
their codes. -/
def Panel.writeRow (p : Panel) (m : Cells) (base r c0 : Nat) (codes : List Nat) : Cells :=
  codes.zipIdx.foldl (fun m ci =>
    let (b, i) := p.place r (c0 + ci.2)
    if p.fmt = .f4 then
      let old := (Cells.byte m (base + b)).toNat
      let keep := if i = 0 then (old / 16) * 16 else old % 16
      m.write (base + b) [BitVec.ofNat 8 (keep + (ci.1 % 16) * 2 ^ i)]
    else m.write (base + b) (natLe (p.fmt.bitsOf / 8) ci.1)) m

/-- The slots of a scale table of `n` rows of `blocks` bytes (R101). -/
def tableSlots (n blocks : Nat) : Nat := ceilDiv (n * blocks) 128

/-! ## Windows and contexts -/

/-- The first byte of a context's window in the store (R98). -/
def Ctx.lo (x : Ctx) : Nat := x.base * 65536

/-- The slots of a context's window. -/
def Ctx.slots (x : Ctx) : Nat := x.size * 512

/-- The position in the cluster's list of the context resident in a slot. -/
def Cluster.residentIn (c : Cluster) (slot : BitVec 1) : Option Nat :=
  indexOf? (fun x => x.resident && decide (x.slot = slot)) c.ctxs

/-- A place of work: the cluster, the slot, and what is resident there. -/
structure At where
  die     : Nat
  phys    : Nat
  slot    : BitVec 1
  logical : Nat
  idx     : Nat
  ctx     : Ctx
  cfg     : PartCfg
  deriving DecidableEq, Repr

/-- The cluster carries a logical number in service and a configured context is resident in the slot. -/
def State.at? (s : State) (id : ClusterId) (slot : BitVec 1) : Option At :=
  let die := id.die.toNat
  let phys := id.phys.toNat
  let c := s.cluster die phys
  if !s.dieUp die || c.testing || decide (c.state ≠ .active) then none
  else
    match c.logical, c.residentIn slot with
    | some l, some i =>
      match c.ctxs[i]? with
      | some x =>
        match s.cfg? x.part.toNat with
        | some cfg => some { die := die, phys := phys, slot := slot, logical := l.toNat, idx := i, ctx := x, cfg := cfg }
        | none => none
      | none => none
    | _, _ => none

def At.part (a : At) : Nat := a.ctx.part.toNat

/-- The identity of the context (Table 9.3). -/
def At.ident (a : At) : Nat := idContext a.die a.logical a.ctx.id

/-- The cluster, and a change of it. -/
def State.clusterOf (s : State) (a : At) : Cluster := s.cluster a.die a.phys
def State.modClusterOf (s : State) (a : At) (f : Cluster → Cluster) : State := s.modCluster a.die a.phys f

/-- A change of the context. -/
def State.modCtx (s : State) (a : At) (f : Ctx → Ctx) : State :=
  s.modClusterOf a (fun c => { c with ctxs := modifyAt c.ctxs a.idx f })

/-- A change of a window entry. -/
def State.modEntry (s : State) (a : At) (i : Nat) (f : Entry → Entry) : State :=
  s.modCtx a (fun x => { x with window := modifyAt x.window i f })

/-- The store of the cluster, and a change of it. -/
def State.setStore (s : State) (a : At) (m : Cells) : State := s.modClusterOf a (fun c => { c with store := m })

/-- The context as it stands now. -/
def State.ctxOf (s : State) (a : At) : Ctx := ((s.clusterOf a).ctxs[a.idx]?).getD a.ctx

/-- The context halts; `runs` entries at the front of its window go on. -/
def State.haltCtx (s : State) (a : At) (runs : Nat) : State :=
  s.modCtx a (fun x => { x with halted := true, runsOn := runs })

/-- An error bit of CL_ERROR (Table 3.16). -/
def State.clError (s : State) (die phys b : Nat) : State :=
  s.modCluster die phys (fun c => { c with error := setBit c.error b })

/-- An event of a cluster (R133, R173, R244): its payload begins with the die and the physical number. -/
def State.raiseCl (s : State) (code die phys : Nat) (more : Bytes) : State :=
  s.raiseDie code (cdIndex die) none (natLe 1 die ++ natLe 1 phys ++ more)

/-- An entry of a context is done: it leaves the window. -/
def State.dropEntry (s : State) (a : At) (i : Nat) : State :=
  s.modCtx a (fun x => { x with window := x.window.eraseIdx i, runsOn := if i < x.runsOn then x.runsOn - 1 else x.runsOn })

/-- The entry's place in the step sequencer's list of outstanding descriptors is cleared (R422). The last descriptor that
reads the staged images of a version without readers releases it (R271). -/
def State.descriptorDone (s : State) (p berth : Nat) (itemSeq : DWord) : State :=
  let mine := fun (x : Posted) => decide (x.berth = berth) && decide (x.itemSeq = itemSeq)
  let read := (s.seq p).posted.any (fun x => mine x && decide (x.reads ≠ []))
  let s := s.modSeq p (fun q =>
    { q with posted := q.posted.filter (fun x => !mine x),
             writtenBack := q.writtenBack ++ (q.posted.filter (fun x => mine x && x.writeBack)).map (·.image) })
  if read then s.releaseStash p else s

/-- The berth is one of the partition's (checks 0x09, 0x29). -/
def State.berthOfPart (s : State) (n p : Nat) : Bool :=
  decide ((s.berth n).cfg.kindOf ≠ 0) && decide ((s.berth n).cfg.partition = p)

/-- The flow-stop sequence withholds issue from a partition before its apply commit point (Table 13.7, row 5). -/
def State.stilled (s : State) (p : Nat) : Bool := decide (s.pt.flowRow ≠ .idle) && !(s.part p).applyPassed

/-- A window entry may execute: the context is not halted in front of it, no swap takes the context out, and issue is
not withheld from the partition. -/
def State.entryRuns (s : State) (a : At) (i : Nat) : Bool :=
  let x := s.ctxOf a
  (!x.halted || decide (i < x.runsOn)) && !(s.run a.part).held && !s.stilled a.part
    && !((s.clusterOf a).swap.any (fun w => decide (w.slot = a.slot)))

/-- A store error was corrected on a read (R97). -/
def State.storeCorrected (s : State) (die phys : Nat) : State :=
  s.modCluster die phys (fun c =>
    { c with error := setBit c.error 1, counters := { c.counters with storeCe := satAdd c.counters.storeCe 1 } })

/-! ## Sources and destinations -/

/-- A part of an image (R102): its offset in bytes from the source address, its first slot, its slots. -/
abbrev Piece := Nat × Nat × Nat

/-- The pieces of an image: the subtile rows of a region, then its scale table, after the full stride of the last
subtile row. -/
def Panel.image (p : Panel) (rows cols : Nat) (table : Option Span) : List Piece :=
  (List.range (ceilDiv rows 16)).map (fun a => (a * p.stride * 128, p.slot + a * p.stride, ceilDiv cols p.fmt.width))
    ++ (match table with
        | some t => [(ceilDiv rows 16 * p.stride * 128, t.1, t.2)]
        | none => [])

/-- Every piece lies in the memory it names (R280), or in regions of the partition that grant the right (R286): the
address of the first byte that does not. -/
def State.firstOutside (s : State) (sp : Space) (src : Nat) (ps : List Piece) : Option Nat :=
  (ps.find? (fun x => !s.inSpace sp (src + x.1) (x.2.2 * 128))).map (fun x => src + x.1)
def State.firstRefused (s : State) (p : Nat) (sp : Space) (right : Right) (src : Nat) (ps : List Piece) : Option Nat :=
  (ps.find? (fun x => !s.mayAccess p false sp right (src + x.1) (x.2.2 * 128))).map (fun x => src + x.1)

/-- The pieces are read; what the command says of the fetch is met at its first sector (log entry 13). -/
def State.readPieces (s : State) (v : Via) (sp : Space) (src requester : Nat) :
    ReadOutcome → List Piece → Bool × State
  | _, [] => (true, s)
  | o, x :: xs =>
    let (ok, s) := s.readMem (some v) sp (src + x.1) (x.2.2 * 128) requester o
    if ok then State.readPieces s v sp src requester .good xs else (false, s)

/-- Some piece lies in a row that is locked for repair (R322). -/
def State.piecesLocked (s : State) (sp : Space) (src : Nat) (ps : List Piece) : Bool :=
  ps.any (fun x => s.rowLocked sp (src + x.1) (x.2.2 * 128))

/-- The pieces land in the store (R102). -/
def State.fillStore (s : State) (a : At) (sp : Space) (src : Nat) (ps : List Piece) : State :=
  let mem := s.mem.cells sp
  let lo := a.ctx.lo
  s.setStore a (ps.foldl (fun m x =>
    Cells.put m (lo + x.2.1 * 128) (x.2.2 * 128) (Cells.moved mem (src + x.1) (x.2.2 * 128) (lo + x.2.1 * 128)))
    (s.clusterOf a).store)

/-- The way of a context's accesses to the near tier. -/
def At.via (a : At) : Via := { part := a.ctx.part.toNat, noAlloc := false }

/-- Bytes of the store go to a memory. -/
def State.copyOut (s : State) (a : At) (sp : Space) (from_ dest n : Nat) : State :=
  (s.touch a.via true sp dest n).putCells sp dest n (Cells.moved (s.clusterOf a).store from_ n dest)

/-! ## Weight blocks (R263, R264) -/

/-- The bytes meet a weight block that the apply pass of the partition's step has written: what reads them waits for the
close of slack water (R31). -/
def State.updatedNow (s : State) (p : Nat) (sp : Space) (a n : Nat) : Bool :=
  (s.part p).applyPassed && (((s.program? p).map (fun g => g.blocks.any (fun b =>
    decide (((s.stash p).version (BitVec.ofNat 32 b.block)).stepOrigin = (s.part p).step)
      && (match g.blockRange b with
          | some (x, lo, m) => decide (x = sp) && !apart lo m a n
          | none => false)))).getD false)

end Sys2Proof.Machine
end

