-- ==== Sys2Proof/Machine/Slipway.lean ====
section
/-!
DEFINITION. Faults of a cluster and its replacement (R115 to R117, R129 to R131).
-/

namespace Sys2Proof.Machine

/-- The lowest-numbered cluster of a die that satisfies `f`. -/
def State.lowestCluster (s : State) (die : Nat) (f : Cluster → Bool) : Option Nat :=
  (List.range 256).find? (fun c => f (s.cluster die c))

/-- The partition whose Manifest section owns a logical cluster (R52, R53). -/
def State.ownerOf (s : State) (die logical : Nat) : Option Nat :=
  (s.parts.find? (fun e =>
    match e.2.cfg with
    | some c => (c.part.masks.getD die 0).testBit logical
    | none => false)).map (·.1)

/-- The slipway has used the last spare of a die when none is SPARE or in test for a replacement: it is in service, or its
test failed (R130; DESIGN CHOICE, log entry 91). -/
def State.lastSpare (s : State) (die n : Nat) : State :=
  match s.lowestCluster die (fun c => decide (c.state = .spare) || decide (c.state = .testing)) with
  | some _ => s
  | none => (s.raiseCl 0x800B die n (natLe 1 die)).service 0 true

/-- Step 2 of R129 for a logical number: the lowest spare is set TESTING, one in a commanded self-test among them (R131);
with none, the number becomes unserviceable and its partition halts (R130). -/
def State.trySpare (s : State) (die old logical : Nat) : State :=
  match s.lowestCluster die (fun c => decide (c.state = .spare)) with
  | some n => s.modCluster die n (fun c =>
      { c with state := .testing, testing := false, replaces := some (BitVec.ofNat 8 old) })
  | none =>
    let s := s.modCluster die old (fun c => { c with logical := none, ctxs := [] })
    let owner := s.ownerOf die logical
    let s := s.raiseDie 0x8009 (cdIndex die) owner
      (natLe 1 die ++ natLe 1 old ++ natLe 1 logical ++ natLe 1 (owner.getD (Config.openCode 3 0)))
    match owner with
    | some p => s.halt p 11
    | none => s

/-- A lasting fault hands an ACTIVE cluster to the slipway: steps 1 and 2 of R129. The retired cluster keeps the
logical number until another takes it. -/
def State.clusterLost (s : State) (die phys : Nat) : State :=
  let c := s.cluster die phys
  if c.state ≠ .active then s
  else
    let s := s.setCluster die phys
      { c with error := setBit c.error 7, state := .retired, flight := [], swap := none, testing := false,
               ctxs := c.ctxs.map (fun x => { x with halted := true, runsOn := 0 }) }
    match c.logical with
    | some l => s.trySpare die phys l.toNat
    | none => s

/-- A retried fault that passed is transient (R117): counted and reported with its kind, and promoted when the
cluster's count within 24 hours reaches the threshold (R534). -/
def State.clusterTransient (s : State) (die phys kind : Nat) : State :=
  let s := s.modCluster die phys (fun c =>
    { c with counters := { c.counters with faultTransient := satAdd c.counters.faultTransient 1 } })
  let s := s.raiseCl 0x8007 die phys (natLe 1 kind)
  let (promoted, s) := s.transientFault (.cluster die phys)
  if promoted then s.clusterLost die phys else s

/-- A context starts again from nothing on its window. -/
def Ctx.fresh (x : Ctx) (now : DWord) : Ctx :=
  { x with window := [], carries := [], halted := false, runsOn := 0, since := now, due := false }

/-- The partitions with a context on a cluster. -/
def Cluster.partsOf (c : Cluster) : List Nat := (c.ctxs.map (fun x => x.part.toNat)).eraseDups

/-- Step 6 of R129 for a partition that runs (R131): the record of the replacement, and the rewind. -/
def State.replacedFor (pay : Bytes) (s : State) (p : Nat) : State :=
  if (s.part p).state.steps then
    (s.recovery p 2 (natLe 2 0x8008 ++ pay)).rewind p 0x8008
  else s

/-- Steps 4 to 6 of R129: cluster `new` takes the number and the contexts of the retired cluster `old`. -/
def State.bringIn (s : State) (die old new logical : Nat) : State :=
  let o := s.cluster die old
  let s := s.modCluster die new (fun c =>
    { c with state := .active, logical := some (BitVec.ofNat 8 logical), store := [], flight := [], swap := none,
             selftest := 1, replaces := none, ctxs := o.ctxs.map (fun x => x.fresh s.hm.time) })
  let s := s.modCluster die old (fun c => { c with logical := none, ctxs := [] })
  let pay := natLe 1 die ++ natLe 1 new ++ natLe 1 old ++ natLe 1 new ++ natLe 1 logical
  let s := s.raiseDie 0x8008 (cdIndex die) none pay
  let s := (o.partsOf ++ (s.ownerOf die logical).toList).eraseDups.foldl (State.replacedFor pay) s
  s.lastSpare die new

/-- A spare's self-test ends (step 3 of R129). -/
def State.spareTestEnds (s : State) (die n : Nat) (pass : Bool) : State :=
  let c := s.cluster die n
  match c.replaces with
  | none => s
  | some o =>
    let l := ((s.cluster die o.toNat).logical.getD 0).toNat
    if c.state ≠ .testing then s
    else if pass then s.bringIn die o.toNat n l
    else
      let s := s.modCluster die n (fun c =>
        { c with state := .retired, replaces := none, selftest := 2, error := setBit c.error 8 })
      ((s.raiseCl 0x800A die n (natLe 1 n)).lastSpare die n).trySpare die o.toNat l

/-- A retired cluster still holds a logical number: a replacement is not complete. -/
def State.slipwayOpen (s : State) (die : Nat) : Bool :=
  (s.lowestCluster die (fun c => decide (c.state = .retired) && c.logical.isSome)).isSome

/-- During bring-up the slipway takes up the replacements that a reset cut short, from step 2 (R129). -/
def State.resumeSlipway (s : State) (die : Nat) : State :=
  (List.range 256).foldl (fun s n =>
    let c := s.cluster die n
    let taken := (s.lowestCluster die (fun x => decide (x.state = .testing) && decide (x.replaces = some (BitVec.ofNat 8 n)))).isSome
    match c.logical with
    | some l => if c.state = .retired ∧ !taken then s.trySpare die n l.toNat else s
    | none => s) s

/-- Self-test is permitted (R131). -/
def Cluster.mayTest (c : Cluster) : Bool :=
  match c.state with
  | .spare => true
  | .retired => true
  | .active => !c.ctxs.any (fun x => x.resident)
  | _ => false

/-- SELF_TEST of CL_CONTROL (R131). -/
def State.selfTest (s : State) (die phys : Nat) : State :=
  if (s.cluster die phys).mayTest then s.modCluster die phys (fun c => { c with testing := true }) else s

/-- A commanded self-test ends (R131). -/
def State.selfTestEnds (s : State) (die phys : Nat) (pass : Bool) : State :=
  let c := s.cluster die phys
  if !c.testing then s
  else if pass then s.setCluster die phys { c with testing := false, selftest := 1 }
  else
    let s := s.setCluster die phys { c with testing := false, selftest := 2, error := setBit c.error 8 }
    let s := s.raiseCl 0x800A die phys (natLe 1 phys)
    s.clusterLost die phys

/-- SPARE_SELF_TEST_COMPLETE (R129). -/
def execSpareSelfTestComplete (spare : ClusterId) (pass : Bool) (s : State) : Out :=
  .next (s.spareTestEnds spare.die.toNat spare.phys.toNat pass)

/-- SELF_TEST (R131): a write of CL_CONTROL. -/
def execSelfTest (c : ClusterId) (s : State) : Out :=
  .next (s.guardWrite (.selfTest c) (readyCompute c.die.toNat) (clusterBase c.die.toNat c.phys.toNat + 8)
    (fun s => s.selfTest c.die.toNat c.phys.toNat))

/-- SELF_TEST_COMPLETE (R131). -/
def execSelfTestComplete (c : ClusterId) (pass : Bool) (s : State) : Out :=
  .next (s.selfTestEnds c.die.toNat c.phys.toNat pass)

end Sys2Proof.Machine
end

