-- ==== Sys2Proof/Machine/VecDesc.lean ====
section
/-!
DEFINITION. Vector descriptors (Tables 6.2, 6.3) and quantise parameter records (Table 5.4): their fields, and what
they read and write in the store (R208 to R218, R225, R235).
-/

namespace Sys2Proof.Machine

/-- A vector descriptor's fields. -/
structure Vec where
  kind    : Nat
  fmtA    : Nat
  fmtB    : Nat
  fmtC    : Nat
  fmtD    : Nat
  b16     : Bool
  round   : Bool
  maskEn  : Bool
  zeroMode : Bool
  dEn     : Bool
  red     : Nat
  blkCols : Bool
  verdictWait : Bool
  countApply : Bool
  statusEn : Bool
  notify  : Bool
  stepNext : Bool
  rows    : Nat
  tag     : Nat
  cols    : Nat
  stream  : Nat
  done    : Nat
  aAddr   : Nat
  aStride : Nat
  bAddr   : Nat
  bStride : Nat
  cAddr   : Nat
  cStride : Nat
  dAddr   : Nat
  dStride : Nat
  aux     : Nat
  status  : Nat
  base    : Nat
  ld      : Nat
  ops     : List Nat
  s0      : Nat
  s1      : Nat
  pe      : Int
  anchor  : Int
  threshold : Nat
  scope   : Nat
  param   : Nat
  deriving DecidableEq, Repr

/-- Reads the fields; `param` is the quantise parameter record of W11 to W14. -/
def Vec.of (ws : List Word) : Vec :=
  let w := wordAt ws
  let f := fun i => bit (w 0) i
  { kind := bits (w 0) 3 0, fmtA := bits (w 0) 6 4, fmtB := bits (w 0) 9 7, fmtC := bits (w 0) 12 10,
    fmtD := bits (w 0) 15 13, b16 := f 16, round := f 17, maskEn := f 18, zeroMode := f 19, dEn := f 20,
    red := bits (w 0) 22 21, blkCols := f 23, verdictWait := f 24, countApply := f 25, statusEn := f 26,
    notify := f 27, stepNext := f 28, rows := bits (w 1) 15 0, tag := bits (w 1) 29 16, cols := bits (w 2) 19 0,
    stream := bits (w 3) 15 0, done := bits (w 3) 29 16, aAddr := bits (w 4) 12 0, aStride := bits (w 4) 28 16,
    bAddr := bits (w 5) 12 0, bStride := bits (w 5) 28 16, cAddr := bits (w 6) 12 0, cStride := bits (w 6) 28 16,
    dAddr := bits (w 7) 12 0, dStride := bits (w 7) 28 16, aux := bits (w 8) 12 0, status := bits (w 8) 28 16,
    base := (w 9).toNat, ld := (w 10).toNat,
    ops := [bits (w 11) 15 0, bits (w 11) 31 16, bits (w 12) 15 0, bits (w 12) 31 16], s0 := (w 13).toNat,
    s1 := (w 14).toNat, pe := signed 16 (bits (w 15) 15 0), anchor := signed 10 (bits (w 15) 25 16),
    threshold := bits (w 11) 15 0, scope := (w 15).toNat,
    param := (w 11).toNat + (w 12).toNat * 2 ^ 32 + (w 13).toNat * 2 ^ 64 + (w 14).toNat * 2 ^ 96 }

/-! ## Op slots (R219) -/

/-- An op slot. -/
structure OpSlot where
  op : Nat
  x  : Nat
  y  : Nat
  z  : Nat
  deriving DecidableEq, Repr

def OpSlot.of (v : Nat) : OpSlot := { op := v % 64, x := (v / 64) % 8, y := (v / 512) % 8, z := (v / 4096) % 8 }

/-- The chain: the slots before the first NOP. -/
def Vec.chain (v : Vec) : List OpSlot := (v.ops.map OpSlot.of).takeWhile (fun o => decide (o.op ≠ 0))

/-- How many of its selectors an operation uses: x, x and y, or x, y and z (Table 6.4). -/
def opArity (op : Nat) : Nat :=
  if op = 0x04 ∨ op = 0x06 ∨ op = 0x14 then 3
  else if op = 0x01 ∨ op = 0x02 ∨ op = 0x03 ∨ op = 0x05 ∨ op = 0x07 ∨ op = 0x10 ∨ op = 0x11 ∨ op = 0x15 then 2
  else 1

/-- The selectors an op slot uses. -/
def OpSlot.used (o : OpSlot) : List Nat := [o.x, o.y, o.z].take (opArity o.op)

/-- The regions, 0 to 2 for A to C, that the chain names. -/
def Vec.names (v : Vec) (r : Nat) : Bool := v.chain.any (fun o => o.used.contains r)

/-! ## The quantise parameter record -/

structure Quant where
  fmt     : Nat
  round   : Bool
  rotSize : Nat
  half1   : Bool
  rotStream : Nat
  srStream : Nat
  stepNext : Bool
  colAxis : Bool
  kOrigin : Nat
  deriving DecidableEq, Repr

def Quant.of (p : Nat) : Quant :=
  { fmt := p % 8, round := p.testBit 3, rotSize := (p >>> 4) % 8, half1 := p.testBit 7,
    rotStream := (p >>> 8) % 65536, srStream := (p >>> 24) % 65536, stepNext := p.testBit 40,
    colAxis := p.testBit 41, kOrigin := (p >>> 64) % 2 ^ 32 }

def Vec.quant (v : Vec) : Quant := Quant.of v.param

/-- The group size of a rotation code (Table 5.4), 0 for none. -/
def Quant.n (q : Quant) : Nat := if q.rotSize = 0 then 0 else 2 ^ (q.rotSize + 4)

/-! ## Regions -/

/-- The format of a code; a reserved one stands for F32 where a check has refused it already. -/
def vecFmt (c : Nat) : Fmt := (fmtOf c).getD .f32

/-- Region A, B, C or D in its format. QUANT's B is a scratch region in F32, and its D takes the record's format. -/
def Vec.panelA (v : Vec) : Panel := { slot := v.aAddr, stride := v.aStride, fmt := vecFmt v.fmtA }
def Vec.panelB (v : Vec) : Panel :=
  { slot := v.bAddr, stride := v.bStride, fmt := if v.kind = 2 then .f32 else vecFmt v.fmtB }
def Vec.panelC (v : Vec) : Panel := { slot := v.cAddr, stride := v.cStride, fmt := vecFmt v.fmtC }
def Vec.panelD (v : Vec) : Panel :=
  { slot := v.dAddr, stride := v.dStride, fmt := if v.kind = 2 then vecFmt v.quant.fmt else vecFmt v.fmtD }

/-- Spans of a panel region of the descriptor's shape. -/
def Vec.panelSpans (v : Vec) (p : Panel) : List Span := p.spans v.rows v.cols

/-- Spans of a mask region (R225). -/
def Vec.maskSpans (v : Vec) (addr stride : Nat) : List Span :=
  (List.range v.rows).map (fun r => (addr + r * stride, ceilDiv v.cols 1024))

/-- The span of an L128 region of `n` elements (R210). -/
def longSpan (addr n : Nat) : Span := (addr, ceilDiv (16 * n) 128)

/-- The scale table of narrow region A of MAP, or of D of QUANT (R101): rows along the axis that blocks do not run
along. -/
def tableSpan (slot rows cols : Nat) (colAxis : Bool) : Span :=
  if colAxis then (slot, tableSlots cols (ceilDiv rows 128 * 4)) else (slot, tableSlots rows (ceilDiv cols 128 * 4))

/-- Sources, and destinations, of a vector descriptor in the store. -/
def Vec.readSpans (v : Vec) : List Span :=
  match v.kind with
  | 1 =>
    (if v.names 0 then v.panelSpans v.panelA else [])
      ++ (if v.names 0 && (vecFmt v.fmtA).narrow then [tableSpan v.aux v.rows v.cols v.blkCols] else [])
      ++ (if v.names 1 then v.panelSpans v.panelB else [])
      ++ (if v.maskEn then v.maskSpans v.cAddr v.cStride else if v.names 2 then v.panelSpans v.panelC else [])
  | 2 => v.panelSpans v.panelA
  | 4 => [longSpan v.aAddr (v.rows * v.cols)]
  | _ => []

def Vec.writeSpans (v : Vec) : List Span :=
  (match v.kind with
    | 1 => if v.dEn then v.panelSpans v.panelD else []
    | 2 => v.panelSpans v.panelD ++ [tableSpan v.aux v.rows v.cols v.quant.colAxis]
        ++ (if v.quant.rotSize = 0 then [] else v.panelSpans v.panelB)
    | 3 => v.maskSpans v.dAddr v.dStride
    | _ => [])
  ++ (if v.statusEn && decide (v.kind ≠ 0) then [(v.status, 1)] else [])

end Sys2Proof.Machine
end

