-- ==== Sys2Proof/Machine/Tiles.lean ====
section
/-!
DEFINITION. Tile descriptors (Table 3.4), their checks (Table 3.6), the pilot (R104 to R110), the array's rows (R111
to R117, R563) and carries (R103, R161).
-/

namespace Sys2Proof.Machine

/-! ## The descriptor -/

/-- A tile descriptor's fields (Table 3.4). -/
structure Tile where
  op      : Nat
  fmtP    : Nat
  fmtQ    : Nat
  fmtO    : Nat
  transP  : Bool
  transQ  : Bool
  carryIn : Bool
  anchorGiven : Bool
  round   : Nat
  notify  : Bool
  m       : Nat
  n       : Nat
  kc      : Nat
  kTail   : Nat
  anchor  : Int
  pAddr   : Nat
  pStride : Nat
  qAddr   : Nat
  qStride : Nat
  pScale  : Nat
  qScale  : Nat
  oAddr   : Nat
  oStride : Nat
  stream  : Nat
  done    : Nat
  row0    : Nat
  col0    : Nat
  ld      : Nat
  pSrc    : Nat
  pKind   : Nat
  tag     : Nat
  qSrc    : Nat
  qKind   : Nat
  oDst    : Nat
  oKind   : Nat
  deriving DecidableEq, Repr

/-- Reads the fields. Source and destination addresses are kept divided by 128 in the descriptor. -/
def Tile.of (ws : List Word) : Tile :=
  let w := wordAt ws
  { op := bits (w 0) 3 0, fmtP := bits (w 0) 6 4, fmtQ := bits (w 0) 9 7, fmtO := bits (w 0) 11 10,
    transP := bit (w 0) 12, transQ := bit (w 0) 13, carryIn := bit (w 0) 14, anchorGiven := bit (w 0) 15,
    round := bits (w 0) 17 16, notify := bit (w 0) 18, m := bits (w 1) 15 0, n := bits (w 1) 25 16,
    kc := bits (w 2) 11 0, kTail := bits (w 2) 13 12, anchor := signed 10 (bits (w 2) 23 14),
    pAddr := bits (w 3) 12 0, pStride := bits (w 3) 28 16, qAddr := bits (w 4) 12 0, qStride := bits (w 4) 28 16,
    pScale := bits (w 5) 12 0, qScale := bits (w 5) 28 16, oAddr := bits (w 6) 12 0, oStride := bits (w 6) 28 16,
    stream := bits (w 7) 15 0, done := bits (w 7) 29 16, row0 := (w 8).toNat, col0 := (w 9).toNat,
    ld := (w 10).toNat, pSrc := (bits (w 12) 7 0 * 2 ^ 32 + (w 11).toNat) * 128, pKind := bits (w 12) 9 8,
    tag := bits (w 12) 23 10, qSrc := (bits (w 14) 7 0 * 2 ^ 32 + (w 13).toNat) * 128, qKind := bits (w 14) 9 8,
    oDst := (bits (w 14) 19 12 * 2 ^ 32 + (w 15).toNat) * 128, oKind := bits (w 14) 11 10 }

/-- The formats of Table 3.5. -/
def tileFmt : Nat → Fmt
  | 0 => .f4
  | 1 => .f8
  | 2 => .g8
  | _ => .b16

/-- The array's modes (Table 3.2). -/
inductive Mode where
  | f4 | eight | b16
  deriving DecidableEq, Repr

/-- The mode of a format pair, if it has one (R88, R89). -/
def modeOf : Fmt → Fmt → Option Mode
  | .f4, .f4 => some .f4
  | .b16, .b16 => some .b16
  | .b16, _ => none
  | _, .b16 => none
  | _, _ => some .eight

/-- Columns of a mode. -/
def Mode.columns : Mode → Nat
  | .f4 => 512
  | _ => 256

def Tile.fP (t : Tile) : Fmt := tileFmt t.fmtP
def Tile.fQ (t : Tile) : Fmt := tileFmt t.fmtQ

/-- The extent of K (R87). -/
def Tile.k (t : Tile) : Nat := (t.kc - 1) * 128 + (if t.kTail = 0 then 4 else t.kTail) * 32

/-- The format of an F32 or B16 output. -/
def Tile.fO (t : Tile) : Fmt := if t.fmtO = 0 then .f32 else .b16

def Tile.panelP (t : Tile) : Panel := { slot := t.pAddr, stride := t.pStride, fmt := t.fP }
def Tile.panelQ (t : Tile) : Panel := { slot := t.qAddr, stride := t.qStride, fmt := t.fQ }
def Tile.panelO (t : Tile) : Panel := { slot := t.oAddr, stride := t.oStride, fmt := t.fO }

/-- Stored rows and columns of P and Q. -/
def Tile.dimsP (t : Tile) : Nat × Nat := if t.transP then (t.k, t.m) else (t.m, t.k)
def Tile.dimsQ (t : Tile) : Nat × Nat := if t.transQ then (t.n, t.k) else (t.k, t.n)

/-- Scale tables (R101), which B16 does not have. -/
def Tile.tableP (t : Tile) : Option Span :=
  if t.fP = .b16 then none else some (t.pScale, tableSlots t.m (t.kc * 4))
def Tile.tableQ (t : Tile) : Option Span :=
  if t.fQ = .b16 then none else some (t.qScale, tableSlots t.n (t.kc * 4))

/-- The slots of a carry row (R103). -/
def Tile.carrySlots (t : Tile) : Nat := ceilDiv (16 * t.n + ceilDiv t.n 8) 128
def Tile.carrySpans (t : Tile) : List Span :=
  (List.range t.m).map (fun r => (t.oAddr + r * t.oStride, t.carrySlots))

def Tile.spansP (t : Tile) : List Span := t.panelP.spans t.dimsP.1 t.dimsP.2
def Tile.spansQ (t : Tile) : List Span := t.panelQ.spans t.dimsQ.1 t.dimsQ.2
def Tile.spansO (t : Tile) : List Span := if t.fmtO = 2 then t.carrySpans else t.panelO.spans t.m t.n

/-- What the tile reads and writes in the store, and what its fetches fill (R107). -/
def Tile.reads (t : Tile) : List Span :=
  if t.op ≠ 1 then []
  else t.spansP ++ t.tableP.toList ++ t.spansQ ++ t.tableQ.toList ++ (if t.carryIn then t.carrySpans else [])
def Tile.writes (t : Tile) : List Span := if t.op ≠ 1 then [] else t.spansO
def Tile.fill (t : Tile) (op : TileOperand) : List Span :=
  if t.op ≠ 1 then []
  else
    match op with
    | .p => if t.pKind = 0 then [] else t.spansP ++ t.tableP.toList
    | .q => if t.qKind = 0 then [] else t.spansQ ++ t.tableQ.toList

/-- The image of an operand (R102). -/
def Tile.image (t : Tile) : TileOperand → List Piece
  | .p => t.panelP.image t.dimsP.1 t.dimsP.2 t.tableP
  | .q => t.panelQ.image t.dimsQ.1 t.dimsQ.2 t.tableQ

/-- The image of the output (R102, R103). -/
def Tile.imageO (t : Tile) : List Piece :=
  if t.fmtO = 2 then (List.range t.m).map (fun r => (r * t.oStride * 128, t.oAddr + r * t.oStride, t.carrySlots))
  else t.panelO.image t.m t.n none

def Tile.kind (t : Tile) : TileOperand → Nat
  | .p => t.pKind
  | .q => t.qKind
def Tile.src (t : Tile) : TileOperand → Nat
  | .p => t.pSrc
  | .q => t.qSrc
def operandCode : TileOperand → Nat
  | .p => 0
  | .q => 1

/-! ## Checks (Table 3.6) -/

/-- Check 0x06 (R103): the record of the context for the same o_addr has another anchor or another n_cols. -/
def Ctx.carryDiffers (x : Ctx) (t : Tile) (anchor : Int) : Bool :=
  match x.carries.reverse.find? (fun r => decide (r.oAddr = t.oAddr)) with
  | some r => decide (r.anchor ≠ anchor) || decide (r.nCols ≠ t.n)
  | none => false

/-- A source or destination kind is reserved, or its address lies outside the memory it names (check 0x08). DESIGN CHOICE
(log entry 74): every piece of the image is tested, not its first byte alone. -/
def State.placeBad (s : State) (kind addr : Nat) (ps : List Piece) : Bool :=
  match kind with
  | 0 => false
  | 1 => (s.firstOutside .near addr ps).isSome
  | 2 => (s.firstOutside .yard addr ps).isSome
  | _ => true

/-- The first failing check of Table 3.6, 0 for none. DESIGN CHOICE (log entry 74): the checks are made in the order of their
codes, and check 0x04 leaves the gap after a region's last subtile out. -/
def State.checkTile (s : State) (a : At) (t : Tile) : Nat :=
  if t.op = 0 ∨ t.op = 2 then (if t.notify ∧ !s.berthOfPart t.done a.part then 0x09 else 0)
  else if t.op ≠ 1 ∨ 3 < t.fmtP ∨ 3 < t.fmtQ ∨ t.fmtO = 3 then 0x01
  else
    match modeOf t.fP t.fQ with
    | none => 0x02
    | some mode =>
      let regions := t.spansP ++ t.spansQ ++ t.spansO ++ (if t.carryIn then t.carrySpans else [])
      if t.m = 0 ∨ t.n = 0 ∨ t.kc = 0 ∨ mode.columns < t.n then 0x03
      else if !inWindow a.ctx.slots (regions ++ t.tableP.toList ++ t.tableQ.toList) then 0x04
      else if t.pStride < ceilDiv t.dimsP.2 t.fP.width ∨ t.qStride < ceilDiv t.dimsQ.2 t.fQ.width
          ∨ (t.fmtO ≠ 2 ∧ t.oStride < ceilDiv t.n t.fO.width)
          ∨ ((t.fmtO = 2 ∨ t.carryIn) ∧ t.oStride < t.carrySlots) then 0x05
      else if t.carryIn ∧ t.anchorGiven ∧ (s.ctxOf a).carryDiffers t t.anchor then 0x06
      else if 2 ≤ t.round ∨ (t.round = 1 ∧ a.cfg.policy.stochRound = 0) then 0x07
      else if s.placeBad t.pKind t.pSrc (t.image .p) ∨ s.placeBad t.qKind t.qSrc (t.image .q)
          ∨ s.placeBad t.oKind t.oDst t.imageO then 0x08
      else if t.notify ∧ !s.berthOfPart t.done a.part then 0x09
      else 0

/-- The outcome of a failed check (R104): the context halts with `runs` earlier entries going on, CL_ERROR,
CL_ERROR_INFO and event 0x8001. -/
def State.rejectTile (s : State) (a : At) (runs code tag : Nat) : State :=
  let s := s.haltCtx a runs
  let s := s.modClusterOf a (fun c =>
    { c with error := setBit c.error 0,
             errorInfo := BitVec.ofNat 32 (code + a.ctx.id * 256 + tag * 2048) })
  s.raiseCl 0x8001 a.die a.phys (natLe 1 a.ctx.id ++ natLe 1 code ++ natLe 2 tag)

/-! ## The pilot -/

/-- The intake of a context, and its oldest item. -/
def State.intakeHead (s : State) (a : At) : Option (Nat × Item) :=
  match s.intakeOf a.ident with
  | none => none
  | some n => (s.headItem n).map (fun it => (n, it))

/-- The room a context has in the pilot window (R105): 8 entries when the context of the other slot goes on and has
entries or items, else 16 in all. DESIGN CHOICE (log entry 74): the entries that a halted partner still holds count against
the 16. -/
def State.windowRoom (s : State) (a : At) : Bool :=
  let c := s.clusterOf a
  let mine := (s.ctxOf a).window.length
  match c.residentIn (1 - a.slot) with
  | none => decide (mine < 16)
  | some j =>
    match c.ctxs[j]? with
    | none => decide (mine < 16)
    | some y =>
      let busy := decide (y.window ≠ [])
        || (match s.intakeOf (idContext a.die a.logical y.id) with
            | some n => decide (0 < (s.berth n).occupancy)
            | none => false)
      if y.halted || !busy then decide (mine + y.window.length < 16)
      else decide (mine < 8) && decide (mine + y.window.length < 16)

/-- An access that R286 refuses halts the context (R110): 0x8004 with the operand (2 for O) and its kind. -/
def State.fetchRefused (s : State) (a : At) (runs tag operand kind addr : Nat) : State :=
  let s := s.regionFault a.die a.part a.ident addr
  let s := (s.haltCtx a runs).clError a.die a.phys 4
  s.raiseCl 0x8004 a.die a.phys (natLe 1 a.ctx.id ++ natLe 2 tag ++ natLe 1 operand ++ natLe 1 kind)

/-- The first fetch or destination of a tile that the partition's regions do not grant (R110): operand, kind and
address. -/
def State.tileRefused (s : State) (a : At) (t : Tile) : Option (Nat × Nat × Nat) :=
  let one (operand kind addr : Nat) (right : Right) (ps : List Piece) : Option (Nat × Nat × Nat) :=
    match spaceOf kind with
    | none => none
    | some sp => (s.firstRefused a.part sp right addr ps).map (fun x => (operand, kind, x))
  if t.op ≠ 1 then none
  else
    match one 0 t.pKind t.pSrc .read (t.image .p) with
    | some x => some x
    | none =>
      match one 1 t.qKind t.qSrc .read (t.image .q) with
      | some x => some x
      | none => one 2 t.oKind t.oDst .write t.imageO

/-- The window entry of a descriptor just admitted. -/
def Entry.of (it : Item) (berth : Nat) (vector : Bool) : Entry :=
  let ws := wordsOf 16 it.payload
  let t := Tile.of ws
  let product := !vector && decide (t.op = 1)
  { words := ws, vector := vector, berth := berth, itemSeq := it.seq, step := it.step, phase := .waiting,
    pReady := !product || decide (t.pKind = 0), qReady := !product || decide (t.qKind = 0),
    anchor := if t.anchorGiven then some t.anchor else none, nextRow := 0, inexact := false, invalid := false,
    sawAbove := false, sawInvalid := false, retried := [], again := [], ueRetried := false, vec := VecPart.zero }

/-- The item leaves the intake and enters the window. -/
def State.admitItem (s : State) (a : At) (n : Nat) (it : Item) (vector : Bool) : State :=
  let (_, s) := s.dequeue n
  s.modCtx a (fun x => { x with window := x.window ++ [Entry.of it n vector] })

/-- A poisoned item halts the consumer and the partition rewinds (R353). -/
def State.poisonedItem (s : State) (a : At) (n : Nat) : State :=
  let (_, s) := s.dequeue n
  (s.haltCtx a (s.ctxOf a).window.length).rewind a.part 0x7005

/-- The pilot may take an item of the context (R105). -/
def State.pilotOpen (s : State) (a : At) : Bool :=
  let x := s.ctxOf a
  !x.halted && !(s.clusterOf a).swap.any (fun w => decide (w.slot = a.slot)) && s.windowRoom a

/-- PILOT_ADMIT: the oldest item of the intake is a tile descriptor (R104, R110). -/
def State.pilotAdmit (s : State) (id : ClusterId) (slot : BitVec 1) : State :=
  match s.at? id slot with
  | none => s
  | some a =>
    match s.intakeHead a with
    | none => s
    | some (n, it) =>
      if it.cls ≠ 1 ∨ !s.pilotOpen a then s
      else if it.poisoned then s.poisonedItem a n
      else
        let t := Tile.of (wordsOf 16 it.payload)
        let runs := (s.ctxOf a).window.length
        let code := s.checkTile a t
        if code ≠ 0 then s.rejectTile a runs code t.tag
        else
          match s.tileRefused a t with
          | some (operand, kind, addr) => s.fetchRefused a runs t.tag operand kind addr
          | none => s.admitItem a n it false

/-! ## Hazards (R107) -/

/-- What an entry reads, writes and fills, whatever its class (R211). -/
structure Touch where
  reads  : List Span
  writes : List Span
  fillP  : List Span
  fillQ  : List Span
  deriving DecidableEq, Repr

def Entry.touch (e : Entry) : Touch :=
  if e.vector then
    let v := Vec.of e.words
    { reads := v.readSpans, writes := v.writeSpans, fillP := [], fillQ := [] }
  else
    let t := Tile.of e.words
    { reads := t.reads, writes := t.writes, fillP := t.fill .p, fillQ := t.fill .q }

/-- An entry has written every row (R107). -/
def Entry.writesDone (e : Entry) : Bool := decide (e.phase = .copying)

/-- An entry has finished its reads: every row has issued, and none is to issue again for which the store is read (R107,
Table 3.11). -/
def Entry.readsDone (e : Entry) : Bool :=
  e.writesDone || (!e.vector && decide ((Tile.of e.words).op = 1) && decide (e.phase = .running)
    && decide ((Tile.of e.words).m ≤ e.nextRow) && decide (e.again = []))

/-- A FENCE stands before entry `i` (R107). -/
def fenced (w : List Entry) (i : Nat) : Bool :=
  (w.take i).any (fun e => !e.vector && decide ((Tile.of e.words).op = 2))

/-- A fill of entry `i` may land: earlier entries have finished reading its granules. -/
def fillClear (w : List Entry) (i : Nat) (fill : List Span) : Bool :=
  !fenced w i && (w.take i).all (fun e => e.readsDone || !spansMeet e.touch.reads fill)

/-- Entry `i` may read these slots: no FENCE holds it, and earlier fills have landed and earlier writes are done there. -/
def readClear (w : List Entry) (i : Nat) (spans : List Span) : Bool :=
  !fenced w i && (w.take i).all (fun f =>
    let o := f.touch
    (f.pReady || !spansMeet spans o.fillP) && (f.qReady || !spansMeet spans o.fillQ)
      && (f.writesDone || !spansMeet spans o.writes))

/-- Entry `i` may read and write: it may read what it reads, and earlier reads and write-outs are done where it writes. -/
def runClear (w : List Entry) (i : Nat) : Bool :=
  match w[i]? with
  | none => false
  | some e =>
    let me := e.touch
    readClear w i me.reads && (w.take i).all (fun f =>
      let o := f.touch
      !spansMeet me.writes (if f.readsDone then o.writes else o.reads ++ o.writes ++ o.fillP ++ o.fillQ))

/-! ## Fetches and anchors -/

/-- PILOT_FETCH_RETURN: an operand's fetch ends (R106, R110, R319). One from a row that is locked for repair waits (R322). -/
def State.pilotFetchReturn (s : State) (id : ClusterId) (slot : BitVec 1)
    (i : Nat) (op : TileOperand) (o : ReadOutcome) : State :=
  match s.at? id slot with
  | none => s
  | some a =>
    let x := s.ctxOf a
    match x.window[i]? with
    | none => s
    | some e =>
      let t := Tile.of e.words
      let ready : Bool := match op with
        | .p => e.pReady
        | .q => e.qReady
      if e.vector ∨ ready = true ∨ !s.entryRuns a i ∨ !fillClear x.window i (t.fill op) then s
      else
        match (spaceOf (t.kind op)).filter (fun sp => !s.piecesLocked sp (t.src op) (t.image op)) with
        | none => s
        | some sp =>
          match s.firstRefused a.part sp .read (t.src op) (t.image op) with
          | some addr => s.fetchRefused a i t.tag (operandCode op) (t.kind op) addr
          | none =>
            let (ok, s) := s.readPieces a.via sp (t.src op) a.ident o (t.image op)
            if ok then
              (s.fillStore a sp (t.src op) (t.image op)).modEntry a i (fun e =>
                match op with
                | .p => { e with pReady := true }
                | .q => { e with qReady := true })
            else
              let s := (s.haltCtx a i).clError a.die a.phys 4
              let s := s.raiseCl 0x8004 a.die a.phys
                (natLe 1 a.ctx.id ++ natLe 2 t.tag ++ natLe 1 (operandCode op) ++ natLe 1 (t.kind op))
              s.rewind a.part 0x8004

/-- The largest scale but 0xFF over `n` rows of `blocks` blocks of a scale table, whose rows are `kc` × 4 bytes
(R146, R151). -/
def tablePeak (m : Cells) (base kc n blocks : Nat) : Nat :=
  ((List.range n).flatMap (fun r => (List.range blocks).map (fun b => (Cells.byte m (base + r * kc * 4 + b)).toNat))).foldl
    (fun a v => if v = 255 then a else max a v) 0

/-- The peak of a B16 operand (R150). -/
def b16Peak (m : Cells) (base : Nat) (p : Panel) (rows cols : Nat) : Nat :=
  ((List.range rows).flatMap (fun r => (List.range cols).map (fun c => (p.code m base r c >>> 7) % 256))).foldl
    (fun a e => if e = 255 then a else max a e) 1

/-- The constant c of Table 4.7. -/
def anchorConst : Fmt → Fmt → Int
  | .f4, .f4 => 6
  | .f4, .f8 => 12
  | .f8, .f4 => 12
  | .f4, .g8 => 19
  | .g8, .f4 => 19
  | .f8, .f8 => 18
  | .g8, .f8 => 25
  | .f8, .g8 => 25
  | .g8, .g8 => 32
  | _, _ => 2

/-- The anchor of R149 from two peaks. -/
def anchorOf (p q : Fmt) (peakP peakQ : Nat) : Int :=
  (peakP : Int) + (peakQ : Int) - 254 + anchorConst p q - 44

/-- The anchor that the scale unit forms from a tile's resident data (R149 to R151). -/
def Tile.formAnchor (t : Tile) (m : Cells) (base : Nat) : Int :=
  if t.fP = .b16 then
    anchorOf t.fP t.fQ (b16Peak m base t.panelP t.dimsP.1 t.dimsP.2) (b16Peak m base t.panelQ t.dimsQ.1 t.dimsQ.2)
  else
    anchorOf t.fP t.fQ (tablePeak m (base + t.pScale * 128) t.kc t.m (t.k / 32))
      (tablePeak m (base + t.qScale * 128) t.kc t.n (t.k / 32))

/-- What the scale unit reads of a tile (R150, R151). -/
def Tile.anchorSpans (t : Tile) : List Span :=
  if t.fP = .b16 then t.spansP ++ t.spansQ else t.tableP.toList ++ t.tableQ.toList

/-- Rows of an entry in the pipeline, from row `row` on, are dropped. -/
def State.dropRows (s : State) (a : At) (e : Entry) (row : Nat) : State :=
  s.modClusterOf a (fun c =>
    { c with flight := c.flight.filter (fun f =>
        decide (f.slot ≠ a.slot) || decide (f.item ≠ e.itemSeq) || decide (f.row < row)) })

/-- An uncorrectable store error in an operand (R116). A tile with carry_in has an operand without a source. -/
def State.rowStoreUe (s : State) (a : At) (i : Nat) (e : Entry) (t : Tile) (op : TileOperand) (slot : Half) : State :=
  let s := s.clError a.die a.phys 2
  let s := s.raiseCl 0x8002 a.die a.phys (natLe 1 a.ctx.id ++ wordLe 2 slot ++ natLe 2 t.tag)
  if t.pKind ≠ 0 ∧ t.qKind ≠ 0 ∧ !t.carryIn then
    if e.ueRetried then s.clusterLost a.die a.phys
    else
      (s.dropRows a e 0).modEntry a i (fun e =>
        { e with ueRetried := true, nextRow := 0, phase := .waiting, retried := [], again := [], inexact := false,
                 invalid := false,
                 pReady := match op with
                   | .p => false
                   | .q => e.pReady,
                 qReady := match op with
                   | .p => e.qReady
                   | .q => false })
  else ((s.dropRows a e 0).haltCtx a i).rewind a.part 0x8002

/-- ANCHOR_READY: the scale unit has formed the anchor, and check 0x06 is made (R151, R103). It reads what earlier entries
have written and filled (R107, R211); the store's errors are those of a tile's operand (R97, R116). -/
def State.anchorReady (s : State) (id : ClusterId) (slot : BitVec 1) (i : Nat) (f : RowFault) : State :=
  match s.at? id slot with
  | none => s
  | some a =>
    let x := s.ctxOf a
    match x.window[i]? with
    | none => s
    | some e =>
      let t := Tile.of e.words
      if e.vector ∨ t.op ≠ 1 ∨ e.anchor.isSome ∨ !e.pReady ∨ !e.qReady ∨ !s.entryRuns a i
          ∨ !readClear x.window i t.anchorSpans then s
      else
        let s := if f = .storeCorrected then s.storeCorrected a.die a.phys else s
        match f with
        | .storeUe op at_ => s.rowStoreUe a i e t op at_
        | _ =>
        let anchor := t.formAnchor (s.clusterOf a).store a.ctx.lo
        if t.carryIn ∧ x.carryDiffers t anchor then s.rejectTile a i 0x06 t.tag
        else
          s.modEntry a i (fun e =>
            { e with anchor := some anchor,
                     words := modifyAt e.words 2 (fun w => setField w 14 10 (twos 10 anchor)) })

/-! ## NOP and FENCE -/

/-- The notice of an entry that completes (R349), when its descriptor asks for one. -/
def State.entryNotice (s : State) (a : At) (e : Entry) (notify : Bool) (done tag source flags : Nat) : State :=
  if notify then s.completionNotice done a.ident e.step tag source flags a.ctx.id a.die a.phys else s

/-- An entry is done: it leaves the window, and its notice is posted. -/
def State.entryDone (s : State) (a : At) (i : Nat) (e : Entry) (notify : Bool) (done tag source flags : Nat) : State :=
  ((s.dropEntry a i).descriptorDone a.part e.berth e.itemSeq).entryNotice a e notify done tag source flags

/-- A tile that is done counts in CL_TILES_DONE. -/
def State.countTile (s : State) (a : At) : State :=
  s.modClusterOf a (fun c => { c with counters := { c.counters with tilesDone := satAdd c.counters.tilesDone 1 } })

/-- The first entry of the window that satisfies `f`. -/
def firstEntry (w : List Entry) (f : Entry → Bool) : Option (Nat × Entry) :=
  match indexOf? f w with
  | none => none
  | some i => (w[i]?).map (fun e => (i, e))

/-- TILE_NOP (R104): the first NOP that no FENCE holds completes. -/
def State.tileNop (s : State) (id : ClusterId) (slot : BitVec 1) : State :=
  match s.at? id slot with
  | none => s
  | some a =>
    let w := (s.ctxOf a).window
    match firstEntry w (fun e => !e.vector && decide ((Tile.of e.words).op = 0)) with
    | none => s
    | some (i, e) =>
      let t := Tile.of e.words
      if fenced w i ∨ !s.entryRuns a i then s
      else (s.entryDone a i e t.notify t.done t.tag 0 0).countTile a

/-- TILE_FENCE (R107): every earlier entry has completed. -/
def State.tileFence (s : State) (id : ClusterId) (slot : BitVec 1) : State :=
  match s.at? id slot with
  | none => s
  | some a =>
    match (s.ctxOf a).window with
    | e :: _ =>
      let t := Tile.of e.words
      if e.vector ∨ t.op ≠ 2 ∨ !s.entryRuns a 0 then s
      else (s.entryDone a 0 e t.notify t.done t.tag 0 0).countTile a
    | [] => s

/-! ## Rows -/

/-- The value of P at (row, k) and of Q at (k, column), with block scales (R93, R101, R142). -/
def Tile.elemP (t : Tile) (m : Cells) (base i k : Nat) : Val :=
  let code := if t.transP then t.panelP.code m base k i else t.panelP.code m base i k
  let scale := if t.fP = .b16 then 0 else (Cells.byte m (base + t.pScale * 128 + i * (t.kc * 4) + k / 32)).toNat
  decodeElem t.fP scale code
def Tile.elemQ (t : Tile) (m : Cells) (base k j : Nat) : Val :=
  let code := if t.transQ then t.panelQ.code m base j k else t.panelQ.code m base k j
  let scale := if t.fQ = .b16 then 0 else (Cells.byte m (base + t.qScale * 128 + j * (t.kc * 4) + k / 32)).toNat
  decodeElem t.fQ scale code

/-- One accumulator of a row: the carry if there is one, then every product of the row (R154 to R156). The flags say
that a product lay above the window and that one was invalid. -/
def accumulate (anchor : Int) (start : Acc) (ps qs : List Val) : Acc × Bool × Bool :=
  (ps.zip qs).foldl (fun (r : Acc × Bool × Bool) pq =>
    let (a, above, bad) := r.1.addTerm anchor (pq.1.mul pq.2)
    (a, r.2.1 || above, r.2.2 || bad)) (start, false, false)

/-- The carry of accumulator `j` of row `i` (R103, R161). -/
def Tile.loadCarry (t : Tile) (m : Cells) (base i j : Nat) : Acc :=
  let at_ := base + (t.oAddr + i * t.oStride) * 128
  let l := BitVec.ofNat 128 (leNat (m.read (at_ + 16 * j) 16))
  Acc.load l (((Cells.byte m (at_ + 16 * t.n + j / 8)).toNat).testBit (j % 8))

/-- Row `i` of a tile: its accumulators, and whether a product lay above the window or one was invalid. -/
def Tile.row (t : Tile) (m : Cells) (base : Nat) (anchor : Int) (i : Nat) : List Acc × Bool × Bool :=
  let ps := (List.range t.k).map (fun k => t.elemP m base i k)
  (List.range t.n).foldl (fun (r : List Acc × Bool × Bool) j =>
    let start := if t.carryIn then t.loadCarry m base i j else Acc.empty
    let qs := (List.range t.k).map (fun k => t.elemQ m base k j)
    let (a, above, bad) := accumulate anchor start ps qs
    (r.1 ++ [a], r.2.1 || above, r.2.2 || bad || start.invalid)) ([], false, false)

/-- The next row of a tile to issue: one that issues again first (R115). -/
def Entry.row? (e : Entry) : Option Nat :=
  match e.again with
  | x :: _ => some x.1
  | [] => if e.nextRow < (Tile.of e.words).m then some e.nextRow else none

/-- The entry whose rows issue now or next: the first tile of the window with a row to issue. -/
def arrayEntry (w : List Entry) : Option (Nat × Entry) :=
  firstEntry w (fun e => !e.vector && decide ((Tile.of e.words).op = 1) && decide (e.phase ≠ .copying) && e.row?.isSome)

/-- The entry of a row in the pipeline. -/
def RowInFlight.entry (f : RowInFlight) (w : List Entry) : Option (Nat × Entry) :=
  firstEntry w (fun e => !e.vector && decide (e.itemSeq = f.item))

/-- Chunk issues are counted by mode (Table 3.12); B16 counts its four cycles a chunk. -/
def ClCounters.issue (c : ClCounters) (mode : Option Mode) (kc : Nat) : ClCounters :=
  match mode with
  | some .f4 => { c with issueF4 := c.issueF4 + BitVec.ofNat 64 kc }
  | some .eight => { c with issue8b := c.issue8b + BitVec.ofNat 64 kc }
  | some .b16 => { c with issueB16 := c.issueB16 + BitVec.ofNat 64 (4 * kc) }
  | none => c

/-- Events 0xB001 and 0xB002, each once a tile (R155, R156, R161). -/
def State.tileEvents (s : State) (a : At) (i : Nat) (e : Entry) (tag row : Nat) (anchor : Int) (above bad : Bool) :
    State :=
  let s :=
    if above && !e.sawAbove then
      s.raiseCl 0xB001 a.die a.phys (natLe 1 a.ctx.id ++ natLe 2 tag ++ natLe 2 (twos 16 anchor))
    else s
  let s :=
    if bad && !e.sawInvalid then
      s.raiseCl 0xB002 a.die a.phys (natLe 1 a.ctx.id ++ natLe 2 tag ++ natLe 2 row)
    else s
  s.modEntry a i (fun e => { e with sawAbove := e.sawAbove || above, sawInvalid := e.sawInvalid || bad })

/-- A residue error in row `row` (R115): the row is discarded and issues again, and no other is; a second one in the row is
lasting. A row that runs again has the same bits (R117): its accumulators are kept with it, whatever has been filled over its
operands since (log entry 75). -/
def State.rowResidue (s : State) (a : At) (i row : Nat) (e : Entry) (tag : Nat) (again : List Acc × Bool × Bool) : State :=
  let s := s.clError a.die a.phys 3
  let s := s.raiseCl 0x8003 a.die a.phys (natLe 1 a.ctx.id ++ natLe 2 tag ++ natLe 2 row)
  if e.retried.contains row then s.clusterLost a.die a.phys
  else s.modEntry a i (fun e => { e with retried := e.retried ++ [row], again := e.again ++ [(row, again)] })

/-- The next row of entry `i` issues (R108, R111): its accumulators are formed, and the checks report. -/
def State.issueRow (s : State) (a : At) (i : Nat) (e : Entry) (t : Tile) (anchor : Int) (f : RowFault) : State :=
  let c := s.clusterOf a
  let (row, repeats, accs, above, bad) := match e.again with
    | x :: _ => (x.1, true, x.2)
    | [] => (e.nextRow, false, t.row c.store a.ctx.lo anchor e.nextRow)
  let s := if f = .storeCorrected then s.storeCorrected a.die a.phys else s
  let s := s.modClusterOf a (fun c =>
    { c with
      counters := { c.counters.issue (modeOf t.fP t.fQ) t.kc with
        rowRetries := if repeats then satAdd c.counters.rowRetries 1 else c.counters.rowRetries },
      flight := if f = .residue then c.flight
        else c.flight ++ [{ slot := a.slot, item := e.itemSeq, row := row, accs := accs }],
      lastArray := a.slot })
  let s := s.modEntry a i (fun e =>
    { e with nextRow := if repeats then e.nextRow else row + 1, again := e.again.drop (b2n repeats), phase := .running })
  match f with
  | .residue => s.rowResidue a i row e t.tag (accs, above, bad)
  | .storeUe op slot => s.rowStoreUe a i e t op slot
  | _ => s.tileEvents a i e t.tag row anchor above bad

/-- The array may take a row of this slot: R120's choice, when the other context has a tile ready, is by priority and
then in turn. `ready` says whether the tile of a slot could issue. -/
def State.arrayTurn (s : State) (a : At) (other : Option At) (ready : At → Bool) : Bool :=
  match other with
  | none => true
  | some b =>
    if !ready b then true
    else if a.ctx.priority = b.ctx.priority then decide ((s.clusterOf a).lastArray ≠ a.slot)
    else decide (b.ctx.priority.toNat < a.ctx.priority.toNat)

/-- The tile reads a weight that its partition's step has updated: it waits for the close of slack water (R31). -/
def State.readsUpdated (s : State) (a : At) (t : Tile) : Bool :=
  [TileOperand.p, TileOperand.q].any (fun op =>
    (spaceOf (t.kind op)).any (fun sp =>
      (t.image op).any (fun x => s.updatedNow a.part sp (t.src op + x.1) (x.2.2 * 128))))

/-- A tile of the slot could issue its first chunk (R108, R31), or, after a swap, go on at its row (R122). -/
def State.tileReady (s : State) (a : At) : Bool :=
  let w := (s.ctxOf a).window
  match arrayEntry w with
  | none => false
  | some (i, e) =>
    decide (e.phase = .waiting) && e.pReady && e.qReady && e.anchor.isSome && runClear w i && s.entryRuns a i
      && s.mayIssue a.die a.logical && !s.readsUpdated a (Tile.of e.words)

/-- The tile that holds the array between its first and last row. -/
def Entry.holdsArray (e : Entry) : Bool := !e.vector && decide (e.phase = .running) && e.row?.isSome

/-- No tile of the other slot is between its first and last row (R113, R120): a context that is halted or swapped out
gives the array up (R122). -/
def State.arrayFree (s : State) (other : Option At) : Bool :=
  match other with
  | none => true
  | some b => (s.ctxOf b).window.zipIdx.all (fun x => !x.1.holdsArray || !s.entryRuns b x.2)

/-- The tiles of a context that stand between two rows take the array again at their next row (R122). -/
def Ctx.yieldArray (x : Ctx) : Ctx :=
  { x with window := x.window.map (fun e => if e.holdsArray then { e with phase := .waiting } else e) }

/-- The other slot's context has given the array up. -/
def State.takeArray (s : State) (other : Option At) : State :=
  match other with
  | none => s
  | some b => s.modCtx b Ctx.yieldArray

/-- TILE_PRODUCT: the tile issues its first chunk (R108, R111). -/
def State.tileProduct (s : State) (id : ClusterId) (slot : BitVec 1)
    (f : RowFault) : State :=
  match s.at? id slot with
  | none => s
  | some a =>
    let other := s.at? id (1 - slot)
    match arrayEntry (s.ctxOf a).window with
    | none => s
    | some (i, e) =>
      match e.anchor with
      | none => s
      | some anchor =>
        if s.tileReady a ∧ s.arrayFree other ∧ s.arrayTurn a other (fun b => s.tileReady b) then
          (s.takeArray other).issueRow a i e (Tile.of e.words) anchor f
        else s

/-- TILE_ROW_ISSUE: the next row of the running tile issues (R111, R112). -/
def State.tileRowIssue (s : State) (id : ClusterId) (slot : BitVec 1) (f : RowFault) : State :=
  match s.at? id slot with
  | none => s
  | some a =>
    match arrayEntry (s.ctxOf a).window with
    | none => s
    | some (i, e) =>
      let t := Tile.of e.words
      match e.anchor with
      | none => s
      | some anchor =>
        if e.phase = .running ∧ s.entryRuns a i ∧ s.mayIssue a.die a.logical
            ∧ s.arrayFree (s.at? id (1 - slot)) then
          s.issueRow a i e t anchor f
        else s

/-! ## The drain (R563) -/

/-- The code of an output element (R165 to R167). -/
def Tile.outCode (t : Tile) (seed : DWord) (step : DWord) (anchor : Int) (i j : Nat) (acc : Acc) : Nat :=
  let r :=
    if t.round = 1 then
      Rnd.stoch (drawBits 16 seed t.stream step (((t.row0 + i) * t.ld + t.col0 + j) % 2 ^ 64))
    else Rnd.nearest
  (encodeWide t.fO.float r (acc.value anchor)).1

/-- A code of F32 or B16 is an infinity or a NaN. -/
def nonfiniteCode (f : Fmt) (c : Nat) : Bool := (decodeWide f.float c).special

/-- The row of a CARRY output: L of every accumulator and the inexact mask, padded to whole slots (R103, R161). -/
def Tile.carryBytes (t : Tile) (accs : List Acc) : Bytes :=
  let ls := (accs.map (fun a => natLe 16 a.carry.toNat)).flatten
  let mask := (accs.zipIdx.map (fun x => flagAt x.1.inexact x.2)).sum
  padTo (t.carrySlots * 128) (ls ++ natLe (ceilDiv t.n 8) mask)

/-- What row `i` writes into the store, and how many non-finite codes. -/
def Tile.writeRow (t : Tile) (m : Cells) (base : Nat) (seed step : DWord) (anchor : Int) (i : Nat) (accs : List Acc) :
    Cells × Nat :=
  if t.fmtO = 2 then (m.write (base + (t.oAddr + i * t.oStride) * 128) (t.carryBytes accs), 0)
  else
    let codes := accs.zipIdx.map (fun x => t.outCode seed step anchor i x.2 x.1)
    (t.panelO.writeRow m base i 0 codes, (codes.filter (nonfiniteCode t.fO)).length)

/-- The output row goes to its destination (R102, R109): the row's 8 bytes of every subtile, and with the last row the
rest of its subtiles. -/
def State.copyRow (s : State) (a : At) (t : Tile) (i : Nat) : State :=
  match spaceOf t.oKind with
  | none => s
  | some sp =>
    let base := a.ctx.lo + t.oAddr * 128
    if t.fmtO = 2 then s.copyOut a sp (base + i * t.oStride * 128) (t.oDst + i * t.oStride * 128) (t.carrySlots * 128)
    else
      let n := if i + 1 = t.m then 128 - (i % 16) * 8 else 8
      (List.range (ceilDiv t.n t.fO.width)).foldl (fun s b =>
        let off := ((i / 16) * t.oStride + b) * 128 + (i % 16) * 8
        s.copyOut a sp (base + off) (t.oDst + off) n) s

/-- The context's record of a CARRY tile (R103): the last 16. -/
def Ctx.recordCarry (x : Ctx) (t : Tile) (anchor : Int) : Ctx :=
  if t.fmtO = 2 then
    let l := x.carries ++ [{ oAddr := t.oAddr, nCols := t.n, anchor := anchor }]
    { x with carries := l.drop (l.length - 16) }
  else x

/-- A tile is complete (R109, R162). -/
def State.tileDone (s : State) (a : At) (i : Nat) (e : Entry) (t : Tile) (anchor : Int) : State :=
  let s := s.modCtx a (fun x => x.recordCarry t anchor)
  (s.entryDone a i e t.notify t.done t.tag 0 (flagAt e.inexact 0 + flagAt e.invalid 1)).countTile a

/-- Every row of a tile is written: the tile is complete, or waits for its copy (R109). A retry that passed is transient
(R117). -/
def State.tileWritten (s : State) (a : At) (i : Nat) (t : Tile) (anchor : Int) : State :=
  match (s.ctxOf a).window[i]? with
  | none => s
  | some e =>
    let s := if t.oKind = 0 then s.tileDone a i e t anchor
      else s.modEntry a i (fun e => { e with phase := .copying })
    if e.ueRetried then s.clusterTransient a.die a.phys 1 else s

/-- ROW_DRAIN: the oldest row of the slot leaves the pipeline and is written, or is discarded by a residue error (R111,
R115, R563): where the other slot's tile has begun meanwhile (R113), the tile takes the array for that row when it is free. A copy into a row locked for repair waits (R322). -/
def State.rowDrain (s : State) (id : ClusterId) (slot : BitVec 1) (residue : Bool) : State :=
  match s.at? id slot with
  | none => s
  | some a =>
    let c := s.clusterOf a
    match c.flight.find? (fun f => decide (f.slot = slot)) with
    | none => s
    | some f =>
      match f.entry (s.ctxOf a).window with
      | none => s
      | some (i, e) =>
      let t := Tile.of e.words
      match e.anchor with
      | none => s
      | some anchor =>
        if residue then
          let s := (s.setCluster a.die a.phys { c with flight := c.flight.erase f }).rowResidue a i f.row e t.tag (f.accs, false, false)
          if s.arrayFree (s.at? id (1 - slot)) then s else s.modEntry a i (fun e => { e with phase := .waiting })
        else if (spaceOf t.oKind).any (fun sp => s.piecesLocked sp t.oDst t.imageO) then s
        else
          let (store, bad) := t.writeRow c.store a.ctx.lo a.cfg.program.control.runSeed e.step anchor f.row f.accs
          let s := s.setCluster a.die a.phys { c with store := store, flight := c.flight.erase f }
          let s := (s.countNonfinite a.part 0 bad).copyRow a t f.row
          let s := s.modEntry a i (fun e =>
            { e with inexact := e.inexact || f.accs.any (·.inexact), invalid := e.invalid || f.accs.any (·.invalid),
                     retried := e.retried.filter (· ≠ f.row) })
          let rest := (s.clusterOf a).flight.any (fun g => decide (g.slot = slot) && decide (g.item = e.itemSeq))
          let s := if e.row?.isNone ∧ !rest then s.tileWritten a i t anchor else s
          if e.retried.contains f.row then s.clusterTransient a.die a.phys 0 else s

/-- OUTPUT_COPY_COMPLETE: the destination has acknowledged the last write (R109); a store error that the copy met was
corrected (R97). -/
def State.outputCopied (s : State) (id : ClusterId) (slot : BitVec 1) (corrected : Bool) : State :=
  match s.at? id slot with
  | none => s
  | some a =>
    match firstEntry (s.ctxOf a).window (fun e => !e.vector && decide (e.phase = .copying)) with
    | none => s
    | some (i, e) =>
      let s := if corrected then s.storeCorrected a.die a.phys else s
      s.tileDone a i e (Tile.of e.words) (e.anchor.getD 0)

/-- HALT and RESUME of CL_CONTROL (Table 3.15). -/
def State.slotControl (s : State) (id : ClusterId) (slot : BitVec 1) (halt : Bool) : State :=
  match s.at? id slot with
  | none => s
  | some a => s.modCtx a (fun x => { x with halted := halt, runsOn := 0 })

/-- HALT_SLOT and RESUME_SLOT (R132): writes of CL_CONTROL. -/
def execHaltSlot (c : ClusterId) (slot : BitVec 1) (s : State) : Out :=
  .next (s.guardWrite (.haltSlot c slot) (readyCompute c.die.toNat) (clusterBase c.die.toNat c.phys.toNat + 8)
    (fun s => s.slotControl c slot true))
def execResumeSlot (c : ClusterId) (slot : BitVec 1) (s : State) : Out :=
  .next (s.guardWrite (.resumeSlot c slot) (readyCompute c.die.toNat) (clusterBase c.die.toNat c.phys.toNat + 8)
    (fun s => s.slotControl c slot false))

/-- PILOT_FETCH_RETURN (R106). -/
def execPilotFetchReturn (c : ClusterId) (slot : BitVec 1) (entry : Nat) (op : TileOperand) (o : ReadOutcome)
    (s : State) : Out := .next (s.pilotFetchReturn c slot entry op o)

/-- TILE_PRODUCT (R108). -/
def execTileProduct (c : ClusterId) (slot : BitVec 1) (f : RowFault) (s : State) : Out :=
  .next (s.tileProduct c slot f)

/-- PILOT_ADMIT (R104). -/
def execPilotAdmit (c : ClusterId) (slot : BitVec 1) (s : State) : Out := .next (s.pilotAdmit c slot).amendCheck

/-- TILE_NOP (R104). -/
def execTileNop (c : ClusterId) (slot : BitVec 1) (s : State) : Out := .next (s.tileNop c slot)

/-- TILE_FENCE (R107). -/
def execTileFence (c : ClusterId) (slot : BitVec 1) (s : State) : Out := .next (s.tileFence c slot)

/-- ANCHOR_READY (R151). -/
def execAnchorReady (c : ClusterId) (slot : BitVec 1) (entry : Nat) (s : State) (f : RowFault := .none) : Out :=
  .next (s.anchorReady c slot entry f)

/-- TILE_ROW_ISSUE (R111). -/
def execTileRowIssue (c : ClusterId) (slot : BitVec 1) (f : RowFault) (s : State) : Out :=
  .next (s.tileRowIssue c slot f)

/-- ROW_DRAIN (R563). -/
def execRowDrain (c : ClusterId) (slot : BitVec 1) (residue : Bool) (s : State) : Out :=
  .next (s.rowDrain c slot residue)

/-- OUTPUT_COPY_COMPLETE (R109). -/
def execOutputCopyComplete (c : ClusterId) (slot : BitVec 1) (s : State) (corrected : Bool := false) : Out :=
  .next (s.outputCopied c slot corrected)

end Sys2Proof.Machine
end

