-- ==== Sys2Proof/Machine/Contexts.lean ====
section
/-!
DEFINITION. Time-slicing (R119 to R126): save images and swaps.
-/

namespace Sys2Proof.Machine

/-- The bytes of a context's save image (R123): 16 KiB of state, then its store window. -/
def imageBytes (size : Nat) : Nat := 16384 + size * 65536

/-- The contexts of a partition on a die, by logical cluster and then identity (R124). -/
def contextOrder (rs : List CtxRec) (die : Nat) : List CtxRec :=
  sortBy (fun a b => decide (a.cluster < b.cluster) || (decide (a.cluster = b.cluster) && decide (a.ctx ≤ b.ctx)))
    (rs.filter (fun r => decide (r.die = die)))

/-- The offset of a context's image in the buffer (R124): every image is a multiple of 4 KiB long, so positions follow
one another. -/
def imageOffset : List CtxRec → Nat → Nat → Nat → Option Nat
  | [], _, _, _ => none
  | r :: rs, cluster, ctx, off =>
    if r.cluster = cluster ∧ r.ctx = ctx then some off
    else imageOffset rs cluster ctx (off + imageBytes r.size)

/-- The running CONTEXT_SAVE buffer of a partition on a die (R55, R536). -/
def State.saveBuffer (s : State) (p die : Nat) : Option ClaimRec :=
  s.hmAux.yardBufs.find? (fun b =>
    decide (b.kind = 3) && decide (b.index = die) && decide (b.owner = p) && decide (b.feature = 1))

/-- The Yard address of a context's image position, where it lies wholly inside the buffer (R124, R125). -/
def State.imagePlace (s : State) (a : At) (x : Ctx) : Option Nat :=
  match s.saveBuffer a.part a.die with
  | none => none
  | some b =>
    match imageOffset (contextOrder a.cfg.program.contexts a.die) a.logical x.id 0 with
    | none => none
    | some off =>
      if off + imageBytes x.size ≤ b.bufSize then some (a.die * 2 ^ 27 + b.bufOff + off) else none

/-- Saved contexts of a slot whose intake holds an item, by list position (R121). -/
def State.readySaved (s : State) (a : At) : List (Nat × Ctx) :=
  ((s.clusterOf a).ctxs.zipIdx.filter (fun xi =>
    !xi.1.resident && decide (xi.1.slot = a.slot)
      && (match s.intakeOf (idContext a.die a.logical xi.1.id) with
          | some n => decide (0 < (s.berth n).occupancy)
          | none => false))).map (fun xi => (xi.2, xi.1))

/-- The one that comes in: highest priority, then saved longest (R121). -/
def comesIn (xs : List (Nat × Ctx)) : Option (Nat × Ctx) :=
  xs.foldl (fun best x =>
    match best with
    | none => some x
    | some b =>
      if b.2.priority.toNat < x.2.priority.toNat
          ∨ (b.2.priority = x.2.priority ∧ x.2.since.toNat < b.2.since.toNat) then some x
      else some b) none

/-- A refused swap (R125). DESIGN CHOICE (log entry 76): the event names the outgoing context where its position fails, else
the incoming one, and the image size is 4 bytes, in bytes; the slot is tried again at its next QUANTUM_EXPIRY. -/
def State.swapRefused (s : State) (a : At) (x : Ctx) : State :=
  ((s.clError a.die a.phys 5).raiseCl 0x8005 a.die a.phys (natLe 1 x.id ++ natLe 4 (imageBytes x.size))).modCtx a
    (fun x => { x with due := false })

/-- The slot is eligible for a swap (R121): its context has held it for quantum_us, and a saved one is ready. -/
def State.eligible (s : State) (a : At) : Bool := (s.ctxOf a).due && decide (s.readySaved a ≠ [])

/-- A swap of the slot starts, or is refused (R121, R125). -/
def State.startSwap (s : State) (a : At) : State :=
  match comesIn (s.readySaved a) with
  | none => s
  | some (j, y) =>
    let x := s.ctxOf a
    if (s.imagePlace a x).isNone then s.swapRefused a x
    else if (s.imagePlace a y).isNone then s.swapRefused a y
    else s.modClusterOf a (fun c => { c with swap := some { slot := a.slot, outgoing := a.idx, incoming := j } })

/-- The swaps of a cluster that no swap holds up: of two eligible slots the one whose context has held it longer goes
first (R121). -/
def State.nextSwap (s : State) (id : ClusterId) : State :=
  let ready := ([0, 1] : List (BitVec 1)).filterMap (fun k => (s.at? id k).filter s.eligible)
  match ready with
  | [] => s
  | a :: rest =>
    if (s.clusterOf a).swap.isSome then s
    else s.startSwap (rest.foldl (fun b c => if (s.ctxOf c).since.toNat < (s.ctxOf b).since.toNat then c else b) a)

/-- QUANTUM_EXPIRY: the slot's context has held it for quantum_us (R121). -/
def State.quantumExpiry (s : State) (id : ClusterId) (slot : BitVec 1) : State :=
  match s.at? id slot with
  | none => s
  | some a => if !a.cfg.part.timeSlice then s else (s.modCtx a (fun x => { x with due := true })).nextSwap id

/-- An item came into a berth: where it is the intake of a saved context, a slot whose quantum is over may swap (R121). -/
def State.intakeFilled (s : State) (n : Nat) : State :=
  let id := (s.berth n).front.consumerId
  if !isContext id then s
  else
    match s.physOf (id / 2048) ((id / 8) % 256) with
    | some phys => s.nextSwap { die := BitVec.ofNat 3 (id / 2048), phys := BitVec.ofNat 8 phys }
    | none => s

/-- SWAP_COMPLETE: the outgoing image is in its position and the incoming context is resident (R122, R123, R126). The
16 KiB of state of an image have no layout in the manual: they are free (log entry 9); what they keep of a context stands in
its window entries. The incoming image is read by the rules of the Yard (R317 to R319). DESIGN CHOICE: a swap whose buffer
stopped meanwhile, or no longer holds a position, ends as one that is refused (R125; log entry 76). -/
def State.swapComplete (s : State) (id : ClusterId) (slot : BitVec 1) (corrected : Bool) (o : ReadOutcome) : State :=
  match s.at? id slot with
  | none => s
  | some a =>
    let c := s.clusterOf a
    match c.swap with
    | none => s
    | some w =>
      if w.slot ≠ slot ∨ c.flight.any (fun f => decide (f.slot = slot)) then s
      else
        match c.ctxs[w.incoming]?, s.imagePlace a a.ctx, (c.ctxs[w.incoming]?).bind (s.imagePlace a) with
        | some y, some out, some inn =>
          let (ok, s) := s.readMem none .yard inn (imageBytes y.size) (idContext a.die a.logical y.id) o
          let (v, s) := s.draw
          let s := if corrected then s.storeCorrected a.die a.phys else s
          let s := s.store .yard out (natLe 16384 v)
          let s := s.copyOut a .yard a.ctx.lo (out + 16384) (a.ctx.size * 65536)
          let window := Cells.moved s.mem.yard (inn + 16384) (y.size * 65536) y.lo
          let now := s.hm.time
          let s := s.modClusterOf a (fun c =>
            { c with
              swap := none,
              store := Cells.put c.store y.lo (y.size * 65536) window,
              ctxs := (c.ctxs.zipIdx.map (fun xi =>
                if xi.2 = w.incoming then { xi.1 with resident := true, since := now, due := false }
                else if xi.2 = w.outgoing then { xi.1.yieldArray with resident := false, since := now, due := false }
                else xi.1)),
              counters := { c.counters with swaps := satAdd c.counters.swaps 1 } })
          if ok then s.nextSwap id
          else
            let b : At := { a with idx := w.incoming, ctx := y }
            let s := (s.haltCtx b 0).clError a.die a.phys 6
            ((s.raiseCl 0x8006 a.die a.phys (natLe 1 y.id)).rewind a.part 0x8006).nextSwap id
        | _, _, _ => (s.modClusterOf a (fun c => { c with swap := none })).swapRefused a a.ctx

/-- QUANTUM_EXPIRY (R121). -/
def execQuantumExpiry (c : ClusterId) (slot : BitVec 1) (s : State) : Out := .next (s.quantumExpiry c slot)

/-- SWAP_COMPLETE (R123). -/
def execSwapComplete (c : ClusterId) (slot : BitVec 1) (corrected : Bool) (s : State) (o : ReadOutcome := .good) : Out :=
  .next (s.swapComplete c slot corrected o)

end Sys2Proof.Machine
end

