-- ==== Sys2Proof/Machine/Vector.lean ====
section
/-!
DEFINITION. The vector engine (06): the checks of Table 6.7, the operations of Table 6.4, masks, reductions, status
records, quantisation with rotation (R174 to R186), and the verdict wait (R242).
-/

namespace Sys2Proof.Machine

/-! ## Checks (Table 6.7) -/

/-- The data regions a descriptor uses, with their format codes: 0 to 3 for A to D. A format code of a region that it does not
use is not tested for 0x21 (DESIGN CHOICE, log entry 94). -/
def Vec.formats (v : Vec) : List (Nat × Nat) :=
  match v.kind with
  | 1 =>
    (if v.names 0 then [(0, v.fmtA)] else []) ++ (if v.names 1 then [(1, v.fmtB)] else [])
      ++ (if v.names 2 && !v.maskEn then [(2, v.fmtC)] else []) ++ (if v.dEn then [(3, v.fmtD)] else [])
  | 2 => [(0, v.fmtA)] ++ (if v.quant.rotSize = 0 then [] else [(1, v.fmtB)])
  | 4 => [(0, v.fmtA)]
  | _ => []

/-- Operations marked for both lane modes (Table 6.4). -/
def bothModes (op : Nat) : Bool := within 1 4 op || within 0x10 0x16 op

/-- The formats are allowed for their regions, kind and lane mode (check 0x22). -/
def Vec.formatsOk (v : Vec) : Bool :=
  match v.kind with
  | 1 =>
    if v.b16 then v.formats.all (fun f => decide (f.2 = 3)) && v.chain.all (fun o => bothModes o.op)
    else v.formats.all (fun f => decide (f.2 = 3) || decide (f.2 = 4) || (decide (f.1 = 0) && decide (f.2 ≠ 5)))
  | 2 => !v.b16 && v.formats.all (fun f => decide (f.2 = 4) || (decide (f.1 = 0) && decide (f.2 = 3)))
  | 4 => !v.b16 && decide (v.fmtA = 5)
  | _ => true

/-- Regions as spans, with address, stride, element bits and the least stride each needs; regions that are linear have
none. -/
structure VRegion where
  spans  : List Span
  addr   : Nat
  stride : Nat
  bits   : Nat
  need   : Nat
  deriving DecidableEq, Repr

def Vec.panelRegion (v : Vec) (p : Panel) : VRegion :=
  { spans := v.panelSpans p, addr := p.slot, stride := p.stride, bits := p.fmt.bitsOf, need := ceilDiv v.cols p.fmt.width }
def Vec.maskRegion (v : Vec) (addr stride : Nat) : VRegion :=
  { spans := v.maskSpans addr stride, addr := addr, stride := stride, bits := 1, need := ceilDiv v.cols 1024 }
def linearRegion (sp : Span) : VRegion := { spans := [sp], addr := sp.1, stride := 0, bits := 0, need := 0 }

/-- The sources that D may coincide with exactly: A, B and C. -/
def Vec.sources (v : Vec) : List VRegion :=
  match v.kind with
  | 1 =>
    (if v.names 0 then [v.panelRegion v.panelA] else []) ++ (if v.names 1 then [v.panelRegion v.panelB] else [])
      ++ (if v.names 2 && !v.maskEn then [v.panelRegion v.panelC] else [])
  | 2 => [v.panelRegion v.panelA] ++ (if v.quant.rotSize = 0 then [] else [v.panelRegion v.panelB])
  | 4 => [linearRegion (longSpan v.aAddr (v.rows * v.cols))]
  | _ => []

/-- The mask, the scale table and the status record. -/
def Vec.others (v : Vec) : List VRegion :=
  (if v.kind = 1 ∧ v.maskEn then [v.maskRegion v.cAddr v.cStride] else [])
    ++ (if v.kind = 1 ∧ v.names 0 ∧ (vecFmt v.fmtA).narrow then
          [linearRegion (tableSpan v.aux v.rows v.cols v.blkCols)] else [])
    ++ (if v.kind = 2 ∧ (vecFmt v.quant.fmt).narrow then
          [linearRegion (tableSpan v.aux v.rows v.cols v.quant.colAxis)] else [])
    ++ (if v.statusEn then [linearRegion (v.status, 1)] else [])

/-- Region D; with a reserved format code in a QUANT's record it has no elements to place, nor has the scale table (log
entry 61). -/
def Vec.dest (v : Vec) : Option VRegion :=
  match v.kind with
  | 1 => if v.dEn then some (v.panelRegion v.panelD) else none
  | 2 => if (vecFmt v.quant.fmt).narrow then some (v.panelRegion v.panelD) else none
  | 3 => some (v.maskRegion v.dAddr v.dStride)
  | _ => none

def VRegion.same (a b : VRegion) : Bool :=
  decide (a.addr = b.addr) && decide (a.stride = b.stride) && decide (a.bits = b.bits)

/-- An overlap that R218 refuses. -/
def Vec.overlaps (v : Vec) : Bool :=
  match v.dest with
  | none => false
  | some d =>
    v.sources.any (fun r => !d.same r && spansOverlap d.spans r.spans)
      || v.others.any (fun r => spansOverlap d.spans r.spans)

/-- The extent along K of a QUANT. -/
def Vec.kExtent (v : Vec) : Nat := if v.quant.colAxis then v.rows else v.cols

/-- A condition of R184 other than stochastic rounding. -/
def Vec.quantBad (v : Vec) : Bool :=
  let q := v.quant
  let n := if q.rotSize = 0 then 32 else q.n
  !(within 0 2 q.fmt || decide (q.fmt = 7)) || decide (4 < q.rotSize)
    || (decide (q.rotSize ≠ 0) && (decide (q.fmt = 7) || decide (v.kExtent % n ≠ 0))) || decide (q.kOrigin % n ≠ 0)

/-- A selector names its own slot, a later one or a NOP slot (check 0x2A). -/
def Vec.chainBad (v : Vec) : Bool :=
  decide (v.chain = []) || v.chain.zipIdx.any (fun ok => ok.1.used.any (fun x => decide (5 ≤ x) && decide (ok.2 ≤ x - 5)))

/-- The first failing check of Table 6.7, 0 for none. The reserved value 3 of red is refused with 0x21, and an opcode behind
the first NOP is not tested (DESIGN CHOICE, log entry 94). -/
def State.checkVec (s : State) (a : At) (v : Vec) : Nat :=
  let noBerth := v.notify && !s.berthOfPart v.done a.part
  let elems := v.rows * v.cols
  if 4 < v.kind then 0x21
  else if v.kind = 0 then (if noBerth then 0x29 else 0)
  else if v.formats.any (fun f => decide (f.2 = 6)) ∨ (v.kind = 1 ∧ (v.red = 3 ∨ v.chain.any (fun o => decide (0x16 < o.op)))) then
    0x21
  else if !v.formatsOk then 0x22
  else if elems = 0 ∨ (v.kind = 1 ∧ v.red = 2 ∧ 524288 < elems) ∨ (v.kind = 4 ∧ 256 < elems) then 0x23
  else
    let regs := v.sources ++ v.others ++ v.dest.toList
    if !regs.all (fun r => inWindow a.ctx.slots r.spans) then 0x24
    else if regs.any (fun r => decide (r.stride < r.need)) then 0x25
    else if v.overlaps then 0x26
    else if a.cfg.policy.stochRound = 0 ∧ ((v.kind = 1 ∧ v.round ∧ v.dEn) ∨ (v.kind = 2 ∧ v.quant.round)) then 0x27
    else if v.kind = 2 ∧ v.quantBad then 0x28
    else if noBerth then 0x29
    else if v.kind = 1 ∧ v.chainBad then 0x2A
    else if v.maskEn ∧ (v.kind ≠ 1 ∨ v.names 2) then 0x2B
    else if (v.kind = 1 ∧ v.names 0 ∧ (vecFmt v.fmtA).narrow ∧ (if v.blkCols then v.rows else v.cols) % 32 ≠ 0)
        ∨ (v.kind = 2 ∧ v.kExtent % 32 ≠ 0) then 0x2C
    else 0

/-- VECTOR_DESCRIPTOR_ADMIT: the oldest item of the intake is a vector descriptor (R211, R237). -/
def State.vectorAdmit (s : State) (id : ClusterId) (slot : BitVec 1) : State :=
  match s.at? id slot with
  | none => s
  | some a =>
    match s.intakeHead a with
    | none => s
    | some (n, it) =>
      if it.cls ≠ 2 ∨ !s.pilotOpen a then s
      else if it.poisoned then s.poisonedItem a n
      else
        let v := Vec.of (wordsOf 16 it.payload)
        let code := s.checkVec a v
        if code ≠ 0 then
          (s.haltCtx a (s.ctxOf a).window.length).raiseCl 0xA001 a.die a.phys
            (natLe 1 a.ctx.id ++ natLe 1 code ++ natLe 2 v.tag)
        else s.admitItem a n it true

/-! ## Operations (Table 6.4) -/

/-- x is above y; none of them a NaN. -/
def Val.above (x y : Val) : Bool := decide (Val.cmp x y = some .gt)
def Val.isZero : Val → Bool
  | .fin _ m _ => decide (m = 0)
  | _ => false
def Val.isNan (v : Val) : Bool := decide (v = .nan)

/-- The exact sum or product as a result: a NaN from operands that are none is invalid. -/
def exactRaw (v : Val) (operands : List Val) : Raw :=
  if v.isNan && !operands.any Val.isNan then .bad else .exact v

/-- The larger of two numbers; of two zeros the positive one. -/
def Val.max2 (x y : Val) : Val :=
  if x.isZero && y.isZero then (if x.sign then y else x) else if y.above x then y else x
/-- The smaller of two numbers; of two zeros the negative one. -/
def Val.min2 (x y : Val) : Val :=
  if x.isZero && y.isZero then (if x.sign then x else y) else if x.above y then y else x

/-- The exact result of an operation (R222, R223). -/
def opResult (op : Nat) (pe : Int) (x y z : Val) : Raw :=
  let fma (p : Val) : Raw :=
    if [x, y, z].any Val.isNan then .exact .nan else exactRaw (p.add z) []
  match op with
  | 0x01 => exactRaw (x.add y) [x, y]
  | 0x02 => exactRaw (x.add y.neg) [x, y]
  | 0x03 => exactRaw (x.mul y) [x, y]
  | 0x04 => fma (x.mul y)
  | 0x05 => exactRaw ((x.mul y).scale pe) [x, y]
  | 0x06 => fma ((x.mul y).scale pe)
  | 0x07 => divRaw x y
  | 0x08 => sqrtRaw x
  | 0x09 => divRaw (.fin false 1 0) x
  | 0x0A => rsqrtRaw x
  | 0x0B => exp2Raw x
  | 0x0C => log2Raw x
  | 0x0D => expRaw x
  | 0x0E => logRaw x
  | 0x0F => tanhRaw x
  | 0x10 => .exact (if x.isNan || y.isNan then .nan else x.max2 y)
  | 0x11 => .exact (if x.isNan || y.isNan then .nan else x.min2 y)
  | 0x12 => .exact x.abs
  | 0x13 => .exact x.neg
  | 0x14 => .exact (if z.above Val.zero then x else y)
  | 0x15 => .exact (if x.above y then .fin false 1 0 else Val.zero)
  | _ => .exact x

/-! ## Elements -/

/-- A narrow element widened to F32 (R220): infinity with the overflow flag above the F32 range. -/
def widen (f : Fmt) (scale code : Nat) : Val × FpFlags :=
  let v := decodeElem f scale code
  match v with
  | .fin n m e =>
    if f.narrow && !magLe m e (2 ^ 24 - 1) 104 then (.inf n, { FpFlags.none with overflow := true }) else (v, FpFlags.none)
  | v => (v, FpFlags.none)

/-- A scale byte of a table of rows `len` bytes long: row `o`, block `b` (R101). -/
def scaleByte (m : Cells) (base len o b : Nat) : Nat := (Cells.byte m (base + o * len + b)).toNat

/-- The bytes of a scale table's row: whole chunks of K (R101). -/
def tableRow (k : Nat) : Nat := ceilDiv k 128 * 4

/-- Region A's element in lane format, with the flags of its widening. -/
def Vec.elemA (v : Vec) (m : Cells) (base r c : Nat) : Val × FpFlags :=
  let f := vecFmt v.fmtA
  let (o, k, ext) := if v.blkCols then (c, r, v.rows) else (r, c, v.cols)
  let scale := if f.narrow then scaleByte m (base + v.aux * 128) (tableRow ext) o (k / 32) else 0
  widen f scale (v.panelA.code m base r c)

/-- A wide element. -/
def Panel.wide (p : Panel) (m : Cells) (base r c : Nat) : Val := decodeWide p.fmt.float (p.code m base r c)

/-- S0 or S1 (R221). -/
def Vec.scalar (v : Vec) (w : Nat) : Val := if v.b16 then decodeWide fmtB16 (w >>> 16) else decodeWide fmtF32 w

/-- The lane format. -/
def Vec.lane (v : Vec) : Fmt := if v.b16 then .b16 else .f32

/-- The mask bit of an element (R225). -/
def maskBit (m : Cells) (base addr stride r c : Nat) : Bool :=
  ((Cells.byte m (base + (addr + r * stride) * 128 + c / 8)).toNat).testBit (c % 8)

/-- The element index of R216. -/
def Vec.index (v : Vec) (r c : Nat) : Nat := v.base + r * v.ld + c

/-- The chain on one element: operands by selector, results appended (R219, R222). The last result is rounded by
`final`. -/
def runChain (lane : FloatFmt) (pe : Int) (final : Raw → Nat × FpFlags) :
    List OpSlot → List Val → FpFlags → Nat × FpFlags
  | [], _, fl => (0, fl)
  | o :: os, vals, fl =>
    let g := fun i => vals.getD i Val.zero
    let r := opResult o.op pe (g o.x) (g o.y) (g o.z)
    if os = [] then
      let (c, f) := final r
      (c, fl.or f)
    else
      let (c, f) := r.round lane .nearest
      runChain lane pe final os (vals ++ [decodeWide lane c]) (fl.or f)

/-- The chain result of an element: its code in the destination format, and the flags raised. -/
def Vec.element (v : Vec) (m : Cells) (base : Nat) (seed step : DWord) (r c : Nat) : Nat × FpFlags :=
  let (va, fa) := if v.names 0 then v.elemA m base r c else (Val.zero, FpFlags.none)
  let vb := if v.names 1 then v.panelB.wide m base r c else Val.zero
  let vc := if v.names 2 then v.panelC.wide m base r c else Val.zero
  let dst := if v.dEn then (vecFmt v.fmtD).float else v.lane.float
  let mode :=
    if v.dEn && v.round then
      Rnd.stoch (drawBits 16 seed v.stream (if v.stepNext then step + 1 else step) (v.index r c))
    else Rnd.nearest
  runChain v.lane.float v.pe (fun x => x.round dst mode) v.chain [va, vb, vc, v.scalar v.s0, v.scalar v.s1] fa

/-! ## Reductions (R232, R233) -/

def Red.empty : Red := { max := Val.zero, acc := Acc.empty, invalid := false, inexact := false }

/-- One rounded result enters. -/
def Red.enter (x : Red) (kind : Nat) (anchor : Int) (v : Val) : Red :=
  if kind = 1 then
    if v.special then { x with invalid := true } else { x with max := if v.abs.above x.max then v.abs else x.max }
  else if kind = 2 then
    let (a, above, bad) := x.acc.addTerm anchor v
    { x with acc := { a with invalid := false }, invalid := x.invalid || above || bad, inexact := a.inexact }
  else x

/-- The F32 result and the total of the status record (Table 6.5). -/
def Red.result (x : Red) (kind : Nat) (anchor : Int) : Nat × BitVec 128 :=
  if kind = 1 then ((encodeWide fmtF32 .nearest (if x.invalid then .inf false else x.max)).1, 0)
  else if kind = 2 then
    if x.invalid then (nanCode fmtF32, longInvalid)
    else ((encodeWide fmtF32 .nearest (longVal x.acc.l anchor)).1, x.acc.l)
  else (0, 0)

/-! ## Runs -/

/-- What a descriptor leaves: the store, and what its status record says. -/
structure VecRun where
  store    : Cells
  elems    : Nat
  bad      : Nat
  flags    : FpFlags
  red      : Red
  result   : Nat
  total    : BitVec 128
  /-- The largest scale but 0xFF of a QUANT, and whether some block has scale 0xFF. -/
  peak     : Nat
  sawBad   : Bool
  deriving DecidableEq, Repr

/-- The lane rows of the descriptor's shape, in the order they run: stored row, first column, columns (R208, R214,
R215). -/
def Vec.laneRows (v : Vec) : List (Nat × Nat × Nat) :=
  let l := if v.b16 then 256 else 128
  (List.range v.rows).flatMap (fun r =>
    (List.range (ceilDiv v.cols l)).map (fun j => (r, j * l, min l (v.cols - j * l))))

/-- MAP on one element (R222, R226, R229); `src` is the store as the lane row reads it. -/
def Vec.mapOne (v : Vec) (src : Cells) (base : Nat) (seed step : DWord) (x : VecRun) (rc : Nat × Nat) : VecRun :=
  let (r, c) := rc
  let dst := if v.dEn then vecFmt v.fmtD else v.lane
  let put := fun (m : Cells) code => if v.dEn then v.panelD.writeRow m base r c [code] else m
  if v.maskEn && !maskBit src base v.cAddr v.cStride r c then
    if v.zeroMode then { x with store := put x.store 0, red := x.red.enter v.red v.anchor Val.zero } else x
  else
    let (code, fl) := v.element src base seed step r c
    let val := decodeWide dst.float code
    { x with
      store := put x.store code, elems := x.elems + 1, flags := x.flags.or fl,
      bad := if v.dEn && val.special then x.bad + 1 else x.bad,
      red := x.red.enter v.red v.anchor val }

/-- One lane row of a MAP: it is read before it is written (R218). -/
def Vec.mapRow (v : Vec) (base : Nat) (seed step : DWord) (x : VecRun) (lr : Nat × Nat × Nat) : VecRun :=
  (List.range lr.2.2).foldl (fun y i => v.mapOne x.store base seed step y (lr.1, lr.2.1 + i)) x

/-- What a MAP leaves when its last lane row is written. -/
def Vec.mapEnd (v : Vec) (x : VecRun) : VecRun :=
  let (res, tot) := x.red.result v.red v.anchor
  { x with result := res, total := tot }

/-- One lane row of a MASK (R227): each bit is 1 when the draw is at least the threshold; bits past the columns keep their
values. -/
def Vec.maskRow (v : Vec) (base : Nat) (seed step : DWord) (x : VecRun) (lr : Nat × Nat × Nat) : VecRun :=
  let key := if v.stepNext then step + 1 else step
  let m := (List.range lr.2.2).foldl (fun (m : Cells) i =>
    let c := lr.2.1 + i
    let at_ := base + (v.dAddr + lr.1 * v.dStride) * 128 + c / 8
    let one := decide (v.threshold ≤ drawBits 16 seed v.stream key (v.index lr.1 c))
    m.write at_ [putBit (Cells.byte m at_) (c % 8) one]) x.store
  { x with store := m, elems := x.elems + lr.2.2 }

/-- LSUM (R234). -/
def Vec.lsum (v : Vec) (base : Nat) (x : VecRun) : VecRun :=
  let m := x.store
  let n := v.rows * v.cols
  let ls := (List.range n).map (fun i => BitVec.ofNat 128 (leNat (m.read (base + v.aAddr * 128 + 16 * i) 16)))
  let sum : Int := (ls.map BitVec.toInt).sum
  let lim : Int := (2 ^ 127 : Nat)
  let bad := ls.contains longInvalid || decide (sum ≤ -lim) || decide (lim ≤ sum)
  let l := if bad then longInvalid else BitVec.ofInt 128 sum
  { x with
    elems := n, total := l, red := { Red.empty with invalid := bad },
    result := if bad then nanCode fmtF32 else (encodeWide fmtF32 .nearest (longVal l v.anchor)).1 }

/-! ## QUANT (R235) -/

/-- An F32 operation rounded to nearest. -/
def f32Op (r : Raw) (fl : FpFlags) : Val × FpFlags :=
  let (c, f) := r.round fmtF32 .nearest
  (decodeWide fmtF32 c, fl.or f)

/-- One butterfly stage (R175): pairs `h` apart become their sum and their difference. -/
def butterfly (h : Nat) (xs : List Val) (fl : FpFlags) : List Val × FpFlags :=
  (List.range xs.length).foldl (fun (acc : List Val × FpFlags) i =>
    let g := fun i => xs.getD i Val.zero
    let low := decide ((i / h) % 2 = 0)
    let (v, f) := if low then f32Op (opResult 0x01 0 (g i) (g (i + h)) Val.zero) acc.2
      else f32Op (opResult 0x02 0 (g (i - h)) (g i) Val.zero) acc.2
    (acc.1 ++ [v], f)) ([], fl)

/-- The shift r of Table 5.1. -/
def rotShift (rotSize : Nat) (half1 : Bool) : Int :=
  match rotSize, half1 with
  | 1, false => 3
  | 1, true => 2
  | 2, _ => 3
  | 3, false => 4
  | 3, true => 3
  | _, _ => 4

/-- One group of the rotation (R175): signs, butterflies, shift. -/
def rotateGroup (q : Quant) (seed step : DWord) (k0 : Nat) (xs : List Val) (fl : FpFlags) : List Val × FpFlags :=
  let signed := xs.zipIdx.map (fun x => if drawBits 1 seed q.rotStream step (k0 + x.2) = 1 then x.1.neg else x.1)
  let (ys, fl) := (List.range (q.rotSize + 4)).foldl (fun (a : List Val × FpFlags) i => butterfly (2 ^ i) a.1 a.2)
    (signed, fl)
  ys.foldl (fun (a : List Val × FpFlags) y =>
    let (v, f) := f32Op (opResult 0x05 (-(rotShift q.rotSize q.half1)) y (.fin false 1 0) Val.zero) a.2
    (a.1 ++ [v], f)) ([], fl)

/-- The flags of rounding a quotient to a narrow code (R228): tiny results are underflows when inexact. -/
def quantFlags (f : Fmt) (r : Rnd) (k : Int) (v : Val) (lost : Bool) : FpFlags :=
  match v with
  | .fin _ m e =>
    let (k', q', _) := roundPrec r (f.float.man + 1) none m (e - k) false
    let tiny := decide (f ≠ .x16) && decide (k' ≠ 0)
      && decide (q' + (bitLen k' : Int) - 1 < 1 - (f.float.bias : Int))
    { FpFlags.none with underflow := tiny && lost, inexact := lost }
  | _ => FpFlags.none

/-- The stored place of K index `k` of row `o`. -/
def Quant.place (q : Quant) (o k : Nat) : Nat × Nat := if q.colAxis then (k, o) else (o, k)

/-- The row of blocks and the K index of a stored place. -/
def Quant.index (q : Quant) (r c : Nat) : Nat × Nat := if q.colAxis then (c, r) else (r, c)

/-- A part of a QUANT (Table 6.6): a group of the rotation, a block of the scale pass, a lane row of the division. -/
inductive QuantPart where
  | rotate (o g : Nat)
  | scale (o b : Nat)
  | divide (row col n : Nat)
  deriving DecidableEq, Repr

/-- The parts in the order they run: each pass begins after the last write of the one before. -/
def Vec.quantParts (v : Vec) : List QuantPart :=
  let q := v.quant
  let others := List.range (if q.colAxis then v.cols else v.rows)
  (if q.rotSize = 0 then []
    else others.flatMap (fun o => (List.range (v.kExtent / q.n)).map (fun g => QuantPart.rotate o g)))
  ++ others.flatMap (fun o => (List.range (v.kExtent / 32)).map (fun b => QuantPart.scale o b))
  ++ v.laneRows.map (fun lr => QuantPart.divide lr.1 lr.2.1 lr.2.2)

/-- Where the scale pass and the division read: B, or A without rotation. -/
def Vec.quantSource (v : Vec) : Panel := if v.quant.rotSize = 0 then v.panelA else v.panelB

/-- A group of the rotation pass: A into B (R175). -/
def Vec.rotatePart (v : Vec) (base : Nat) (seed step : DWord) (x : VecRun) (o g : Nat) : VecRun :=
  let q := v.quant
  let ks := (List.range q.n).map (fun i => g * q.n + i)
  let xs := ks.map (fun k => let (r, c) := q.place o k; v.panelA.wide x.store base r c)
  let (ys, fl) := rotateGroup q seed step (q.kOrigin + g * q.n) xs x.flags
  let st := (ys.zip ks).foldl (fun m yk =>
    let (r, c) := q.place o yk.2
    v.panelB.writeRow m base r c [(encodeWide fmtF32 .nearest yk.1).1]) x.store
  { x with store := st, flags := fl }

/-- The scale pass on block `b` of row `o` (R144, R101): its scale goes into the table, and behind a row's last scale the
zeros that end the row, and the table. -/
def Vec.scalePart (v : Vec) (base : Nat) (x : VecRun) (o b : Nat) : VecRun :=
  let q := v.quant
  let vals := (List.range 32).map (fun i => let (r, c) := q.place o (32 * b + i); v.quantSource.wide x.store base r c)
  let (scale, _) := blockScale (vecFmt q.fmt) vals
  let row := tableRow v.kExtent
  let table := tableSpan v.aux v.rows v.cols q.colAxis
  let at_ := base + v.aux * 128 + o * row + b
  let lastRow := decide (o + 1 = if q.colAxis then v.cols else v.rows)
  let pad := if b + 1 < v.kExtent / 32 then 0
    else if lastRow then table.2 * 128 - (o * row + b + 1) else row - (b + 1)
  { x with
    store := x.store.write at_ (BitVec.ofNat 8 scale :: zeros pad),
    bad := if scale = 255 then x.bad + 32 else x.bad,
    peak := if scale = 255 then x.peak else max x.peak scale,
    sawBad := x.sawBad || decide (scale = 255) }

/-- The division pass on a lane row (R181, R182, R236): it reads the elements and the scale table as the passes before left
them. -/
def Vec.dividePart (v : Vec) (base : Nat) (seed step : DWord) (x : VecRun) (r c0 n : Nat) : VecRun :=
  let q := v.quant
  let f := vecFmt q.fmt
  (List.range n).foldl (fun (y : VecRun) i =>
    let c := c0 + i
    let (o, k) := q.index r c
    let scale := (Cells.byte x.store (base + v.aux * 128 + o * tableRow v.kExtent + k / 32)).toNat
    let e : Int := (scale : Int) - 127
    let val := v.quantSource.wide x.store base r c
    let mode := if q.round then Rnd.stoch (drawBits 16 seed q.srStream step (v.index r c)) else Rnd.nearest
    let (code, lost) := quantElem f mode scale e val
    { y with
      store := v.panelD.writeRow y.store base r c [code], elems := y.elems + 1,
      flags := if scale = 255 then y.flags else y.flags.or (quantFlags f mode e val lost) }) x

/-- One part of a QUANT. -/
def Vec.quantPart (v : Vec) (base : Nat) (seed step : DWord) (x : VecRun) (p : QuantPart) : VecRun :=
  let key := if v.quant.stepNext then step + 1 else step
  match p with
  | .rotate o g => v.rotatePart base seed key x o g
  | .scale o b => v.scalePart base x o b
  | .divide r c n => v.dividePart base seed key x r c n

/-! ## Runs in parts (R241) -/

/-- The parts of a descriptor: its lane rows, or those of the passes of a QUANT; an LSUM has one. -/
def Vec.parts (v : Vec) : Nat :=
  match v.kind with
  | 2 => v.quantParts.length
  | 4 => 1
  | _ => v.laneRows.length

/-- A descriptor that goes on from where it stood. -/
def VecRun.resume (m : Cells) (p : VecPart) : VecRun :=
  { store := m, elems := p.elems, bad := p.bad, flags := p.flags, red := p.red, result := 0, total := 0, peak := p.peak,
    sawBad := p.sawBad }

/-- What a swap keeps of a descriptor that has run `n` parts. -/
def VecRun.part (x : VecRun) (n : Nat) : VecPart :=
  { done := n, elems := x.elems, bad := x.bad, flags := x.flags, red := x.red, peak := x.peak, sawBad := x.sawBad }

/-- Runs parts `done` to `n` − 1 of a descriptor. -/
def Vec.runParts (v : Vec) (base : Nat) (seed step : DWord) (x : VecRun) (done n : Nat) : VecRun :=
  match v.kind with
  | 1 => ((v.laneRows.take n).drop done).foldl (v.mapRow base seed step) x
  | 2 => ((v.quantParts.take n).drop done).foldl (v.quantPart base seed step) x
  | 3 => ((v.laneRows.take n).drop done).foldl (v.maskRow base seed step) x
  | _ => v.lsum base x

/-- What the parts of an entry's descriptor, from where it stands to part `n` − 1, come to. -/
def State.vectorTo (s : State) (a : At) (e : Entry) (n : Nat) : VecRun :=
  (Vec.of e.words).runParts a.ctx.lo a.cfg.program.control.runSeed e.step (VecRun.resume (s.clusterOf a).store e.vec)
    e.vec.done n

/-- What the whole of it comes to; a MAP ends with its reduction. -/
def State.vectorAll (s : State) (a : At) (e : Entry) : VecRun :=
  let v := Vec.of e.words
  let x := s.vectorTo a e v.parts
  if v.kind = 1 then v.mapEnd x else x

/-! ## Completion -/

/-- The status record (Table 6.5), padded to a whole slot. -/
def statusBytes (elems bad flags result : Nat) (total : BitVec 128) : Bytes :=
  padTo 128 (natLe 4 elems ++ natLe 4 bad ++ natLe 1 flags ++ zeros 3 ++ natLe 4 result ++ wordLe 16 total)

/-- The flags byte of a run. -/
def VecRun.flagByte (x : VecRun) : Nat := x.flags.nat + flagAt x.red.invalid 5 + flagAt x.red.inexact 6

/-- The kind of a reduction in event 0xA004. -/
def Vec.redKind (v : Vec) : Nat := if v.kind = 4 then 3 else v.red

/-- The first vector entry of a window. -/
def vectorEntry (w : List Entry) : Option (Nat × Entry) := firstEntry w (·.vector)

/-- The verdict that an entry's step has, if it is known (R195, R242). -/
def State.verdictFor (s : State) (p : Nat) (step : DWord) : Option Action :=
  if (s.part p).step = step then (s.seq p).verdict else none

/-- A verdict that discards the apply pass (R242). -/
def Action.discards : Action → Bool
  | .skip => true
  | .halt => true
  | _ => false

/-- The descriptor may run on the vector engine: at its head, hazards resolved, not held, and with the verdict it waits
for (R207, R211, R242). -/
def State.vectorReady (s : State) (a : At) (i : Nat) (e : Entry) : Bool :=
  let v := Vec.of e.words
  let verdictOk := !v.verdictWait ||
    (match s.verdictFor a.part e.step with
      | none => false
      | some x => !x.discards)
  decide (v.kind ≠ 0) && runClear (s.ctxOf a).window i && s.entryRuns a i && s.mayIssue a.die a.logical && verdictOk

/-- The descriptor is ready to be discarded by its step's verdict (R242): what the verdict is. -/
def State.discardReady (s : State) (a : At) (i : Nat) (e : Entry) : Option Action :=
  let v := Vec.of e.words
  if v.verdictWait ∧ v.kind ≠ 0 ∧ runClear (s.ctxOf a).window i ∧ s.entryRuns a i then
    (s.verdictFor a.part e.step).filter Action.discards
  else none

/-- The vector engine's choice between the slots, of descriptors that run and of those that are discarded (R212). -/
def State.vectorTurn (s : State) (a : At) (other : Option At) : Bool :=
  match other with
  | none => true
  | some b =>
    match vectorEntry (s.ctxOf b).window with
    | none => true
    | some (i, e) =>
      if !s.vectorReady b i e ∧ (s.discardReady b i e).isNone then true
      else if a.ctx.priority = b.ctx.priority then decide ((s.clusterOf a).lastVector ≠ a.slot)
      else decide (b.ctx.priority.toNat < a.ctx.priority.toNat)

/-- What the checks of the lanes found (R239, R240): whether the descriptor's run stands. -/
def State.laneFault (s : State) (a : At) (i : Nat) (tag : Nat) (f : LaneFault) : Bool × State :=
  match f with
  | .none => (true, s)
  | .storeCorrected => (true, s.storeCorrected a.die a.phys)
  | .residueOnce _ _ =>
    let s := (s.clError a.die a.phys 3).clusterTransient a.die a.phys 2
    (decide ((s.clusterOf a).state = .active), s)
  | .residueTwice row lane =>
    let s := s.clError a.die a.phys 3
    let s := s.raiseCl 0xA005 a.die a.phys (natLe 1 a.ctx.id ++ natLe 2 tag ++ wordLe 2 row ++ wordLe 2 lane)
    (false, s.clusterLost a.die a.phys)
  | .storeUe slot =>
    let s := s.clError a.die a.phys 2
    let s := s.raiseCl 0x8002 a.die a.phys (natLe 1 a.ctx.id ++ wordLe 2 slot ++ natLe 2 tag)
    (false, (s.haltCtx a i).rewind a.part 0x8002)

/-- The lower of two clusters in the order of their logical numbers, die by die. -/
def lowerCluster (a : Nat × Nat × Nat) : Option (Nat × Nat × Nat) → Nat × Nat × Nat
  | some b => if b.1 * 256 + b.2.1 ≤ a.1 * 256 + a.2.1 then b else a
  | none => a

/-- Scopes of the partition may span devices: a MAX8 group combines their peaks (R147). -/
def State.peaksLeave (s : State) (p : Nat) : Bool := (s.cfg? p).any (fun c => c.groups.any (fun g => decide (g.op = 3)))

/-- The partial peak of a QUANT joins those of its scope on this device (R147); with every element of the scope scaled
here, the peak record goes to the step sequencer. When a partial peak enters the class-0 exchange the spec does not say:
the running one enters it at every QUANT that leaves a scope incomplete here, in a partition that has a MAX8 group (DESIGN
CHOICE, log entry 92). -/
def State.notePeak (s : State) (a : At) (v : Vec) (step : DWord) (x : VecRun) : State :=
  let p := a.part
  if v.scope = 0 then s
  else
    let step := if v.quant.stepNext then step + 1 else step
    let scope := BitVec.ofNat 32 v.scope
    let q := s.seq p
    let mine := fun (r : PeakRec × Nat) => decide (r.1.step = step) && decide (r.1.scope = scope)
    let old := (q.partials.find? mine).getD
      ({ step := step, scope := scope, peak := 0, invalid := false, fmt := BitVec.ofNat 3 v.quant.fmt, cluster := none }, 0)
    let rec_ := { old.1 with peak := BitVec.ofNat 8 (max old.1.peak.toNat x.peak), invalid := old.1.invalid || x.sawBad,
                             cluster := some (lowerCluster (a.die, a.logical, a.phys) old.1.cluster) }
    let n := old.2 + x.elems
    let total := match s.cfg? p with
      | some c => ((c.program.scopes.find? (fun sc => decide (sc.id = v.scope))).map (·.elemCount)).getD 0
      | none => 0
    let rest := q.partials.filter (fun r => !mine r)
    if total ≤ n then s.modSeq p (fun q => { q with partials := rest, arrived := q.arrived ++ [rec_] })
    else
      let s := s.modSeq p (fun q => { q with partials := rest ++ [(rec_, n)] })
      if s.peaksLeave p then s.send p (.partialPeak step scope rec_.peak rec_.invalid) else s

/-- The learning rate that a step program multiplies update ratios by: the scalar of the MULS of a descriptor of the same
partition's images that waits for the verdict and reads the region where this one leaves its ratios (R243, Table 6.9). -/
def StepProgram.rateOf (g : StepProgram) (v : Vec) : Option Nat :=
  let posts := g.body.filter (fun i => decide (i.op = 4) && i.flags.testBit 3)
  (posts.flatMap g.imagesOf).findSome? (fun ws =>
    let u := Vec.of ws
    if u.kind = 1 ∧ u.verdictWait ∧ u.aAddr = v.dAddr ∧ v.dEn then
      u.chain.findSome? (fun o =>
        if o.op ≠ 0x05 ∨ o.x ≠ 0 then none
        else if o.y = 3 then some u.s0
        else if o.y = 4 then some u.s1
        else none)
    else none)

/-- b_L of a MAXABS (R187): that of the products themselves, or λ times that of the ratios, rounded to F32 (R243). Which of
the two a descriptor takes its maximum over is the model's reading of the program (DESIGN CHOICE, log entry 77). -/
def State.boundOf (s : State) (p : Nat) (v : Vec) (max : Nat) : Nat :=
  match (s.cfg? p).bind (fun c => c.program.rateOf v) with
  | some rate => (encodeWide fmtF32 .nearest ((decodeWide fmtF32 max).mul (decodeWide fmtF32 rate))).1
  | none => max

/-- A descriptor that has run: its store, its counts and events, its status record and its notice (R229 to R231,
R244). Its events come at its completion, 0xA002 before 0xA004 (DESIGN CHOICE, log entry 95). -/
def State.vectorDone (s : State) (a : At) (i : Nat) (e : Entry) (v : Vec) (x : VecRun) : State :=
  let flags := x.flagByte
  let store :=
    if v.statusEn then
      Cells.write x.store (a.ctx.lo + v.status * 128) (statusBytes x.elems x.bad flags x.result x.total)
    else x.store
  let s := s.modClusterOf a (fun c => { c with store := store, lastVector := a.slot })
  let src := if v.kind = 2 then 1 else if v.countApply then 5 else 2
  let s := s.countNonfinite a.part src x.bad
  let s :=
    if v.countApply && decide (v.kind ≠ 2) && decide (x.bad ≠ 0) then
      s.modDet a.part (fun d => { d with applyTag := if d.applyTag.isSome then d.applyTag else some (BitVec.ofNat 16 v.tag) })
    else s
  let pay := natLe 1 a.ctx.id ++ natLe 2 v.tag
  let s := if x.bad ≠ 0 then s.raiseCl 0xA002 a.die a.phys (pay ++ natLe 4 x.bad) else s
  let s := if x.red.invalid then s.raiseCl 0xA004 a.die a.phys (pay ++ natLe 1 v.redKind) else s
  let s := if v.kind = 2 then s.notePeak a v e.step x else s
  let s := if v.kind = 1 ∧ v.red = 1 ∧ !v.verdictWait then
      s.noteBound a.part false v.tag (BitVec.ofNat 32 (s.boundOf a.part v x.result))
    else s
  s.entryDone a i e v.notify v.done v.tag 1 flags

/-- Runs the descriptor at the head of the vector engine's queue, when it is of the given kind and ready: to its end, or
until a swap stops it after `stop` more lane rows (R241). -/
def State.vectorRun (s : State) (id : ClusterId) (slot : BitVec 1) (kind : Nat) (f : LaneFault) (stop : Option Nat) :
    State :=
  match s.at? id slot with
  | none => s
  | some a =>
    match vectorEntry (s.ctxOf a).window with
    | none => s
    | some (i, e) =>
      let v := Vec.of e.words
      if v.kind ≠ kind ∨ !s.vectorReady a i e ∨ !s.vectorTurn a (s.at? id (1 - slot)) then s
      else
        let (ok, s) := s.laneFault a i v.tag f
        if !ok then s
        else
          let n := match stop with
            | some k => min v.parts (e.vec.done + k)
            | none => v.parts
          if n < v.parts then
            let x := s.vectorTo a e n
            (s.setStore a x.store).modEntry a i (fun e => { e with vec := x.part n })
          else s.vectorDone a i e v (s.vectorAll a e)

/-- VECTOR_NOP (R213): the first NOP that no FENCE holds completes. -/
def State.vectorNop (s : State) (id : ClusterId) (slot : BitVec 1) : State :=
  match s.at? id slot with
  | none => s
  | some a =>
    let w := (s.ctxOf a).window
    match firstEntry w (fun e => e.vector && decide ((Vec.of e.words).kind = 0)) with
    | none => s
    | some (i, e) =>
      let v := Vec.of e.words
      if fenced w i ∨ !s.entryRuns a i then s else s.entryDone a i e v.notify v.done v.tag 1 0

/-- VECTOR_DISCARD: a verdict_wait descriptor under a skip or a halt verdict (R242). -/
def State.vectorDiscard (s : State) (id : ClusterId) (slot : BitVec 1) : State :=
  match s.at? id slot with
  | none => s
  | some a =>
    let w := (s.ctxOf a).window
    match vectorEntry w with
    | none => s
    | some (i, e) =>
      let v := Vec.of e.words
      match s.discardReady a i e with
      | none => s
      | some act =>
        if !s.vectorTurn a (s.at? id (1 - slot)) then s
        else
          let s := s.modClusterOf a (fun c =>
            { c with
              lastVector := slot
              store := if v.statusEn then
                  Cells.write c.store (a.ctx.lo + v.status * 128) (statusBytes 0 0 128 0 0)
                else c.store })
          let s := s.raiseCl 0xA003 a.die a.phys (natLe 1 a.ctx.id ++ natLe 2 v.tag ++ wordLe 8 e.step)
          let s := s.entryDone a i e v.notify v.done v.tag 1 128
          if act = .halt then s.haltCtx a i else s

/-- VECTOR_DESCRIPTOR_ADMIT (R237). -/
def execVectorDescriptorAdmit (c : ClusterId) (slot : BitVec 1) (s : State) : Out := .next (s.vectorAdmit c slot).amendCheck

/-- VECTOR_NOP (R213). -/
def execVectorNop (c : ClusterId) (slot : BitVec 1) (s : State) : Out := .next (s.vectorNop c slot)

/-- VECTOR_MAP (R238). -/
def execVectorMap (c : ClusterId) (slot : BitVec 1) (f : LaneFault) (s : State) (stop : Option Nat := none) : Out :=
  .next (s.vectorRun c slot 1 f stop)

/-- VECTOR_MASK (R227). -/
def execVectorMask (c : ClusterId) (slot : BitVec 1) (s : State) (f : LaneFault := .none) (stop : Option Nat := none) :
    Out :=
  .next (s.vectorRun c slot 3 f stop)

/-- VECTOR_LSUM (R565). -/
def execVectorLsum (c : ClusterId) (slot : BitVec 1) (s : State) (f : LaneFault := .none) : Out :=
  .next (s.vectorRun c slot 4 f none)

/-- VECTOR_DISCARD (R242). -/
def execVectorDiscard (c : ClusterId) (slot : BitVec 1) (s : State) : Out := .next (s.vectorDiscard c slot)

end Sys2Proof.Machine
end

