-- ==== Sys2Proof/Machine/Lighters.lean ====
section
/-!
DEFINITION. The lighters and the memory-side adders (R301 to R316).
-/

namespace Sys2Proof.Machine

/-! ## Images -/

/-- The scale table's row, in bytes, and the table's rows (R101, R303). -/
def Light.rowBytes (d : Light) : Nat := tableRow (if d.blkCols then d.rows else d.cols)
def Light.tableRows (d : Light) : Nat := if d.blkCols then d.cols else d.rows
def Light.tableBytes (d : Light) : Nat := ceilDiv (d.tableRows * d.rowBytes) 128 * 128

/-- The first byte of the scale table of a panel image. -/
def Light.tableAt (d : Light) (addr stride : Nat) : Nat := addr + ceilDiv d.rows 16 * stride * 128

/-- The ranges of an X16 panel image (R303): its subtile rows, then its scale table. -/
def Light.panelRows (d : Light) (addr stride : Nat) : List Range :=
  (List.range (ceilDiv d.rows 16)).map (fun a => (addr + a * stride * 128, ceilDiv d.cols 4 * 128))
    ++ [(d.tableAt addr stride, d.tableBytes)]

/-- The byte of element (r, c) of an X16 panel image. -/
def x16At (addr stride r c : Nat) : Nat :=
  addr + ((r / 16) * stride + c / 4) * 128 + ((r % 16) * 4 + c % 4) * 2

/-- The source is an X16 panel image; the destination is one. -/
def Light.srcPanel (d : Light) : Bool := decide (d.op = 2) && decide (d.addFmt = 2)
def Light.dstPanel (d : Light) : Bool := decide (d.op = 3)

/-- What the descriptor reads, its index table left out, and what it writes where no index names the rows. -/
def Light.srcRanges (d : Light) : List Range :=
  if d.op = 4 ∨ d.op = 0 then []
  else if d.srcPanel then d.panelRows d.src d.srcStride
  else linearRows d.src d.srcStride d.sectors d.rows
def Light.dstRanges (d : Light) : List Range :=
  if d.op = 0 ∨ (d.op = 2 ∧ d.indexed) then []
  else if d.dstPanel then d.panelRows d.dst d.dstStride
  else linearRows d.dst d.dstStride d.sectors d.rows

/-! ## The second set of sum images (R442) -/

/-- A sum image of an excused step in late_region: the SETTLE that reads it, where its S64 copy stands, and where its X16
panel image. -/
structure LateImage where
  settle : Light
  kept   : Nat
  panel  : Nat
  deriving DecidableEq, Repr

/-- Bytes from the first to the last of the S64 image that a SETTLE reads. -/
def Light.sumBytes (d : Light) : Nat := ((d.rows - 1) * d.srcStride + d.sectors) * 32

/-- The images stand in late_region one behind the other, in the order of the program's SETTLEs, each a whole number of
128 bytes (log entry 78); none where late_region is not of the near tier, in which alone S64 images lie (Table 8.6). -/
def State.lateImages (s : State) (p : Nat) : List LateImage :=
  match (s.cfg? p).bind (fun c => c.program.regions[c.program.control.lateRegion]?) with
  | none => []
  | some r =>
    if spaceOf r.kind ≠ some .near then []
    else
      let step := fun (acc : Nat × List LateImage) (d : Light) =>
        if acc.2.any (fun x => decide (x.settle.src = d.src)) then acc
        else
          let panel := acc.1 + ceilDiv d.sumBytes 128 * 128
          (d.tableAt panel d.dstStride + d.tableBytes, acc.2 ++ [{ settle := d, kept := acc.1, panel := panel }])
      (((s.postedLights p).filter (fun d => decide (d.op = 3))).foldl step (r.lo, [])).2

/-- The partials of an excused step so far go to the second set of sum images, where the step's later ones are added
(R442). -/
def State.keepSums (s : State) (p : Nat) : State :=
  (s.lateImages p).foldl (fun s x =>
    (linearRows 0 x.settle.srcStride x.settle.sectors x.settle.rows).foldl (fun s r =>
      s.copyBytes .near (x.settle.src + r.1) .near (x.kept + r.1) r.2) s) s

/-! ## Checks (Table 8.7) -/

/-- A kind the op does not take (check 0x42). -/
def Light.kindBad (d : Light) : Bool :=
  match d.op with
  | 1 => decide (d.srcKind = 0) || decide (d.dstKind = 0)
  | 2 => !within 1 2 d.srcKind || decide (d.dstKind ≠ 1)
  | 3 => decide (d.srcKind ≠ 1) || !within 1 2 d.dstKind
  | _ => decide (d.srcKind ≠ 0) || decide (d.dstKind = 0)

/-- The first byte of a range that the partition's regions do not grant (check 0x44). -/
def State.rangeRefused (s : State) (p kind : Nat) (right : Right) (rs : List Range) : Option Nat :=
  match spaceOf kind with
  | none => none
  | some sp => (rs.find? (fun r => !s.mayAccess p true sp right r.1 r.2)).map (·.1)

def State.lightRefused (s : State) (p : Nat) (d : Light) : Option Nat :=
  match s.rangeRefused p d.srcKind .read d.srcRanges with
  | some x => some x
  | none =>
    match s.rangeRefused p d.dstKind (if d.op = 2 then .add else .write) d.dstRanges with
    | some x => some x
    | none =>
      if d.op = 2 ∧ d.indexed then s.rangeRefused p d.idxKind .read [(d.idx, 4 * d.rows)] else none

/-- The first failing check of Table 8.7, 0 for none, with the refused address of check 0x44. The codes are taken in ascending
order, and the conditions of 0x41 on idx_kind, of 0x45 and of 0x46 only where the op uses the field; idx itself need be no
multiple of 32 (DESIGN CHOICE, log entry 97). -/
def State.checkLight (s : State) (p : Nat) (cfg : PartCfg) (d : Light) : Nat × Option Nat :=
  let noBerth := d.notify && !s.berthOfPart d.done p
  if 4 < d.op then (0x41, none)
  else if d.op = 0 then (if noBerth then 0x47 else 0, none)
  else if 5 ≤ d.addFmt ∨ (d.op = 2 ∧ d.indexed ∧ !within 1 2 d.idxKind) then (0x41, none)
  else if d.kindBad then (0x42, none)
  else if (d.op ≠ 4 ∧ d.src % 32 ≠ 0) ∨ d.dst % 32 ≠ 0
      ∨ ((d.srcPanel ∨ d.dstPanel) ∧ (if d.blkCols then d.rows else d.cols) % 32 ≠ 0)
      ∨ (d.srcPanel ∧ d.indexed ∧ d.blkCols) then (0x43, none)
  else
    match s.lightRefused p d with
    | some x => (0x44, some x)
    | none =>
      if d.op = 2 ∧ within 3 4 d.addFmt ∧ cfg.policy.memsideFloat = 0 then (0x45, none)
      else if d.op = 3 ∧ d.round ∧ cfg.policy.stochRound = 0 then (0x46, none)
      else if noBerth then (0x47, none)
      else if d.op = 1 ∧ d.srcKind = d.dstKind
          ∧ d.srcRanges.any (fun a => d.dstRanges.any (fun b => !apart a.1 a.2 b.1 b.2)) then (0x48, none)
      else (0, none)

/-! ## Where a lighter works -/

/-- A lighter with the descriptor at its front: the lighter, its partition, and the descriptor's words, berth, item
sequence number and step. -/
structure Work where
  die   : Nat
  n     : Nat
  part  : Nat
  cfg   : PartCfg
  words : List Word
  berth : Nat
  seq   : DWord
  step  : DWord
  deriving DecidableEq, Repr

def Work.light (w : Work) : Light := Light.of w.words

/-- The way of the descriptor's accesses to the near tier (R297). -/
def Work.via (w : Work) : Via := { part := w.part, noAlloc := w.light.noAlloc }

/-- The lighter's identity (Table 9.3). -/
def Work.ident (w : Work) : Nat := idLighter w.die w.n

/-- The lighter halts with a code (R307, R308): its bit of MEM_LIGHTER_ERROR, MEM_LIGHTER_ERROR_INFO. -/
def State.haltLighter (s : State) (w : Work) (code : Nat) : State :=
  let s := s.modLighter w.die w.n (fun l => { l with halted := true })
  s.modMemDieAux w.die (fun a =>
    { a with lighterError := setBit a.lighterError w.n,
             lighterErrorInfo := BitVec.ofNat 32 (w.n + code * 16 + w.light.tag * 4096) })

/-- A refused descriptor (R307). -/
def State.refuseLight (s : State) (w : Work) (code : Nat) : State :=
  (s.haltLighter w code).raiseDie 0x900C (cdIndex w.die) none
    (natLe 1 w.die ++ natLe 1 w.n ++ natLe 1 code ++ natLe 2 w.light.tag)

/-- An uncorrectable read (R308). -/
def State.lightUe (s : State) (w : Work) : State :=
  let s := (s.haltLighter w 0x50).raiseDie 0x900D (cdIndex w.die) none
    (natLe 1 w.die ++ natLe 1 w.n ++ natLe 2 w.light.tag)
  s.rewind w.part 0x900D

/-- The contexts that hold a descriptor which reads a version halt in front of it (R275). -/
def State.haltReaders (s : State) (p : Nat) (block : Word) (tag : Byte) : State :=
  let reads := fun (e : Entry) => (s.seq p).posted.any (fun x =>
    decide (x.berth = e.berth) && decide (x.itemSeq = e.itemSeq) && x.reads.contains (block, tag))
  s.modContexts p (fun c =>
    match indexOf? reads c.window with
    | some i => { c with halted := true, runsOn := i }
    | none => c)

/-- An uncorrectable error in a stashed image (R275): the entry is marked lost, and event 0x9104. -/
def State.stashLost (s : State) (p addr : Nat) : State :=
  match (s.stash p).entries.find? (fun e =>
      decide (e.addr.toNat * 4096 ≤ addr) && decide (addr < (e.addr.toNat + e.size.toNat) * 4096)) with
  | none => s
  | some e =>
    let s := (s.modEntries p (fun x => if x.addr = e.addr then { x with lost := true } else x)).haltReaders p e.block e.tag
    s.raiseDie 0x9104 gwIndex (some p) (natLe 1 p ++ wordLe 4 e.block ++ natLe 1 e.tag.toNat)

/-- A COPY's uncorrectable read: of a stashed image, too (R275, R308). -/
def State.copyUe (s : State) (w : Work) : State :=
  let s := if w.light.srcKind = 3 then s.stashLost w.part w.light.src else s
  s.lightUe w

/-- A write-back POST posted the descriptor. -/
def State.writesBack (s : State) (w : Work) : Bool :=
  (s.seq w.part).posted.any (fun x => decide (x.berth = w.berth) && decide (x.itemSeq = w.seq) && x.writeBack)

/-- A descriptor that a write-back POST posted begins to write: the apply commit point (R422). -/
def State.commitPoint (s : State) (w : Work) : State :=
  if s.writesBack w then
    s.modPart w.part (fun x => { x with applyPassed := true })
  else s

/-- The lighter's front descriptor, taken from its intake when its queue is empty; a poisoned item halts it (R353). -/
def State.lighterFront (s : State) (die n : Nat) : Option Work × State :=
  let l := s.lighter die n
  match s.intakeOf (idLighter die n) with
  | none => (none, s)
  | some b =>
    let p := (s.berth b).front.partition
    match s.cfg? p with
    | none => (none, s)
    | some cfg =>
      let work := fun (x : List Word × Nat × DWord × DWord) =>
        ({ die := die, n := n, part := p, cfg := cfg, words := x.1, berth := x.2.1, seq := x.2.2.1,
           step := x.2.2.2 } : Work)
      match l.queue with
      | x :: _ => (some (work x), s)
      | [] =>
        match s.dequeue b with
        | (none, _) => (none, s)
        | (some it, s) =>
          if it.poisoned then
            (none, (s.modLighter die n (fun l => { l with halted := true })).rewind p 0x7005)
          else
            let x := (wordsOf 16 it.payload, b, it.seq, it.step)
            (some (work x), s.modLighter die n (fun l => { l with queue := [x] }))

/-- A descriptor is done: it leaves the queue, and its notice is posted (R304, R349). -/
def State.lightDone (s : State) (w : Work) (flags : Nat) : State :=
  let d := w.light
  let s := s.modLighter w.die w.n (fun l => { l with queue := l.queue.drop 1 })
  let s := s.descriptorDone w.part w.berth w.seq
  if d.notify then s.completionNotice d.done w.ident w.step d.tag 2 flags w.n w.die 0 else s

/-! ## Effects -/

/-- Reads the ranges; the outcome the command gives is met at the first sector (log entry 13). -/
def State.readRanges (s : State) (v : Via) (sp : Space) (requester : Nat) : ReadOutcome → List Range → Bool × State
  | _, [] => (true, s)
  | o, r :: rs =>
    let (ok, s) := s.readMem (some v) sp r.1 r.2 requester o
    if ok then State.readRanges s v sp requester .good rs else (false, s)

/-- The destination rows that an index table names, as it stands. -/
def State.indexedRows (s : State) (d : Light) : List Range :=
  match spaceOf d.idxKind with
  | some isp => (List.range d.rows).map (fun r =>
      (d.dst + leNat (s.bytes isp (d.idx + 4 * r) 4) * d.dstStride * 32, d.sectors * 32))
  | none => []

/-- Some byte that the descriptor reads or writes lies in a row locked for repair: its request waits (R322). -/
def State.lightLocked (s : State) (d : Light) : Bool :=
  let locked := fun (kind : Nat) (rs : List Range) =>
    (spaceOf kind).any (fun sp => rs.any (fun r => s.rowLocked sp r.1 r.2))
  locked d.srcKind d.srcRanges || locked d.dstKind d.dstRanges
    || (decide (d.op = 2) && d.indexed && (locked d.idxKind [(d.idx, 4 * d.rows)] || locked 1 (s.indexedRows d)))

/-- COPY, row by row (Table 8.6): whether every row was moved. -/
def State.lightCopy (w : Work) (sp dp : Space) : ReadOutcome → List (Range × Range) → State → Bool × State
  | _, [], s => (true, s)
  | o, (a, b) :: rest, s =>
    let (ok, s) := s.readMem (some w.via) sp a.1 a.2 w.ident o
    if ok then
      State.lightCopy w sp dp .good rest (((s.commitPoint w).touch w.via true dp b.1 b.2).copyBytes sp a.1 dp b.1 a.2)
    else (false, s)

/-- The invalid pattern of S64 (R311). -/
def s64Invalid : DWord := BitVec.ofNat 64 (2 ^ 63)

/-- What an X16 term does to an S64 element (R312): the element, whether the term was cut, and whether the element
became invalid. A term may be cut on its way to an element that is invalid already. -/
def s64Add (anchor : Int) (l : DWord) (scale : Nat) (m : Int) : DWord × Bool × Bool :=
  let e : Int := (scale : Int) - 142
  if scale = 255 ∨ magLe 1 (anchor + 8) m.natAbs e then (s64Invalid, false, decide (l ≠ s64Invalid))
  else
    let (k, lost) := cutTo (decide (m < 0)) m.natAbs e (anchor - 40)
    (if l = s64Invalid then l else l + BitVec.ofInt 64 k, lost, false)

/-- Bytes of an element of add formats 0, 1, 3 and 4 (Table 8.8). -/
def addSize (fmt : Nat) : Nat := if fmt = 1 then 8 else if fmt = 4 then 2 else 4

/-- One element of those adds. -/
def addElem (fmt a b : Nat) : Nat :=
  match fmt with
  | 0 => (a + b) % 2 ^ 32
  | 1 => (a + b) % 2 ^ 64
  | 3 => (encodeWide fmtF32 .nearest ((decodeWide fmtF32 a).add (decodeWide fmtF32 b))).1
  | _ => (encodeWide fmtB16 .nearest ((decodeWide fmtB16 a).add (decodeWide fmtB16 b))).1

/-- A row of those adds. -/
def addRow (fmt : Nat) (old new : Bytes) : Bytes :=
  let n := addSize fmt
  ((chunks n old).zip (chunks n new)).flatMap (fun ab => natLe n (addElem fmt (leNat ab.1) (leNat ab.2)))

/-- The scale of element (r, c) of an X16 source. -/
def Light.scaleOf (d : Light) (m : Cells) (r c : Nat) : Nat :=
  let (o, k) := if d.blkCols then (c, r) else (r, c)
  scaleByte m (d.tableAt d.src d.srcStride) d.rowBytes o (k / 32)

/-- A row of an X16 add: the new bytes, the cuts, and the elements made invalid. -/
def Light.x16Row (d : Light) (m : Cells) (r : Nat) (old : Bytes) : Bytes × Nat × Nat :=
  (List.range d.cols).foldl (fun (acc : Bytes × Nat × Nat) c =>
    let l := BitVec.ofNat 64 (leAt old (8 * c) 8)
    let e := signed 16 (leNat (m.read (x16At d.src d.srcStride r c) 2))
    let (l', cut, bad) := s64Add d.anchor l (d.scaleOf m r c) e
    (acc.1 ++ wordLe 8 l', acc.2.1 + b2n cut, acc.2.2 + b2n bad)) ([], 0, 0)

/-- How an ADD goes on. -/
structure AddRun where
  /-- Rows added. -/
  rows  : Nat
  cuts  : Nat
  bad   : Nat
  /-- 0 every row is added; else the code the lighter halts with. -/
  stop  : Nat
  deriving DecidableEq, Repr

/-- An adder's counts, in the registers of the stack it works on (Table 8.15). -/
def State.countAdds (s : State) (die sectors cuts bad : Nat) : State :=
  s.modMemDieAux die (fun a =>
    { a with addInexact := satAdd a.addInexact cuts, addInvalid := satAdd a.addInvalid bad,
             addSectors := satAdd a.addSectors sectors })

/-- One row of an ADD (R303, R309 to R312). The target's lines leave the cache (R298); its sectors are read, and written
back. -/
def State.addOne (w : Work) (d : Light) (sp : Space) (o : ReadOutcome) (r : Nat) (xs : AddRun × State) :
    AddRun × State :=
  let (x, s) := xs
  let (idxOk, s, row) := match d.indexed, spaceOf d.idxKind with
    | true, some isp =>
      let (ok, s) := s.readMem (some w.via) isp (d.idx + 4 * r) 4 w.ident .good
      (ok, s, leNat (s.bytes isp (d.idx + 4 * r) 4))
    | _, _ => (true, s, r)
  let dest := d.dst + row * d.dstStride * 32
  let n := d.sectors * 32
  if !idxOk then ({ x with stop := 0x50 }, s)
  else if d.indexed ∧ !s.mayAccess w.part true .near .add dest n then ({ x with stop := 0x49 }, s)
  else
    let srcRange : Range := if d.srcPanel then (d.src + (r / 16) * d.srcStride * 128, ceilDiv d.cols 4 * 128)
      else (d.src + r * d.srcStride * 32, n)
    let (ok, s) := s.readMem (some w.via) sp srcRange.1 srcRange.2 w.ident (if r = 0 then o else .good)
    let (ok2, s) := if ok then (s.yieldLines dest n).readMem none .near dest n w.ident .good else (false, s)
    if !ok || !ok2 then ({ x with stop := 0x50 }, s)
    else
      let old := s.bytes .near dest n
      let (new, cuts, bad) :=
        if d.addFmt = 2 then d.x16Row (s.mem.cells sp) r old
        else (addRow d.addFmt old (s.bytes sp srcRange.1 n), 0, 0)
      ({ x with rows := x.rows + 1, cuts := x.cuts + cuts, bad := x.bad + bad },
        ((s.commitPoint w).countAdds (Space.near.unit dest) d.sectors cuts bad).store .near dest new)

/-- Rows of an ADD until one stops it. -/
def State.addRows (w : Work) (d : Light) (sp : Space) (o : ReadOutcome) : List Nat → AddRun × State → AddRun × State
  | [], xs => xs
  | r :: rs, xs => if xs.1.stop ≠ 0 then xs else State.addRows w d sp o rs (State.addOne w d sp o r xs)

/-- The descriptor of an ADD: into the second set of sum images where its step was excused by late fold (R442). -/
def State.addLight (s : State) (w : Work) : Light :=
  let d := w.light
  if d.addFmt = 2 ∧ (s.log w.part).lateOrigin = some w.step then
    match (s.lateImages w.part).find? (fun x =>
        decide (x.settle.src ≤ d.dst) && decide (d.dst < x.settle.src + x.settle.sumBytes)) with
    | some x => { d with dst := x.kept + (d.dst - x.settle.src) }
    | none => d
  else d

/-- ADD: its rows, event 0x900E, and how it ends (R312). -/
def State.lightAdd (s : State) (w : Work) (sp : Space) (o : ReadOutcome) : State :=
  let d := s.addLight w
  let (tableOk, s) :=
    if d.srcPanel then s.readMem (some w.via) sp (d.tableAt d.src d.srcStride) d.tableBytes w.ident .good else (true, s)
  let (x, s) := if tableOk then State.addRows w d sp o (List.range d.rows) ({ rows := 0, cuts := 0, bad := 0, stop := 0 }, s)
    else ({ rows := 0, cuts := 0, bad := 0, stop := 0x50 }, s)
  let s := if x.bad ≠ 0 then
      s.raiseDie 0x900E (cdIndex w.die) none (natLe 1 w.die ++ natLe 1 w.n ++ natLe 2 d.tag ++ natLe 4 x.bad)
    else s
  if x.stop = 0 then s.lightDone w (flagAt (decide (x.cuts ≠ 0)) 0 + flagAt (decide (x.bad ≠ 0)) 1)
  else if x.stop = 0x50 then s.lightUe w
  else s.refuseLight w x.stop

/-- The value of an S64 element (R311): none where it is invalid. -/
def s64Val (anchor : Int) (l : DWord) : Val := if l = s64Invalid then .nan else Val.ofInt l.toInt (anchor - 40)

/-- One block of a SETTLE (R316): the place of element `i` is `place i`. -/
def Light.settleBlock (d : Light) (seed step : DWord) (src : Cells) (acc : Cells × Nat) (ob : Nat × Nat) :
    Cells × Nat :=
  let (o, b) := ob
  let place := fun i => if d.blkCols then (32 * b + i, o) else (o, 32 * b + i)
  let vals := (List.range 32).map (fun i =>
    let (r, c) := place i
    s64Val d.anchor (BitVec.ofNat 64 (leNat (src.read (d.src + r * d.srcStride * 32 + 8 * c) 8))))
  let (scale, k) := blockScale .x16 vals
  let m := acc.1.write (d.tableAt d.dst d.dstStride + o * d.rowBytes + b) [BitVec.ofNat 8 scale]
  let m := vals.zipIdx.foldl (fun (m : Cells) vi =>
    let (r, c) := place vi.2
    let mode := if d.round then
        Rnd.stoch (drawBits 16 seed d.stream step ((d.elemBase + r * d.sectors * 4 + c) % 2 ^ 64))
      else Rnd.nearest
    m.write (x16At d.dst d.dstStride r c) (natLe 2 (quantElem .x16 mode scale k vi.1).1)) m
  (m, if scale = 255 then acc.2 + 32 else acc.2)

/-- Settles an S64 image into an X16 panel image (R316), and counts its invalid blocks under source 1. -/
def State.settleInto (s : State) (w : Work) (d : Light) (dp : Space) : State :=
  let src := s.mem.near
  let s := s.commitPoint w
  let s := d.dstRanges.foldl (fun s r => s.touch w.via true dp r.1 r.2) s
  let s := s.clearBytes dp (d.tableAt d.dst d.dstStride) d.tableBytes
  let blocks := (if d.blkCols then d.rows else d.cols) / 32
  let obs := (List.range d.tableRows).flatMap (fun o => (List.range blocks).map (fun b => (o, b)))
  let (m, bad) := obs.foldl (d.settleBlock w.cfg.program.control.runSeed w.step src) (s.mem.cells dp, 0)
  let s := { s with mem := s.mem.setCells dp m }
  let s := d.dstRanges.foldl (fun s r => s.putCells dp r.1 r.2
    ((s.mem.cells dp).filter (fun c => decide (r.1 ≤ c.1) && decide (c.1 < r.1 + r.2)))) s
  s.countNonfinite w.part 1 bad

/-- SETTLE (R316). -/
def State.lightSettle (s : State) (w : Work) (dp : Space) (o : ReadOutcome) : State :=
  let (ok, s) := s.readRanges w.via .near w.ident o w.light.srcRanges
  if ok then (s.settleInto w w.light dp).lightDone w 0 else s.lightUe w

/-! ## The commands -/

/-- The lighter starts its front descriptor when it is of the given op (R304, R307); an access to a row locked for repair
waits (R322). A write-back of a layer whose bound is 0 leaves the masters and moments as they are (R190); its tile_tag names
the layer, as in event 0xB014. -/
def State.lighterRun (s : State) (die n op : Nat) (k : State → Work → State) : State :=
  if !s.dieUp die ∨ (s.lighter die n).halted then s
  else
    match s.lighterFront die n with
    | (none, s) => s
    | (some w, s') =>
      let s' := s'.amendCheck
      if w.light.op ≠ op ∧ (op ≠ 0 ∨ w.light.op ≤ 4) ∨ (s.run w.part).held then s
      else
        match s'.checkLight w.part w.cfg w.light with
        | (0, _) =>
          if s.lightLocked w.light then s
          else if op ≠ 0 ∧ s'.writesBack w ∧ s'.layerStill w.part w.light.tag then s'.lightDone w 0
          else k s' w
        | (code, refused) =>
          let s := match refused with
            | some addr => s'.regionFault w.die w.part w.ident addr
            | none => s'
          let s := if code = 0x45 then { s with mem := { s.mem with addRefused := satAdd s.mem.addRefused 1 } } else s
          s.refuseLight w code

/-- RESUME: on at the descriptor after the one the lighter halted on (R308). -/
def State.lighterResume (s : State) (die n : Nat) : State :=
  s.modLighter die n (fun l => if l.halted then { l with halted := false, queue := l.queue.drop 1 } else l)

/-- FLUSH: the lighter's queue is emptied (R308). -/
def State.lighterFlush (s : State) (die n : Nat) : State := s.modLighter die n (fun l => { l with queue := [] })

/-- MEM_LIGHTER_CONTROL of a die (Table 8.15). -/
def memLighterControl (die : Nat) : Nat := 0x20010000 + die * 0x1000 + 0x068

/-- LIGHTER_NOP (R307): also the refusal of a reserved op. -/
def execLighterNop (die : BitVec 3) (n : BitVec 4) (s : State) : Out :=
  .next (s.lighterRun die.toNat n.toNat 0 (fun s w => s.lightDone w 0))

/-- LIGHTER_COPY (R303). -/
def execLighterCopy (die : BitVec 3) (n : BitVec 4) (o : ReadOutcome) (s : State) : Out :=
  .next (s.lighterRun die.toNat n.toNat 1 (fun s w =>
    let d := w.light
    match spaceOf d.srcKind, spaceOf d.dstKind with
    | some sp, some dp =>
      let (ok, s) := State.lightCopy w sp dp o (d.srcRanges.zip d.dstRanges) s
      if ok then s.lightDone w 0 else s.copyUe w
    | _, _ => s))

/-- LIGHTER_ADD (R312). -/
def execLighterAdd (die : BitVec 3) (n : BitVec 4) (o : ReadOutcome) (s : State) : Out :=
  .next (s.lighterRun die.toNat n.toNat 2 (fun s w =>
    match spaceOf w.light.srcKind with
    | some sp => s.lightAdd w sp o
    | none => s))

/-- LIGHTER_SETTLE (R316). -/
def execLighterSettle (die : BitVec 3) (n : BitVec 4) (o : ReadOutcome) (s : State) : Out :=
  .next (s.lighterRun die.toNat n.toNat 3 (fun s w =>
    match spaceOf w.light.dstKind with
    | some dp => s.lightSettle w dp o
    | none => s))

/-- LIGHTER_CLEAR (R303). -/
def execLighterClear (die : BitVec 3) (n : BitVec 4) (s : State) : Out :=
  .next (s.lighterRun die.toNat n.toNat 4 (fun s w =>
    let d := w.light
    match spaceOf d.dstKind with
    | some dp =>
      (d.dstRanges.foldl (fun s r => (s.touch w.via true dp r.1 r.2).clearBytes dp r.1 r.2) (s.commitPoint w)).lightDone w 0
    | none => s))

/-- LIGHTER_RESUME (R308): a write of MEM_LIGHTER_CONTROL. -/
def execLighterResume (die : BitVec 3) (n : BitVec 4) (s : State) : Out :=
  .next (s.guardWrite (.lighterResume die n) (readyCompute die.toNat) (memLighterControl die.toNat) (fun s => s.lighterResume die.toNat n.toNat))

/-- LIGHTER_FLUSH (R308): a write of MEM_LIGHTER_CONTROL. -/
def execLighterFlush (die : BitVec 3) (n : BitVec 4) (s : State) : Out :=
  .next (s.guardWrite (.lighterFlush die n) (readyCompute die.toNat) (memLighterControl die.toNat) (fun s => s.lighterFlush die.toNat n.toNat))

end Sys2Proof.Machine
end

