-- ==== Sys2Proof/Machine/Wharf.lean ====
section
/-!
DEFINITION. The commands of the berths (R336, R346, R354): a write, a dequeue by the berth's consumer, a flush.
-/

namespace Sys2Proof.Machine

/-- The first register of a berth's window (R355). -/
def berthBase (n : Nat) : Nat := 0x01000000 + n * 64

/-- The resident slot and the physical cluster of a context's identity. -/
def State.placeOf (s : State) (id : Nat) : Option (ClusterId × BitVec 1) :=
  let die := id / 2048
  match s.physOf die ((id / 8) % 256) with
  | none => none
  | some phys =>
    match (s.cluster die phys).ctxs.find? (fun x => decide (x.id = id % 8) && x.resident) with
    | some x => some ({ die := BitVec.ofNat 3 die, phys := BitVec.ofNat 8 phys }, x.slot)
    | none => none

/-- A context takes the oldest item of its intake: the pilot a tile, the vector engine the rest (R348, R211). -/
def State.contextTakes (s : State) (n id : Nat) : State :=
  match s.placeOf id, s.headItem n with
  | some (c, slot), some it => if it.cls = 1 then s.pilotAdmit c slot else s.vectorAdmit c slot
  | _, _ => s

/-- A running lighter takes the oldest item of its intake into its queue (R301, R348). -/
def State.lighterTakes (s : State) (n id : Nat) : State :=
  let die := (id / 256) % 64 - 6
  let l := id % 256
  let p := (s.berth n).front.partition
  if !s.dieUp die ∨ (s.lighter die l).halted ∨ (s.run p).held then s
  else
    match s.dequeue n with
    | (none, _) => s
    | (some it, s) =>
      if it.poisoned then (s.modLighter die l (fun x => { x with halted := true })).rewind p 0x7005
      else s.modLighter die l (fun x => { x with queue := x.queue ++ [(wordsOf 16 it.payload, n, it.seq, it.step)] })

/-- The step sequencer keeps a completion notice of the step in progress until a WAIT takes it (Tables 9.4, 12.3). -/
def State.noteNotice (s : State) (p n : Nat) (it : Item) : State :=
  if it.cls = 4 ∧ it.step = (s.part p).step then
    s.modSeq p (fun q => { q with notices := q.notices ++ [(n, leAt it.payload 0 2 % 16384)] })
  else s

/-- A unit of the spine takes the oldest item. A poisoned one halts it unless the berth is marked-drop (R353). -/
def State.unitTakes (s : State) (n id : Nat) : State :=
  let c := (s.berth n).front
  match s.dequeue n with
  | (none, _) => s
  | (some it, s) =>
    if it.poisoned then (if c.kindOf = kindMarked then s else s.rewind c.partition 0x7005)
    else if id = idSequencer then s.noteNotice c.partition n it
    else s

/-- BERTH_DEQUEUE: the consumer of a berth takes its oldest item (R346), under the descriptor of that item (R76). A host session takes its items with
BERTH_TAKE alone (R408). -/
def State.berthTurn (s : State) (n : Nat) : State :=
  let c := (s.berth n).front
  let id := c.consumerId
  if !s.gatewayUp ∨ c.kindOf = 0 ∨ isSession id then s
  else if isContext id then s.contextTakes n id
  else if isLighterId id then s.lighterTakes n id
  else s.unitTakes n id

/-- BERTH_WRITE (R336): the message enters the berth, is refused, is dropped, or waits; an item for a saved context may
start a swap (R121). -/
def execBerthWrite (berth : BitVec 14) (msg : BerthMsg) (s : State) : Out :=
  .next (if s.gatewayUp then (s.berthWrite none berth.toNat msg).2.intakeFilled berth.toNat else s)

/-- BERTH_DEQUEUE (R346). -/
def execBerthDequeue (berth : BitVec 14) (s : State) : Out := .next (s.berthTurn berth.toNat).amendCheck

/-- BERTH_FLUSH (R354): a write of BTH_CONTROL with its key. -/
def execBerthFlush (berth : BitVec 14) (s : State) : Out :=
  .next (s.guardWrite (.berthFlush berth) readyGateway (berthBase berth.toNat + 0x1C) (fun s => (s.flushBerth berth.toNat).amendCheck))

end Sys2Proof.Machine
end

