-- ==== Sys2Proof/Machine/Detect.lean ====
section
/-!
DEFINITION. Detection (R191 to R203): the job's loss, the spike test, the action a verdict takes, the detection record
and its events.
-/

namespace Sys2Proof.Machine

/-! ## F32 on codes, rounded to nearest, ties to even -/

def f32Val (c : Word) : Val := decodeWide fmtF32 c.toNat
def f32Code (v : Val) : Word := BitVec.ofNat 32 (encodeWide fmtF32 .nearest v).1
def f32Add (a b : Word) : Word := f32Code ((f32Val a).add (f32Val b))
def f32Sub (a b : Word) : Word := f32Code ((f32Val a).add (f32Val b).neg)
def f32Mul (a b : Word) : Word := f32Code ((f32Val a).mul (f32Val b))
def f32Div (a b : Word) : Word := BitVec.ofNat 32 ((divRaw (f32Val a) (f32Val b)).round fmtF32 .nearest).1
def f32Gt (a b : Word) : Bool := decide (Val.cmp (f32Val a) (f32Val b) = some .gt)
def f32Finite (a : Word) : Bool := !(f32Val a).special

/-! ## The loss (R192) -/

/-- The anchor at which a total reads as a result: that of the LSUM that formed both. -/
def anchorOfTotal (total : BitVec 128) (result : Word) : Option Int :=
  ((List.range 1024).find? (fun (i : Nat) => decide (f32Code (longVal total ((i : Int) - 512)) = result))).map
    (fun (i : Nat) => (i : Int) - 512)

/-- The job's total as an F32 loss: this device's own result where the total is its own; NaN where it is invalid; else
read at the anchor of this device's record, which a total of 0 does not show (log entry 15). -/
def State.jobLoss (s : State) (own : BitVec 128) (result : Word) (total : BitVec 128) : Word × State :=
  if total = longInvalid then (f32Code .nan, s)
  else if total = own then (result, s)
  else
    match (if own = 0 then none else anchorOfTotal own result) with
    | some a => (f32Code (longVal total a), s)
    | none =>
      let (v, s) := s.draw
      (BitVec.ofNat 32 v, s)

/-- The loss of the step is written; a second write replaces the first (R192). -/
def State.writeLoss (s : State) (p : Nat) (loss : Word) : State :=
  let s := s.modDet p (fun d => { d with loss := some loss })
  if f32Finite loss then s else s.countNonfinite p 6 1

/-! ## The spike test and the verdict (R193, R195, R196) -/

/-- The spike test: none where it does not run. -/
def Detector.spike (d : Detector) (ratio : Nat) : Option Bool :=
  match d.loss with
  | none => none
  | some l =>
    if f32Finite l ∧ d.seen ≠ 0 ∧ f32Gt d.mean 0 then
      some (f32Gt l (f32Mul (f32Code (Val.ofInt ratio (-8))) d.mean))
    else none

/-- The action of a policy code (Table 5.6). -/
def actionOf : Nat → Action
  | 0 => .halt
  | 1 => .skip
  | _ => .report

/-- The code of an action in the verdict byte (Table 5.7), also its rank. -/
def Action.code : Action → Nat
  | .none => 0
  | .report => 1
  | .skip => 2
  | .halt => 3

def Action.stronger (a b : Action) : Action := if a.code < b.code then b else a

/-- The action that the job's flags take (R196). -/
def Policy.verdict (p : Policy) (nonfinite spike : Bool) : Action :=
  (if nonfinite then actionOf p.nonfiniteAction else .none).stronger (if spike then actionOf p.spikeAction else .none)

/-! ## The detection record (R194, R201) -/

/-- The apply pass wrote a non-finite value (R197). -/
def Detector.applyHalt (d : Detector) : Bool := bit d.mask 5

/-- The verdict byte. -/
def verdictByte (q : Sequencer) (d : Detector) : Nat :=
  (q.verdict.getD .none).code + flagAt q.jobNonfinite 2 + flagAt q.jobSpike 3 + flagAt q.spikeNotRun 4
    + flagAt d.applyHalt 5 + flagAt d.loss.isSome 6

/-- m and c take in the step's loss (R194). -/
def Detector.takeLoss (d : Detector) (window : Nat) : Detector :=
  match d.loss with
  | none => d
  | some l =>
    if !f32Finite l then d
    else
      let c := satAdd d.seen 1
      let n := f32Code (Val.ofInt ((min c.toNat window : Nat) : Int) 0)
      { d with seen := c, mean := f32Add d.mean (f32Div (f32Sub l d.mean) n) }

/-- The record's 32 bytes (Table 5.7). -/
def detectionBytes (step : DWord) (q : Sequencer) (d : Detector) : Bytes :=
  wordLe 8 step ++ wordLe 4 d.count ++ natLe 1 d.mask.toNat ++ natLe 1 (verdictByte q d) ++ zeros 2
    ++ wordLe 4 (d.loss.getD 0) ++ wordLe 4 d.mean ++ wordLe 4 d.seen ++ zeros 4

/-- An event of the NUM block about a step (R203), from the Gateway's step sequencer. -/
def State.raiseStep (s : State) (code p : Nat) (more : Bytes) : State :=
  s.raiseDie code gwIndex (some p) (natLe 1 p ++ wordLe 8 (s.part p).step ++ more)

/-- The cause and the mode that a step ends with; 0 for none. -/
def Sequencer.cause (q : Sequencer) : Nat := (q.pendingHalt.map (fun h => h.1.toNat)).getD 0
def Sequencer.mode (q : Sequencer) : Nat := (q.pendingHalt.map (fun h => h.2.toNat)).getD 2

/-- The step halts: its pending halt does not leave it closed (R428). -/
def Sequencer.halts (q : Sequencer) : Bool := decide (q.cause ≠ 0) && !closesStep q.cause q.mode

/-- The step is skipped by its verdict (R198). -/
def Sequencer.skips (q : Sequencer) : Bool := !q.halts && decide (q.verdict = some .skip)

/-- Action 1 of slack water: m and c, the record, its events (Table 12.8, R194, R203). The mean of 0xB011 is the one that the
spike test used, before the step's loss is taken in (DESIGN CHOICE, log entry 93). -/
def State.detection (s : State) (p : Nat) : State :=
  let window := match s.cfg? p with
    | some c => max 1 c.policy.spikeWindow
    | none => 1
  let q := s.seq p
  let d0 := s.det p
  let d := if q.halts || q.skips then d0 else d0.takeLoss window
  let s := s.modDet p (fun _ => d)
  let rec_ := detectionBytes (s.part p).step q d
  let s := (s.modPart p (fun x => { x with detect := rec_ })).addRecord p recDetection rec_
  let vb := natLe 1 (verdictByte q d)
  let s := if d.count ≠ 0 then s.raiseStep 0xB010 p (wordLe 4 d.count ++ natLe 1 d.mask.toNat) else s
  let s := if q.jobSpike then s.raiseStep 0xB011 p (wordLe 4 (d.loss.getD 0) ++ wordLe 4 d0.mean) else s
  let s := if q.skips then s.raiseStep 0xB012 p vb else s
  let s := if q.verdict = some .halt then s.raiseStep 0xB013 p vb else s
  let s := if d.applyHalt then s.raiseStep 0xB014 p (wordLe 2 (d.applyTag.getD 0)) else s
  if q.spikeNotRun then s.raiseStep 0xB015 p vb else s

end Sys2Proof.Machine
end

