-- ==== Sys2Proof/Machine/Features.lean ====
section
/-!
DEFINITION. SIDE pins, Harbourmaster timers and Yard buffers, and the precedence among their features (R535, R536).
-/

namespace Sys2Proof.Machine

/-- Feature codes of Table 15.6. -/
def featContextSave : Nat := 0x01
def featFillStaging : Nat := 0x02
def featLeakIn : Nat := 0x10
def featStepMark : Nat := 0x11
def featHaltOut : Nat := 0x12
def featFillOut : Nat := 0x13
def featTimerOut : Nat := 0x14
def featTelemetry : Nat := 0x20

/-- The rank of a feature's class: protection, recovery, training, telemetry. -/
def featureRank : Nat → Nat
  | 0x10 => 3
  | 0x02 => 2
  | 0x13 => 2
  | 0x01 => 1
  | 0x11 => 1
  | 0x12 => 1
  | _ => 0

/-- Features that take a SIDE pin, and those that take a timer. -/
def sideFeature (f : Nat) : Bool := within 0x10 0x14 f
def timerFeature (f : Nat) : Bool := decide (f = featTimerOut) || decide (f = featTelemetry)

/-- A conflict is recorded in HM_CONFLICT and reported (R536). -/
def State.conflict (s : State) (kind index loser holder : Nat) : State :=
  let w : Word := BitVec.ofNat 32 (kind + index * 4 + loser * 256 + holder * 65536)
  { s with hmAux := { s.hmAux with conflict := w } }.raiseHm 0x0008 none (wordLe 4 w)

/-! ## SIDE pins (Table 15.10) -/

/-- Writable bits of HM_SIDE_CFGn. -/
def sideMask : Word := 0x000FFFFF

def sideActive (w : Word) : Bool := bit w 24
def sideFeatureOf (w : Word) : Nat := bits w 7 0
def sideOwner (w : Word) : Nat := bits w 15 8

/-- A pin is asked for by a write or a claim: started, released, or refused (R536). The holder's registers and the
requester's are one register, so a feature stopped and a feature refused both show as its conflict bit. -/
def State.requestSide (s : State) (n : Nat) (w : Word) : State :=
  let w := w &&& sideMask
  let f := sideFeatureOf w
  let old := s.side n
  let held := sideFeatureOf old
  if f = 0 then s.modSide n (fun _ => w)
  else if !sideFeature f then s
  else if !sideActive old ∨ held = f then s.modSide n (fun _ => setBit w 24)
  else if featureRank held < featureRank f then
    (s.modSide n (fun _ => setBit (setBit w 24) 25)).conflict 1 n held f
  else (s.modSide n (fun o => setBit o 25)).conflict 1 n f held

/-- A 1 µs pulse on an output pin. -/
def State.pulse (s : State) (n : Nat) : State :=
  { s with hmAux := { s.hmAux with pulses := s.hmAux.pulses.modify (fun _ => 0) n (· + 1) } }

/-- STEP_MARK at a slack-water close of a partition (R535). -/
def State.stepMark (s : State) (p : Nat) : State :=
  (List.range 8).foldl (fun s n =>
    let w := s.side n
    if sideActive w ∧ sideFeatureOf w = featStepMark ∧ sideOwner w = p then s.pulse n else s) s

/-! ## Timers (Table 15.11) -/

/-- Writable bits of HM_TIMERt_CFG. -/
def timerMask : Word := 0x0003FFFF

/-- A timer is started, stopped or refused (R536). -/
def State.requestTimer (s : State) (t : Nat) (w : Word) : State :=
  let w := w &&& timerMask
  let f := bits w 7 0
  let old := (s.timer t).cfg
  let held := bits old 7 0
  let start := fun (x : Timer) => { x with cfg := setBit w 18, count := x.period }
  if !bit w 17 then s.modTimer t (fun x => { x with cfg := w })
  else if !timerFeature f then s
  else if !bit old 18 ∨ held = f then s.modTimer t start
  else if featureRank held < featureRank f then
    (s.modTimer t (fun x => let y := start x; { y with cfg := setBit y.cfg 19 })).conflict 2 t held f
  else (s.modTimer t (fun x => { x with cfg := setBit x.cfg 19 })).conflict 2 t f held

/-! ## Claims (R55, R536) -/

/-- A claimed feature starts at commit. -/
def State.startClaim (s : State) (c : ClaimRec) : State :=
  match c.kind with
  | 1 => s.requestSide c.index (BitVec.ofNat 32 (c.feature + c.owner * 256))
  | 2 => s.requestTimer c.index (BitVec.ofNat 32 (c.feature + c.owner * 256 + 2 ^ 16 + 2 ^ 17))
  | _ =>
    let rest := s.hmAux.yardBufs.filter
      (fun b => !(decide (b.index = c.index) && !apart b.bufOff b.bufSize c.bufOff c.bufSize))
    { s with hmAux := { s.hmAux with yardBufs := rest ++ [c] } }

/-- Claims of an earlier Manifest that this one does not make are stopped (R66: the previous Manifest is discarded). -/
def State.dropClaims (s : State) (old new : List ClaimRec) : State :=
  let gone := old.filter (fun c => !new.contains c)
  gone.foldl (fun s c =>
    match c.kind with
    | 1 => if sideFeatureOf (s.side c.index) = c.feature then s.modSide c.index (fun w => clearBit w 24) else s
    | 2 => if bits (s.timer c.index).cfg 7 0 = c.feature then
        s.modTimer c.index (fun x => { x with cfg := clearBit x.cfg 18 }) else s
    | _ => { s with hmAux := { s.hmAux with yardBufs := s.hmAux.yardBufs.filter (fun b => decide (b ≠ c)) } }) s

/-! ## Calibration items (R532) -/

/-- One hour of local time. -/
def ticks1h : Nat := 360000000000

/-- A user calibration item was written within the hour. -/
def State.calibrated (s : State) (item : Nat) : Bool :=
  s.hmAux.calItems.any (fun e => decide (e.1 = item) && decide (s.hm.time.toNat < e.2.toNat + ticks1h))

/-- A user calibration item is written, at most once an hour (R532). -/
def State.calibrate (s : State) (item : Nat) : State :=
  let a := s.hmAux
  let now := s.hm.time
  if s.calibrated item then s
  else
    let items := a.calItems.filter (fun e => decide (e.1 ≠ item)) ++ [(item, now)]
    { s with hmAux := { a with calItems := items, calWrites := min (a.calWrites + 1) 255, userLayer := true } }.raiseHm
      0x0009 none (natLe 1 (Config.openCode 7 item))

/-! ## The power profile (R465) -/

/-- Entries of the profile. -/
def profileCapacity : Nat := 4096

/-- The entries that a full commit assigns to the partitions, ascending: the first of each, and how many. What a later
amendment adds to a BODY gets none of its own (DESIGN CHOICE, log entry 110). -/
def profileMap : Nat → List (Nat × Nat) → Sparse (Nat × Nat)
  | _, [] => []
  | at_, x :: xs => (x.1, (at_, x.2)) :: profileMap (at_ + x.2) xs

/-- The profile entry of BODY instruction `pc` of a partition, in BODY order; what exceeds the capacity shares the partition's
last entry. -/
def State.profileEntry (s : State) (p pc : Nat) : Nat :=
  let x := s.ptAux.profileAt.get (fun _ => (0, 0)) p
  min (x.1 + min pc (x.2 - 1)) (profileCapacity - 1)

/-- The entries of a partition. -/
def State.profileEntries (s : State) (p : Nat) : List Nat :=
  match s.cfg? p with
  | some c => (List.range c.program.body.length).map (s.profileEntry p)
  | none => []

/-- Every entry of a partition is unlearned. -/
def State.unlearn (s : State) (p : Nat) : State :=
  let mine := s.profileEntries p
  { s with ptAux := { s.ptAux with profiles := s.ptAux.profiles.filter (fun e => !mine.contains e.1) } }

end Sys2Proof.Machine
end

