-- ==== Sys2Proof/Machine/Stash.lean ====
section
/-!
DEFINITION. Weight versions and the version stash (R263 to R278).
-/

namespace Sys2Proof.Machine

/-- An event of the stash (R278): its payload begins with the partition. -/
def State.raiseStash (s : State) (code p : Nat) (more : Bytes) : State :=
  s.raiseDie code gwIndex (some p) (natLe 1 p ++ more)

/-- The pages that the records take at most: three entries a block (R265). -/
def StepProgram.recordPages (g : StepProgram) : Nat := ceilDiv (3 * g.blocks.length * 32) 4096

/-- The block waits (R268): counted, and reported, once a step for each reason. -/
def State.stashWaits (s : State) (p : Nat) (v : Version) (space : Bool) : State :=
  let st := s.stash p
  let now := s.hm.time
  let since := ((st.waits.find? (fun w => decide (w.block = v.block))).map (·.since)).getD now
  let s := s.modStash p (fun st =>
    { st with waits := st.waits.filter (fun w => decide (w.block ≠ v.block)) ++ [{ block := v.block, space := space, since := since }] })
  if st.waited.contains (v.block, space) then s
  else
    let s := s.modStash p (fun st =>
      { st with waited := st.waited ++ [(v.block, space)], versionWaits := satAdd st.versionWaits (b2n (!space)),
                spaceWaits := satAdd st.spaceWaits (b2n space) })
    let pay := wordLe 4 v.block ++ wordLe 8 (s.part p).step
    if space then s.raiseStash 0x9102 p (pay ++ natLe 4 st.used)
    else s.raiseStash 0x9101 p (pay ++ natLe 1 v.tag.toNat)

/-! ## Readers (R266) -/

/-- The forward pass of a micro-batch binds its readers to the current versions, once (R266). -/
def State.bindReaders (s : State) (p mb : Nat) : State :=
  match s.program? p with
  | none => s
  | some g =>
    let step := (s.part p).step
    s.modStash p (fun st => g.blocks.foldl (fun (st : Stash) b =>
      let blk := BitVec.ofNat 32 b.block
      let m := BitVec.ofNat 16 mb
      if st.bound.any (fun x => decide (x.block = blk) && decide (x.step = step) && decide (x.mb = m)) then st
      else
        let v := st.version blk
        let st := st.setVersion { v with readers := satAdd v.readers b.readers }
        { st with bound := st.bound ++ [{ block := blk, step := step, mb := m, tag := v.tag,
                                          readers := BitVec.ofNat 16 b.readers, lastTag := BitVec.ofNat 16 b.lastTag }] }) st)

/-- `n` readers of a version of a block have completed; whether its count would have gone below 0. -/
def State.subtractReaders (s : State) (p : Nat) (block : Word) (tag : Byte) (n : Nat) : Bool × State :=
  let take := fun (r : Half) => BitVec.ofNat 16 (r.toNat - n)
  let st := s.stash p
  let v := st.version block
  if v.tag = tag then
    (decide (v.readers.toNat < n), s.modStash p (fun st => st.setVersion { v with readers := take v.readers }))
  else
    let mine := fun (e : StashEntry) => decide (e.block = block) && decide (e.tag = tag)
    (!st.entries.any (fun e => mine e && decide (n ≤ e.readers.toNat)),
      (s.modEntries p (fun e => if mine e then { e with readers := take e.readers } else e)).releaseStash p)

/-- The tag of the version that was current in a step: of those that are live, the newest written before it. -/
def Stash.tagAt (st : Stash) (block : Word) (step : DWord) : Byte :=
  let v := st.version block
  let age := fun (o : DWord) => if o = BitVec.allOnes 64 then 0 else o.toNat + 1
  let older := (st.entries.filter (fun e => decide (e.block = block))).map (fun e => (age e.stepOrigin, e.tag))
  let mine := (older ++ [(age v.stepOrigin, v.tag)]).filter (fun x => decide (x.1 ≤ step.toNat))
  ((mine.foldl (fun (a : Option (Nat × Byte)) x => if (a.map (·.1)).getD 0 ≤ x.1 then some x else a) none).map (·.2)).getD v.tag

/-- LAST_TILE_NOTICE: the notice of the last declared tile of a micro-batch (R266). The readers that its forward pass
bound are subtracted, as the program of that step declared them (R274); of a micro-batch with none bound, what the present
program declares, of the version of that step. A count that would go below 0 stays 0 (R275). -/
def State.lastTile (s : State) (p : Nat) (block : Word) (mb : Half) (step : DWord) : State :=
  let mine := fun (x : Bound) => decide (x.block = block) && decide (x.step = step) && decide (x.mb = mb)
  let known := match (s.stash p).bound.find? mine, s.blockOf p block with
    | some x, _ => some (x.tag, x.readers.toNat, x.lastTag)
    | none, some b => some ((s.stash p).tagAt block step, b.readers, BitVec.ofNat 16 b.lastTag)
    | none, none => none
  match known with
  | none => s
  | some (tag, n, lastTag) =>
    let s := s.modStash p (fun st => { st with bound := st.bound.filter (fun x => !mine x) })
    let (below, s) := s.subtractReaders p block tag n
    if below then s.raiseStash 0x9105 p (wordLe 4 block ++ [tag] ++ wordLe 2 lastTag) else s

/-- A drop subtracts the readers of the step's micro-batches as if they had completed (R266). -/
def State.dropReaders (s : State) (p : Nat) (step : DWord) : State :=
  let gone := (s.stash p).bound.filter (fun x => decide (x.step = step))
  let s := s.modStash p (fun st => { st with bound := st.bound.filter (fun x => decide (x.step ≠ step)) })
  gone.foldl (fun s x => (s.subtractReaders p x.block x.tag x.readers.toNat).2) s

/-! ## The apply pass of a block (R267 to R269) -/

/-- The new version of a block (R264). -/
def Version.next (v : Version) (step : DWord) : Version :=
  { v with tag := v.tag + 1, readers := 0, stepOrigin := step, copying := false, prevOrigin := v.stepOrigin }

/-- The apply pass of the step makes a new version, in the layout of the present program (R264, R274). -/
def State.newVersion (s : State) (p : Nat) (b : WeightBlock) (v : Version) : State :=
  let n := v.next (s.part p).step
  let place := ((s.program? p).bind (fun g => g.blockRange b)).map (fun r =>
    ({ block := v.block, tag := n.tag, kind := r.1.code, addr := r.2.1, size := r.2.2, staged := none } : VersionPlace))
  s.modStash p (fun st =>
    let st := { st.setVersion n with places := st.places.filter (fun x =>
      !(decide (x.block = n.block) && decide (x.tag = n.tag))) ++ place.toList }
    if st.entries.any (fun e => decide (e.block = v.block) && decide (e.tag = v.tag)) then st
    else { st with places := st.places.filter (fun x => !(decide (x.block = v.block) && decide (x.tag = v.tag))) })

/-- Before the apply pass of the step writes a block (R267, R268): whether it may write now. -/
def State.applyBlock (s : State) (p : Nat) (b : WeightBlock) : Bool × State :=
  let step := (s.part p).step
  let blk := BitVec.ofNat 32 b.block
  let s := s.releaseStash p
  let st := s.stash p
  let v := st.version blk
  if v.stepOrigin = step then (true, s)
  else if v.copying then (false, s)
  else if v.readers = 0 then
    (true, (s.modStash p (fun st => st.endWait blk s.hm.time)).newVersion p b v)
  else if st.full blk then (false, s.stashWaits p v false)
  else if s.noRoom p b then (false, s.stashWaits p v true)
  else (false, s.modStash p (fun st => (st.endWait blk s.hm.time).setVersion { v with copying := true }))

/-- Some lapse of pages from `at_` that no entry takes (first fit; log entry 14). -/
def freePage : Nat → List StashEntry → Nat → Nat → Nat
  | 0, _, _, a => a
  | fuel + 1, es, n, a =>
    match es.find? (fun e => !apart a n e.addr.toNat e.size.toNat) with
    | some e => freePage fuel es n (e.addr.toNat + e.size.toNat)
    | none => a

/-! ## Staging (R270, R272) -/

/-- What a descriptor of a class reads and writes in the memories: 3 of a lighter, 1 a tile. -/
def imageWrites (cls : Nat) (ws : List Word) : List (Space × Range) :=
  if cls = 3 then
    let d := Light.of ws
    (match spaceOf d.dstKind with
      | some sp => d.dstRanges.map (fun r => (sp, r))
      | none => [])
  else if cls = 1 then
    let t := Tile.of ws
    (match spaceOf t.oKind with
      | some sp => if t.op = 1 then t.imageO.map (fun x => (sp, t.oDst + x.1, x.2.2 * 128)) else []
      | none => [])
  else []
def imageReads (cls : Nat) (ws : List Word) : List (Space × Range) :=
  if cls = 3 then
    let d := Light.of ws
    (match spaceOf d.srcKind with
      | some sp => d.srcRanges.map (fun r => (sp, r))
      | none => []) ++ (if d.op = 2 ∧ d.indexed then
        match spaceOf d.idxKind with
        | some sp => [(sp, d.idx, 4 * d.rows)]
        | none => []
      else [])
  else if cls = 1 then
    let t := Tile.of ws
    if t.op ≠ 1 then []
    else [TileOperand.p, .q].flatMap (fun o =>
      match spaceOf (t.kind o) with
      | some sp => (t.image o).map (fun x => (sp, t.src o + x.1, x.2.2 * 128))
      | none => [])
  else []

/-- The class that images have in a berth (Table 9.2): 3 for a lighter, else 1 for tiles, 2 with flags [3] (log entry
16). -/
def postClass (c : BerthCfg) (flags : Nat) : Nat := if isLighterId c.consumerId then 3 else if flags.testBit 3 then 2 else 1

/-- The bytes that a partition's program and units use: its rings and weight blocks, the regions of its images, of what it
fetches and of late contributions, what its descriptors read and write, and the versions that stand staged. -/
def State.usedRanges (s : State) (p : Nat) (g : StepProgram) : List (Space × Range) :=
  let region := fun (i : Nat) => match g.regions[i]? with
    | some r => (match spaceOf r.kind with
        | some sp => [(sp, r.lo, r.size * 4096)]
        | none => [])
    | none => []
  let rings := (s.berthsOf p).map (fun n =>
    let c := (s.berth n).front
    (c.ringSpace, c.ringAddr, c.capacity * c.slotSize))
  let places := (s.stash p).places.flatMap (fun x => x.range.toList ++ (x.staged.bind (fun a =>
    (spaceOf a.1).map (fun sp => (sp, a.2, x.size)))).toList)
  rings ++ g.blocks.filterMap g.blockRange ++ places ++ region g.control.imageRegion ++ region g.control.lateRegion
    ++ (g.body.filter (fun i => decide (i.op = 3))).flatMap (fun i => region i.b)
    ++ (g.body.filter (fun i => decide (i.op = 4))).flatMap (fun i =>
      let cls := postClass (s.berth i.a).cfg i.flags
      (g.imagesOf i).flatMap (fun ws => imageReads cls ws ++ imageWrites cls ws))

/-- The first page from `a` on whose `n` bytes meet none of the ranges; `fuel` bounds the ranges passed. -/
def clearPage : Nat → List Range → Nat → Nat → Nat
  | 0, _, _, a => a
  | fuel + 1, rs, n, a =>
    match rs.find? (fun r => !apart a n r.1 r.2) with
    | some r => clearPage fuel rs n (ceilDiv (r.1 + r.2) 4096 * 4096)
    | none => a

/-- Where a version's images are staged: some place that nothing of the partition uses, in a region of it that grants reads
and writes, in the near tier or the Yard; which, no field of a Manifest says (log entry 14). -/
def State.stagingPlace (s : State) (p : Nat) (g : StepProgram) (x : VersionPlace) : Option (Space × Nat) :=
  let at_ := Config.stagingAddr p x.block.toNat x.tag.toNat
  let used := s.usedRanges p g
  let fit := g.regions.filter (fun r =>
    within 1 2 r.kind && r.read && r.write && !r.lightersOnly && decide (x.size ≤ r.size * 4096))
  (fit.drop (at_ % max 1 fit.length) ++ fit.take (at_ % max 1 fit.length)).findSome? (fun r =>
    match spaceOf r.kind with
    | none => none
    | some sp =>
      let rs := (used.filter (fun u => decide (u.1 = sp))).map (·.2)
      let try_ := fun (a : Nat) =>
        let b := clearPage (rs.length + 1) rs x.size a
        if b + x.size ≤ r.lo + r.size * 4096 then some (sp, b) else none
      (try_ (r.lo + at_ % (r.size + 1 - ceilDiv x.size 4096) * 4096)).orElse (fun _ => try_ r.lo))

/-- How staging a version ends. -/
inductive Staged where
  /-- The images stand at a place. -/
  | at_ (sp : Space) (addr : Nat)
  /-- No place is free: the tile is not released yet. -/
  | waits
  /-- They could not be read: the partition rewinds. -/
  | lost
  deriving DecidableEq, Repr

/-- The images of a version are staged, where they are not yet. An error in them loses the entry and halts its readers, and
the partition rewinds (R270, R275). -/
def State.stage (s : State) (p : Nat) (g : StepProgram) (e : StashEntry) : Staged × State :=
  match s.versionPlace p e.block e.tag with
  | none => (.waits, s)
  | some x =>
    match (if e.staged then x.staged.bind (fun a => (spaceOf a.1).map (fun sp => (sp, a.2))) else none) with
    | some a => (.at_ a.1 a.2, s)
    | none =>
      let n := e.size.toNat * 4096
      if s.poisoned .hold (e.addr.toNat * 4096) n then
        (.lost, (s.stashLost p (e.addr.toNat * 4096)).rewind p 0x9104)
      else
        match s.stagingPlace p g x with
        | none => (.waits, s)
        | some (sp, dest) =>
          let s := s.copyBytes .hold (e.addr.toNat * 4096) sp dest n
          let s := s.modStash p (fun st => st.setPlace { x with staged := some (sp.code, dest) })
          (.at_ sp dest, s.modEntries p (fun y => if y.addr = e.addr then { y with staged := true } else y))

/-- A source of a tile that lies in a block's images reads what was staged of them: the descriptor's words. -/
def redirect (op : TileOperand) (range : Space × Nat × Nat) (place : Space × Nat) (ws : List Word) : List Word :=
  let t := Tile.of ws
  let addr := t.src op
  if t.op = 1 ∧ t.kind op = range.1.code ∧ range.2.1 ≤ addr ∧ addr < range.2.1 + range.2.2 then
    let unit := (place.2 + (addr - range.2.1)) / 128
    let i := match op with
      | .p => 11
      | .q => 13
    modifyAt (modifyAt ws i (fun _ => BitVec.ofNat 32 unit)) (i + 1) (fun w =>
      setField (setField w 0 8 (unit / 2 ^ 32)) 8 2 place.1.code)
  else ws

/-- Both sources. -/
def redirectBoth (range : Space × Nat × Nat) (place : Space × Nat) (ws : List Word) : List Word :=
  redirect .q range place (redirect .p range place ws)

/-- The stashed version of a block that a micro-batch of a step is bound to, if it is not the current one (R272). -/
def State.stashedFor (s : State) (p : Nat) (block : Word) (step : DWord) (mb : Nat) : Option StashEntry :=
  ((s.stash p).bound.find? (fun x =>
    decide (x.block = block) && decide (x.step = step) && decide (x.mb = BitVec.ofNat 16 mb))).bind
    (fun x => (s.stash p).entry? block x.tag)

/-- A tile that the sequencer releases (R270): the stashed versions it reads are staged, and its source fields name the
staged images: its words, and what it reads staged. None where it cannot be released: no place is free, or an image was lost
and the partition has rewound. -/
def State.redirectTile (s : State) (p mb : Nat) (step : DWord) (ws : List Word) :
    Option (List Word × List (Word × Byte)) × State :=
  match s.program? p with
  | none => (some (ws, []), s)
  | some g =>
    let bound := (s.stash p).bound.filter (fun x => decide (x.step = step) && decide (x.mb = BitVec.ofNat 16 mb))
    bound.foldl (fun (acc : Option (List Word × List (Word × Byte)) × State) x =>
      match acc with
      | (none, s) => (none, s)
      | (some (ws, rs), s) =>
        match (s.stash p).entry? x.block x.tag, (s.versionPlace p x.block x.tag).bind VersionPlace.range with
        | some e, some range =>
          if redirectBoth range (.near, 0) ws = ws ∧ redirectBoth range (.yard, 0) ws = ws then (some (ws, rs), s)
          else
            (match s.stage p g e with
            | (.at_ sp a, s) => (some (redirectBoth range (sp, a) ws, rs ++ [(x.block, x.tag)]), s)
            | (_, s) => (none, s))
        | _, _ => (some (ws, rs), s)) (some (ws, []), s)

/-- The tiles of a POST: none where some tile cannot be released now. -/
def State.redirectTiles (s : State) (p mb : Nat) (step : DWord) :
    List (List Word) → Option (List (List Word × List (Word × Byte))) × State
  | [] => (some [], s)
  | ws :: rest =>
    match s.redirectTile p mb step ws with
    | (none, s) => (none, s)
    | (some x, s) =>
      match State.redirectTiles s p mb step rest with
      | (none, s) => (none, s)
      | (some xs, s) => (some (x :: xs), s)

/-- A descriptor that was released before its version was stashed, and still stands in its intake or waits for it: its
words in the ring are rewritten. -/
def State.redirectItem (s : State) (x : Posted) (f : List Word → List Word) : State :=
  let b := s.berth x.berth
  let c := b.front
  let i := x.itemSeq.toNat - b.oldestSeq
  if b.oldestSeq ≤ x.itemSeq.toNat ∧ i < b.occupancy then
    let a := c.slotAddr ((b.head + i) % c.capacity) + 32
    s.store c.ringSpace a ((f (wordsOf 16 (s.bytes c.ringSpace a 64))).flatMap (wordLe 4))
  else s

/-- Every outstanding tile bound to a version that has just been stashed reads the staged images from now on (R272). -/
def State.redirectPosted (s : State) (p : Nat) (g : StepProgram) (e : StashEntry) : State :=
  let mine := (s.seq p).posted.filter (fun x =>
    (s.stashedFor p e.block x.step x.mb).any (fun y => decide (y.tag = e.tag)) && isContext (s.berth x.berth).front.consumerId)
  match (s.versionPlace p e.block e.tag).bind VersionPlace.range with
  | none => s
  | some range =>
    if mine = [] then s
    else
      match s.stage p g e with
      | (.at_ sp a, s) =>
        let f := redirectBoth range (sp, a)
        let s := s.modSeq p (fun q => { q with posted := q.posted.map (fun x =>
          if mine.contains x then { x with reads := x.reads ++ [(e.block, e.tag)] } else x) })
        let s := mine.foldl (fun s x => s.redirectItem x f) s
        s.modContexts p (fun c => { c with window := c.window.map (fun w =>
          if !w.vector && mine.any (fun x => decide (x.berth = w.berth) && decide (x.itemSeq = w.itemSeq)) then
            { w with words := f w.words }
          else w) })
      | (_, s) => s

/-! ## The copy (R267, R273) -/

/-- The entry that the partner of a mirrored shard has, formed here as well (R273): its images come of the mirror masters,
and their bytes are free (log entry 80). -/
def State.formMirrored (s : State) (p : Nat) (e : StashEntry) : State :=
  if (s.mirror? p).isNone ∨ (s.part p).partnerLost then s
  else
    let st := s.stash p
    let page := freePage (st.entries.length + st.mirrored.length + 1) (st.entries ++ st.mirrored) e.size.toNat
      e.addr.toNat
    let (v, s) := s.draw
    let s := s.store .hold (page * 4096) (natLe (e.size.toNat * 4096) v)
    s.modStash p (fun st => { st with mirrored := st.mirrored ++ [{ e with staged := false, addr := BitVec.ofNat 64 page }] })

/-- STASH_COPY_COMPLETE: the images are in the stash, and the apply pass may write the block (R267). -/
def State.stashCopied (s : State) (p : Nat) (block : Word) : State :=
  match s.program? p, s.blockOf p block with
  | some g, some b =>
    let v := (s.stash p).version block
    if !v.copying then s
    else
      let es := (s.stash p).entries ++ (s.stash p).mirrored
      let n := s.versionPages p b
      let page := freePage (es.length + 1) es n (Config.stashPage p + g.recordPages)
      let e : StashEntry :=
        { block := block, tag := v.tag, staged := false, lost := false, readers := v.readers,
          stepOrigin := v.stepOrigin, size := BitVec.ofNat 32 n, addr := BitVec.ofNat 64 page }
      let place := s.versionPlace p block v.tag
      let s := match place.bind VersionPlace.range with
        | some (sp, a, n) => s.copyBytes sp a .hold (page * 4096) n
        | none => s
      let s := s.modStash p (fun st =>
        { st with entries := st.entries ++ [e], created := satAdd st.created 1,
                  places := st.places.filter (fun x => !(decide (x.block = block) && decide (x.tag = v.tag))) ++ place.toList })
      let s := ((((s.newVersion p b v).writeStash p 0).redirectPosted p g e).formMirrored p e)
      s.releaseStash p
  | _, _ => s

/-- STASH_WAIT_LIMIT_EXPIRY: the partition halts with cause 4 (R269). -/
def State.stashLimit (s : State) (p : Nat) (block : Word) : State :=
  if (s.stash p).waits.any (fun w => decide (w.block = block)) then
    let s := s.modStash p (fun st => { st with limitHalt := true })
    (s.raiseStash 0x9103 p (wordLe 4 block ++ wordLe 8 (s.part p).step)).halt p 4
  else s

/-- LAST_TILE_NOTICE (R266). -/
def execLastTileNotice (p : BitVec 6) (block : Word) (microBatch : Half) (step : DWord) (s : State) : Out :=
  .next (s.lastTile p.toNat block microBatch step)

/-- STASH_COPY_COMPLETE (R267). -/
def execStashCopyComplete (p : BitVec 6) (block : Word) (s : State) : Out := .next (s.stashCopied p.toNat block)

/-- STASH_WAIT_LIMIT_EXPIRY (R269). -/
def execStashWaitLimitExpiry (p : BitVec 6) (block : Word) (s : State) : Out := .next (s.stashLimit p.toNat block)

end Sys2Proof.Machine
end

