-- ==== Sys2Proof/Machine/MfParse.lean ====
section
/-!
DEFINITION. A Manifest's bytes read (R47 to R56, R350, R361, R372, R376, R379, R383, R399, R401, R420, R437, R442,
R446): header, section table, sections, and the records they hold.
-/

namespace Sys2Proof.Machine

/-! ## Header and section table (Tables 2.1, 2.2) -/

/-- Bytes are all zero. -/
def allZero (b : Bytes) : Bool := b.all (fun x => decide (x = 0))

/-- One byte as a number. -/
def byteAt (b : Bytes) (i : Nat) : Nat := leAt b i 1

def MfHeader.of (b : Bytes) : MfHeader :=
  { magic := leAt b 0 4, version := leAt b 4 2, flags := leAt b 6 2, totalLength := leAt b 8 4,
    sectionCount := leAt b 12 2, signerSlot := byteAt b 14, reserved := allZero (slice b 15 1 ++ slice b 48 16),
    manifestId := BitVec.ofNat 64 (leAt b 16 8), baseId := BitVec.ofNat 64 (leAt b 24 8),
    jobId := BitVec.ofNat 64 (leAt b 32 8), deviceCoord := leAt b 40 2, partCount := leAt b 42 2 }

/-- The amendment flag (flags bit 1) and the reproducible flag (bit 0). -/
def MfHeader.amendment (h : MfHeader) : Bool := h.flags.testBit 1
def MfHeader.reproducible (h : MfHeader) : Bool := h.flags.testBit 0

/-- A section table entry. -/
structure Sect where
  type : Nat
  part : Nat
  off  : Nat
  len  : Nat
  deriving DecidableEq, Repr

/-- Section types of Table 2.3. -/
def secPartitions : Nat := 1
def secYard : Nat := 2
def secBerths : Nat := 3
def secLinks : Nat := 4
def secRoutes : Nat := 5
def secTraffic : Nat := 6
def secPolicy : Nat := 7
def secProgram : Nat := 8
def secPools : Nat := 9
def secMirror : Nat := 10
def secClaims : Nat := 11
def secDiscovery : Nat := 12
def secRecovery : Nat := 13
def secPlan : Nat := 14

/-- The types that appear once for each partition. -/
def partScoped (type : Nat) : Bool := [3, 5, 7, 8, 10, 13].contains type

/-- A Manifest with its header and section table read. -/
structure View where
  bytes  : Bytes
  header : MfHeader
  table  : List Sect
  deriving DecidableEq, Repr

def View.of (b : Bytes) : View :=
  let h := MfHeader.of b
  { bytes := b, header := h,
    table := (List.range h.sectionCount).map (fun i =>
      let e := slice b (64 + 16 * i) 16
      { type := leAt e 0 2, part := byteAt e 2, off := leAt e 4 4, len := leAt e 8 4 }) }

/-- The index of a section in the table; a device-wide section has partition 0xFF. -/
def View.index (v : View) (type part : Nat) : Option Nat :=
  indexOf? (fun e => decide (e.type = type) && decide (e.part = part)) v.table

/-- That index as MF_REJECT names it: 0xFF for none. -/
def View.indexD (v : View) (type part : Nat) : Nat := (v.index type part).getD 0xFF

/-- The bytes of a section; empty when absent. -/
def View.sect (v : View) (type part : Nat) : Bytes :=
  match (v.index type part).bind (fun i => v.table[i]?) with
  | some e => slice v.bytes e.off e.len
  | none => []

def View.device (v : View) (type : Nat) : Bytes := v.sect type 0xFF
def View.has (v : View) (type part : Nat) : Bool := (v.index type part).isSome

/-! ## Records -/

def PartRec.of (b : Bytes) : PartRec :=
  { id := byteAt b 0, timeSlice := (byteAt b 1).testBit 0, quantumUs := leAt b 2 2,
    masks := (List.range 8).map (fun d => leAt b (16 + 32 * d) 32) }

def ClaimRec.of (b : Bytes) : ClaimRec :=
  { kind := byteAt b 0, index := byteAt b 1, owner := byteAt b 2, feature := byteAt b 3, bufOff := leAt b 4 4,
    bufSize := leAt b 8 4 }

def Policy.of (b : Bytes) : Policy :=
  { gradWire := byteAt b 0, stochRound := byteAt b 1, memsideFloat := byteAt b 2, nonfiniteAction := byteAt b 3,
    spikeAction := byteAt b 4, spikeRatio := leAt b 6 2, spikeWindow := leAt b 8 4 }

def BerthRange.of (b : Bytes) : BerthRange :=
  { first := leAt b 0 2, count := leAt b 2 2, stride := leAt b 8 8, config := wordsOf 8 (slice b 16 32) }

/-- The configuration image of a range; reserved bits read 0 (R11, Tables 9.7 to 9.10). -/
def BerthRange.cfg (r : BerthRange) : BerthCfg :=
  (List.range 7).foldl (fun c i => c.setWord i (wordAt r.config i)) BerthCfg.zero

/-- The configuration of berth `first + i`: its ring at ring_base + i × ring_stride (R350). -/
def BerthRange.nth (r : BerthRange) (i : Nat) : BerthCfg :=
  let c := r.cfg
  let a := c.ringAddr + i * r.stride
  { c with ringLo := BitVec.ofNat 32 (a / 32), ringHi := setField c.ringHi 0 2 (a / 2 ^ 37) }

def PortRec.of (b : Bytes) : PortRec :=
  { port := byteAt b 0, owner := byteAt b 1, width := byteAt b 2, firstLink := byteAt b 3, dimension := byteAt b 4,
    role := byteAt b 5, peerCoord := leAt b 6 2, peerJob := leAt b 8 8 }

def TrafficRec.of (b : Bytes) : TrafficRec :=
  { port := byteAt b 0, c0Limit := byteAt b 1, c1Share := byteAt b 2, c2Share := byteAt b 3, transitShare := byteAt b 4,
    transitCtl := byteAt b 5 }

def Remap.of (b : Bytes) : Remap := { logical := leAt b 0 2, physical := leAt b 2 2 }

def RouteRec.of (b : Bytes) : RouteRec :=
  { dest := leAt b 0 2, mask := leAt b 2 2, port := byteAt b 4, escape := (byteAt b 5).testBit 0 }

def Group.of (b : Bytes) : Group :=
  { id := leAt b 0 2, op := byteAt b 2, perDevice := byteAt b 3, base := leAt b 4 2, dimMask := leAt b 6 2,
    shardElems := leAt b 8 4 }

def PoolRec.of (b : Bytes) : PoolRec := { spare := leAt b 0 2, feed := leAt b 2 2, part := byteAt b 4 }

def PlanRec.of (b : Bytes) : PlanRec := { part := byteAt b 0, earliest := leAt b 8 8 }

def Discovery.of (b : Bytes) : Discovery :=
  { missingDefault := byteAt b 0, waitMs := leAt b 4 4, deadlineMs := leAt b 8 4 }

/-- The defaults of R372. -/
def Discovery.default : Discovery := { missingDefault := 0, waitMs := 10000, deadlineMs := 2000 }

def Mirror.of (b : Bytes) : Mirror :=
  { partner := leAt b 0 2, partnerFeed := leAt b 2 2, shardRegion := byteAt b 4, mirrorRegion := byteAt b 5,
    shardBytes := leAt b 8 8 }

def Recovery.of (b : Bytes) : Recovery :=
  { snapshotEvery := leAt b 0 4, cofeedEvery := leAt b 4 4, stragglerUs := leAt b 8 4, lateAction := byteAt b 12,
    rewindLimit := byteAt b 13, keeper := leAt b 14 2, lossMs := leAt b 16 4, fillQueueMs := leAt b 20 4 }

def Region.of (b : Bytes) : Region :=
  let r := byteAt b 1
  { kind := byteAt b 0, read := r.testBit 0, write := r.testBit 1, add := r.testBit 2, lightersOnly := r.testBit 3,
    noCache := decide (byteAt b 2 = 1), unit := byteAt b 3, base := leAt b 4 4, size := leAt b 8 4 }

def Control.of (b : Bytes) : Control :=
  { runSeed := BitVec.ofNat 64 (leAt b 0 8), firstStep := BitVec.ofNat 64 (leAt b 8 8), stashCapacity := leAt b 16 4,
    stashWaitMs := leAt b 20 4, tokensPerStep := leAt b 24 4, microBatches := leAt b 28 2, imageRegion := byteAt b 30,
    stagingFirst := byteAt b 31, stagingCount := byteAt b 32, lateRegion := byteAt b 33 }

def DataOrder.of (b : Bytes) : DataOrder :=
  { mode := byteAt b 0, fetchAhead := byteAt b 1, samples := leAt b 4 4, positions := leAt b 8 8, timeoutMs := leAt b 16 4 }

def DataSource.of (b : Bytes) : DataSource :=
  { first := leAt b 0 8, count := leAt b 8 8, remoteAddr := leAt b 16 8, rkey := leAt b 24 4, recordBytes := leAt b 28 4,
    qp := leAt b 32 2, altQp := leAt b 34 2 }

def Scope.of (b : Bytes) : Scope :=
  { id := leAt b 0 4, tensor := leAt b 4 4, microBatch := leAt b 8 2, elemFirst := leAt b 16 8, elemCount := leAt b 24 8 }

def WeightBlock.of (b : Bytes) : WeightBlock :=
  { block := leAt b 0 4, region := byteAt b 4, readers := leAt b 6 2, lastTag := leAt b 8 2, base := leAt b 12 4,
    size := leAt b 16 4 }

def Tie.of (b : Bytes) : Tie := { block := leAt b 0 4, uses := byteAt b 4 }

def BodyIns.of (b : Bytes) : BodyIns :=
  { op := byteAt b 0, flags := byteAt b 1, a := leAt b 2 2, b := leAt b 4 4, c := leAt b 8 8 }

def CtxRec.of (b : Bytes) : CtxRec :=
  { die := byteAt b 0, cluster := byteAt b 1, ctx := byteAt b 2, slot := byteAt b 3, priority := byteAt b 4,
    base := byteAt b 5, size := byteAt b 6 }

/-! ## Sections -/

def View.parts (v : View) : List PartRec := (chunks 272 (v.device secPartitions)).map PartRec.of
def View.yard (v : View) : List Nat := (v.device secYard).map (fun x => x.toNat)
def View.ports (v : View) : List PortRec := (chunks 16 ((v.device secLinks).drop 8)).map PortRec.of
def View.traffic (v : View) : List TrafficRec := (chunks 8 (v.device secTraffic)).map TrafficRec.of
def View.pools (v : View) : List PoolRec := (chunks 8 (v.device secPools)).map PoolRec.of
def View.claims (v : View) : List ClaimRec := (chunks 12 (v.device secClaims)).map ClaimRec.of
def View.plan (v : View) : List PlanRec := (chunks 16 (v.device secPlan)).map PlanRec.of
def View.discovery (v : View) : Discovery :=
  if v.has secDiscovery 0xFF then Discovery.of (v.device secDiscovery) else Discovery.default
def View.share (v : View) (p : Nat) : Nat := leAt (v.sect secBerths p) 2 2
def View.berths (v : View) (p : Nat) : List BerthRange := (chunks 48 ((v.sect secBerths p).drop 8)).map BerthRange.of
def View.policy (v : View) (p : Nat) : Policy := Policy.of (v.sect secPolicy p)
def View.mirror (v : View) (p : Nat) : Option Mirror :=
  if v.has secMirror p then some (Mirror.of (v.sect secMirror p)) else none
def View.recovery (v : View) (p : Nat) : Recovery :=
  if v.has secRecovery p then Recovery.of (v.sect secRecovery p) else defaultRecovery

/-- The lists of a ROUTES section (R376). -/
def View.remapCount (v : View) (p : Nat) : Nat := leAt (v.sect secRoutes p) 0 2
def View.routeCount (v : View) (p : Nat) : Nat := leAt (v.sect secRoutes p) 2 2
def View.groupCount (v : View) (p : Nat) : Nat := leAt (v.sect secRoutes p) 4 2
def View.remaps (v : View) (p : Nat) : List Remap :=
  (chunks 8 (slice (v.sect secRoutes p) 8 (8 * v.remapCount p))).map Remap.of
def View.routes (v : View) (p : Nat) : List RouteRec :=
  (chunks 8 (slice (v.sect secRoutes p) (8 + 8 * v.remapCount p) (8 * v.routeCount p))).map RouteRec.of
def View.groups (v : View) (p : Nat) : List Group :=
  (chunks 16 (slice (v.sect secRoutes p) (8 + 8 * v.remapCount p + 8 * v.routeCount p) (16 * v.groupCount p))).map Group.of

/-! ## The step program (Table 12.1) -/

/-- A subsection entry. -/
structure SubEntry where
  type : Nat
  off  : Nat
  len  : Nat
  deriving DecidableEq, Repr

def View.subs (v : View) (p : Nat) : List SubEntry :=
  let b := v.sect secProgram p
  (List.range (leAt b 0 2)).map (fun i =>
    let e := slice b (8 + 16 * i) 16
    { type := leAt e 0 2, off := leAt e 4 4, len := leAt e 8 4 })

/-- The index of a subsection's entry, 0xFFFF for none, and its bytes. -/
def View.subIndex (v : View) (p type : Nat) : Nat :=
  (indexOf? (fun e => decide (e.type = type)) (v.subs p)).getD 0xFFFF
def View.sub (v : View) (p type : Nat) : Bytes :=
  match (v.subs p).find? (fun e => decide (e.type = type)) with
  | some e => slice (v.sect secProgram p) e.off e.len
  | none => []

def View.program (v : View) (p : Nat) : StepProgram :=
  { control := Control.of (v.sub p 1), regions := (chunks 16 (v.sub p 2)).map Region.of,
    order := DataOrder.of (v.sub p 3), sources := (chunks 40 (v.sub p 4)).map DataSource.of,
    scopes := (chunks 32 (v.sub p 5)).map Scope.of, blocks := (chunks 24 (v.sub p 6)).map WeightBlock.of,
    ties := (chunks 8 (v.sub p 7)).map Tie.of, body := (chunks 16 (v.sub p 8)).map BodyIns.of, images := v.sub p 9,
    contexts := (chunks 8 (v.sub p 10)).map CtxRec.of }

/-! ## Configurations -/

/-- What a Manifest gives a partition. -/
def View.partCfg (v : View) (p : Nat) (r : PartRec) : PartCfg :=
  { part := r, share := v.share p, berths := v.berths p, remaps := v.remaps p, routes := v.routes p, groups := v.groups p,
    policy := v.policy p, program := v.program p, mirror := v.mirror p, recovery := v.recovery p,
    hasRecovery := v.has secRecovery p }

/-- The device-wide sections. -/
def View.devCfg (v : View) : DevCfg :=
  { yard := v.yard, ports := v.ports, traffic := v.traffic, pools := v.pools, claims := v.claims,
    discovery := v.discovery }

/-! ## Coordinates (R365, R367, R373) -/

/-- The neighbour of a coordinate in a dimension (R365). -/
def neighbour (d x : Nat) : Nat :=
  let n := x ^^^ 2 ^ d
  if d % 2 = 1 ∧ d < 15 ∧ x.testBit (d + 1) then n ^^^ 2 ^ (d - 1) else n

/-- The dimension of the default route's next hop (R367): the highest in which the coordinates differ. -/
def defaultDim (x y : Nat) : Option Nat := ((List.range 16).reverse).find? (fun d => (x ^^^ y).testBit d)

/-- The physical coordinate of a logical one, and the own logical coordinate (R373). -/
def physicalOf (rs : List Remap) (logical : Nat) : Nat :=
  match rs.find? (fun r => decide (r.logical = logical)) with
  | some r => r.physical
  | none => logical
def ownLogical (rs : List Remap) (coord : Nat) : Nat :=
  match rs.find? (fun r => decide (r.physical = coord)) with
  | some r => r.logical
  | none => coord

/-- Every number below 2^16 whose bits lie in a mask, rising. -/
def maskSubsets (mask : Nat) : List Nat :=
  (List.range 16).foldl (fun xs d => if mask.testBit d then xs ++ xs.map (fun x => x + 2 ^ d) else xs) [0]

/-- The members of a group: base xor any combination of the bits of dim_mask (R383). -/
def Group.members (g : Group) : List Nat := (maskSubsets g.dimMask).map (fun m => g.base ^^^ m)

/-- The matching entry of most mask bits; among equals the one of the packet's tag, else the newest (R374, R77). -/
def bestRoute (es : List RouteEntry) (tag : Byte) (dst : Nat) : Option RouteEntry :=
  (es.filter (fun e => decide ((dst ^^^ e.route.dest) &&& e.route.mask = 0))).foldl (fun best e =>
    match best with
    | none => some e
    | some b =>
      let nb := popCount 16 b.route.mask
      let ne := popCount 16 e.route.mask
      if nb < ne ∨ (nb = ne ∧ (e.tag = tag ∨ b.tag ≠ tag)) then some e else some b) none

end Sys2Proof.Machine
end

