-- ==== Sys2Proof/Machine/MfChecks.lean ====
section
/-!
DEFINITION. The load checks of Table 2.8 (R47 to R58, R62, R285, R301, R331, R351, R361, R373 to R376, R379, R383,
R399, R401, R421, R437, R446, R564, R566): each answers the place of the first failing entry.
-/

namespace Sys2Proof.Machine

/-- Where a check fails: section, entry, detail (R62). -/
abbrev Place := Nat × Nat × Nat

/-- No single section. -/
def nowhere : Place := (0xFF, 0xFFFF, 0xFFFF)

/-- A section as a whole, and an entry of it. -/
def inSect (sec : Nat) : Place := (sec, 0xFFFF, 0xFFFF)
def atEntry (sec i : Nat) : Place := (sec, i, 0xFFFF)

/-- Fails at a place unless a condition holds. -/
def need (ok : Bool) (at_ : Place) : Option Place := if ok then none else some at_

/-- The first of several checks that fails. -/
def firstOf (xs : List (Option Place)) : Option Place := (xs.find? (·.isSome)).join

/-- The first record of a list that breaks a rule. -/
def eachRec {α : Type} (xs : List α) (at_ : Nat → Place) (ok : Nat → α → Bool) : Option Place :=
  (xs.zipIdx.find? (fun x => !ok x.2 x.1)).map (fun x => at_ x.2)

/-- The first of numbered things whose check fails. -/
def eachPart (n : Nat) (f : Nat → Option Place) : Option Place := (List.range n).findSome? f

/-- No element of a list repeats. -/
def noRepeat {α : Type} [DecidableEq α] : List α → Bool
  | [] => true
  | x :: xs => !xs.contains x && noRepeat xs

/-- Ranges of bytes with their place: the first that meets an earlier one. -/
def firstMeeting : List (Nat × Nat × Nat × Place) → List (Nat × Nat × Nat × Place) → Option Place
  | _, [] => none
  | seen, x :: xs =>
    if seen.any (fun y => decide (y.1 = x.1) && !apart y.2.1 y.2.2.1 x.2.1 x.2.2.1) then some x.2.2.2
    else firstMeeting (x :: seen) xs

/-! ## Checks 1 to 6 -/

/-- Check 1. -/
def View.checkHeader (v : View) : Option Place :=
  let h := v.header
  let am := h.amendment
  need (decide (64 ≤ v.bytes.length) && decide (h.magic = 0x464D4443) && decide (h.version = 1) && decide (h.flags < 4)
    && within 1 255 h.sectionCount && decide (h.signerSlot ≤ 3) && h.reserved && decide (h.manifestId ≠ 0)
    && (am || decide (h.baseId = 0)) && (if am then decide (h.partCount = 0) else within 1 64 h.partCount)) nowhere

/-- Check 2. -/
def View.checkLength (v : View) : Option Place :=
  let n := v.header.totalLength
  need (decide (n = v.bytes.length) && decide (n % 8 = 0) && decide (64 + 16 * v.header.sectionCount + 96 ≤ n)
    && decide (n ≤ 0x2000000)) nowhere

/-- Check 3: the signer slot holds a key. -/
def State.signerKey (s : State) (v : View) : Option Bytes :=
  match s.sec.manifestKeys[v.header.signerSlot]? with
  | some (.provisioned k) => some k
  | _ => none

/-- Check 4: the signature over every byte before it (R48). -/
def View.signedBy (v : View) (key : Bytes) : Bool :=
  let n := v.bytes.length - 96
  ecdsaVerify key (v.bytes.take n) (v.bytes.drop n)

/-- A section's length fits its type (R564); `pc` is the partition count of a full Manifest's header. -/
def View.lengthFits (v : View) (e : Sect) : Bool :=
  let b := slice v.bytes e.off e.len
  let n := e.len
  match e.type with
  | 1 => if v.header.amendment then decide (n ≠ 0) && decide (n % 272 = 0) else decide (n = v.header.partCount * 272)
  | 2 => decide (n = 8)
  | 3 => decide (8 ≤ n) && decide (n = 8 + 48 * leAt b 0 2)
  | 4 => decide (8 ≤ n) && decide (n = 8 + 16 * byteAt b 0)
  | 5 => decide (8 ≤ n) && decide (n = 8 + 8 * leAt b 0 2 + 8 * leAt b 2 2 + 16 * leAt b 4 2)
  | 6 => decide (n % 8 = 0)
  | 7 => decide (n = 32)
  | 8 => decide (8 ≤ n) && decide (8 + 16 * leAt b 0 2 ≤ n)
  | 9 => decide (n % 8 = 0)
  | 10 => decide (n = 16)
  | 11 => decide (n % 12 = 0)
  | 12 => decide (n = 16)
  | 13 => decide (n = 32)
  | _ => decide (n ≠ 0) && decide (n % 16 = 0)

/-- The order of section table entries (R50). -/
def sectBefore (a b : Sect) : Bool := decide (a.type < b.type) || (decide (a.type = b.type) && decide (a.part < b.part))

/-- Check 5. A partition-scoped section names a partition of the Manifest; an amendment, whose partitions may be those of
the active Manifest, one below 64 (log entry 62). -/
def View.checkTable (v : View) : Option Place :=
  let lo := 64 + 16 * v.header.sectionCount
  let hi := v.bytes.length - 96
  eachRec v.table (fun i => inSect i) (fun i e =>
    within 1 14 e.type && (decide (e.type ≠ secPlan) || v.header.amendment)
      && (if partScoped e.type then decide (e.part < if v.header.amendment then 64 else v.header.partCount) else decide (e.part = 0xFF))
      && decide (e.off % 8 = 0) && decide (lo ≤ e.off) && decide (e.off + e.len ≤ hi)
      && (v.table.take i).all (fun x => sectBefore x e && apart x.off x.len e.off e.len) && v.lengthFits e)

/-- The partition count: the header's, in an amendment that of PARTITIONS (R72). -/
def View.partCount (v : View) : Nat := v.parts.length

/-- Check 6, on a full or a shadow Manifest. -/
def View.checkRequired (v : View) : Option Place :=
  need ([secPartitions, secYard, secLinks, secTraffic].all (fun t => v.has t 0xFF)
    && (List.range v.partCount).all (fun p => [secBerths, secRoutes, secPolicy, secProgram].all (fun t => v.has t p))) nowhere

/-! ## Checks 7 to 9 -/

/-- The physical coordinate from the board, if it is valid (R366). -/
def State.boardCoord? (s : State) : Option Nat :=
  if bit s.hm.boardCoord 16 then some (bits s.hm.boardCoord 15 0) else none

/-- Check 7: device_coord is the board's coordinate; at a spare, the lost device's as the claim names it (R447). -/
def State.checkCoord (s : State) (v : View) (claim : Option Nat := none) : Option Place :=
  need (decide (claim.or s.boardCoord? = some v.header.deviceCoord)) nowhere

/-- A logical cluster is serviceable (R130, R531): its die has not failed and a physical cluster carries the number. -/
def State.serviceable (s : State) (die l : Nat) : Bool :=
  !bit s.hm.readyFail (readyCompute die) && !s.dead (cdIndex die) && (s.physOf die l).isSome

/-- The partition_ids of a Manifest are consecutive from 0 (R52). -/
def View.inOrder (v : View) : Bool := v.parts.zipIdx.all (fun x => decide (x.1.id = x.2))

/-- Check 8, with the fields of the records (R52, R53). DESIGN CHOICE: Table 2.8 names no check for the flags and the quantum
of a record, nor for the identities of a full Manifest (`ordered`): this one rejects them (log entry 88). Those of an
amendment are check 20's (R72). Reserved bytes are not looked at where no check names them (log entry 62). -/
def State.checkClusters (s : State) (v : View) (ordered : Bool) : Option Place :=
  let ps := v.parts
  let raw := chunks 272 (v.device secPartitions)
  eachRec ps (fun i => atEntry (v.indexD secPartitions 0xFF) i) (fun i p =>
    (!ordered || decide (p.id = i)) && decide (byteAt (raw.getD i []) 1 < 2) && (!p.timeSlice || decide (50 ≤ p.quantumUs))
      && p.masks.zipIdx.all (fun md =>
        decide (md.1 < 2 ^ 250) && (bitsSet 250 md.1).all (fun l => s.serviceable md.2 l)
          && (ps.take i).all (fun q => decide (q.masks.getD md.2 0 &&& md.1 = 0))))

/-- A Yard buffer inside the scratchpad (R54, R55). -/
def bufferFits (yard : List Nat) (c : ClaimRec) : Bool :=
  decide (c.index < 8) && decide (c.bufOff % 4096 = 0) && decide (c.bufSize % 4096 = 0) && decide (c.bufSize ≠ 0)
    && decide (c.bufOff + c.bufSize ≤ yard.getD c.index 0 * 0x800000)

/-- Check 9. -/
def View.checkYard (v : View) : Option Place :=
  let sec := v.indexD secClaims 0xFF
  firstOf [
    eachRec v.yard (fun i => atEntry (v.indexD secYard 0xFF) i) (fun _ u => decide (u ≤ 12)),
    eachRec v.claims (fun i => atEntry sec i) (fun _ c => decide (c.kind ≠ 3) || bufferFits v.yard c),
    firstMeeting [] ((v.claims.zipIdx.filter (fun x => decide (x.1.kind = 3))).map
      (fun x => (x.1.index, x.1.bufOff, x.1.bufSize, atEntry sec x.2)))]

/-! ## Check 10: berths (R331, R332, R350, R351) -/

/-- The ring lies wholly in one region of the partition that grants read and write (R332). -/
def ringInRegion (rs : List Region) (kind addr n : Nat) : Bool :=
  match spaceOf kind with
  | none => false
  | some sp => rs.any (fun r => decide (r.kind = kind) && decide (r.unit = sp.unit addr) && r.read && r.write
      && decide (r.lo ≤ addr) && decide (addr + n ≤ r.hi))

/-- A range record of partition p, by itself. -/
def rangeOk (repro : Bool) (p : Nat) (prevEnd : Nat) (r : BerthRange) : Bool :=
  let c := r.cfg
  let cap := bits c.ringHi 8 4
  within 1 16384 r.count && decide (prevEnd ≤ r.first) && decide (r.first + r.count ≤ 16384)
    && within 1 3 c.kindOf && decide (c.partition = p) && decide (bits c.kind 5 2 ≤ bits c.kind 9 6)
    && decide (bits c.kind 9 6 ≤ 10) && within 1 20 cap && decide (c.levelOf ≤ c.capacity)
    && within 1 c.capacity c.creditBatch && within 1 2 (bits c.ringHi 3 2) && decide (r.stride % 32 = 0)
    && !((decide (c.kindOf = kindTensor) || c.intake) && decide (c.producer = 0xFFFF))
    && (!c.intake || (decide (c.kindOf = kindCommand) && decide (r.count = 1)))
    && !(repro && decide (c.kindOf = kindMarked) && c.intake)

/-- The end of the ranges before number i. -/
def rangeEnd (rs : List BerthRange) (i : Nat) : Nat :=
  match i with
  | 0 => 0
  | i + 1 =>
    match rs[i]? with
    | some r => r.first + r.count
    | none => 0

/-- Berth n as the ranges of a partition give it. -/
def berthIn (rs : List BerthRange) (n : Nat) : Option BerthCfg :=
  match rs.find? (fun r => decide (r.first ≤ n) && decide (n < r.first + r.count)) with
  | some r => some (r.nth (n - r.first))
  | none => none

/-- The notice berth of a range is a marked-drop berth of the partition, 16 bytes wide or more (R343). -/
def noticeOk (rs : List BerthRange) (r : BerthRange) : Bool :=
  let c := r.cfg
  decide (c.levelOf = 0) || c.noticeEvent
    || (match berthIn rs c.noticeBerth with
        | some n => decide (n.kindOf = kindMarked) && decide (16 ≤ n.readWidth)
        | none => false)

/-- Check 10. -/
def View.checkBerths (v : View) : Option Place :=
  let n := v.partCount
  let sec := fun p => v.indexD secBerths p
  let all : List (Nat × Nat × BerthRange) :=
    (List.range n).flatMap (fun p => (v.berths p).zipIdx.map (fun r => (p, r.2, r.1)))
  firstOf [
    eachPart n (fun p => eachRec (v.berths p) (fun i => atEntry (sec p) i) (fun i r =>
      rangeOk v.header.reproducible p (rangeEnd (v.berths p) i) r
        && (List.range r.count).all (fun k =>
          let c := r.nth k
          decide (r.cfg.ringAddr + k * r.stride + c.capacity * c.slotSize ≤ 2 ^ 39) && ringInRegion (v.program p).regions (bits c.ringHi 3 2) c.ringAddr (c.capacity * c.slotSize)))),
    firstMeeting [] (all.map (fun x => (0, x.2.2.first, x.2.2.count, atEntry (sec x.1) x.2.1))),
    firstMeeting [] ((all.filter (fun x => x.2.2.cfg.intake)).map
      (fun x => (0, x.2.2.cfg.consumerId, 1, atEntry (sec x.1) x.2.1))),
    eachPart n (fun p => eachRec (v.berths p) (fun i => atEntry (sec p) i) (fun _ r => noticeOk (v.berths p) r)),
    need (decide (((List.range n).map v.share).sum ≤ 1024)) nowhere,
    firstMeeting [] (all.flatMap (fun x => (List.range x.2.2.count).map (fun k =>
      let c := x.2.2.nth k
      (bits c.ringHi 3 2, c.ringAddr, c.capacity * c.slotSize, atEntry (sec x.1) x.2.1))))]

/-! ## Checks 11 to 13: the fabric -/

/-- The links of a port. -/
def PortRec.links (r : PortRec) : List Nat := (List.range r.width).map (fun i => r.firstLink + i)

/-- Check 11 (R361). -/
def View.checkPorts (v : View) : Option Place :=
  let ps := v.ports
  eachRec ps (fun i => atEntry (v.indexD secLinks 0xFF) i) (fun i r =>
    decide (r.port < 16) && [1, 2, 4, 8].contains r.width && decide (r.firstLink % max 1 r.width = 0)
      && decide (r.firstLink + r.width ≤ 16) && decide (r.dimension < 16) && decide (r.role < 2)
      && decide (r.peerCoord = neighbour r.dimension v.header.deviceCoord)
      && (ps.take i).all (fun q => decide (q.port < r.port) && decide (q.dimension ≠ r.dimension)
        && apart q.firstLink q.width r.firstLink r.width))

/-- The next coordinate of a packet of a tag toward `dst` (R566): by the entries, each port standing for its dimension,
or by R367. -/
def loopHop (ports : List PortRec) (es : List RouteEntry) (tag : Byte) (x dst : Nat) : Option Nat :=
  match bestRoute es tag dst with
  | some e => (ports.find? (fun r => decide (r.port = e.route.port))).map (fun r => neighbour r.dimension x)
  | none => (defaultDim x dst).map (fun d => neighbour d x)

/-- The route revisits a coordinate. -/
def revisits (ports : List PortRec) (es : List RouteEntry) (tag : Byte) (dst : Nat) : Nat → List Nat → Nat → Bool
  | 0, _, _ => false
  | fuel + 1, seen, x =>
    if x = dst then false
    else if seen.contains x then true
    else
      match loopHop ports es tag x dst with
      | none => false
      | some y => revisits ports es tag dst fuel (x :: seen) y

/-- The coordinates that the fabric's dimensions reach from the device. -/
def fabricCoords (ports : List PortRec) (coord : Nat) : List Nat :=
  let used := ports.foldl (fun m r => m ||| 2 ^ r.dimension) 0
  let span := ports.foldl (fun m r => m ||| 2 ^ r.dimension ||| (if r.dimension % 2 = 1 then 2 ^ (r.dimension - 1) else 0)) used
  (maskSubsets span).map (fun m => coord ^^^ m)

/-- The destinations that a route matches (R374). -/
def RouteRec.dests (r : RouteRec) : List Nat := (maskSubsets (r.mask ^^^ 0xFFFF)).map (fun m => (r.dest &&& r.mask) ^^^ m)

/-- A route loops (R566): from a coordinate of the fabric's dimensions a packet of one of the live tags, 0 the old and 1 the
new one, revisits a coordinate toward a destination that the route matches. -/
def routeLoops (ports : List PortRec) (coord : Nat) (es : List RouteEntry) (r : RouteRec) : Bool :=
  let xs := fabricCoords ports coord
  r.dests.any (fun dst => xs.any (fun x => [0, 1].any (fun t => revisits ports es t dst 65537 [] x)))

/-- Where the live entries of a partition loop (R566): at the first of its section's routes that does, or in the section as a
whole where one of the other tag does. -/
def loopPlace (ports : List PortRec) (coord : Nat) (rs : List RouteRec) (old : List RouteEntry) (part : BitVec 6)
    (sec first : Nat) : Option Place :=
  let es := old ++ rs.map (fun r => ({ part := part, tag := 1, route := r } : RouteEntry))
  match indexOf? (routeLoops ports coord es) rs with
  | some i => some (atEntry sec (first + i))
  | none => need (!old.any (fun e => routeLoops ports coord es e.route)) (inSect sec)

/-- A group record (R383). -/
def groupOk (ports : List PortRec) (raw : Bytes) (g : Group) : Bool :=
  let n := g.perDevice * 2 ^ popCount 16 g.dimMask
  decide (g.base &&& g.dimMask = 0)
    && (bitsSet 16 g.dimMask).all (fun d => ports.any (fun r => decide (r.dimension = d)))
    && within 1 6 g.op && within 1 8 g.perDevice && decide (g.shardElems ≠ 0) && decide (g.shardElems % 32 = 0)
    && allZero (slice raw 12 4) && !(decide (g.op = 2) && decide (32768 < n)) && !(decide (g.op = 1) && decide (65536 < n))

/-- Check 12 (R373, R375, R376, R383, R566); `old` are the entries of the other live tag. -/
def View.checkRoutes (v : View) (old : Nat → List RouteEntry) : Option Place :=
  let n := v.partCount
  let ports := v.ports
  let coord := v.header.deviceCoord
  firstOf [
    eachPart n (fun p =>
      let sec := v.indexD secRoutes p
      let rm := v.remaps p
      let rt := v.routes p
      let gs := v.groups p
      let raw := chunks 16 ((v.sect secRoutes p).drop (8 + 8 * rm.length + 8 * rt.length))
      firstOf [
        eachRec rm (fun i => atEntry sec i) (fun i r =>
          (rm.take i).all (fun q => decide (q.physical ≠ r.physical))
            && (decide (r.logical ≠ coord) || decide (r.physical = coord)
              || rm.any (fun q => decide (q.physical = coord)))),
        eachRec rt (fun i => atEntry sec (rm.length + i)) (fun _ r => ports.any (fun q => decide (q.port = r.port))),
        loopPlace ports coord rt (old p) (BitVec.ofNat 6 p) sec rm.length,
        eachRec gs (fun i => atEntry sec (rm.length + rt.length + i)) (fun i g => groupOk ports (raw.getD i []) g)]),
    need (decide (((List.range n).map (fun p => (v.remaps p).length)).sum ≤ 4096)
      && decide (((List.range n).map (fun p => (v.routes p).length)).sum ≤ 8192)) nowhere]

/-- Check 13 (R379). -/
def View.checkTraffic (v : View) : Option Place :=
  let sec := v.indexD secTraffic 0xFF
  firstOf [
    eachRec v.traffic (fun i => atEntry sec i) (fun i t =>
      decide ((v.ports[i]?).map (·.port) = some t.port) && within 1 16 t.c0Limit && decide (t.transitCtl ≤ 4)
        && decide (t.c1Share + t.c2Share + t.transitShare ≤ 256)),
    need (decide (v.traffic.length = v.ports.length)) (inSect sec)]

/-! ## Checks 14 and 15 -/

/-- Check 14 (R57). -/
def View.checkReproducible (v : View) : Option Place :=
  if v.header.reproducible then
    eachPart v.partCount (fun p => firstOf [
      need (decide ((v.policy p).memsideFloat = 0)) (atEntry (v.indexD secPolicy p) 0),
      need (v.has secRecovery p) nowhere])
  else none

/-- The kinds of resource a feature takes (Table 15.6). -/
def featureKinds : Nat → List Nat
  | 0x01 => [3]
  | 0x02 => [3]
  | 0x10 => [1]
  | 0x11 => [1]
  | 0x12 => [1]
  | 0x13 => [1]
  | 0x14 => [1, 2]
  | 0x20 => [2]
  | _ => []

/-- Check 15. -/
def View.checkClaims (v : View) : Option Place :=
  let cs := v.claims
  eachRec cs (fun i => atEntry (v.indexD secClaims 0xFF) i) (fun i c =>
    (featureKinds c.feature).contains c.kind && decide (c.index < 8)
      && (decide (c.owner < v.partCount) || decide (c.owner = 0xFF))
      && (decide (c.kind = 3) || (decide (c.bufOff = 0) && decide (c.bufSize = 0)
        && (cs.take i).all (fun d => decide (d.kind ≠ c.kind) || decide (d.index ≠ c.index)))))

/-! ## Check 16: step programs (R285, R399, R401, R421) -/

/-- The size of a subsection's records, and whether it is one record. -/
def subSize : Nat → Nat × Bool
  | 1 => (64, true)
  | 2 => (16, false)
  | 3 => (32, true)
  | 4 => (40, false)
  | 5 => (32, false)
  | 6 => (24, false)
  | 7 => (8, false)
  | 8 => (16, false)
  | 9 => (64, false)
  | _ => (8, false)

/-- The subsection entries: types known and not repeated, aligned, inside the section, whole records; the required
ones present. -/
def View.checkSubs (v : View) (p : Nat) : Option Place :=
  let sec := v.indexD secProgram p
  let n := (v.sect secProgram p).length
  let es := v.subs p
  firstOf [
    eachRec es (fun i => atEntry sec i) (fun i e =>
      let (size, one) := subSize e.type
      within 1 10 e.type && (es.take i).all (fun x => decide (x.type ≠ e.type)) && decide (e.off % 8 = 0)
        && decide (8 + 16 * es.length ≤ e.off ∨ e.len = 0) && decide (e.off + e.len ≤ n)
        && (if one then decide (e.len = size) else decide (e.len % size = 0))),
    need ([1, 2, 3, 4, 8, 9, 10].all (fun t => es.any (fun e => decide (e.type = t)))) (inSect sec)]

/-- A region by itself (R284, R285). -/
def regionOk (yard : List Nat) (raw : Bytes) (r : Region) : Bool :=
  let e := (r.base + r.size) * 4096
  within 1 3 r.kind && decide (byteAt raw 1 < 16) && decide (r.size ≠ 0)
    && (match r.kind with
        | 1 => decide (r.unit < 8) && decide (e ≤ 0xFE0000000)
        | 2 => decide (r.unit < 8) && decide (e ≤ yard.getD r.unit 0 * 0x800000)
        | _ => decide (r.unit < 16) && decide (e ≤ if r.unit = 0 then 0xFFA000000 else 0x1000000000))

/-- The region overlaps a Yard buffer that another partition claims. -/
def regionOnClaim (cs : List ClaimRec) (p : Nat) (r : Region) : Bool :=
  cs.any (fun c => decide (r.kind = 2) && decide (c.kind = 3) && decide (c.index = r.unit) && decide (c.owner ≠ p)
    && decide (c.owner ≠ 0xFF) && !apart (r.base * 4096) (r.size * 4096) c.bufOff c.bufSize)

/-- The region covers an unserviceable row. -/
def State.regionOnBadRow (s : State) (r : Region) : Bool :=
  decide (r.kind = 1) && s.mem.unserviceable.any (fun k =>
    (rowGranules k.1 k.2.1 k.2.2).any (fun g => decide (r.lo < g + 256) && decide (g < r.hi)))

/-- The region tables of all partitions (R285). -/
def State.checkRegions (s : State) (v : View) : Option Place :=
  let n := v.partCount
  let at_ := fun p i => ((v.indexD secProgram p, v.subIndex p 2, i) : Place)
  firstOf [
    eachPart n (fun p =>
      let rs := (v.program p).regions
      let raw := chunks 16 (v.sub p 2)
      firstOf [
        need (within 1 64 rs.length) (at_ p 0xFFFF),
        eachRec rs (fun i => at_ p i) (fun i r =>
          regionOk v.yard (raw.getD i []) r && !regionOnClaim v.claims p r && !s.regionOnBadRow r)]),
    firstMeeting [] ((List.range n).flatMap (fun p => (v.program p).regions.zipIdx.map
      (fun r => (r.1.kind * 16 + r.1.unit, r.1.base, r.1.size, at_ p r.2))))]

/-- The CONTROL record. -/
def controlOk (c : Control) (rs : List Region) (rec_ : Recovery) : Bool :=
  within 1 600000 c.stashWaitMs && within 1 4096 c.microBatches
    && ((rs[c.imageRegion]?).map (·.write)).getD false && decide (c.stagingCount ≤ 16)
    && (if c.stagingFirst = 0xFF then decide (c.stagingCount = 0)
        else decide (c.stagingFirst + c.stagingCount ≤ rs.length))
    && (decide (c.lateRegion = 0xFF) || decide (c.lateRegion < rs.length))
    && !(decide (rec_.lateAction = 1) && decide (c.lateRegion = 0xFF))

/-- The data order record (R399). -/
def orderOk (o : DataOrder) (raw : Bytes) : Bool :=
  decide (o.mode < 2) && within 1 64 o.fetchAhead && within 1 (2 ^ 24) o.samples && within 1 (2 ^ 48 - 1) o.positions
    && decide (o.samples ≤ o.positions) && within 100 600000 o.timeoutMs && allZero (slice raw 2 2 ++ raw.drop 20)

/-- A data source record by itself (R401), `first` the position it must begin at. -/
def sourceOk (first : Nat) (d : DataSource) : Bool :=
  decide (d.first = first) && decide (d.count ≠ 0) && within 1 (2 ^ 30) d.recordBytes && decide (d.qp < 1024)
    && (decide (d.altQp < 1024) || decide (d.altQp = 0xFFFF))

/-- A context record (R119, R421) among those before it. -/
def contextOk (r : PartRec) (before : List CtxRec) (c : CtxRec) : Bool :=
  decide (c.die < 8) && (r.masks.getD c.die 0).testBit c.cluster && decide (c.ctx < 8) && decide (c.slot < 2)
    && decide (c.priority < 4) && decide (c.base ≤ 11) && within 1 12 c.size && decide (c.base + c.size ≤ 12)
    && before.all (fun d => decide (d.die ≠ c.die) || decide (d.cluster ≠ c.cluster)
      || (decide (d.ctx ≠ c.ctx) && (decide (d.slot ≠ c.slot) || r.timeSlice)
        && (decide (d.slot = c.slot) || apart d.base d.size c.base c.size)))

/-- Opcodes of Table 12.3. -/
def opLoop : Nat := 1
def opEndLoop : Nat := 2
def opFetch : Nat := 3
def opPost : Nat := 4
def opWait : Nat := 5
def opReduce : Nat := 6
def opLoss : Nat := 7
def opVerdict : Nat := 8
def opEnd : Nat := 9

/-- The flags of a POST. -/
def BodyIns.anchored (i : BodyIns) : Bool := i.flags.testBit 0
def BodyIns.regen (i : BodyIns) : Bool := i.flags.testBit 1
def BodyIns.writeBack (i : BodyIns) : Bool := i.flags.testBit 2
/-- The images are vector descriptors: flags [3], which the manual leaves without a meaning (log entry 16). -/
def BodyIns.vector (i : BodyIns) : Bool := i.flags.testBit 3
/-- First image, and the two scope indices. -/
def BodyIns.image (i : BodyIns) : Nat := i.c % 2 ^ 32
def BodyIns.scopeP (i : BodyIns) : Nat := (i.c >>> 32) % 65536
def BodyIns.scopeQ (i : BodyIns) : Nat := i.c >>> 48

/-- Depth of loops before an instruction. -/
def loopDepth (body : List BodyIns) (n : Nat) : Int :=
  (body.take n).foldl (fun d i => if i.op = opLoop then d + 1 else if i.op = opEndLoop then d - 1 else d) 0

/-- One instruction (R421). -/
def insOk (g : StepProgram) (berths : List BerthRange) (groups : List Group) (k : Nat) (i : BodyIns) : Bool :=
  let d := loopDepth g.body k
  let ours := fun n => berths.any (fun r => decide (r.first ≤ n) && decide (n < r.first + r.count))
  match i.op with
  | 1 => decide (d < 4)
  | 2 => decide (0 < d)
  | 3 => decide (i.b < g.regions.length)
  | 4 => ours i.a && decide ((i.image + i.b) * 64 ≤ g.images.length)
      && (!i.anchored || (decide (i.scopeP < g.scopes.length) && decide (i.scopeQ < g.scopes.length)))
      && (!i.writeBack || (g.body.take k).any (fun x => decide (x.op = opVerdict)))
  | 5 => ours i.a
  | 6 => groups.any (fun x => decide (x.id = i.a))
  | n => within 7 9 n

/-- The program of one partition, its regions left out (R421). -/
def View.checkProgram (v : View) (p : Nat) (r : PartRec) : Option Place :=
  let g := v.program p
  let sec := v.indexD secProgram p
  let at_ := fun t i => ((sec, v.subIndex p t, i) : Place)
  let firsts := g.sources.zipIdx.map (fun x => ((g.sources.take x.2).map (·.count)).sum)
  firstOf [
    need (controlOk g.control g.regions (v.recovery p)) (at_ 1 0),
    need (decide (g.images.length ≤ ((g.regions[g.control.imageRegion]?).map (·.size)).getD 0 * 4096)) (at_ 9 0xFFFF),
    need (orderOk g.order (v.sub p 3)) (at_ 3 0),
    eachRec g.sources (fun i => at_ 4 i) (fun i d => sourceOk (firsts.getD i 0) d),
    need (decide ((g.sources.map (·.count)).sum = g.order.positions)) (at_ 4 0xFFFF),
    eachRec g.ties (fun i => at_ 7 i) (fun _ t => within 2 8 t.uses),
    eachRec g.contexts (fun i => at_ 10 i) (fun i c => contextOk r (g.contexts.take i) c),
    eachRec g.body (fun i => at_ 8 i) (fun i x => insOk g (v.berths p) (v.groups p) i x),
    need (decide ((g.body.getLast?).map (·.op) = some opEnd)
      && decide ((g.body.filter (fun x => decide (x.op = opVerdict))).length = 1)
      && decide (loopDepth g.body g.body.length = 0)) (at_ 8 0xFFFF)]

/-- Check 16. -/
def State.checkPrograms (s : State) (v : View) : Option Place :=
  firstOf [
    eachPart v.partCount v.checkSubs,
    s.checkRegions v,
    eachPart v.partCount (fun p => match v.parts[p]? with
      | some r => v.checkProgram p r
      | none => none)]

/-! ## Checks 17 and 21 -/

/-- A mirror pairing (R436, R437). -/
def View.mirrorOk (v : View) (p : Nat) (m : Mirror) : Bool :=
  let rs := (v.program p).regions
  decide (m.partner ≠ ownLogical (v.remaps p) v.header.deviceCoord) && decide ((v.recovery p).keeper ≠ m.partner)
    && (match rs[m.shardRegion]?, rs[m.mirrorRegion]? with
        | some a, some b => decide (a.kind = 3) && decide (b.kind = 3) && decide (m.shardBytes ≤ a.size * 4096)
            && decide (m.shardBytes + 96 * 0x100000 ≤ b.size * 4096)
        | _, _ => false)

/-- Check 17. -/
def View.checkSpares (v : View) : Option Place :=
  firstOf [
    eachPart v.partCount (fun p => match v.mirror p with
      | some m => need (v.mirrorOk p m) (atEntry (v.indexD secMirror p) 0)
      | none => none),
    eachRec v.pools (fun i => atEntry (v.indexD secPools 0xFF) i) (fun _ r =>
      decide (r.part < v.partCount))]

/-- Check 21 (Table 2.6). -/
def View.checkPolicy (v : View) : Option Place :=
  eachPart v.partCount (fun p =>
    let q := v.policy p
    let raw := v.sect secPolicy p
    need (decide (q.gradWire < 2) && decide (q.stochRound < 2) && decide (q.memsideFloat < 2)
      && decide (q.nonfiniteAction < 3) && decide (q.spikeAction < 3) && decide (0x100 ≤ q.spikeRatio)
      && within 1 65536 q.spikeWindow && allZero (slice raw 5 1 ++ raw.drop 12)) (atEntry (v.indexD secPolicy p) 0))

/-- Checks 7 to 17 in order, with the code of each (Table 2.8); `ordered` for a full Manifest, whose partition_ids check 8
looks at. -/
def State.checks7to17 (s : State) (v : View) (ordered : Bool) (old : Nat → List RouteEntry)
    (claim : Option Nat := none) : Option (Nat × Place) :=
  let c := fun (code : Nat) (x : Option Place) => x.map (fun y => (code, y))
  [c 0x07 (s.checkCoord v claim), c 0x08 (s.checkClusters v ordered), c 0x09 v.checkYard, c 0x0A v.checkBerths, c 0x0B v.checkPorts,
    c 0x0C (v.checkRoutes old), c 0x0D v.checkTraffic, c 0x0E v.checkReproducible, c 0x0F v.checkClaims,
    c 0x10 (s.checkPrograms v), c 0x11 v.checkSpares].findSome? id

end Sys2Proof.Machine
end

