-- ==== Sys2Proof/Machine/MfControl.lean ====
section
/-!
DEFINITION. The Manifest's load states, commit and amendments (R59 to R82).
-/

namespace Sys2Proof.Machine

/-! ## Results -/

/-- MF_REJECT and MF_REJECT_DETAIL (R62, Table 2.13). -/
def State.mfCode (s : State) (code : Nat) (x : Place) : State :=
  { s with mf := { s.mf with reject := BitVec.ofNat 32 (code + x.1 * 256 + x.2.1 * 65536),
                             rejectDetail := BitVec.ofNat 32 x.2.2 } }

/-- A command that is refused (R63): no state changes. -/
def State.mfRefuse (s : State) (code : Nat) : State := s.mfCode code nowhere

def State.modMf (s : State) (f : Mf → Mf) : State := { s with mf := f s.mf }
def State.modMfAux (s : State) (f : MfAux → MfAux) : State := { s with mfAux := f s.mfAux }

/-- A step program runs in the partition (MF_STATE.job_running). -/
def PState.jobRuns (x : PState) : Bool := x.live && decide (x ≠ .halted)
def State.jobRunning (s : State) : Bool := s.parts.any (fun e => e.2.state.jobRuns)

/-- The bytes in the incoming slot are an amendment's (R60). -/
def State.amendBytes (s : State) : Bool := decide (8 ≤ s.mf.incoming.length) && (byteAt s.mf.incoming 6).testBit 1

/-- An amendment is in progress. -/
def AmendState.busy : AmendState → Bool
  | .checking => true
  | .staged => true
  | .committing => true
  | .retiring => true
  | _ => false

/-- The incoming slot is empty. -/
def State.restState (s : State) : LoadState := if s.mf.active then .committed else .empty

/-! ## Loading (R60 to R64) -/

/-- LOAD. -/
def State.mfLoad (s : State) : State :=
  if s.mf.loadState ≠ .receiving ∨ s.amendBytes then s.mfRefuse 0x17
  else if s.jobRunning ∨ s.mf.amendState.busy then s.mfRefuse 0x16
  else s.modMf (fun m => { m with loadState := .verifying, owner := none })

/-- A full Manifest is rejected. -/
def State.mfRejected (s : State) (code : Nat) (x : Place) : State :=
  let s := (s.mfCode code x).modMf (fun m => { m with loadState := .rejected })
  s.raiseHm 0x3002 none (wordLe 4 s.mf.reject)

/-- Checks 1 to 4. -/
def State.checks1to4 (s : State) (v : View) : Option (Nat × Place) :=
  match v.checkHeader with
  | some x => some (0x01, x)
  | none =>
    match v.checkLength with
    | some x => some (0x02, x)
    | none =>
      match s.signerKey v with
      | none => some (0x04, nowhere)
      | some k => if v.signedBy k then none else some (0x03, nowhere)

/-- MANIFEST_SIGNATURE_VERIFIED: checks 1 to 4 end (R48, R62, Table 2.7). -/
def State.mfVerified (s : State) : State :=
  if s.mf.loadState ≠ .verifying then s
  else
    match s.checks1to4 (View.of s.mf.incoming) with
    | some (code, x) => s.mfRejected code x
    | none => s.modMf (fun m => { m with loadState := .checking })

/-- Every mirror partner on this device's feed is a warning (R64). -/
def State.feedWarnings (s : State) (v : View) : State :=
  (List.range v.partCount).foldl (fun s p =>
    match v.mirror p with
    | some m =>
      if m.partnerFeed = bits s.hm.feed 15 0 then
        (s.modMf (fun x => { x with warn := setBit x.warn 0 })).raiseHm 0x3008 (some p)
          (natLe 1 p ++ natLe 2 m.partner)
      else s
    | none => s) s

/-- Checks 5 to 17 and 21 of a Manifest; check 7 is that of the spare where `coord` is given (R447). -/
def State.checks5to21 (s : State) (v : View) (old : Nat → List RouteEntry) (coord : Option Nat := none) : Option (Nat × Place) :=
  match v.checkTable with
  | some x => some (0x05, x)
  | none =>
    match v.checkRequired with
    | some x => some (0x06, x)
    | none =>
      match s.checks7to17 v true old coord with
      | some x => some x
      | none => v.checkPolicy.map (fun x => (0x12, x))

/-- MANIFEST_CHECKS_COMPLETE (R62): LOADED, with the RWL fields writable until COMMIT (R68), or REJECTED. Checks that pass
leave code 0 and no section and no entry in MF_REJECT (log entry 69). -/
def State.mfChecked (s : State) : State :=
  if s.mf.loadState ≠ .checking then s
  else
    let v := View.of s.mf.incoming
    match s.checks5to21 v (fun _ => []) with
    | some (code, x) => s.mfRejected code x
    | none =>
      let s := (s.mfCode 0 nowhere).modMf (fun m => { m with loadState := .loaded })
      let s := (s.modMfAux (fun a => { a with locked := false })).feedWarnings v
      s.raiseHm 0x3001 none (wordLe 8 v.header.manifestId)

/-- DISCARD (R61). -/
def State.mfDiscard (s : State) : State :=
  if s.mf.loadState = .verifying ∨ s.mf.loadState = .checking ∨ s.mf.slotHeld then s.mfRefuse 0x17
  else s.modMf (fun m =>
    { m with incoming := [], owner := none, loadState := s.restState,
             amendState := if m.amendState = .receiving then .none else m.amendState })

/-! ## Programming (R66, R119, R127, R300) -/

/-- Clusters, links and Gateway that a Manifest needs are ready (R530). -/
def State.commitReady (s : State) (v : View) : Bool :=
  s.ready readyGateway
    && v.parts.all (fun p => p.masks.zipIdx.all (fun m => decide (m.1 = 0) || s.ready (readyCompute m.2)))
    && v.ports.all (fun r => r.links.all (fun k => s.ready (readyLink (k / 4))))

/-- The context of a record. -/
def CtxRec.context (r : CtxRec) (p : Nat) (resident : Bool) (now : DWord) : Ctx :=
  { part := BitVec.ofNat 6 p, id := r.ctx, slot := BitVec.ofNat 1 r.slot, priority := BitVec.ofNat 2 r.priority,
    base := r.base, size := r.size, resident := resident, halted := false, runsOn := 0, since := now,
    due := false, window := [], carries := [] }

/-- The record describes a context as it stands. -/
def CtxRec.same (r : CtxRec) (x : Ctx) : Bool :=
  decide (x.id = r.ctx) && decide (x.slot.toNat = r.slot) && decide (x.base = r.base) && decide (x.size = r.size)

/-- The contexts of a partition on a cluster after a commit: those that stand as their record says go on; of each
other slot the lowest identity is resident (R119). -/
def contextsFor (p : Nat) (rs : List CtxRec) (had : List Ctx) (now : DWord) : List Ctx :=
  let kept := had.filter (fun x => rs.any (fun r => r.same x))
  let new := (sortBy (fun a b => decide (a.ctx ≤ b.ctx)) rs).filter (fun r => !had.any (fun x => r.same x))
  let held := fun slot => kept.any (fun x => x.resident && decide (x.slot.toNat = slot))
  kept.map (fun x => match rs.find? (fun r => r.same x) with
      | some r => { x with priority := BitVec.ofNat 2 r.priority }
      | none => x)
    ++ new.zipIdx.map (fun ri =>
      ri.1.context p (!held ri.1.slot && (new.take ri.2).all (fun q => decide (q.slot ≠ ri.1.slot))) now)

/-- A logical cluster of the partition: its contexts, and its store cleared where it comes from another (R127). -/
def State.programCluster (s : State) (p : Nat) (cfg : PartCfg) (keep mine : Bool) (die l : Nat) : State :=
  match s.physOf die l with
  | none => s
  | some c =>
    let rs := cfg.program.contexts.filter (fun r => decide (r.die = die) && decide (r.cluster = l))
    let now := s.hm.time
    s.modCluster die c (fun x =>
      let had := if keep then x.ctxs.filter (fun y => decide (y.part.toNat = p)) else []
      { x with ctxs := contextsFor p rs had now, store := if mine then x.store else [],
               flight := if keep then x.flight else [], swap := if keep then x.swap else none })

/-- The same cluster, context, slot and window. -/
def CtxRec.stays (r q : CtxRec) : Bool :=
  decide (q.cluster = r.cluster) && decide (q.ctx = r.ctx) && decide (q.slot = r.slot) && decide (q.base = r.base)
    && decide (q.size = r.size)

/-- The cells of a saved context's image as it stood before a commit, moved to `dest`. -/
def State.imageCells (before : State) (p die : Nat) (olds : List CtxRec) (r : CtxRec) (dest : Nat) : Cells :=
  if !olds.any r.stays then []
  else
    match before.saveBuffer p die, imageOffset olds r.cluster r.ctx 0 with
    | some b, some off =>
      if off + imageBytes r.size ≤ b.bufSize then
        Cells.moved before.mem.yard (die * 2 ^ 27 + b.bufOff + off) (imageBytes r.size) dest
      else []
    | _, _ => []

/-- The images of the partition's saved contexts stand at their positions (R119, R124): zero for a context that the commit
places, and as it was for one that goes on under an amendment, whose position may have moved (log entry 90). -/
def State.layImages (s before : State) (p : Nat) (olds : List CtxRec) (cfg : PartCfg) : State :=
  (List.range 8).foldl (fun s die =>
    match s.saveBuffer p die with
    | none => s
    | some b =>
      let rs := contextOrder cfg.program.contexts die
      rs.foldl (fun (s : State) (r : CtxRec) =>
        match imageOffset rs r.cluster r.ctx 0 with
        | none => s
        | some off =>
          let resident : Bool := match s.physOf die r.cluster with
            | some c => (s.cluster die c).ctxs.any (fun x => decide (x.id = r.ctx) && x.resident)
            | none => true
          if resident = true ∨ b.bufSize < off + imageBytes r.size then s
          else
            let dest := die * 2 ^ 27 + b.bufOff + off
            s.putCells .yard dest (imageBytes r.size) (before.imageCells p die (contextOrder olds die) r dest)) s) s

/-- Clusters that a partition no longer owns lose its contexts. -/
def State.dropClusters (s : State) (p : Nat) (owned : Nat → Nat → Bool) : State :=
  let keys := (s.clusters.filter (fun e => e.2.hasPart p)).map (·.1)
  keys.foldl (fun s k =>
    let c := s.clusterAt k
    let mine := match c.logical with
      | some l => owned (k / 256) l.toNat
      | none => false
    if mine then s
    else s.setClusterAt k { c with ctxs := c.ctxs.filter (fun x => decide (x.part.toNat ≠ p)), flight := [], swap := none }) s

/-- The berths of a partition take their configurations; those it no longer has become unused, an amendment's after the
items they hold (R66, R76), unless another partition has taken the berth already. A Manifest programmed whole (`fresh`) leaves no berth under an old descriptor (R66, R72). -/
def State.programBerths (s : State) (p : Nat) (rs : List BerthRange) (tag : Byte) (fresh : Bool) : State :=
  let s := (s.berthsOf p).foldl (fun s n =>
    if (berthIn rs n).isSome then s
    else if !fresh then (if (s.berth n).cfg.kindOf ≠ 0 ∧ (s.berth n).cfg.partition = p then s.programBerth n BerthCfg.zero tag else s)
    else s.modBerth n (fun b => { Berth.zero with drops := b.drops, enqueued := b.enqueued, status := b.status })) s
  rs.foldl (fun s r => (List.range r.count).foldl (fun s i =>
    if fresh then s.freshBerth (r.first + i) (r.nth i) tag else s.programBerth (r.first + i) (r.nth i) tag) s) s

/-- IMAGES go into the region that image_region names (Table 12.1): near tier or Yard, since the Gateway reaches the hold
tier only for the Manifest store and for snapshots (R279; log entry 73). -/
def State.copyImages (s : State) (p : Nat) (g : StepProgram) : State :=
  match g.regions[g.control.imageRegion]? with
  | some r =>
    match spaceOf r.kind with
    | some .hold => s
    | some sp => (s.touch { part := p, noAlloc := false } true sp r.lo g.images.length).store sp r.lo g.images
    | none => s
  | none => s

/-- A die's scratchpad changes its size (R300): what is added reads zero, and the cache gives up its lines, dirty ones
written back. -/
def State.setScratch (s : State) (die units : Nat) : State :=
  let old := (s.memDie die).scratch
  let s := s.modMemDie die (fun m => { m with scratch := units })
  let s := if units = old then s else s.emptyCache die
  if old < units then s.clearBytes .yard (die * 2 ^ 27 + old * 0x800000) ((units - old) * 0x800000) else s

/-- A link that a commit places in a port leaves DARK (R368) and is extra no more (R388): those of `old` were placed
before. -/
def State.wakeLinks (s : State) (old ports : List PortRec) : State :=
  ((ports.flatMap PortRec.links).filter (fun k => !(old.flatMap PortRec.links).contains k)).foldl (fun s k =>
    let s := { s with kx := { s.kx with extra := clearBit s.kx.extra k } }
    if (s.link k).state = .dark then s.detectLink k 0 else s) s

/-- An ACTIVE link that the plan puts in no port becomes DARK, as an extra one that CHECK finds (R360, Table 10.6). -/
def State.darkenExtras (s : State) (ports : List PortRec) : State :=
  ((List.range 16).filter (fun k => decide ((s.link k).state = .active) && !(ports.flatMap PortRec.links).contains k)).foldl
    (fun s k =>
      let found := bits (s.link k).peerCoord 15 0
      let s := s.modLink k (fun l => { l with state := .dark, retraining := false })
      ({ s with kx := { s.kx with extra := setBit s.kx.extra k } }).raiseDie 0x6002 (ldIndex (k / 4)) none
        (natLe 1 k ++ natLe 2 found)) s

/-- Discovery runs from the commit (R370). -/
def State.startDiscovery (s : State) : State :=
  { s with kx := { s.kx with disc := .running, byDefault := false, missing := 0, extra := 0, waitLeft := 0,
                             missingDims := [] } }

/-- Route entries of a partition. -/
def routeEntries (p : Nat) (tag : Byte) (rs : List RouteRec) : List RouteEntry :=
  rs.map (fun r => { part := BitVec.ofNat 6 p, tag := tag, route := r })

/-- A partition at a full commit (R424): STANDBY where a record of the device's own pool names it. What lies on the
drives stays: entries and complete snapshots. An amendment carries the detector's m and c over (R200). -/
def State.freshPart (s : State) (p : Nat) (cfg : PartCfg) (standby amends : Bool) : State :=
  let old := s.part p
  let det := if amends then { Detector.zero with mean := (s.det p).mean, seen := (s.det p).seen } else Detector.zero
  let cfgWord := (s.run p).lading.cfg
  let log := { StepLog.zero with entries := (s.log p).entries, slots := (s.log p).slots }
  let s := s.setPart p
    { Part.zero with cfg := some cfg, state := if standby then .standby else .idle,
                     cadence := BitVec.ofNat 32 cfg.recovery.snapshotEvery, rewinds := old.rewinds,
                     excusals := old.excusals, lateFolds := old.lateFolds, drops := old.drops }
  s.setRun p { PartRun.zero with log := log, det := det, lading := { Lading.zero with cfg := cfgWord } }

/-- The clusters of the partitions of a Manifest, each given once. -/
def State.programParts (s : State) (v : View) (keep : Bool) (prev : Nat → Nat → Option Nat) (tag : Byte) : State :=
  v.parts.foldl (fun (s : State) (r : PartRec) =>
    let p := r.id
    let cfg := v.partCfg p r
    let s := r.masks.zipIdx.foldl (fun s md => (bitsSet 250 md.1).foldl (fun s l =>
      s.programCluster p cfg keep (decide (prev md.2 l = some p)) md.2 l) s) s
    let s := ((s.programBerths p cfg.berths tag true).copyImages p cfg.program)
    let s := s.layImages s p [] cfg
    s) s

/-- A whole Manifest is programmed: COMMIT of a full Manifest, tag 0, or of a staged amendment while no partition runs
(R66, R72). -/
def State.program (s : State) (v : View) (tag : Byte) (amends : Bool) : State :=
  let prev := fun die l => s.ownerOf die l
  let old := s.parts.map (·.1)
  let n := v.partCount
  let oldClaims := s.mfAux.dev.claims
  let s := old.foldl (fun s p => if p < n then s else s.dropClusters p (fun _ _ => false)) s
  let s := old.foldl (fun s p => if p < n then s else (s.programBerths p [] tag true).setPart p Part.zero) s
  let s := v.parts.foldl (fun (s : State) (r : PartRec) => s.dropClusters r.id (fun die l => (r.masks.getD die 0).testBit l)) s
  let s := s.modMfAux (fun a => { a with dev := v.devCfg, phases := [] })
  let s := v.yard.zipIdx.foldl (fun s ud => s.setScratch ud.2 ud.1) s
  let s := v.claims.foldl State.startClaim (s.dropClaims oldClaims v.claims)
  let coord := v.header.deviceCoord
  let s := v.parts.foldl (fun (s : State) (r : PartRec) => s.freshPart r.id (v.partCfg r.id r)
    (v.pools.any (fun q => decide (q.spare = coord) && decide (q.part = r.id))) amends) s
  let s := s.programParts v false prev tag
  let s := { s with kx := { s.kx with routes := v.parts.flatMap (fun (r : PartRec) => routeEntries r.id tag (v.routes r.id)) } }
  let s := { s with ptAux := { s.ptAux with
    profiles := [], profileAt := profileMap 0 (v.parts.map (fun (r : PartRec) => (r.id, (v.program r.id).body.length))), berthEnergy := [] } }
  ((s.wakeLinks [] v.ports).startDiscovery.darkenExtras v.ports).service 9 false

/-- MF_COMMIT_TIME takes how long the commit took: a time (log entry 9). -/
def State.commitTime (s : State) : State :=
  let (t, s) := s.draw
  s.modMfAux (fun a => { a with commitTime := BitVec.ofNat 32 t })

/-- Every commit sends the committed Manifest store to the partner (R438). -/
def State.sendStore (s : State) (p : Nat) : State :=
  match (s.cfg? p).bind (·.mirror) with
  | some _ => s.send p (.manifestStore s.mf.activeId)
  | none => s

/-- The same for every partition. -/
def State.sendStores (s : State) : State := (s.parts.map (·.1)).foldl State.sendStore s

/-- COMMIT of a loaded Manifest (R66). -/
def State.commitLoaded (s : State) : State :=
  let b := s.mf.incoming
  let v := View.of b
  if s.jobRunning ∨ !s.commitReady v then s.mfRefuse 0x16
  else
    let s := (s.program v 0 false).commitTime
    let s := s.modMf (fun m =>
      { m with activeBytes := b, incoming := [], shadow := [], active := true, loadState := .committed,
               amendState := .none, slotHeld := false, owner := none, activeId := v.header.manifestId,
               reproducible := v.header.reproducible, partCount := v.partCount, jobId := v.header.jobId, pend := 0,
               done := 0, tag := 0, prevTag := 0, prevLive := false })
    let s := s.modMfAux (fun a =>
      { a with locked := true, loadCount := a.loadCount + 1, digest := sha384 b, shadowDigest := [], plan := [] })
    (s.raiseHm 0x3003 none (wordLe 8 v.header.manifestId)).sendStores

/-! ## Amendments (R69 to R78) -/

/-- AMEND (R60, R69). A second one is busy while one is in progress (R63). With no Manifest active there is no COMMITTED
to return to: load_state becomes EMPTY (log entry 63). -/
def State.mfAmend (s : State) : State :=
  if s.mf.amendState.busy then s.mfRefuse 0x16
  else if s.mf.loadState ≠ .receiving ∨ !s.amendBytes then s.mfRefuse 0x17
  else s.modMf (fun m =>
    { m with loadState := s.restState, amendState := .checking, slotHeld := true, owner := none })

/-- The sections of a Manifest: type, partition and bytes; and sections in the order of R50. -/
def View.sects (v : View) : List (Nat × Nat × Bytes) := v.table.map (fun e => (e.type, e.part, slice v.bytes e.off e.len))
def sortSects (xs : List (Nat × Nat × Bytes)) : List (Nat × Nat × Bytes) :=
  sortBy (fun a b => decide (a.1 < b.1) || (decide (a.1 = b.1) && decide (a.2.1 ≤ b.2.1))) xs

/-- The sections of the shadow Manifest: those of the active one with the replaced ones substituted (R69), each with
its bytes, in order. A partition that the amendment removes (R72) takes its sections with it (log entry 63). -/
def shadowSects (act am : View) : List (Nat × Nat × Bytes) :=
  let new := am.sects.filter (fun x => decide (x.1 ≠ secPlan))
  let count := match new.find? (fun x => decide (x.1 = secPartitions)) with
    | some x => x.2.2.length / 272
    | none => act.partCount
  let kept := act.sects.filter (fun x => !new.any (fun y => decide (y.1 = x.1) && decide (y.2.1 = x.2.1))
    && (!partScoped x.1 || decide (x.2.1 < count)))
  sortSects (kept ++ new)

/-- The sections laid out one after another, each on an 8-byte boundary: table and bodies. -/
def layOut : Nat → List (Nat × Nat × Bytes) → Bytes × Bytes
  | _, [] => ([], [])
  | off, x :: xs =>
    let n := (x.2.2.length + 7) / 8 * 8
    let (t, b) := layOut (off + n) xs
    (natLe 2 x.1 ++ natLe 1 x.2.1 ++ [0] ++ natLe 4 off ++ natLe 4 x.2.2.length ++ zeros 4 ++ t, padTo n x.2.2 ++ b)

/-- A Manifest's header and signature around sections, with their count, their length and their partitions. -/
def View.withSects (v : View) (xs : List (Nat × Nat × Bytes)) : Bytes :=
  let (t, b) := layOut (64 + 16 * xs.length) xs
  let parts := match xs.find? (fun x => decide (x.1 = secPartitions)) with
    | some x => x.2.2.length / 272
    | none => v.header.partCount
  let total := 64 + t.length + b.length + 96
  let h := splice (splice (splice (v.bytes.take 64) 8 (natLe 4 total)) 12 (natLe 2 xs.length)) 42 (natLe 2 parts)
  h ++ t ++ b ++ v.bytes.drop (v.bytes.length - 96)

/-- The shadow Manifest as bytes (log entry 17): the active header with the amended count and length. -/
def shadowBytes (act am : View) : Bytes := act.withSects (shadowSects act am)

/-- What a spare has in force (R447): the received store's header and its sections of the partition, beside the spare's own
sections of the device and of its other partitions (laid out as in log entry 17). -/
def spareBytes (own got : View) (p : Nat) : Bytes :=
  let mine := fun (x : Nat × Nat × Bytes) => partScoped x.1 && decide (x.2.1 = p)
  got.withSects (sortSects (own.sects.filter (fun x => !mine x) ++ got.sects.filter mine))

/-- The partitions that an amendment changes: by a section of their own, their record, or their claims. -/
def changedParts (act am sh : View) : List Nat :=
  (List.range (max act.partCount sh.partCount)).filter (fun p =>
    am.table.any (fun e => partScoped e.type && decide (e.part = p)) || decide (act.parts[p]? ≠ sh.parts[p]?)
      || decide (act.claims.filter (fun c => decide (c.owner = p)) ≠ sh.claims.filter (fun c => decide (c.owner = p)))
      || decide (act.ports.filter (fun r => decide (r.owner = p)) ≠ sh.ports.filter (fun r => decide (r.owner = p)))
      || decide (act.pools.filter (fun r => decide (r.part = p)) ≠ sh.pools.filter (fun r => decide (r.part = p))))

/-- Route entries of partition p of both live tags, while its ROUTES section changes. -/
def oldRoutes (act am : View) (p : Nat) : List RouteEntry :=
  if am.has secRoutes p then routeEntries p 0 (act.routes p) else []

/-- The clusters of die d owned after the first k records of the plan. -/
def ownedAfter (act sh : View) (plan : List PlanRec) (k d : Nat) : Nat :=
  let done := (plan.take k).map (·.part)
  ((List.range (max act.partCount sh.partCount)).map (fun p =>
    let v := if done.contains p then sh else act
    popCount 250 (((v.parts[p]?).map (fun r => r.masks.getD d 0)).getD 0))).sum

/-- How many logical clusters of a die are serviceable: physical clusters that carry a number, unless the die has
failed (R130, R531). -/
def State.serviceableCount (s : State) (die : Nat) : Nat :=
  if bit s.hm.readyFail (readyCompute die) ∨ s.dead (cdIndex die) then 0
  else (List.range 256).countP (fun c => (s.cluster die c).logical.isSome)

/-- The place in the plan at which an owner's entries commit: those of the device with the first partition (R71). -/
def planPos (plan : List Nat) (owner : Nat) : Nat :=
  if owner = 0xFF then 0 else (indexOf? (fun p => decide (p = owner)) plan).getD plan.length

/-- A partition of a Manifest uses a port: by a route, or by a group that spans its dimension. -/
def View.usesPort (v : View) (p : Nat) (r : PortRec) : Bool :=
  (v.routes p).any (fun e => decide (e.port = r.port)) || (v.groups p).any (fun g => g.dimMask.testBit r.dimension)

/-- A port keeps its classes' shares. -/
def TrafficRec.keeps (t : TrafficRec) (new : List TrafficRec) : Bool :=
  match new.find? (fun u => decide (u.port = t.port)) with
  | some u => decide (t.c1Share ≤ u.c1Share) && decide (t.c2Share ≤ u.c2Share) && decide (t.transitShare ≤ u.transitShare)
  | none => false

/-- A change of a device-wide entry takes nothing that a partition not yet committed uses (R71; log entry 67): the Yard
under its regions, the shares of a port it uses, a port its routes use, its pin or its timer. -/
def takesNothing (act sh : View) (plan : List Nat) : Bool :=
  let parts := List.range act.partCount
  let pos := planPos plan
  let later := fun (r : PortRec) => parts.any (fun p => decide (pos p ≠ 0) && act.usesPort p r)
  parts.all (fun p => decide (pos p = 0) || (act.program p).regions.all (fun r =>
      decide (r.kind ≠ 2) || decide ((r.base + r.size) * 4096 ≤ sh.yard.getD r.unit 0 * 0x800000)))
    && act.traffic.all (fun t => t.keeps sh.traffic || !act.ports.any (fun r => decide (r.port = t.port) && later r))
    && act.ports.all (fun r => sh.ports.contains r ||
      (let at_ := ((sh.ports.filter (fun q => decide (q.port = r.port))).map (fun q => pos q.owner)).foldl min (pos r.owner)
       parts.all (fun p => decide (pos p ≤ at_) || !act.usesPort p r)))
    && act.claims.all (fun a => decide (a.kind = 3) || sh.claims.all (fun b =>
      decide (b.kind ≠ a.kind) || decide (b.index ≠ a.index) || decide (b.owner = a.owner)
        || decide (pos a.owner ≤ pos b.owner)))

/-- The berths that ranges give, by number. -/
def berthList (rs : List BerthRange) : List (Nat × BerthCfg) :=
  rs.flatMap (fun r => (List.range r.count).map (fun i => (r.first + i, r.nth i)))

/-- Two rings share no byte. -/
def BerthCfg.ringApart (a b : BerthCfg) : Bool :=
  decide (a.ringSpace ≠ b.ringSpace) || apart a.ringAddr (a.capacity * a.slotSize) b.ringAddr (b.capacity * b.slotSize)

/-- The old ring of every berth that the amendment changes lies in a region of its partition, and equals the berth's new
ring or lies apart from it and from every other new ring (R352). -/
def oldRingsFit (act sh : View) : Bool :=
  (List.range (min act.partCount sh.partCount)).all (fun p =>
    let news := berthList (sh.berths p)
    (berthList (act.berths p)).all (fun o => decide (berthIn (sh.berths p) o.1 = some o.2)
      || (ringInRegion (sh.program p).regions (bits o.2.ringHi 3 2) o.2.ringAddr (o.2.capacity * o.2.slotSize)
        && news.all (fun x => (decide (x.1 = o.1) && x.2.sameRing o.2) || x.2.ringApart o.2))))

/-- Check 19: the mixed state fits (R71, R74, R352). -/
def State.mixedFits (s : State) (act am sh : View) : Bool :=
  let n := max act.partCount sh.partCount
  let plan := am.plan
  let buffers := (act.claims ++ sh.claims.filter (fun c => !act.claims.contains c)).filter (fun c => decide (c.kind = 3))
  let routes := ((List.range n).map (fun p => (sh.routes p).length + (oldRoutes act am p).length)).sum
  let remaps := ((List.range n).map (fun p => (sh.remaps p).length
    + (if am.has secRoutes p then (act.remaps p).length else 0))).sum
  decide (routes ≤ 8192) && decide (remaps ≤ 4096)
    && (firstMeeting [] (buffers.map (fun c => (c.index, c.bufOff, c.bufSize, nowhere)))).isNone
    && buffers.all (fun c => bufferFits sh.yard c)
    && (List.range plan.length).all (fun k => (List.range 8).all (fun d =>
      decide (ownedAfter act sh plan (k + 1) d ≤ s.serviceableCount d)))
    && takesNothing act sh (plan.map (·.part)) && oldRingsFit act sh

/-- Check 20: nothing locked changes (R58, R70, R72), the order of the partition_ids among it. A COMMIT_PLAN that repeats a partition, names one that does not exist
or misses a changed one fails it too (log entry 70). -/
def State.lockedKept (s : State) (act am sh : View) : Bool :=
  let plan := am.plan.map (·.part)
  let moved := act.parts.flatMap (fun a => sh.parts.filterMap (fun b =>
    if a.id ≠ b.id ∧ (List.range 8).any (fun d => decide (a.masks.getD d 0 &&& b.masks.getD d 0 ≠ 0)) then
      some (a.id, b.id)
    else none))
  decide (am.header.reproducible = act.header.reproducible)
    && (decide (act.partCount = sh.partCount) || !s.jobRunning) && sh.inOrder
    && noRepeat plan && plan.all (fun p => decide (p < max act.partCount sh.partCount))
    && (changedParts act am sh).all (fun p => plan.contains p)
    && moved.all (fun ab => match indexOf? (fun p => decide (p = ab.1)) plan, indexOf? (fun p => decide (p = ab.2)) plan with
      | some i, some j => decide (i < j)
      | _, _ => false)

/-- The checks of an amendment, in the order of Table 2.8 (R69). -/
def State.amendChecks (s : State) (act am : View) : Option (Nat × Place) :=
  match s.checks1to4 am with
  | some x => some x
  | none =>
    match am.checkTable with
    | some x => some (0x05, x)
    | none =>
      -- No shadow Manifest can be built where none is active: check 18 (log entry 63).
      if !s.mf.active then some (0x13, nowhere) else
      let sh := View.of (shadowBytes act am)
      match sh.checkTable with
      | some x => some (0x05, x)
      | none =>
        if !am.has secPlan 0xFF ∨ sh.checkRequired.isSome then some (0x06, nowhere)
        else
          match s.checks7to17 sh false (oldRoutes act am) with
          | some x => some x
          | none =>
            if am.header.baseId ≠ s.mf.activeId then some (0x13, nowhere)
            else if !s.mixedFits act am sh then some (0x14, nowhere)
            else if !s.lockedKept act am sh then some (0x15, nowhere)
            else sh.checkPolicy.map (fun x => (0x12, x))

/-- The bits of a set of partitions. -/
def partBits (ps : List Nat) : DWord := ps.foldl (fun w p => setBit w p) 0

/-- AMENDMENT_CHECKS_COMPLETE (R69): STAGED or REJECTED. The digest of the shadow Manifest is over bytes whose layout
the manual leaves open: it is free (log entry 17). -/
def State.amendChecked (s : State) : State :=
  if s.mf.amendState ≠ .checking then s
  else
    let act := View.of s.mf.activeBytes
    let am := View.of s.mf.incoming
    match s.amendChecks act am with
    | some (code, x) =>
      let s := (s.mfCode code x).modMf (fun m => { m with amendState := .rejected, slotHeld := false, incoming := [] })
      s.raiseHm 0x3005 none (wordLe 4 s.mf.reject)
    | none =>
      let sh := shadowBytes act am
      let (d, s) := s.draw
      let s := (s.mfCode 0 nowhere).modMf (fun m =>
        { m with amendState := .staged, shadow := sh, shadowId := am.header.manifestId,
                 pend := partBits (am.plan.map (·.part)), done := 0 })
      let s := (s.modMfAux (fun a => { a with plan := am.plan, shadowDigest := natLe 48 d })).feedWarnings (View.of sh)
      s.raiseHm 0x3004 none (wordLe 8 am.header.manifestId)

/-- WITHDRAW (R73). -/
def State.mfWithdraw (s : State) : State :=
  if s.mf.amendState ≠ .staged ∨ s.mf.done ≠ 0 then s.mfRefuse 0x17
  else
    let id := s.mf.shadowId
    let s := s.modMf (fun m =>
      { m with amendState := .none, shadow := [], slotHeld := false, incoming := [], pend := 0 })
    (s.modMfAux (fun a => { a with plan := [], shadowDigest := [] })).raiseHm 0x300B none (wordLe 8 id)

/-- A partition is halted: it commits nothing until it is restarted (R199). -/
def State.someHalted (s : State) : Bool := s.parts.any (fun e => decide (e.2.state = .halted))

/-- COMMIT of a staged amendment while no partition runs (R72): steps 1 to 5 of R66, with the tag of R75. -/
def State.commitStaged (s : State) : State :=
  let v := View.of s.mf.shadow
  if s.someHalted ∨ !s.commitReady v then s.mfRefuse 0x16
  else
    let tag := s.mf.tag + 1
    let s := (s.program v tag true).commitTime
    let s := s.modMf (fun m =>
      { m with amendState := .committing, prevTag := m.tag, tag := tag, prevLive := false, pend := 0,
               partCount := v.partCount })
    let s := (s.modMfAux (fun a => { a with locked := true })).raiseHm 0x3003 none (wordLe 8 v.header.manifestId)
    s.amendCheck.sendStores

/-- COMMIT (R66, R72). In LOADED a job that runs gives 0x16; where only an amendment is staged, COMMIT is not valid while a
job runs, 0x17 (log entry 68). -/
def State.mfCommit (s : State) : State :=
  if s.mf.loadState = .loaded then s.commitLoaded
  else if s.mf.amendState = .staged ∧ !s.jobRunning then s.commitStaged
  else s.mfRefuse 0x17

/-! ## The commit of one partition (R70, R71, R76, R77) -/

/-- The device-wide entries that commit with a partition: its own, and with the first of the plan those of the device
(R71). -/
def commitDev (old new : DevCfg) (p : Nat) (first : Bool) : DevCfg :=
  let mine := fun (o : Nat) => decide (o = p) || (first && decide (o = 0xFF))
  let mix {α : Type} (own : α → Nat) (a b : List α) : List α :=
    a.filter (fun x => !mine (own x)) ++ b.filter (fun x => mine (own x))
  { yard := if first then new.yard else old.yard
    ports := sortBy (fun a b => decide (a.port ≤ b.port)) (mix (·.owner) old.ports new.ports)
    traffic := if first then new.traffic else old.traffic
    pools := mix (·.part) old.pools new.pools
    claims := mix (·.owner) old.claims new.claims
    discovery := if first then new.discovery else old.discovery }

/-- The partition-scoped sections of a Manifest are installed for a partition, beside the device-wide ones in force. -/
def State.installPart (s : State) (v : View) (p : Nat) (tag : Byte) : State :=
  match v.parts[p]?, (s.part p).cfg with
  | some r, some old =>
    let cfg := v.partCfg p r
    let s := s.dropClusters p (fun die l => (r.masks.getD die 0).testBit l)
    let s := ((s.pinPlaces p).modPart p (fun x => { x with cfg := some cfg })).unlearn p
    let s := r.masks.zipIdx.foldl (fun s md => (bitsSet 250 md.1).foldl (fun s l =>
      s.programCluster p cfg true ((old.part.masks.getD md.2 0).testBit l) md.2 l) s) s
    let s := s.programBerths p cfg.berths tag false
    let s := if cfg.program.images = old.program.images ∧ cfg.program.control.imageRegion = old.program.control.imageRegion
      then s else s.copyImages p cfg.program
    if cfg.routes = old.routes ∧ cfg.remaps = old.remaps then s
    else
      let s := { s with kx := { s.kx with routes := s.kx.routes ++ routeEntries p tag cfg.routes } }
      s.modMfAux (fun a => { a with phases := a.phases.set (fun _ => .none) p .added })
  | _, _ => s

/-- The save images after a partition commit. -/
def State.layCommitted (s before : State) (p : Nat) : State :=
  match (before.part p).cfg, (s.part p).cfg with
  | some old, some cfg => s.layImages before p old.program.contexts cfg
  | _, _ => s

/-- The partition's part of the staged amendment is programmed. -/
def State.programPart (s : State) (v : View) (p : Nat) (tag : Byte) (first : Bool) : State :=
  if v.parts.length ≤ p ∨ (s.part p).cfg = none then s
  else
    let before := s
    let dev := commitDev s.mfAux.dev v.devCfg p first
    let oldClaims := s.mfAux.dev.claims
    let oldPorts := s.mfAux.dev.ports
    let newOnes := dev.claims.filter (fun c => !oldClaims.contains c)
    let s := s.modMfAux (fun a => { a with dev := dev })
    let s := if first then dev.yard.zipIdx.foldl (fun s ud => s.setScratch ud.2 ud.1) s else s
    let s := newOnes.foldl State.startClaim (s.dropClaims oldClaims dev.claims)
    let s := (s.installPart v p tag).layCommitted before p
    (s.wakeLinks oldPorts dev.ports).darkenExtras dev.ports

/-- A COMMIT record (Table 12.10): 0 commit, 1 switch, 2 retire. -/
def State.commitRecord (s : State) (p phase : Nat) : State :=
  s.addRecord p recCommit (wordLe 8 s.mf.shadowId ++ natLe 1 s.mf.tag.toNat ++ natLe 1 phase ++ zeros 6)

/-- The next partition of the plan that has not committed. -/
def State.nextOfPlan (s : State) : Option PlanRec := s.mfAux.plan.find? (fun r => bit s.mf.pend r.part)

/-- The partition commits its part of the staged amendment (R70). -/
def State.commitPart (s : State) (p : Nat) : State :=
  let first := decide (s.mf.done = 0)
  let tag := if first then s.mf.tag + 1 else s.mf.tag
  let s := s.modMf (fun m =>
    if first then { m with prevTag := m.tag, tag := tag, prevLive := true } else m)
  let s := (s.programPart (View.of s.mf.shadow) p tag first).commitTime
  let s := s.modMf (fun m =>
    { m with pend := clearBit m.pend p, done := setBit m.done p,
             amendState := if clearBit m.pend p = 0 then .retiring else .committing })
  ((s.commitRecord p 0).raiseHm 0x3006 (some p)
    (natLe 1 p ++ wordLe 8 (s.part p).step ++ natLe 1 tag.toNat)).sendStore p

/-- The partition commits its part at this slack water, if it is due (R70, R79, R82). An amendment that adds or removes a
partition waits for COMMIT (R72). -/
def State.partitionCommit (s : State) (p : Nat) : State :=
  if (s.mf.amendState ≠ .staged ∧ s.mf.amendState ≠ .committing)
      ∨ (View.of s.mf.shadow).partCount ≠ s.mf.partCount then s
  else
    match s.nextOfPlan with
    | none => s
    | some r => if r.part ≠ p ∨ (s.part p).step.toNat < r.earliest then s else s.commitPart p

/-- Senders stamp the new route tag (R77). -/
def State.routeSwitch (s : State) (p : Nat) : State :=
  (s.modMfAux (fun a => { a with phases := a.phases.set (fun _ => .none) p .switched })).commitRecord p 1

/-- Old route entries are removed (R77). At most two tags are live (R75), so the old entries are those of the previous
one. -/
def State.routeRetire (s : State) (p : Nat) : State :=
  let gone := fun (e : RouteEntry) => decide (e.part.toNat = p) && decide (e.tag = s.mf.prevTag)
  let s := { s with kx := { s.kx with routes := s.kx.routes.filter (fun e => !gone e) } }
  (s.modMfAux (fun a => { a with phases := a.phases.set (fun _ => .none) p .retired })).commitRecord p 2

/-- MF_OLD_INFLIGHT: packets with the previous tag that have not left this device. -/
def State.oldInflight (s : State) : Nat :=
  let old := fun (x : Packet) => s.mf.prevLive && decide (x.tag = s.mf.prevTag)
  let begun := s.kx.ports.flatMap (fun (e : Nat × PortEgress) => e.2.begun.map (·.1))
  (((s.kx.egress.map (·.2) ++ s.kx.relay.map (·.2) ++ begun).filter old).length)

/-- Switch, and retire or its deferral, of a route the partition changed at an earlier slack water (R77). -/
def State.routePhase (s : State) (p : Nat) : State :=
  match s.mfAux.phases.get (fun _ => RoutePhase.none) p with
  | .added => s.routeSwitch p
  | .switched =>
    let n := s.oldInflight
    if n = 0 then s.routeRetire p
    else
      (s.modMf (fun m => { m with warn := setBit m.warn 1 })).raiseHm 0x3009 (some p)
        (natLe 1 p ++ wordLe 8 (s.part p).step ++ natLe 4 n)
  | _ => s

/-- Action 3 of slack water: the phases of changed routes, the commit when due, and the end of the amendment
(Table 12.8). A halted partition commits nothing; that its commit waits shows in MF_WARN (R82). -/
def State.amendAction (s : State) (p : Nat) (halted : Bool) : State :=
  if halted then
    (if bit s.mf.pend p ∧ (s.mf.amendState = .staged ∨ s.mf.amendState = .committing) then
      s.modMf (fun m => { m with warn := setBit m.warn 3 })
    else s)
  else ((s.routePhase p).partitionCommit p).amendCheck

/-! ## MF_CONTROL (Table 2.12) -/

/-- The address of MF_CONTROL. -/
def mfControl : Nat := 0x0003000C

/-- A command of MF_CONTROL. -/
def State.mfCommand (s : State) (cmd : Nat) : State :=
  match cmd with
  | 1 => s.mfLoad
  | 2 => s.mfCommit
  | 3 => s.mfAmend
  | 4 => s.mfWithdraw
  | 5 => s.mfDiscard
  | _ => s

/-- LOAD (R61). -/
def execLoad (s : State) : Out := .next (s.guardWrite .load readyHm mfControl State.mfLoad)

/-- MANIFEST_SIGNATURE_VERIFIED (R62). -/
def execManifestSignatureVerified (s : State) : Out := .next s.mfVerified

/-- MANIFEST_CHECKS_COMPLETE (R62). -/
def execManifestChecksComplete (s : State) : Out := .next s.mfChecked

/-- COMMIT (R66). -/
def execCommit (s : State) : Out := .next (s.guardWrite .commit readyHm mfControl State.mfCommit)

/-- AMEND (R69). -/
def execAmend (s : State) : Out := .next (s.guardWrite .amend readyHm mfControl State.mfAmend)

/-- AMENDMENT_CHECKS_COMPLETE (R69). -/
def execAmendmentChecksComplete (s : State) : Out := .next s.amendChecked

/-- WITHDRAW (R73). -/
def execWithdraw (s : State) : Out := .next (s.guardWrite .withdraw readyHm mfControl State.mfWithdraw)

/-- DISCARD (R61). -/
def execDiscard (s : State) : Out := .next (s.guardWrite .discard readyHm mfControl State.mfDiscard)

end Sys2Proof.Machine
end

