-- ==== Sys2Proof/Machine/Power.lean ====
section
/-!
DEFINITION. Power, droop and cooling (13): the cap and the ceiling, the fast loop, phase allocation, the pins, the
sluice, margin trimming, tide, the thermal ladder, the coolant limit, quiesce and energy. By R454 none of it changes a
value. How far the controller cuts, and what it observes, is not stated: those settings are free (log entry 9).
-/

namespace Sys2Proof.Machine

def State.modPt (s : State) (f : Pt → Pt) : State := { s with pt := f s.pt }
def State.modPtAux (s : State) (f : PtAux → PtAux) : State := { s with ptAux := f s.ptAux }

/-- The controller runs (Table 15.3). -/
def State.ptUp (s : State) : Bool := s.ready readyPower

/-- An event of the PT block. -/
def State.raisePt (s : State) (code : Nat) (payload : Bytes) : State := s.raiseHm code none payload

/-- An error bit of PT_ERROR (Table 13.15). -/
def State.ptError (s : State) (b : Nat) : State := s.modPt (fun x => { x with error := setBit x.error b })

/-- A change of every compute die. -/
def State.allDies (s : State) (f : PtDie → PtDie) : State := (List.range 8).foldl (fun s d => s.modPtDie d f) s

/-! ## The cap (R455) and the ceiling (R456) -/

/-- The limits in force, each with its code of Table 13.1. -/
def Limits.list (l : Limits) : List (Nat × Nat) :=
  (0, l.envelope) :: ([(1, l.headroom), (2, l.supply), (3, l.coolant), (4, l.thermal), (5, l.tide)].filterMap
    (fun x => x.2.map (fun v => (x.1, v))))

/-- The lowest limit and its code; among equals the lower code. -/
def Limits.least (xs : List (Nat × Nat)) (first : Nat × Nat) : Nat × Nat :=
  xs.foldl (fun m x => if x.2 < m.2 then x else m) first

/-- PT_CAP: the code and the value of C. -/
def Limits.cap (l : Limits) : Nat × Nat := Limits.least l.list (0, l.envelope)

/-- A change of the limits. Where C falls, a burst in progress ends and the new L applies at once (Table 13.9). -/
def State.setLimits (s : State) (f : Limits → Limits) : State :=
  s.modPt (fun x =>
    let l := f x.limits
    if l.cap.2 < x.limits.cap.2 then
      { x with limits := l, burst := false, ceiling := min x.ceiling l.cap.2 }
    else { x with limits := l })

/-- A write of PT_ENVELOPE (Table 13.1, code 0). -/
def State.setEnvelope (s : State) (value : Word) : State :=
  let w := max 1500 (min 9600 (bits value 15 0))
  (s.modPt (fun x => { x with envelope := BitVec.ofNat 32 w })).setLimits (fun l => { l with envelope := w })

/-- A write of PT_HEADROOM (R468). -/
def State.setHeadroom (s : State) (value : Word) : State :=
  let v := bits value 15 0
  let s := s.modPt (fun x => { x with headroom := BitVec.ofNat 32 v })
  if v = 0 then s.setLimits (fun l => { l with headroom := none })
  else
    let s := s.setLimits (fun l => { l with headroom := some (max 1500 v) })
    if v < 1500 then (s.ptError 1).raisePt 0x2002 (natLe 2 v) else s

/-- 1 ms means of the last 10 s. -/
def peakWindow : Nat := 10000

/-- L after one millisecond (R456). -/
def nextCeiling (cap ceiling peak : Nat) : Nat :=
  let l := if cap < ceiling then cap else min cap (ceiling + 12)
  min l (max (peak + 1200) 1500)

/-- The coolant limit moves toward its target: down at most 12 W in a millisecond (Table 13.1, R482). -/
def nextCoolant (now target : Nat) : Nat := if target < now then max target (now - 12) else target

/-- One millisecond passes for the coolant limit; a fall raises 0x2009 once a minute at most. -/
def State.coolantTick (s : State) : State :=
  match s.ptAux.coolTarget with
  | none => s
  | some target =>
    let old := s.pt.limits.coolant.getD 9600
    let new := nextCoolant old target
    let s := s.setLimits (fun l => { l with coolant := some new })
    let now := s.hm.time
    let due := match s.ptAux.coolEvent with
      | none => true
      | some t => decide (t.toNat + 60 * ticks1s ≤ now.toNat)
    if new < old ∧ due = true then
      let r := s.ptAux.tray.getLastD { inlet := 0, outlet := 0, flow := 0 }
      (s.modPtAux (fun a => { a with coolEvent := some now })).raisePt 0x2009
        (natLe 2 r.flow ++ natLe 1 r.inlet ++ natLe 2 new)
    else s

/-! ## Actuators (R459 to R461) -/

/-- The cut from full duty that leaves the floor duty of 31/256 (R460). -/
def floorCut : Nat := 225

/-- The steps of 25 MHz above 400 MHz at which a die's points lie: ascending, and each of the six between the lowest and the
top one leaves room for those above it (R459). -/
def pointStep (die : Nat) : Nat → Nat
  | 0 => 0
  | i + 1 => let k := pointStep die i
             k + 1 + Config.pointGap die (i + 1) % (30 + i - k)

/-- The frequencies of a die's points: the lowest at 400 MHz, the top at 1.3 GHz (R459). -/
def pointFreq (die i : Nat) : Nat := if 7 ≤ i then 1300 else 400 + 25 * pointStep die i

/-- The factory voltage of a die's point, from 0.50 V to 0.75 V (Table 13.2). -/
def factoryV (die i : Nat) : Nat := 500 + Config.factoryMilliV die i % 251

/-- The voltage of a die's point: as trimmed, else as calibrated at the factory. -/
def PtDie.pointV (x : PtDie) (die i : Nat) : Nat := x.trimMv.getD i (factoryV die i)

/-- The point whose voltage serves a frequency: the next one at or above it (R459). -/
def pointFor (die mhz : Nat) : Nat := ((List.range 8).find? (fun i => decide (mhz ≤ pointFreq die i))).getD 7

/-- A die at a frequency of the 25 MHz grid. -/
def PtDie.runAt (x : PtDie) (die mhz : Nat) : PtDie :=
  { x with mhz := mhz, milliV := x.pointV die (pointFor die mhz) }

/-- A frequency that the die can take: on the grid, from 400 MHz to its highest. -/
def PtDie.reaches (x : PtDie) (mhz : Nat) : Bool := within 400 x.fmax mhz && decide (mhz % 25 = 0)

/-- The die is held at 400 MHz by the thermal ladder or by quiesce (Tables 13.6, 13.7). -/
def PtDie.pinned (x : PtDie) : Bool := decide (x.cutLadder ≠ 0) || decide (x.cutQuiesce ≠ 0)

/-- FV_LOOP_TICK: the die goes to the frequency that the controller asks (R459). -/
def State.fvTick (s : State) (die mhz : Nat) : State :=
  let x := s.ptDie die
  if !s.ptUp ∨ !s.dieUp die ∨ !x.reaches mhz ∨ (x.pinned = true ∧ mhz ≠ 400) then s
  else s.modPtDie die (fun x => x.runAt die mhz)

/-- A step from `now` toward a floor, free how far but never none while it stands above. -/
def stepDown (now floor v : Nat) : Nat := if floor < now then floor + v % (now - floor) else now

/-- Some compute die satisfies `f`; each takes a setting whose size is free (log entry 9). -/
def State.someDie (s : State) (f : PtDie → Bool) : Bool := (List.range 8).any (fun d => f (s.ptDie d))
def State.setDies (s : State) (f : Nat → Nat → PtDie → PtDie) : State :=
  (List.range 8).foldl (fun s d =>
    let (v, s) := s.draw
    s.modPtDie d (f v d)) s

/-- The clock of a die stands above 400 MHz and may move; its settings on the grid up to a frequency. -/
def PtDie.slows (x : PtDie) : Bool := decide (400 < x.mhz) && !x.pinned
def gridUpTo (mhz v : Nat) : Nat := 400 + 25 * (v % ((mhz - 400) / 25 + 1))

/-- The duty of every die falls toward the floor. -/
def State.cutDuty (s : State) : State := s.setDies (fun v _ x => { x with cutFast := floorCut - stepDown (floorCut - x.cutFast) 0 v })

/-- The order of cuts (R466): ARITH_CLK toward 400 MHz, then the duty toward the floor; only then memory; only below that the
links. Each cut lowers what it is made of, until the estimate fits (R45, R46, R458); how deep one goes is free. -/
def State.cutPower (s : State) : State :=
  if s.someDie PtDie.slows then
    s.setDies (fun v d x => if x.slows then x.runAt d (gridUpTo (x.mhz - 25) v) else x)
  else if s.someDie (fun x => decide (x.cutFast < floorCut)) then s.cutDuty
  else if s.someDie (fun x => decide (25 < x.memRate)) then s.setDies (fun v _ x => { x with memRate := stepDown x.memRate 25 v })
  else (List.range 16).foldl (fun s k =>
    let (v, s) := s.draw
    s.modPtAux (fun a => { a with kraekRate := a.kraekRate.modify (fun _ => 100) k (fun r => stepDown r 25 v) })) s

/-- The controller restores what it cut, in the reverse order (R466): the links, memory, the duty, ARITH_CLK; how far is
free. -/
def State.restorePower (s : State) : State :=
  let low := fun (x : PtDie) => decide (x.mhz < x.fmax) && decide (400 ≤ x.mhz) && !x.pinned
  if !s.ptAux.kraekRate.isEmpty then
    (List.range 16).foldl (fun s k =>
      let (v, s) := s.draw
      s.modPtAux (fun a => { a with kraekRate := a.kraekRate.modify (fun _ => 100) k (fun r => r + v % (101 - r)) })) s
  else if s.someDie (fun x => decide (x.memRate ≠ 100)) then s.setDies (fun v _ x => { x with memRate := x.memRate + v % (101 - x.memRate) })
  else if s.someDie (fun x => decide (x.cutFast ≠ 0)) then s.setDies (fun v _ x => { x with cutFast := v % (x.cutFast + 1) })
  else if s.someDie low then
    s.setDies (fun v d x => if low x then x.runAt d (x.mhz + 25 * (v % ((x.fmax - x.mhz) / 25 + 1))) else x)
  else s

/-! ## Estimate, bursts and measurement (R458, R462 to R464) -/

/-- The least time from the start of one burst to the next, 20 ms. -/
def burstGap : Nat := 2000000

/-- Counts times their coefficients. -/
def weigh (coef : Nat → Nat) (counts : List Nat) : Nat := (counts.zipIdx.map (fun x => x.1 * coef x.2)).sum

/-- The energy of a piece of activity, in pJ at its die's present voltage: over 1 µs, in µW. No event is free of cost (DESIGN
CHOICE, log entry 109). -/
def State.workOf (s : State) (a : Activity) : Nat :=
  weigh (fun k => max 1 (Config.energyCoef k a.die.toNat (s.ptDie a.die.toNat).milliV)) a.counts

/-- A die's estimate in µW: its activity, and its leakage (R462). -/
def State.dieEstimate (s : State) (e : PowerEstimate) (d : Nat) : Nat :=
  ((e.work.filter (fun a => decide (a.die.toNat = d))).map s.workOf).sum + Config.leakage d (s.ptDie d).milliV

/-- The estimate of the dies and the spine in µW, and at the input in W, through the conversion efficiency (R462). -/
def State.estimateOf (s : State) (e : PowerEstimate) : Nat :=
  ((List.range 8).map (s.dieEstimate e)).sum + weigh Config.spineCoef e.spine
def inputOf (uW : Nat) : Nat := uW / 1000 / max 1 (min 1000 (Config.efficiency uW))

/-- What of the interval's estimate each partition and each intake berth had (R488). -/
def State.addInterval (s : State) (e : PowerEstimate) : State :=
  let all := s.estimateOf e
  let give := fun (m : Sparse Nat) (k : Option Nat) (n : Nat) => match k with
    | some k => m.modify (fun _ => 0) k (· + n)
    | none => m
  let parts := e.work.foldl (fun m a => give m (a.part.map BitVec.toNat) (s.workOf a)) s.ptAux.interval.parts
  let berths := e.work.foldl (fun m a => give m a.berth (s.workOf a)) s.ptAux.interval.berths
  s.modPtAux (fun a => { a with interval := { total := a.interval.total + all, parts := parts, berths := berths } })

/-- The estimate of R462 is formed and kept, with those of the last millisecond (R463). -/
def State.formEstimate (s : State) (e : PowerEstimate) : State :=
  let w := inputOf (s.estimateOf e)
  let dies := (List.range 8).map (fun d => s.dieEstimate e d / 1000000)
  let s := (s.addInterval e).modPt (fun x =>
    { x with estimatedW := w, estimates := (x.estimates ++ [w]).drop (x.estimates.length + 1 - 1000) })
  dies.zipIdx.foldl (fun s wd => s.modPtDie wd.2 (fun x => { x with estimateW := wd.1 })) s

/-- POWER_ESTIMATE_TICK: the estimate is formed and the fast loop acts (R458, R462). During a burst the input stays
within 11.5 kW and 240 A times the input voltage (R45). -/
def State.estimateTick (s : State) (e : PowerEstimate) : State :=
  if !s.ptUp then s
  else
    let s := s.formEstimate e
    let total := s.pt.estimatedW
    let now := s.hm.time
    let allow := min 11500 (240 * s.pt.milliV / 1000)
    if total ≤ s.pt.ceiling then (s.modPt (fun x => { x with burst := false })).restorePower
    else if s.pt.burst then (if allow < total then s.cutPower else s)
    else
      let may := match s.pt.burstSince with
        | none => true
        | some t => decide (t.toNat + burstGap ≤ now.toNat)
      if may then
        let s := s.modPt (fun x => { x with burst := true, burstSince := some now })
        let s := s.modPtAux (fun a => { a with bursts := satAdd a.bursts 1 })
        if allow < total then s.cutPower else s
      else s.cutPower

/-- BURST_LIMIT_EXPIRY: a burst of 2 ms ends, by a lower duty (R458). -/
def State.burstLimit (s : State) (peakW : Nat) : State :=
  if !s.pt.burst then s
  else
    let s := s.modPt (fun x => { x with burst := false })
    (if s.someDie (fun x => decide (x.cutFast < floorCut)) then s.cutDuty else s.cutPower).raisePt 0x2011 (natLe 2 peakW)

/-- The 1 ms mean of the estimate (R463). -/
def Pt.estimatedMean (x : Pt) : Nat := x.estimates.sum / max 1 x.estimates.length

/-- The 1 ms means of estimate and measurement differ by more than 15 % of the larger (R464). -/
def Pt.disagrees (x : Pt) : Bool :=
  let (e, m) := (x.estimatedMean, x.measuredW)
  decide (15 * max e m < 100 * (max e m - min e m))

/-- The power that the controller uses and that energy is counted from, for a measured mean (R457, R464, R486). -/
def Pt.controlW (x : Pt) (meanW : Nat) : Nat := if x.disagree || x.sensorFault then max x.estimatedMean meanW else meanW
def Pt.inputW (x : Pt) : Nat := x.controlW x.measuredW

/-- CEILING_UPDATE: every 1 ms (R456); the controller cuts where the input's mean lies above L (R457). -/
def State.ceilingTick (s : State) (meanW : Nat) : State :=
  if !s.ptUp then s
  else
    let s := s.coolantTick
    let mean := s.pt.controlW meanW
    let s := s.modPt (fun x =>
      let peaks := (x.peaks ++ [mean]).drop (x.peaks.length + 1 - peakWindow)
      { x with peaks := peaks, ceiling := nextCeiling x.limits.cap.2 x.ceiling (peaks.foldl max 0) })
    if s.pt.ceiling < mean then s.cutPower else s

/-- The configured partitions. -/
def State.configured (s : State) : List Nat := (s.parts.filter (fun e => e.2.cfg.isSome)).map (·.1)

/-- Adds to the running energy of a partition, in µJ. -/
def State.addEnergy (s : State) (p uj : Nat) : State :=
  s.modRun p (fun r => { r with energy := { r.energy with running := r.energy.running + BitVec.ofNat 64 uj } })

/-- The part of an interval's measured energy that an estimate of `n` stands for: its share of the estimate, scaled by measured
over estimated (R488). -/
def Interval.share (x : Interval) (uj n : Nat) : Nat := uj * n / max 1 x.total

/-- The energy of 20 µs is counted, in µJ (R486): whole to the one partition, else by activity, with the rest as shared energy;
to an intake berth what its descriptors had (R488). -/
def State.countEnergy (s : State) : State :=
  let uj := 20 * s.pt.inputW
  let x := s.ptAux.interval
  let s := s.modPtAux (fun a => { a with energy := a.energy + BitVec.ofNat 64 uj, interval := { total := 0, parts := [], berths := [] } })
  let s : State := match s.configured with
    | [p] => s.addEnergy p uj
    | ps =>
      let shares := ps.map (fun p => (p, x.share uj (x.parts.get (fun _ => 0) p)))
      let s := shares.foldl (fun s e => s.addEnergy e.1 e.2) s
      s.modPtAux (fun a => { a with shared := a.shared + BitVec.ofNat 64 (uj - (shares.map (·.2)).sum) })
  let intakes := x.berths.filter (fun (e : Nat × Nat) => decide ((s.berth e.1).front.kindOf ≠ 0) && (s.berth e.1).front.intake)
  intakes.foldl (fun s e => s.modPtAux (fun a =>
    { a with berthEnergy := a.berthEnergy.modify (fun _ => 0) e.1 (fun w => w + BitVec.ofNat 64 (x.share uj e.2)) })) s

/-- POWER_MEASUREMENT_TICK: every 20 µs (R463); agreement for 1 s ends a disagreement without a fault (R464). -/
def State.measureTick (s : State) (m : PowerMeasure) : State :=
  if !s.ptUp then s
  else
    let s := s.modPt (fun x => { x with measuredW := m.meanW, milliV := m.milliV, deciA := m.deciA })
    let s := m.dieRails.zipIdx.foldl (fun s wd => s.modPtDie wd.2 (fun x => { x with railW := wd.1 })) s
    let s := s.modPt (fun x =>
      let n := if x.disagrees then 0 else min (x.agreeing + 1) 50000
      { x with agreeing := n, disagree := if n = 50000 then false else x.disagree })
    s.countEnergy

/-- POWER_DISAGREE_EXPIRY: a disagreement has lasted 10 ms (R464). -/
def State.disagreeTick (s : State) : State :=
  if !s.ptUp ∨ s.pt.disagree ∨ !s.pt.disagrees then s
  else
    let s := (s.modPt (fun x => { x with disagree := true })).ptError 2
    let s := s.modPtAux (fun a => { a with disagrees := satAdd a.disagrees 1 })
    s.raisePt 0x2003 (natLe 2 s.pt.estimatedMean ++ natLe 2 s.pt.measuredW)

/-- POWER_SENSOR_FAULT_EXPIRY: a disagreement has lasted 1 s (R464). -/
def State.sensorTick (s : State) (sensor : Byte) : State :=
  if !s.pt.disagree ∨ s.pt.sensorFault ∨ !s.pt.disagrees then s
  else
    let s := (s.modPt (fun x => { x with sensorFault := true })).ptError 3
    (s.raisePt 0x2004 [sensor]).service 7 true

/-- PT_CONTROL CLEAR_SENSOR_FAULT (R464). -/
def State.clearSensor (s : State) : State :=
  if s.pt.sensorFault then (s.modPt (fun x => { x with sensorFault := false })).service 7 false else s

/-! ## Phase allocation (R465, R466) -/

/-- The observed power of an instruction joins its entry (R465): new = old + (observed − old) / 8. -/
def Profile.learn (x : Profile) (c m l : Nat) : Profile :=
  let mix := fun (old new : Nat) => (7 * old + new) / 8
  { compute := mix x.compute c, memory := mix x.memory m, links := mix x.links l, seen := min (x.seen + 1) 8 }

/-- The instruction that ran is over: what it drew is observed. -/
def State.observe (s : State) (p : Nat) : State :=
  match (s.seq p).reported with
  | none => s
  | some pc =>
    let (c, s) := s.draw
    let (m, s) := s.draw
    let (l, s) := s.draw
    let i := s.profileEntry p pc
    s.modPtAux (fun a =>
      { a with profiles := a.profiles.modify (fun _ => Profile.zero) i (fun x => x.learn (c % 65536) (m % 65536) (l % 65536)) })

/-- The entries of a running partition that are not learned (PT_STATUS.learning). -/
def State.learning (s : State) : Bool :=
  s.parts.any (fun e => e.2.state.jobRuns
    && (s.profileEntries e.1).any (fun i => decide ((s.ptAux.profiles.get (fun _ => Profile.zero) i).seen < 8)))

/-- The entries of the instructions that the running partitions are at (R466). -/
def State.runningEntries (s : State) : List Profile :=
  s.parts.filterMap (fun e =>
    if e.2.state.jobRuns then
      ((s.seq e.1).reported).map (fun pc => s.ptAux.profiles.get (fun _ => Profile.zero) (s.profileEntry e.1 pc))
    else none)

/-- The power that the next interval is predicted to take (R466): those entries, the Gateway and the Harbourmaster. -/
def predicted (es : List Profile) : Nat := (es.map (fun x => x.compute + x.memory + x.links)).sum + Config.spinePower

/-- Every die at its top trimmed point with full duty. -/
def State.fullRate (s : State) : State :=
  (List.range 8).foldl (fun s d => s.modPtDie d (fun x =>
    let y := { x with cutFast := 0 }
    if x.pinned then y else y.runAt d x.fmax)) s

/-- Frequency and duty such that compute fills what memory and links leave: which, the manual does not state (log entry 9). -/
def State.fillRate (s : State) : State :=
  (s.setDies (fun v d x => if x.pinned then x else x.runAt d (gridUpTo x.fmax v))).setDies
    (fun v _ x => { x with cutFast := v % (floorCut + 1) })

/-- The phase allocation (R466): by the prediction where every entry is learned, else by the order of cuts. -/
def State.allocate (s : State) : State :=
  let es := s.runningEntries
  if es.any (fun x => decide (x.seen < 8)) then (if s.pt.ceiling < s.pt.estimatedW then s.cutPower else s)
  else if predicted es ≤ s.pt.ceiling then s.fullRate
  else s.fillRate

/-- PHASE_ALLOCATION at the boundary of BODY instruction `pc` (R466); the tide allocation takes effect here
(Table 13.1, code 5). -/
def State.boundary (s : State) (p pc : Nat) : State :=
  let s := (s.observe p).modSeq p (fun q => { q with reported := some pc })
  let s := if s.ptAux.tideOn then s.setLimits (fun l => { l with tide := some s.ptAux.tideAlloc }) else s
  if bit s.pt.config 1 then s.allocate else s

/-! ## The sluice (R469) and SUPPLY_WARN_N (R467) -/

/-- A release of issue reaches a die: its clusters wait for their waves. -/
def State.release (s : State) (die : Nat) : State := s.modPtDie die (fun x => { x with waves := 0 })
def State.releaseAll (s : State) : State := (List.range 8).foldl State.release s

/-- SLUICE_WAVE_OPEN: a wave opens, unless the duty is 0 (Table 13.9). -/
def State.waveOpen (s : State) (die wave : Nat) : State :=
  let x := s.ptDie die
  if x.waves = wave ∧ 0 < x.duty then s.modPtDie die (fun x => { x with waves := wave + 1 }) else s

/-- The cut that leaves warn_duty. -/
def Pt.warnCut (x : Pt) : Nat := 256 - min 256 (bits x.warn 8 0)

/-- SUPPLY_WARN_N is low, or the 100 µs after its rise run. -/
def State.warned (s : State) : Bool := s.supply.warnLow || s.pt.warnHold

/-- SUPPLY_WARN_FALL. -/
def State.warnFall (s : State) : State :=
  if s.supply.warnLow then s
  else
    let s := { s with supply := { s.supply with warnLow := true } }
    let cut := s.pt.warnCut
    let s := (s.allDies (fun x => { x with cutPin := cut })).modPt
      (fun x => { x with warnHold := false, warnSince := s.hm.time })
    if s.boot.phase = .held then s else s.modPtAux (fun a => { a with warnCount := satAdd a.warnCount 1 })

/-- SUPPLY_WARN_HELD: still low 1 ms after its fall. -/
def State.warnHeld (s : State) : State :=
  if !s.ptUp ∨ !s.supply.warnLow ∨ s.pt.limits.supply.isSome then s
  else
    let w := s.pt.measuredW
    ((s.setLimits (fun l => { l with supply := some w })).ptError 0).raisePt 0x2001 (natLe 2 w)

/-- SUPPLY_WARN_RISE. -/
def State.warnRise (s : State) : State :=
  if !s.supply.warnLow then s
  else
    let low := s.hm.time.toNat - s.pt.warnSince.toNat
    let s := { s with supply := { s.supply with warnLow := false } }
    (s.modPt (fun x => { x with warnHold := true })).modPtAux (fun a => { a with warnTime := satAdd a.warnTime low })

/-- SUPPLY_WARN_RELEASE: 100 µs after the rise. -/
def State.warnRelease (s : State) : State :=
  if !s.pt.warnHold then s
  else
    let s := (s.allDies (fun x => { x with cutPin := 0 })).modPt (fun x => { x with warnHold := false })
    (s.setLimits (fun l => { l with supply := none })).releaseAll

/-! ## Droop (R470) and margin (R471, R472) -/

/-- DROOP_STRETCH. -/
def State.droop (s : State) (die : Nat) : State :=
  if (s.ptDie die).stretched then s
  else s.modPtDie die (fun x => { x with stretched := true, droop := satAdd x.droop 1 })

/-- DROOP_RECOVER: the stretched cycles are a time (log entry 9). -/
def State.droopEnd (s : State) (die : Nat) : State :=
  if !(s.ptDie die).stretched then s
  else
    let (v, s) := s.draw
    s.modPtDie die (fun x => { x with stretched := false, stretch := satAdd x.stretch v })

/-- The points of a die with a new voltage at one of them. -/
def PtDie.trim (x : PtDie) (die i mv : Nat) : PtDie :=
  { x with trimMv := (List.range 8).map (fun j => if j = i then mv else x.pointV die j),
           trimSteps := min (x.trimSteps + 1) 4095 }

/-- A point needs more than 0.75 V: it and every higher one are dropped (R472). -/
def State.dropPoint (s : State) (die i : Nat) : State :=
  let top := pointFreq die (i - 1)
  let s := s.modPtDie die (fun x =>
    let y := { x with fmax := top }
    if top < x.mhz then y.runAt die top else y)
  (s.ptError 9).raisePt 0x200E (natLe 1 die ++ natLe 2 top)

/-- A die's trimmed points go to the user calibration layer, at most once an hour; a write put off is made at the next check
after that hour (R471, R532). -/
def State.saveTrim (s : State) (die : Nat) : State :=
  let x := s.ptDie die
  if x.trimMv = x.trimSaved ∨ s.calibrated die then s
  else (s.modPtDie die (fun x => { x with trimSaved := x.trimMv })).calibrate die

/-- MARGIN_CHECK: the replicas measured a slack, in thousandths of the period (R471). -/
def State.marginCheck (s : State) (die slack : Nat) : State :=
  if !s.ptUp ∨ !s.dieUp die then s
  else
    let (v, s) := s.draw
    let s := s.modPtDie die (fun x => { x with roAge := BitVec.ofNat 16 v })
    let x := s.ptDie die
    if 30 ≤ slack then s.saveTrim die
    else
      let i := pointFor die x.mhz
      let mv := x.pointV die i + 5
      if 750 < mv then s.dropPoint die i
      else (s.modPtDie die (fun x => (x.trim die i mv).runAt die x.mhz)).saveTrim die

/-- MARGIN_LOWER: slack above twice the guard for 10 s (R471). -/
def State.marginLower (s : State) (die : Nat) : State :=
  let x := s.ptDie die
  let i := pointFor die x.mhz
  let mv := x.pointV die i - 5
  if !s.ptUp ∨ !s.dieUp die ∨ mv < 500 then s
  else (s.modPtDie die (fun x => (x.trim die i mv).runAt die x.mhz)).saveTrim die

/-! ## Tide (R473 to R475) -/

/-- The partition and the group of PT_TIDE_CFG. -/
def State.tidePart (s : State) : Nat := bits s.ptAux.tideCfg 21 16
def State.tideGroup (s : State) : Nat := bits s.ptAux.tideCfg 15 0

/-- The members of the tide group. -/
def State.tideMembers (s : State) : Nat :=
  match s.cfg? s.tidePart with
  | some c =>
    (match c.groups.find? (fun g => decide (g.id = s.tideGroup)) with
      | some g => 2 ^ popCount 16 g.dimMask
      | none => 1)
  | none => 1

/-- Tide starts, or starts again, for its partition (R473). -/
def State.tideStart (s : State) (p : Nat) : State :=
  if !bit s.ptAux.tideCfg 22 ∨ s.tidePart ≠ p then s
  else
    let n := s.tideMembers
    let pool := s.ptAux.tidePool.toNat
    s.modPtAux (fun a => { a with tideOn := true, tideAlloc := pool / n, tideReserve := pool - n * (pool / n) })

/-- TIDE_RESET: tide starts again (R475), but not while its partition is in FILL_WAIT. -/
def State.tideReset (s : State) : State :=
  if (s.part s.tidePart).state = .fillWait then s else s.tideStart s.tidePart

/-- Tide is suspended: limit 5 is removed (R475). -/
def State.tideStop (s : State) : State :=
  (s.modPtAux (fun a => { a with tideOn := false })).setLimits (fun l => { l with tide := none })

/-- The lowest of limits 0 to 4 (R474). -/
def State.ownCap (s : State) : Nat := ({ s.pt.limits with tide := none }).cap.2

/-- This member's part of the exchange at slack water: what it gives, whether it is critical, and its pool (R474). -/
def State.tideOffer (s : State) (p : Nat) : (Nat × Bool × Nat) × State :=
  let a := s.ptAux.tideAlloc
  let slack := (s.seq p).slackUs
  let thresh := bits s.ptAux.tideParam 15 0
  let stepW := bits s.ptAux.tideParam 31 16
  let critical := decide (slack ≤ thresh) && decide (a < s.ownCap)
  let give := if 4 * thresh < slack ∧ 1500 + stepW ≤ a then stepW else 0
  ((give, critical, s.ptAux.tidePool.toNat),
    (s.modPtAux (fun x => { x with tideAlloc := a - give, tideCritical := critical })).send p
      (.tide give (b2n critical) s.ptAux.tidePool.toNat))

/-- The sums of the exchange arrive (R474, R475). -/
def State.tideResult (s : State) (g nc psum : Nat) : State :=
  let n := s.tideMembers
  let pool := s.ptAux.tidePool.toNat
  if psum ≠ n * pool then ((s.tideStop).ptError 8).raisePt 0x200F (natLe 8 psum ++ natLe 8 (n * pool))
  else
    let g := g + s.ptAux.tideReserve
    if nc = 0 then s.modPtAux (fun a => { a with tideReserve := g })
    else
      let share := g / nc
      s.modPtAux (fun a =>
        { a with tideReserve := g - nc * share,
                 tideAlloc := if a.tideCritical then a.tideAlloc + share else a.tideAlloc })

/-! ## Coolant (R481, R482) -/

/-- The flow predicted 100 ms ahead, in 0.01 L/min, from readings 10 ms apart: on a line the next ten readings follow
it; what the manual's line through others is, it does not state (log entry 9). -/
def State.flowAhead (s : State) (flows : List Nat) : Nat × State :=
  let n := flows.length
  let f := fun i => ((flows.getD i 0 : Nat) : Int)
  let d := if 2 ≤ n then f 1 - f 0 else 0
  if (List.range n).all (fun i => decide (f i = f 0 + d * i)) then ((f (n - 1) + 10 * d).toNat, s)
  else s.draw

/-- The coolant limit in W (R482). -/
def coolantLimit (flow inlet : Nat) : Nat := 9600 * min 600 flow / 600 - 400 * (inlet - 45)

/-- The coolant limit's target follows a reading. -/
def State.aimCoolant (s : State) (readings : List Tray) : State :=
  let (f, s) := s.flowAhead (readings.map (·.flow))
  let inlet := (readings.getLastD { inlet := 45, outlet := 0, flow := 600 }).inlet
  s.modPtAux (fun a => { a with coolTarget := some (coolantLimit f inlet) })

/-- A tray reading (R481, R528). -/
def State.takeTray (s : State) (r : Tray) : State :=
  let readings := (s.ptAux.tray ++ [r]).drop (s.ptAux.tray.length + 1 - 10)
  let now := s.hm.time
  let s := if r.flow < 120 then s.modPt (fun x => { x with resumeReady := false }) else s
  (s.modPtAux (fun a => { a with tray := readings, trayStale := false, trayDefault := false, trayTime := now })).aimCoolant readings

/-- COOLANT_STALE: no reading for 100 ms (R481). -/
def State.coolantStale (s : State) : State :=
  if !s.ptUp ∨ s.ptAux.trayStale ∨ s.ptAux.tray = [] then s
  else ((s.modPtAux (fun a => { a with trayStale := true })).ptError 10).raisePt 0x2010
    (natLe 4 ((s.hm.time.toNat - s.ptAux.trayTime.toNat) / 100000))

/-- COOLANT_DEFAULT: stale for 1 s; an inlet of 45 °C and a flow of 6 L/min are taken (R481). -/
def State.coolantDefault (s : State) : State :=
  if !s.ptAux.trayStale then s
  else (s.modPtAux (fun a => { a with trayDefault := true })).aimCoolant [{ inlet := 45, outlet := 0, flow := 600 }]

/-! ## Flow stop and quiesce (R483, R484) -/

/-- The pairs of event 0x200A: up to three running partitions with their steps. -/
def State.runningPairs (s : State) : Bytes :=
  ((s.parts.filter (fun e => decide (e.2.state = .running))).take 3).flatMap
    (fun e => natLe 1 e.1 ++ wordLe 8 e.2.step)

/-- Row 3 of Table 13.7, from a source of event 0x200A, after row 2 where `floor` says so. -/
def State.startQuiesce (s : State) (source : Nat) (floor : Bool := true) : State :=
  if s.pt.flowRow ≠ .idle then s.modPt (fun x => { x with resumeReady := false })
  else
    let s := if floor then s.allDies (fun x => { x with cutFlow := floorCut }) else s
    let s := s.modPt (fun x => { x with flowRow := .running, flowSince := some s.hm.time, resumeReady := false })
    (s.ptError 7).raisePt 0x200A (natLe 1 source ++ s.runningPairs)

/-- FLOW_STOP: the pin fell, or a flow reading is below 1.2 L/min. -/
def State.flowStops (s : State) (pin : Bool) : State :=
  if !s.ptUp then (if pin then
      ({ s with supply := { s.supply with flowLow := true } }).allDies (fun x => { x with cutFlow := floorCut }) else s)
  else if pin then ({ s with supply := { s.supply with flowLow := true } }).startQuiesce 0
  else if (s.ptAux.tray.getLastD { inlet := 0, outlet := 0, flow := 0 }).flow < 120 then s.startQuiesce 1
  else s

/-- Rows 4 and 6 of Table 13.7 are done for a partition: its entries are written, no digest comparison is open, and past its
apply commit point it has closed its slack water. Row 5 withholds issue from the start on (State.stilled). -/
def State.settled (s : State) (p : Nat) : Bool :=
  decide ((s.log p).unwritten = []) && decide ((s.seq p).phase ≠ .slack 2)
    && (!(s.part p).applyPassed || decide ((s.seq p).phase = .none))

/-- 250 ms in ticks. -/
def quiesceBound : Nat := 25000000

/-- Row 7 may come: rows 4 to 6 are done, or 250 ms have passed. -/
def State.mayQuiesce (s : State) : Bool :=
  (s.parts.map (·.1)).all s.settled
    || s.pt.flowSince.any (fun t => decide (t.toNat + quiesceBound ≤ s.hm.time.toNat))

/-- QUIESCE_COMPLETE: row 7 of Table 13.7. -/
def State.quiesced (s : State) : State :=
  if s.pt.flowRow ≠ .running ∨ !s.mayQuiesce then s
  else
    let us := match s.pt.flowSince with
      | some t => (s.hm.time.toNat - t.toNat) / 100
      | none => 0
    let s := (List.range 8).foldl (fun s d => s.modPtDie d (fun x => { x.runAt d 400 with cutQuiesce := 256 })) s
    let s := (s.modPt (fun x => { x with flowRow := .quiesced })).modPtAux (fun a => { a with quiesceUs := BitVec.ofNat 32 us })
    s.raisePt 0x200B (natLe 4 us)

/-- The hotter diode of a spot's pair, and the plausible reading of a suspect one: the closer to the model (R477). -/
def Spot.hotter (x : Spot) : Nat := max x.r0 x.r1
def apart_ (a b : Nat) : Nat := max a b - min a b
def Spot.plausible (x : Spot) : Nat :=
  if apart_ x.r0 x.estimate < apart_ x.r1 x.estimate then x.r0
  else if apart_ x.r1 x.estimate < apart_ x.r0 x.estimate then x.r1 else x.hotter

/-- The protective temperature of a spot (R477): the hotter reading; for a suspect pair the higher of the plausible one and the
model; for a faulty spot the model plus 10 °C. -/
def Spot.protective (x : Spot) : Nat :=
  if x.fault then x.estimate + 10 else if x.suspect then max x.plausible x.estimate else x.hotter

/-- The hottest protective temperature, the hottest prediction, and the index of the spot that the first is of
(PT_THERM_MAX). -/
def State.hottest (s : State) : Nat × Nat × Nat :=
  s.ptAux.spots.foldl (fun m e =>
    let m := (m.1, max m.2.1 e.2.prediction, m.2.2)
    if m.1 < e.2.protective then (e.2.protective, m.2.1, e.1) else m) (0, 0, 0)

/-- The device resumes (R484). -/
def State.resumePower (s : State) : State :=
  let s := s.allDies (fun x => { x with cutFlow := 0, cutQuiesce := 0 })
  let s := s.modPt (fun x => { x with flowRow := .idle, resumeReady := false, ceiling := x.measuredW })
  let r := s.ptAux.tray.getLastD { inlet := 0, outlet := 0, flow := 0 }
  s.releaseAll.raisePt 0x200C (natLe 2 r.flow ++ natLe 1 s.hottest.2.2)

/-- Hot spots in the order of Table 13.5: 128 junctions, 32 DRAM dies, 18 hold devices, 8 of the link dies, 2 of the
Gateway, 1 of the Harbourmaster. -/
def spotLimit (i : Nat) : Nat := if within 160 177 i then 95 else 105

/-- The conditions of R484 that the device sees: every spot 10 °C or more below its limit, and no low flow reading last. -/
def State.mayResume (s : State) : Bool :=
  s.ptAux.spots.all (fun e => decide (e.2.protective + 10 ≤ spotLimit e.1))
    && s.ptAux.tray.getLast?.all (fun r => decide (120 ≤ r.flow))

/-- QUIESCE_END: FLOW_STOP_N has risen, or was high, the flow is back for 1 s and every spot is cool (R484). -/
def State.quiesceEnds (s : State) : State :=
  let s := { s with supply := { s.supply with flowLow := false } }
  if s.pt.flowRow ≠ .quiesced ∨ !s.mayResume then s
  else if bit s.pt.config 0 then s.resumePower else s.modPt (fun x => { x with resumeReady := true })

/-- PT_CONTROL RESUME: no effect before the conditions hold (R484). -/
def State.ptResume (s : State) : State :=
  if s.pt.flowRow = .quiesced ∧ s.pt.resumeReady ∧ s.mayResume then s.resumePower else s

/-! ## The thermal ladder (R476 to R480) -/

/-- The compute dies that a spot's action applies to: the die it heats; every die for the spine; for a spare hold
device the die of the device it serves (R479). -/
def State.spotDies (s : State) (i : Nat) : List Nat :=
  if i < 128 then [i / 16]
  else if i < 160 then [(i - 128) / 4]
  else if i < 176 then [(i - 160) / 2]
  else if i < 178 then
    (match (if i = 176 then s.mem.h16 else s.mem.h17) with
      | .serving j => [j.toNat / 2]
      | _ => [])
  else List.range 8

def State.spot (s : State) (i : Nat) : Spot := s.ptAux.spots.get (fun _ => Spot.zero) i
def State.modSpot (s : State) (i : Nat) (f : Spot → Spot) : State :=
  s.modPtAux (fun a => { a with spots := a.spots.modify (fun _ => Spot.zero) i f })

/-- The second row of Table 13.6: a spot reaches its limit. -/
def State.spotAtLimit (s : State) (i : Nat) : State :=
  let x := s.spot i
  let s := (s.modSpot i (fun x => { x with atLimit := true })).ptError 6
  let s := s.raisePt 0x2008 (natLe 1 i ++ natLe 1 x.protective)
  if within 160 177 i then s.modPtAux (fun a => { a with holdRate := a.holdRate.modify (fun _ => 100) i (· / 2) })
  else (s.spotDies i).foldl (fun s d => s.modPtDie d (fun y => { y.runAt d 400 with cutLadder := floorCut })) s

/-- The readings of a spot's two diodes; those of a DRAM die show in MEM_DRAM_TEMP (R327). -/
def State.readPair (s : State) (i r0 r1 : Nat) : State :=
  let s := s.modSpot i (fun x => { x with r0 := r0, r1 := r1 })
  if within 128 159 i then
    s.modMemDie ((i - 128) / 4) (fun m => { m with dramTemp := setField m.dramTemp (8 * (i % 4)) 8 (max r0 r1) })
  else s

/-- One spot's update: its numbers, and the ladder's second row. A spot that heats again puts a RESUME off (R484). -/
def State.spotUpdate (s : State) (u : SpotUpdate) : State :=
  let s := (s.readPair u.spot u.r0 u.r1).modSpot u.spot (fun x => { x with estimate := u.estimate, prediction := u.prediction })
  let s := if spotLimit u.spot < (s.spot u.spot).protective + 10 then s.modPt (fun x => { x with resumeReady := false }) else s
  if spotLimit u.spot ≤ (s.spot u.spot).protective then
    (if (s.spot u.spot).atLimit then s else s.spotAtLimit u.spot)
  else s

/-- The thermal limit of an update engages (0x2007 once a minute at most). -/
def State.thermalEvent (s : State) (u : SpotUpdate) : State :=
  let now := s.hm.time
  let due := match (s.spot u.spot).limited with
    | none => true
    | some t => decide (t.toNat + 60 * ticks1s ≤ now.toNat)
  if due then
    (s.modSpot u.spot (fun x => { x with limited := some now })).raisePt 0x2007
      (natLe 1 u.spot ++ natLe 1 u.prediction ++ natLe 2 u.limitW)
  else s

/-- THERMAL_MODEL_UPDATE: every 100 µs (R478, R479). -/
def State.thermalTick (s : State) (us : List SpotUpdate) : State :=
  if !s.ptUp then s
  else
    let s := us.foldl State.spotUpdate s
    let hot := us.filter (fun u => decide (spotLimit u.spot ≤ u.prediction + 2))
    let others := s.ptAux.spots.any (fun e => decide (spotLimit e.1 ≤ e.2.prediction + 2))
    let least := hot.foldl (fun m u => match m with
      | none => some u.limitW
      | some w => some (min w u.limitW)) (none : Option Nat)
    let s := s.setLimits (fun l =>
      { l with thermal := if least.isSome then least else if others then l.thermal else none })
    hot.foldl State.thermalEvent s

/-- THERMAL_QUIESCE_EXPIRY: a reading 5 °C above its limit for 10 ms: rows 3 to 7 of Table 13.7 (Table 13.6). -/
def State.thermalQuiesce (s : State) (i : Nat) : State :=
  if !s.ptUp ∨ (s.spot i).protective < spotLimit i + 5 then s else s.startQuiesce (Config.openCode 8 0) false

/-- FLOOR_DUTY_RELEASE: every spot the die serves is 3 °C below its limit for 10 ms (R479). -/
def State.floorRelease (s : State) (die : Nat) : State :=
  let mine := s.ptAux.spots.filter (fun e => (s.spotDies e.1).contains die)
  if mine.any (fun e => decide (spotLimit e.1 < e.2.protective + 3)) then s
  else
    let s := s.modPtDie die (fun x => { x with cutLadder := 0 })
    let s := s.modPtAux (fun a => { a with holdRate := a.holdRate.filter (fun e => !mine.any (fun x => decide (x.1 = e.1))) })
    mine.foldl (fun s e => s.modSpot e.1 (fun x => { x with atLimit := false })) s

/-- DIODE_PAIR_SUSPECT: the readings differ by more than 6 °C for 100 ms (R477). -/
def State.pairSuspect (s : State) (i r0 r1 : Nat) : State :=
  if !s.ptUp ∨ max r0 r1 - min r0 r1 ≤ 6 then s
  else
    let was := (s.spot i).suspect
    let s := (((s.readPair i r0 r1).modSpot i (fun x => { x with suspect := true })).ptError 4).raisePt 0x2005
      (natLe 1 i ++ natLe 1 r0 ++ natLe 1 r1)
    s.suspectBand i was true

/-- HOTSPOT_SENSOR_FAULT: both readings 10 °C from the model for 1 s (R477). -/
def State.spotFault (s : State) (i model : Nat) : State :=
  if !s.ptUp ∨ apart_ (s.spot i).r0 model ≤ 10 ∨ apart_ (s.spot i).r1 model ≤ 10 then s
  else
    let s := (s.modSpot i (fun x => { x with fault := true, estimate := model })).ptError 5
    (s.raisePt 0x2006 (natLe 1 i ++ natLe 1 model)).service 8 true

/-- DIODE_PAIR_CLEAR: within 3 °C for 10 s (R477). -/
def State.pairClear (s : State) (i : Nat) : State :=
  let was := (s.spot i).suspect
  if 3 < apart_ (s.spot i).r0 (s.spot i).r1 then s else
  (s.modSpot i (fun x => { x with suspect := false })).suspectBand i was false

/-- THERM_TRIP: THERM_TRIP_N latches low and every gate closes (R480); the event where the management path carries
it. -/
def State.thermTrip (s : State) (comparator : Nat) : State :=
  let s := { s with supply := { s.supply with tripLatched := true } }
  if s.ptUp then s.raisePt 0x200D (natLe 1 comparator) else s

/-! ## Energy of a step (R487, R489) -/

/-- Tokens that a step trains: none where it is skipped or halted. -/
def State.stepTokens (s : State) (p : Nat) (trained : Bool) : Nat :=
  match s.cfg? p with
  | some c => if trained then c.program.control.tokensPerStep else 0
  | none => 0

/-- Energy for each token. -/
def perToken (uj tokens : Nat) : Nat := if tokens = 0 then 0xFFFFFFFF else uj / tokens

/-- The code that set C for the longest time; among equals the lowest. -/
def PartEnergy.longest (e : PartEnergy) : Nat := (indexOf? (fun n => decide (n = e.limits.foldl max 0)) e.limits).getD 0

/-- A step's counts begin; what was drawn before it is in the energy since the commit (R487). -/
def PartEnergy.fresh (e : PartEnergy) (now : DWord) : PartEnergy :=
  { e with stepStart := now, energy := e.energy + e.running, running := 0, gated := 0, limits := List.replicate 7 0 }

/-- The ENERGY record (Table 13.10). -/
def State.energyRecord (s : State) (p : Nat) (trained : Bool) : Bytes :=
  let e := (s.run p).energy
  let uj := e.running.toNat
  let tokens := s.stepTokens p trained
  let us := (s.hm.time.toNat - e.stepStart.toNat) / 100
  let stopped := match s.pt.flowSince with
    | some t => decide (e.stepStart.toNat ≤ t.toNat) || decide (s.pt.flowRow ≠ .idle)
    | none => false
  let tide := if s.ptAux.tideOn ∧ s.tidePart = p then s.ptAux.tideAlloc else 0
  natLe 8 uj ++ natLe 4 tokens ++ natLe 4 (perToken uj tokens) ++ natLe 4 (uj / us) ++ natLe 4 (e.gated / 100) ++ natLe 1 e.longest
    ++ natLe 1 (b2n (decide (1 < s.configured.length)))
    ++ natLe 2 (flagAt s.pt.sensorFault 0 + flagAt stopped 1 + flagAt s.pt.disagree 2) ++ natLe 4 tide

/-- The step's energy at the close of its slack water (Table 13.13). -/
def State.closeEnergy (s : State) (p : Nat) (trained : Bool) : State :=
  let tokens := s.stepTokens p trained
  let now := s.hm.time
  s.modRun p (fun r =>
    let e := r.energy
    { r with energy := { e.fresh now with
      stepUj := e.running, perToken := BitVec.ofNat 32 (perToken e.running.toNat tokens),
      tokens := e.tokens + BitVec.ofNat 64 tokens } })

/-! ## The commands -/

/-- The address of PT_CONTROL. -/
def ptControl : Nat := 0x00020004

/-- POWER_ESTIMATE_TICK (R462). -/
def execPowerEstimateTick (e : PowerEstimate) (s : State) : Out := .next (s.estimateTick e)
/-- BURST_LIMIT_EXPIRY (R458). -/
def execBurstLimitExpiry (peakW : Half) (s : State) : Out := .next (s.burstLimit peakW.toNat)
/-- POWER_MEASUREMENT_TICK (R463). -/
def execPowerMeasurementTick (m : PowerMeasure) (s : State) : Out := .next (s.measureTick m)
/-- POWER_DISAGREE_EXPIRY (R464). -/
def execPowerDisagreeExpiry (s : State) : Out := .next s.disagreeTick
/-- POWER_SENSOR_FAULT_EXPIRY (R464). -/
def execPowerSensorFaultExpiry (sensor : Byte) (s : State) : Out := .next (s.sensorTick sensor)
/-- CLEAR_SENSOR_FAULT (R464). -/
def execClearSensorFault (s : State) : Out := .next (s.guardWrite .clearSensorFault readyPower ptControl State.clearSensor)
/-- CEILING_UPDATE (R456). -/
def execCeilingUpdate (meanW : Nat) (s : State) : Out := .next (s.ceilingTick meanW)
/-- FV_LOOP_TICK (R459). -/
def execFvLoopTick (die : BitVec 3) (mhz : Nat) (s : State) : Out := .next (s.fvTick die.toNat mhz)
/-- THERMAL_MODEL_UPDATE (R478). -/
def execThermalModelUpdate (spots : List SpotUpdate) (s : State) : Out := .next (s.thermalTick spots)
/-- THERMAL_QUIESCE_EXPIRY (R479). -/
def execThermalQuiesceExpiry (spot : Nat) (s : State) : Out := .next (s.thermalQuiesce spot)
/-- FLOOR_DUTY_RELEASE (R479). -/
def execFloorDutyRelease (die : BitVec 3) (s : State) : Out := .next (s.floorRelease die.toNat)
/-- DIODE_PAIR_SUSPECT (R477). -/
def execDiodePairSuspect (spot : Nat) (r0 r1 : Byte) (s : State) : Out := .next (s.pairSuspect spot r0.toNat r1.toNat)
/-- HOTSPOT_SENSOR_FAULT (R477). -/
def execHotspotSensorFault (spot : Nat) (model : Byte) (s : State) : Out := .next (s.spotFault spot model.toNat)
/-- DIODE_PAIR_CLEAR (R477). -/
def execDiodePairClear (spot : Nat) (s : State) : Out := .next (s.pairClear spot)
/-- COOLANT_STALE (R481). -/
def execCoolantStale (s : State) : Out := .next s.coolantStale
/-- COOLANT_DEFAULT (R481). -/
def execCoolantDefault (s : State) : Out := .next s.coolantDefault
/-- MARGIN_CHECK (R471). -/
def execMarginCheck (die : BitVec 3) (slackPerMille : Nat) (s : State) : Out :=
  .next (s.marginCheck die.toNat slackPerMille)
/-- MARGIN_LOWER (R471). -/
def execMarginLower (die : BitVec 3) (s : State) : Out := .next (s.marginLower die.toNat)
/-- SUPPLY_WARN_FALL (R467). -/
def execSupplyWarnFall (s : State) : Out := .next s.warnFall
/-- SUPPLY_WARN_HELD (R467). -/
def execSupplyWarnHeld (s : State) : Out := .next s.warnHeld
/-- SUPPLY_WARN_RISE (R467). -/
def execSupplyWarnRise (s : State) : Out := .next s.warnRise
/-- SUPPLY_WARN_RELEASE (R467). -/
def execSupplyWarnRelease (s : State) : Out := .next s.warnRelease
/-- SLUICE_WAVE_OPEN (R469). -/
def execSluiceWaveOpen (die : BitVec 3) (wave : BitVec 3) (s : State) : Out := .next (s.waveOpen die.toNat wave.toNat)
/-- DROOP_STRETCH (R470). -/
def execDroopStretch (die : BitVec 3) (s : State) : Out := .next (s.droop die.toNat)
/-- DROOP_RECOVER (R470). -/
def execDroopRecover (die : BitVec 3) (s : State) : Out := .next (s.droopEnd die.toNat)
/-- FLOW_STOP (R483). -/
def execFlowStop (pin : Bool) (s : State) : Out := .next (s.flowStops pin)
/-- QUIESCE_COMPLETE (R483). -/
def execQuiesceComplete (s : State) : Out := .next s.quiesced
/-- TIDE_RESET (R475): restarts tide with fresh allocations. -/
def execTideReset (s : State) : Out := .next (s.guardWrite .tideReset readyPower ptControl State.tideReset)
/-- THERM_TRIP (R480). -/
def execThermTrip (comparator : Byte) (s : State) : Out := .next (s.thermTrip comparator.toNat)

end Sys2Proof.Machine
end

