-- ==== Sys2Proof/Machine/Lading.lean ====
section
/-!
DEFINITION. Digests of memory (R439), the identity and alias keys (R495, R496), and the lading record (R513 to R518).
-/

namespace Sys2Proof.Machine

/-! ## Coordinates and the partition's own tables -/

/-- The physical coordinate of this device, from the board. -/
def State.coord (s : State) : Nat := bits s.hm.boardCoord 15 0

/-- The own logical coordinate in a partition (R373). -/
def State.me (s : State) (p : Nat) : Nat :=
  match s.cfg? p with
  | some c => ownLogical c.remaps s.coord
  | none => s.coord

/-- A reduction group of a partition. -/
def State.group? (s : State) (p g : Nat) : Option Group :=
  (s.cfg? p).bind (fun c => c.groups.find? (fun x => decide (x.id = g)))

/-! ## State digests (R439) -/

/-- 1 MiB. -/
def mib : Nat := 2 ^ 20

/-- The chunk digests of `n` bytes from `lo`, one after another. -/
def Cells.chunkDigests (m : Cells) (lo n : Nat) : Bytes :=
  (List.range (ceilDiv n mib)).flatMap (fun i => sha384 (m.read (lo + i * mib) (min mib (n - i * mib))))

/-- The state digest of a region. -/
def Cells.digest (m : Cells) (lo n : Nat) : Bytes := sha384 (m.chunkDigests lo n)

/-- The shard of a partition: the shard region's bytes (R437), or, with no MIRROR section, the hold-tier regions with
the write right (log entry 41). -/
def State.shardRanges (s : State) (p : Nat) : List (Nat × Nat) :=
  match s.cfg? p with
  | none => []
  | some c =>
    match c.mirror with
    | some m =>
      (match c.program.regions[m.shardRegion]? with
        | some r => [(r.lo, m.shardBytes)]
        | none => [])
    | none => (c.program.regions.filter (fun r => decide (r.kind = 3) && r.write)).map (fun r => (r.lo, r.size * 4096))

/-- The state digest of the shard. -/
def State.shardDigest (s : State) (p : Nat) : Bytes :=
  sha384 ((s.shardRanges p).flatMap (fun r => Cells.chunkDigests s.mem.hold r.1 r.2))

/-- The state digest of the mirror region over the partner's shard. -/
def State.mirrorDigest (s : State) (p : Nat) : Bytes :=
  match s.cfg? p, s.mirror? p with
  | some c, some m =>
    (match c.program.regions[m.mirrorRegion]? with
      | some r => Cells.digest s.mem.hold r.lo m.shardBytes
      | none => [])
  | _, _ => []

/-! ## Keys (R495, R496) -/

/-- The identity digest and the device identity (Table 10.5). -/
def State.idDigest (s : State) : Bytes := sha384 s.sec.idPublicKey
def State.deviceId (s : State) : Bytes := s.idDigest.take 8

/-- The identity certificate, unless it reads as absent (R493, R496). -/
def State.idCert (s : State) : Bytes := if s.sec.certAbsent then [] else identityCert s.sec.idPublicKey

/-- The private scalar of an alias key: its label is CDAS or CDAA (R495). -/
def Boot.aliasScalar (b : Boot) (label : Bytes) : Nat :=
  Config.scalarOf (hmac384 Config.deviceSecret (b.fwDigest ++ wordLe 2 b.fwSvn ++ label))

def labelSign : Bytes := [0x43, 0x44, 0x41, 0x53]
def labelAgree : Bytes := [0x43, 0x44, 0x41, 0x41]

/-- The alias private keys of this boot, until DECOMMISSION erases them (R495, R499). -/
def State.signingKey (s : State) : Nat := if s.sec.idKeyHeld then s.boot.aliasSign else 0
def State.agreementKey (s : State) : Nat := if s.sec.idKeyHeld then s.boot.aliasAgree else 0

/-! ## The lading state (R513 to R517) -/

/-- The record of the partition is kept (R513). -/
def State.ladingKept (s : State) (p : Nat) : Bool := s.mf.reproducible || !bit (s.lading p).cfg 14

/-- A fresh lading state from a step; its configuration register stays. -/
def State.ladingStart (s : State) (p : Nat) (first : DWord) (atFill : Bool) : State :=
  let kept := s.ladingKept p
  s.modLading p (fun l =>
    { Lading.zero with cfg := l.cfg, last := l.last, kept := kept, first := first, atFill := atFill,
                       counts := List.replicate 8 0, states := List.replicate 4 0, since := first })
    |>.modLading p (fun l => { l with shard := s.shardDigest p })

/-- The head of a logbook's chain at a step: the digest of its step entry, where it holds one. -/
def chainHead (entries : List Bytes) (step : DWord) : Option Bytes :=
  (entries.reverse.find? (fun e => decide (leAt e 5 1 = 0) && decide (leAt e 8 8 = step.toNat))).map sha384

/-- A restore from the keeper reinstates the lost device's lading state at the snapshot's step; that device is one of those
that served the coordinate (R514, R516). A device whose record is not kept left none. -/
def State.ladingTakes (s : State) (p : Nat) (step : DWord) (entries : List Bytes) (lading : Option GuestLading) : State :=
  let s := s.ladingStart p (step + 1) false
  match lading with
  | none => s
  | some g =>
    let lost : LadingIdent := { first := g.since, last := step, digest := g.identity, chain := (chainHead entries step).getD [], entries := g.entries }
    s.modLading p (fun l =>
      { l with first := g.first, atFill := g.atFill, overflow := g.overflow, served := g.served ++ [lost], ranges := g.ranges,
               recovery := g.recovery, counts := g.counts, states := g.states, firstMismatch := g.firstMismatch })

/-- The Manifest digest that a closed step of the partition carries (R515). -/
def State.manifestDigest (s : State) (p : Nat) : Bytes :=
  if s.mf.amendState ≠ .none ∧ bit s.mf.done p then s.mfAux.shadowDigest else s.mfAux.digest

/-- A closed step joins the last configuration range, or begins one (R515). -/
def Lading.addStep (l : Lading) (step : DWord) (replayed : Bool) (fw mf data : Bytes) : Lading :=
  let fresh : LadingRange := { first := step, last := step, replayed := replayed, firmware := fw, manifest := mf, data := data }
  match l.ranges.getLast? with
  | some r =>
    if r.last + 1 = step ∧ r.replayed = replayed ∧ r.firmware = fw ∧ r.manifest = mf then
      { l with ranges := l.ranges.dropLast ++ [{ r with last := step, data := r.data ++ data }] }
    else { l with ranges := l.ranges ++ [fresh] }
  | none => { l with ranges := [fresh] }

/-- The lading state takes in a closed step: its range, its STATE result, its skip. -/
def State.ladingStep (s : State) (p : Nat) (replayed skipped : Bool) (result : Nat) (data : Bytes) : State :=
  if !(s.lading p).kept then s
  else
    let step := (s.part p).step
    let old := (s.lading p).ranges
    let mf := s.manifestDigest p
    let l := (s.lading p).addStep step replayed s.boot.fwDigest mf data
    let full := decide (512 < l.ranges.length)
    let l := if full then { l with ranges := old } else { l with shard := s.shardDigest p }
    let l := { l with
      states := modifyAt (if l.states = [] then List.replicate 4 0 else l.states) result (· + 1),
      firstMismatch := if result = 1 ∧ l.firstMismatch.isNone then some step else l.firstMismatch }
    let s := s.modLading p (fun _ => l)
    let s := if skipped then s.countLading p 5 else s
    if full then s.ladingOverflow p else s

/-! ## The record (Table 14.9) -/

/-- The last closed step that a record covers: that of the last range (R515 to R518). -/
def State.ladingLast (s : State) (p : Nat) : DWord :=
  let l := s.lading p
  ((l.ranges.getLast?).map (·.last)).getD (l.first - 1)

/-- The head of the own logbook's chain at a step. -/
def State.chainAt (s : State) (p : Nat) (step : DWord) : Bytes :=
  (chainHead (s.log p).entries step).getD (s.part p).chain

/-- The record is final: issued after STOP, or at a halt with cause 1 (R518). -/
def State.ladingFinal (s : State) (p : Nat) : Bool :=
  (decide ((s.part p).state = .halted) && decide ((s.part p).cause = 1))
    || (s.seq p).pendingHalt.any (fun h => decide (h.1 = 1))

/-- The partner's device identity: that of the link it is met on; 0 with no partner; where the partner is no neighbour,
the manual does not say how the device learns it, and it is free (log entry 9). -/
def State.partnerId (s : State) (p : Nat) : DWord × State :=
  match s.cfg? p, s.mirror? p with
  | some c, some m =>
    let phys := physicalOf c.remaps m.partner
    (match s.links.find? (fun (e : Nat × Link) => decide (bits e.2.peerCoord 15 0 = phys)) with
      | some e => (e.2.peerId, s)
      | none =>
        let (v, s) := s.draw
        (BitVec.ofNat 64 v, s))
  | _, _ => (0, s)

/-- The bytes of a record before its signature. -/
def State.ladingBody (s : State) (p : Nat) (peer : DWord) : Bytes :=
  let l := s.lading p
  let last := s.ladingLast p
  let partner := match s.mirror? p with
    | some m => m.partner
    | none => 0xFFFF
  natLe 4 0x524C4443 ++ [1] ++ natLe 1 (flagAt s.mf.reproducible 0 + flagAt (s.ladingFinal p) 1 + flagAt l.overflow 2
      + flagAt l.atFill 3)
    ++ natLe 1 p ++ [0] ++ wordLe 8 s.mf.jobId ++ wordLe 8 l.first ++ wordLe 8 last ++ wordLe 8 s.hm.time
    ++ natLe 2 (s.me p) ++ natLe 2 partner ++ natLe 2 (l.served.length + 1) ++ natLe 2 l.ranges.length ++ natLe 2 l.recovery.length ++ zeros 14
    ++ padTo 368 s.idCert ++ padTo 368 s.boot.aliasCert
    ++ (l.served ++ [({ first := l.since, last := last, digest := s.idDigest, chain := s.chainAt p last, entries := l.entries } : LadingIdent)]).flatMap
        (fun x => wordLe 8 x.first ++ wordLe 8 x.last ++ padTo 48 x.digest ++ padTo 48 x.chain ++ natLe 8 x.entries)
    ++ l.ranges.flatMap (fun r => wordLe 8 r.first ++ wordLe 8 r.last ++ natLe 1 (b2n r.replayed) ++ zeros 7
        ++ padTo 48 r.firmware ++ padTo 48 r.manifest ++ sha384 r.data)
    ++ wordLe 8 peer ++ (List.range 4).flatMap (fun i => natLe 8 (l.states.getD i 0))
    ++ wordLe 8 (l.firstMismatch.getD (BitVec.allOnes 64)) ++ zeros 16
    ++ (List.range 8).flatMap (fun i => natLe 8 (l.counts.getD i 0))
    ++ l.recovery.flatMap (fun r => wordLe 8 r.1 ++ [r.2.1] ++ zeros 7 ++ padTo 24 r.2.2)
    ++ padTo 48 l.shard

/-- The berth of SEC_P_LADING_CFG suits (R518). -/
def State.ladingBerthOk (s : State) (p n : Nat) : Bool :=
  let c := (s.berth n).cfg
  decide (c.kindOf = kindCommand) && decide (c.partition = p) && isSession c.consumerId
    && (decide (c.producer = idJournal) || decide (c.producer = 0xFFFF))

/-- An issue of the partition is pending: its message still waits for room. -/
def State.ladingPending (s : State) (p : Nat) : Bool :=
  (s.berth (bits (s.lading p).cfg 13 0)).waiting.any (fun w => decide (w.msg.producer.toNat = idJournal))

def State.secError (s : State) (b : Nat) : State := { s with sec := { s.sec with error := setBit s.sec.error b } }

/-- A record is issued (R518). -/
def State.ladingIssue (s : State) (p : Nat) : State :=
  let l := s.lading p
  let n := bits l.cfg 13 0
  if !l.kept then s
  else if !s.ladingBerthOk p n then s.secError 4
  else if s.ladingPending p then s.secError 5
  else
    let (peer, s) := s.partnerId p
    let body := s.ladingBody p peer
    let last := s.ladingLast p
    let sig := ecdsaSign s.signingKey body
    let s := (s.berthWrite none n
      { serves := 0, producer := BitVec.ofNat 16 idJournal, cls := 8, step := (s.part p).step, bytes := body ++ sig }).2
    let s := s.modLading p (fun l => { l with last := BitVec.ofNat 32 last.toNat })
    s.raiseHm 0x1009 (some p) (natLe 1 p ++ wordLe 8 l.first ++ wordLe 8 last)

/-- The close of a step at a multiple of auto_every steps since first_step issues a record (R518). -/
def State.ladingAuto (s : State) (p : Nat) : State :=
  let l := s.lading p
  let every := bits l.cfg 31 16
  let done := (s.part p).closed.toNat + 1 - l.first.toNat
  if every ≠ 0 ∧ done ≠ 0 ∧ done % every = 0 then s.ladingIssue p else s

/-- The window of a partition's SEC_P_ registers (R519). -/
def secPart (p : Nat) : Nat := 0x00011000 + p * 0x10

/-- ISSUE (R518). -/
def execIssue (p : BitVec 6) (s : State) : Out :=
  .next (s.guardWrite (.issue p) readySecurity (secPart p.toNat + 4) (fun s => s.ladingIssue p.toNat))

end Sys2Proof.Machine
end

