-- ==== Sys2Proof/Machine/Ethernet.lean ====
section
/-!
DEFINITION. Frames of the Ethernet port on their way out (R391, R392, R394, R395, R401, R405, R418, R512): the addresses of
the port, datagrams, RDMA READ requests, and the order in which the frames that wait are sent.
-/

namespace Sys2Proof.Machine

def State.modGw (s : State) (f : Gw → Gw) : State := { s with gw := f s.gw }
def State.modGwAux (s : State) (f : GwAux → GwAux) : State := { s with gwAux := f s.gwAux }

/-- An error bit of GW_ERROR (Table 11.11). -/
def State.gwError (s : State) (b : Nat) : State := s.modGw (fun g => { g with error := setBit g.error b })

/-- An event of the GW block. -/
def State.raiseGw (s : State) (code : Nat) (part : Option Nat) (payload : Bytes) : State :=
  s.raiseDie code gwIndex part payload

/-! ## Addresses -/

/-- The port's MAC address as its bytes on the wire (R391; log entry 48). -/
def ownMac : Bytes := natBe 6 Config.macAddress.toNat

/-- The port's IP addresses as bytes, byte 0 in bits [7:0] (Table 11.8, R7; log entry 48); none where all zero. -/
def State.ownIp4 (s : State) : Option Bytes := if s.gw.ipv4 = 0 then none else some (wordLe 4 s.gw.ipv4)
def State.ownIp6 (s : State) : Option Bytes :=
  let b := (List.range 4).flatMap (fun i => wordLe 4 (s.gw.ipv6.get (fun _ => 0) i))
  if b = zeros 16 then none else some b

/-- EtherTypes that the device uses. -/
def etIp4 : Nat := 0x0800
def etIp6 : Nat := 0x86DD
def etArp : Nat := 0x0806
def etMacsec : Nat := 0x88E5
def etVlan : Nat := 0x8100
def etPtp : Nat := 0x88F7
def etLldp : Nat := 0x88CC
def etMacControl : Nat := 0x8808

/-! ## Packet numbers (R512) -/

/-- The peer with a MAC address. -/
def State.peerOf (s : State) (mac : Bytes) : Option (Nat × Peer) :=
  s.sec.peers.find? (fun (e : Nat × Peer) => decide (e.2.mac = mac))

/-- A packet number at which event 0x1008 is raised, and the last one. -/
def Sak.threshold (k : Sak) : Nat := if k.xpn then 2 ^ 64 - 2 ^ 32 else 0xC0000000
def Sak.lastPn (k : Sak) : Nat := if k.xpn then 2 ^ 64 - 1 else 2 ^ 32 - 1

/-- A frame to a peer takes the next packet number of the transmit key: whether it may be sent (R512). -/
def State.takePn (s : State) (dst : Bytes) : Bool × State :=
  match s.peerOf dst with
  | none => (true, s)
  | some (i, x) =>
    match x.keys.find? (fun k => decide (x.txAn = some k.an)) with
    | none => (true, s)
    | some k =>
      if k.lastPn ≤ k.pn.toNat then (false, s)
      else
        let s := s.modPeer i (fun x =>
          { x with keys := x.keys.map (fun y => if y.an = k.an then { y with pn := y.pn + 1 } else y) })
        if k.pn.toNat + 1 = k.threshold then (true, (s.secError 6).raiseHm 0x1008 none (natLe 1 i)) else (true, s)

/-! ## Priorities (R392, R394, R395, R418) -/

def State.prio (s : State) (n : Nat) : Prio := s.gw.prios.get (fun _ => Prio.zero) n
def State.modPrio (s : State) (n : Nat) (f : Prio → Prio) : State :=
  s.modGw (fun g => { g with prios := g.prios.modify (fun _ => Prio.zero) n f })

/-- The first bits of the fields of GW_PRIO_CFG that select the priority of CCT, MRP and RoCEv2 traffic (Table 11.12). -/
def cctField : Nat := 16
def mrpField : Nat := 19
def roceField : Nat := 22
def prioOf (w : Word) (field : Nat) : Nat := bits w (field + 2) field

/-- The bits of `w` from `lo`, `n` of them, in place of those of `old`. -/
def takeBits (old w : Word) (lo n : Nat) : Word :=
  let m : Word := BitVec.ofNat 32 ((2 ^ n - 1) * 2 ^ lo)
  (old &&& ~~~m) ||| (w &&& m)

/-- GW_PRIO_CFG takes effect for a priority at its frame boundary (R418): its bits of pfc_enable and strict, and a field that
selects it, or that selected it. -/
def State.frameBoundary (s : State) (n : Nat) : State :=
  s.modGw (fun g =>
    let field := fun (w : Word) (f : Nat) =>
      if prioOf w f = n ∨ prioOf g.prioCfg f = n then takeBits w g.prioCfg f 3 else w
    let w := takeBits (takeBits g.prioInForce g.prioCfg n 1) g.prioCfg (8 + n) 1
    { g with prioInForce := [cctField, mrpField, roceField].foldl field w })

/-- The priority of the device's own traffic of a field: the boundary of the one in force comes first. -/
def State.ownPrio (s : State) (field : Nat) : Nat × State :=
  let s := s.frameBoundary (prioOf s.gw.prioInForce field)
  (prioOf s.gw.prioInForce field, s)

/-- PFC is on for a priority. -/
def State.pfcOn (s : State) (n : Nat) : Bool := bit s.gw.prioInForce n

/-- A received pause holds the frames of a priority (R394). -/
def State.holds (s : State) (n : Nat) : Bool := s.pfcOn n && (s.prio n).paused

/-- The share of a class. -/
def etsShare (lo hi : Word) (t : Nat) : Nat := if t < 4 then bits lo (8 * t + 7) (8 * t) else bits hi (8 * t - 25) (8 * t - 32)

/-- The class that sends next among those that have a frame to send (R392, R395): strict ones first, the highest first; of the
others the one that has had least for its share, and one without a share when no other has anything. The manual gives the
shares and no scheduler (log entry 101). -/
def State.nextClass (s : State) (served : Sparse Nat) (ready : List Nat) : Option Nat :=
  let strict := ready.filter (fun t => bit s.gw.prioInForce (8 + t))
  let share := etsShare s.gw.etsLoApplied s.gw.etsHiApplied
  let had := fun t => served.get (fun _ => 0) t
  match strict.reverse with
  | t :: _ => some t
  | [] => ready.foldl (fun best t =>
      match best with
      | none => some t
      | some b => if share b = 0 ∧ share t ≠ 0 ∨ had t * share b < had b * share t then some t else some b) none

/-- Frames that nothing holds are sent, the classes in their order and each class in its own (R394, R395). The time that a
frame takes on the wire is not modelled (log entry 101). -/
def State.sendWaiting : Nat → Sparse Nat → State → State
  | 0, _, s => s
  | fuel + 1, served, s =>
    let ready := (List.range 8).filter (fun t => !s.holds t && s.gwAux.txHeld.any (fun e => decide (e.1.toNat = t)))
    match (s.nextClass served ready).bind (fun t => s.gwAux.txHeld.find? (fun e => decide (e.1.toNat = t))) with
    | none => s
    | some e =>
      State.sendWaiting fuel (served.modify (fun _ => 0) e.1.toNat (· + e.2.length))
        (s.modGwAux (fun a => { a with tx := a.tx ++ [e], txHeld := a.txHeld.erase e, txFrames := a.txFrames + 1 }))
def State.flushTx (s : State) : State := State.sendWaiting s.gwAux.txHeld.length [] s

/-- A frame joins those of its priority, and what nothing holds is sent. -/
def State.queueFrame (s : State) (prio : Nat) (f : Bytes) : State :=
  (s.modGwAux (fun a => { a with txHeld := a.txHeld ++ [(BitVec.ofNat 3 prio, f)] })).flushTx

/-- A frame of the device or of a host session is sent, the link being up; a peer's packet numbers may be used up. -/
def State.sendFrame (s : State) (prio : Nat) (f : Bytes) : State :=
  if !s.gw.ethUp then s
  else
    let s := s.frameBoundary prio
    let (ok, s) := s.takePn (f.take 6)
    if ok then s.queueFrame prio f else s

/-! ## Datagrams (R392, R405) -/

/-- A frame of at least 60 bytes. -/
def shortPad (f : Bytes) : Bytes := f ++ zeros (60 - f.length)

/-- The Internet checksum of a byte string. -/
def onesSum (b : Bytes) : Nat := (List.range ((b.length + 1) / 2)).foldl (fun n i => n + beNat (padTo 2 (slice b (2 * i) 2))) 0
def onesFold : Nat → Nat → Nat
  | 0, n => n
  | fuel + 1, n => if n < 65536 then n else onesFold fuel (n % 65536 + n / 65536)
def checksum (b : Bytes) : Nat := 65535 - onesFold 8 (onesSum b)

/-- The number of a frame that the device forms; fields that the manual leaves to the sender (identification, lifetime, flow
label, source port) are free values of it (log entry 100). -/
def State.numberFrame (s : State) : Nat × State :=
  (s.gwAux.frames, s.modGwAux (fun a => { a with frames := a.frames + 1 }))

/-- An IPv4 and an IPv6 packet of UDP from the port, untagged, with DSCP at the priority shifted left by 3 (R392). -/
def ip4Udp (src dst : Bytes) (prio k : Nat) (udp : Bytes) : Bytes :=
  let head := fun sum => [0x45] ++ natBe 1 (prio * 32) ++ natBe 2 (20 + udp.length) ++ natBe 2 (Config.frameField 0 k % 65536)
    ++ natBe 2 (Config.frameField 1 k % 2 * 16384) ++ natBe 1 (Config.frameField 2 k % 255 + 1) ++ [17] ++ natBe 2 sum ++ src ++ dst
  head (checksum (head 0)) ++ udp
def ip6Udp (src dst : Bytes) (prio k : Nat) (udp : Bytes) : Bytes :=
  natBe 4 (6 * 2 ^ 28 + prio * 2 ^ 25 + Config.frameField 0 k % 2 ^ 20) ++ natBe 2 udp.length ++ [17]
    ++ natBe 1 (Config.frameField 2 k % 255 + 1) ++ src ++ dst ++ udp

/-- A UDP datagram with its checksum over the pseudo header; a sum of 0 is sent as all ones. -/
def udpBytes (src dst : Bytes) (sport dport : Nat) (data : Bytes) : Bytes :=
  let body := fun sum => natBe 2 sport ++ natBe 2 dport ++ natBe 2 (8 + data.length) ++ natBe 2 sum ++ data
  let pseudo := src ++ dst ++ natBe 4 (8 + data.length) ++ [0, 0, 0, 17]
  let sum := checksum (pseudo ++ body 0)
  body (if sum = 0 then 65535 else sum)

/-- The port's own address of the family of another. -/
def State.ownIpFor (s : State) (ip : Bytes) : Bytes :=
  if ip.length = 16 then s.ownIp6.getD (zeros 16) else s.ownIp4.getD (zeros 4)

/-- A frame with a datagram of the port to an address. -/
def State.udpFrame (s : State) (peer : NetAddr) (prio sport k : Nat) (data : Bytes) : Bytes :=
  let src := s.ownIpFor peer.ip
  let udp := udpBytes src peer.ip sport peer.port data
  if peer.ip.length = 16 then shortPad (peer.mac ++ ownMac ++ natBe 2 etIp6 ++ ip6Udp src peer.ip prio k udp)
  else shortPad (peer.mac ++ ownMac ++ natBe 2 etIp4 ++ ip4Udp src peer.ip prio k udp)

/-! ## Network recovery (R504) -/

/-- The read request of TFTP for the image, in octets, with blocks of 8,192 bytes. -/
def tftpRead : Bytes :=
  [0, 1] ++ ("cordago-6400.img".toList ++ ['\x00'] ++ "octet".toList ++ ['\x00'] ++ "blksize".toList ++ ['\x00'] ++ "8192".toList).map
    (fun c => BitVec.ofNat 8 c.toNat) ++ [0]

/-- The request goes to the recovery server; the blocks that answer it, and their acknowledgements, are one command
(RECOVERY_IMAGE_RECEIVED; log entry 100). -/
def State.tftpRequest (s : State) : State :=
  if !s.gw.ethUp then s
  else
    let (k, s) := s.numberFrame
    let ip := wordLe 4 s.hm.recoveryServer
    let peer : NetAddr := { mac := natBe 6 (Config.neighbourMac ip).toNat, ip := ip, port := 69 }
    s.sendFrame 0 (s.udpFrame peer 0 (49152 + Config.frameField 3 k % 16384) k tftpRead)

/-! ## RDMA READ requests (R390, R401) -/

/-- The CRC-32 of IEEE 802.3. -/
def crcByte (c : Word) (b : Byte) : Word :=
  (List.range 8).foldl (fun c _ => if bit c 0 then (c >>> 1) ^^^ 0xEDB88320 else c >>> 1) (c ^^^ b.setWidth 32)
def crc32 (b : Bytes) : Word := ~~~(b.foldl crcByte 0xFFFFFFFF)

/-- The invariant CRC of RoCEv2 over an IP packet, its UDP header and what follows it, the fields that change on the way
taken as ones (log entry 102). -/
def icrc (ip udp rest : Bytes) : Bytes :=
  let ones := fun (b : Bytes) (at_ n : Nat) => b.take at_ ++ List.replicate n 0xFF ++ b.drop (at_ + n)
  let ip := if (ip.headD 0).toNat / 16 = 6 then [0x6F, 0xFF, 0xFF, 0xFF] ++ ones (ip.drop 4) 3 1
    else ones (ones (ones ip 1 1) 8 1) 10 2
  wordLe 4 (crc32 (List.replicate 8 0xFF ++ ip ++ ones udp 6 2 ++ ones rest 4 1))

/-- The UDP port of RoCEv2, and the length of its path's packets (Table 11.1). -/
def rocePort : Nat := 4791
def roceMtu : Nat := 4096

/-- The IP address of a GID: an IPv4 address mapped into IPv6, or an IPv6 address. -/
def gidIp (gid : Bytes) : Bytes := if gid.take 12 = zeros 10 ++ [0xFF, 0xFF] then gid.drop 12 else gid

/-- The base transport header of a request of a QP. -/
def bth (opcode : Nat) (qpn psn : Nat) : Bytes :=
  natBe 1 opcode ++ [0x40, 0xFF, 0xFF, 0] ++ natBe 3 qpn ++ [0x80] ++ natBe 3 psn

/-- The frame of an RDMA READ request: its address, key and length on the QP (R401). -/
def State.readFrame (s : State) (q : Qp) (psn prio k va rkey len : Nat) : Bytes :=
  let ip := gidIp (wordLe 16 q.gid)
  let src := s.ownIpFor ip
  let rest := bth 0x0C q.remoteQpn.toNat psn ++ natBe 8 va ++ natBe 4 rkey ++ natBe 4 len
  let udp := natBe 2 (49152 + Config.frameField 3 k % 16384) ++ natBe 2 rocePort ++ natBe 2 (8 + rest.length + 4) ++ [0, 0]
  let packet := fun (tail : Bytes) => if ip.length = 16 then ip6Udp src ip prio k (udp ++ tail) else ip4Udp src ip prio k (udp ++ tail)
  let head := (packet (rest ++ zeros 4)).take (if ip.length = 16 then 40 else 20)
  let mac := natBe 6 (Config.neighbourMac ip).toNat
  shortPad (mac ++ ownMac ++ natBe 2 (if ip.length = 16 then etIp6 else etIp4) ++ packet (rest ++ icrc head udp rest))

end Sys2Proof.Machine
end

