-- ==== Sys2Proof/Machine/DataFetch.lean ====
section
/-!
DEFINITION. Data fetch by position (R398 to R404): which record a sample reads, the READs outstanding, where records
land, the retry on the alternate queue pair, the data digest and the fetch timeout.
-/

namespace Sys2Proof.Machine

/-! ## The order (R399, R400) -/

def DataOrder.epochSteps (o : DataOrder) : Nat := max 1 (o.positions / max 1 o.samples)

/-- h of R400: the least integer from 1 with 2^(2h) ≥ N. -/
def DataOrder.half (o : DataOrder) : Nat :=
  (((List.range 32).map (· + 1)).find? (fun h => decide (o.positions ≤ 2 ^ (2 * h)))).getD 32

/-- The four rounds of R400 on (left, right). -/
def permuteRounds (h : Nat) (seed : DWord) (key : Nat) : List Nat → Nat × Nat → Nat × Nat
  | [], x => x
  | i :: is, (left, right) =>
    let f := (streamWord seed 0 (BitVec.ofNat 64 key) (BitVec.ofNat 64 (i * 2 ^ 32 + right))).toNat % 2 ^ h
    permuteRounds h seed key is (right, left ^^^ f)

/-- One pass of permute's loop. -/
def permuteOnce (h : Nat) (seed : DWord) (key x : Nat) : Nat :=
  let (l, r) := permuteRounds h seed key [0, 1, 2, 3] (x >>> h, x % 2 ^ h)
  (l <<< h) + r

/-- The walk until x < N: the pass is a bijection on 2^(2h) numbers, so it ends within as many turns. -/
def permuteWalk (h : Nat) (seed : DWord) (key n : Nat) : Nat → Nat → Nat
  | 0, x => x
  | fuel + 1, x =>
    let y := permuteOnce h seed key x
    if y < n then y else permuteWalk h seed key n fuel y

/-- The position that sample `j` of step `s` reads (R400). -/
def DataOrder.position (o : DataOrder) (seed : DWord) (s j : Nat) : Nat :=
  if o.mode = 1 then (s * o.samples + j) % o.positions
  else
    let e := s / o.epochSteps
    let r := (s % o.epochSteps) * o.samples + j
    permuteWalk o.half seed (e * o.epochSteps) o.positions (2 ^ (2 * o.half)) r

def StepProgram.position (g : StepProgram) (s j : Nat) : Nat := g.order.position g.control.runSeed s j

/-- The record of Table 11.3 that covers a position. -/
def StepProgram.sourceOf (g : StepProgram) (pos : Nat) : Option DataSource :=
  g.sources.find? (fun x => decide (x.first ≤ pos) && decide (pos < x.first + x.count))

/-- The samples of a micro-batch: a step's samples, in order, split evenly (log entry 42). -/
def StepProgram.samplesOf (g : StepProgram) (mb : Nat) : List Nat :=
  let n := max 1 g.control.microBatches
  let lo := mb * g.order.samples / n
  (List.range ((mb + 1) * g.order.samples / n - lo)).map (· + lo)

/-- The distance from one record to the next in a landing buffer: the largest record of the table (log entry 42). -/
def StepProgram.recordStride (g : StepProgram) : Nat := g.sources.foldl (fun m x => max m x.recordBytes) 0

/-! ## Reads (R401, R402) -/

/-- A record larger than 16 MiB is read in pieces of 16 MiB (R401): how many READs a record takes, and the bytes of one. -/
def pieceBytes : Nat := 2 ^ 24
def recordReads (bytes : Nat) : Nat := max 1 (ceilDiv bytes pieceBytes)
def pieceLen (bytes piece : Nat) : Nat := min pieceBytes (bytes - piece * pieceBytes)

/-- The record of a read. -/
def State.readSource (s : State) (r : FetchRead) : Option (Nat × DataSource) :=
  match s.program? r.part.toNat with
  | none => none
  | some g =>
    let pos := g.position r.step.toNat r.sample
    (g.sourceOf pos).map (fun x => (pos, x))

/-- The READs of a sample's record. -/
def StepProgram.readsOf (g : StepProgram) (step j : Nat) : Nat :=
  if g.recordStride ≤ pieceBytes then 1
  else ((g.sourceOf (g.position step j)).map (fun x => recordReads x.recordBytes)).getD 1

/-- READs outstanding (GW_FETCH_STATUS). -/
def State.readsOut (s : State) : Nat := s.gw.reads.length

def State.qpReady (s : State) (n : Nat) : Bool := decide ((s.qp n).state = .ready)

def State.addRead (s : State) (r : FetchRead) : State := s.modGw (fun g => { g with reads := g.reads ++ [r] })

/-- A READ goes out on its queue pair (R401): its address is that of the record, from remote_addr on, and of the piece in it; it
takes the packet sequence numbers of its response's packets. -/
def State.startRead (s : State) (r : FetchRead) (pos : Nat) (x : DataSource) : State :=
  let q := s.qp r.qp
  let len := pieceLen x.recordBytes r.piece
  let s := (s.addRead { r with psn := q.nextPsn, got := [] }).modQp r.qp (fun y =>
    { y with nextPsn := (q.nextPsn + ceilDiv len roceMtu) % 2 ^ 24 })
  let (prio, s) := s.ownPrio roceField
  let (k, s) := s.numberFrame
  s.sendFrame prio (s.readFrame q q.nextPsn prio k (x.remoteAddr + (pos - x.first) * x.recordBytes + r.piece * pieceBytes) x.rkey len)

/-- A read that failed on its QP is issued once more on alt_qp, if one is named (R402). -/
def State.retryRead (s : State) (r : FetchRead) : State :=
  match s.readSource r with
  | none => s
  | some (pos, x) =>
    if r.retried ∨ x.altQp = 0xFFFF then s
    else
      let s := s.raiseGw 0x5008 none (natLe 2 r.qp ++ natLe 2 x.altQp ++ natLe 8 pos)
      let s := s.modGwAux (fun a => { a with fetchRetries := satAdd a.fetchRetries 1 })
      if s.qpReady x.altQp then s.startRead { r with qp := x.altQp, retried := true } pos x else s

/-- The read of a piece of a sample starts; on a QP that is not usable it fails at once. -/
def State.issueRead (s : State) (p : Nat) (f : MbFetch) (j : Nat × Nat) : State :=
  let r : FetchRead :=
    { part := BitVec.ofNat 6 p, step := f.step, mb := f.mb, sample := j.1, qp := 0, retried := false, piece := j.2 }
  match s.readSource r with
  | none => s
  | some (pos, x) =>
    let r := { r with qp := x.qp }
    if s.qpReady x.qp then s.startRead r pos x else s.retryRead r

/-- The loop index: the micro-batch (Table 12.3). -/
def Sequencer.index (q : Sequencer) : Nat := (q.loops.head?.map (·.index)).getD 0

/-- A change of a micro-batch's fetch. -/
def State.modFetch (s : State) (p : Nat) (step : DWord) (mb : Nat) (f : MbFetch → MbFetch) : State :=
  s.modSeq p (fun q => { q with fetches := q.fetches.map (fun x => if x.step = step ∧ x.mb = mb then f x else x) })

/-- The reads of a micro-batch start while fewer than 256 are outstanding. -/
def State.pumpOne (s : State) (p : Nat) (f : MbFetch) : State :=
  let (left, s) := f.queue.foldl (fun (acc : List (Nat × Nat) × State) j =>
    if acc.1 = [] ∧ acc.2.readsOut < 256 then ([], acc.2.issueRead p f j) else (acc.1 ++ [j], acc.2)) ([], s)
  s.modFetch p f.step f.mb (fun x => { x with queue := left })

/-- The order in which the step program consumes a micro-batch. -/
def MbFetch.turn (f : MbFetch) (mbs : Nat) : Nat := f.step.toNat * mbs + f.mb

/-- The fetch engine goes on for a partition: in the order of use, at most fetch_ahead micro-batches ahead (R402). -/
def State.pumpFetch (s : State) (p : Nat) : State :=
  match s.program? p with
  | none => s
  | some g =>
    let n := max 1 g.control.microBatches
    let use := (s.part p).step.toNat * n + (s.seq p).index
    let due := (s.seq p).fetches.filter (fun f => decide (f.turn n ≤ use + g.order.fetchAhead))
    (sortBy (fun (a b : MbFetch) => decide (a.turn n ≤ b.turn n)) due).foldl (fun s f => s.pumpOne p f) s

/-- The fetch engine goes on for every partition. -/
def State.pumpAll (s : State) : State := (s.parts.map (·.1)).foldl State.pumpFetch s

/-- The fetch of a micro-batch starts, unless it started before; `region` is the REGIONS index its records land in. -/
def State.startFetch (s : State) (p : Nat) (step : DWord) (mb region : Nat) : State :=
  match s.program? p with
  | none => s
  | some g =>
    if (s.seq p).fetches.any (fun f => decide (f.step = step) && decide (f.mb = mb)) then s
    else
      let js := g.samplesOf mb
      let queue := js.flatMap (fun j => (List.range (g.readsOf step.toNat j)).map (fun i => (j, i)))
      (s.modSeq p (fun q =>
        { q with fetches := q.fetches ++ [{ step := step, mb := mb, region := region, queue := queue, left := js }] })).pumpFetch p

/-- A micro-batch's fetch is in progress. -/
def Sequencer.fetching (q : Sequencer) (step : DWord) (mb : Nat) : Bool :=
  q.fetches.any (fun f => decide (f.step = step) && decide (f.mb = mb) && decide (f.left ≠ []))

/-! ## Landing (R402, R403) -/

/-- Where sample `j` lands: the space and the first byte. -/
def StepProgram.landing (g : StepProgram) (region j : Nat) : Option (Space × Nat) :=
  match g.regions[region]? with
  | none => none
  | some r => (spaceOf r.kind).map (fun sp => (sp, r.lo + j * g.recordStride))

/-- The data digest forms after the step's last record has landed (R403). -/
def State.formDigest (s : State) (p : Nat) : State :=
  match s.program? p with
  | none => s
  | some g =>
    let l := s.log p
    let step := (s.part p).step
    let recs := (List.range g.order.samples).map (fun j =>
      (l.landed.find? (fun x => decide (x.1 = step) && decide (x.2.1 = j))).map (fun x => x.2.2))
    if l.dataDigest.isSome ∨ recs.any (·.isNone) then s
    else s.modLog p (fun l =>
      { l with dataDigest := some (sha384 (recs.flatMap (fun r => r.getD []))),
               landed := l.landed.filter (fun x => decide (x.1 ≠ step)) })

/-- A piece of a record lands, inside the partition's regions (R286). The Gateway reaches the hold tier only for the Manifest store
and for snapshots (R279): a record for it is refused (log entry 73). -/
def State.landRecord (s : State) (p : Nat) (g : StepProgram) (region j piece : Nat) (data : Bytes) : State :=
  match g.landing region j with
  | none => s
  | some (sp, first) =>
    let a := first + piece * pieceBytes
    if sp ≠ .hold ∧ s.mayAccess p false sp .write a data.length then
      (s.touch { part := p, noAlloc := false } true sp a data.length).store sp a data
    else s.regionFault (sp.unit a) p idFetch a

/-- A piece of a record is kept until the record is whole, of `n` pieces: whether it is now. -/
def State.keepPiece (s : State) (r : FetchRead) (n : Nat) (data : Bytes) : Bool × State :=
  let p := r.part.toNat
  let ps := (s.log p).pieces ++ [(r.step, r.sample, r.piece, data)]
  let mine := fun (x : DWord × Nat × Nat × Bytes) => decide (x.1 = r.step) && decide (x.2.1 = r.sample)
  if (ps.filter mine).length < n then (false, s.modLog p (fun l => { l with pieces := ps }))
  else
    let whole := (sortBy (fun (a b : DWord × Nat × Nat × Bytes) => decide (a.2.2.1 ≤ b.2.2.1)) (ps.filter mine)).flatMap (·.2.2.2)
    (true, s.modLog p (fun l =>
      { l with pieces := ps.filter (fun x => !mine x), landed := l.landed ++ [(r.step, r.sample, whole)] }))

/-- A READ's data has arrived; the sample is there with the last piece of its record. -/
def State.recordArrives (s : State) (r : FetchRead) (data : Bytes) : State :=
  let p := r.part.toNat
  match s.program? p with
  | none => s
  | some g =>
    let s := s.modGw (fun w => { w with reads := w.reads.filter (fun x => decide (x ≠ r)) })
    let s := s.modGwAux (fun a => { a with fetchBytes := a.fetchBytes + BitVec.ofNat 64 data.length })
    match (s.seq p).fetches.find? (fun f => decide (f.step = r.step) && decide (f.mb = r.mb)) with
    | none => s.pumpAll
    | some f =>
      let s := s.landRecord p g f.region r.sample r.piece data
      let (whole, s) := s.keepPiece r (g.readsOf r.step.toNat r.sample) data
      let s := if whole then s.modFetch p r.step r.mb (fun x => { x with left := x.left.filter (· ≠ r.sample) }) else s
      let s := s.modSeq p (fun q =>
        { q with waitsData := if q.waitsData = some r.mb ∧ !q.fetching (s.part p).step r.mb then none else q.waitsData })
      (s.formDigest p).pumpAll

/-- A QP enters the error state (R398): every read outstanding on it fails. -/
def State.qpFails (s : State) (qp : Nat) (syndrome : Byte) : State :=
  let s := (s.modQp qp (fun x => { x with state := .error })).gwError 3
  let s := s.raiseGw 0x5007 none (natLe 2 qp ++ [syndrome])
  let mine := s.gw.reads.filter (fun r => decide (r.qp = qp))
  let s := s.modGw (fun w => { w with reads := w.reads.filter (fun r => decide (r.qp ≠ qp)) })
  (mine.foldl State.retryRead s).pumpAll

/-- A response packet of RoCEv2, from its base transport header to its payload's last byte (R390; log entry 102): the data of
the READ whose next packet it is, or a negative acknowledgement, which is an error of the queue pair. -/
def State.roceIn (s : State) (b : Bytes) : State :=
  let op := leAt b 0 1
  match s.gw.qps.find? (fun (e : Nat × Qp) => decide (e.2.state = .ready) && decide (e.2.localQpn = beAt b 5 3)) with
  | none => s
  | some (n, _) =>
    match s.gw.reads.find? (fun r => decide (r.qp = n) && decide ((r.psn + r.got.length / roceMtu) % 2 ^ 24 = beAt b 9 3)) with
    | none => s
    | some r =>
      if op = 0x11 then
        let y := leAt b 12 1
        if y / 32 = 3 ∧ within 1 3 (y % 32) then s.qpFails n (if y % 32 = 1 then 4 else if y % 32 = 2 then 3 else 5) else s
      else if within 0x0D 0x10 op then
        let pad := leAt b 1 1 / 16 % 4
        let data := b.drop (if op = 0x0E then 12 else 16)
        let got := r.got ++ data.take (data.length - pad)
        let last := decide (op = 0x0F ∨ op = 0x10)
        match s.readSource r with
        | none => s
        | some (_, x) =>
          let len := pieceLen x.recordBytes r.piece
          if len < got.length ∨ last ≠ decide (got.length = len) then s.qpFails n 6
          else if last then s.recordArrives r got
          else s.modGw (fun w => { w with reads := w.reads.map (fun y => if y = r then { y with got := got } else y) })
      else s

/-- RDMA_READ_COMPLETE: a READ of a sample ends (R402), with the frames of its response that FRAME_RECEIVE has not brought.
Data of another length than the READ's is no end of it. -/
def State.readEnds (s : State) (p : Nat) (step : DWord) (sample : Nat) (o : RdmaOutcome) : State :=
  match s.gw.reads.find? (fun r => decide (r.part.toNat = p) && decide (r.step = step) && decide (r.sample = sample)) with
  | none => s
  | some r =>
    match o, s.readSource r with
    | .data b, some (_, x) =>
      if b.length = pieceLen x.recordBytes r.piece then
        (s.modGwAux (fun a => { a with
          rxFrames := a.rxFrames + BitVec.ofNat 64 (ceilDiv (b.length - r.got.length) roceMtu) })).recordArrives r b
      else s
    | .data _, none => s
    | .error y, _ => s.qpFails r.qp y

/-! ## The fetch timeout (R404) -/

/-- Reads of a partition are dropped: what returns later is discarded. -/
def State.dropReads (s : State) (p : Nat) : State :=
  let s := s.modGw (fun w => { w with reads := w.reads.filter (fun r => decide (r.part.toNat ≠ p)) })
  let s := s.modLog p (fun l => { l with pieces := [] })
  s.modSeq p (fun q => { q with fetches := [], waitsData := none })

/-- FETCH_TIMEOUT: a micro-batch that the step program waits for has not landed. -/
def State.fetchTimeout (s : State) (p : Nat) : State :=
  match (s.seq p).waitsData, s.program? p with
  | some mb, some g =>
    let step := (s.part p).step
    match (s.seq p).fetches.find? (fun f => decide (f.step = step) && decide (f.mb = mb)) with
    | none => s
    | some f =>
      let pos := g.position step.toNat (f.left.headD 0)
      let s := s.raiseGw 0x5009 (some p) (natLe 1 p ++ wordLe 8 step ++ natLe 8 pos)
      ((s.gwError 4).dropReads p).halt p 5
  | _, _ => s

/-- RDMA_READ_COMPLETE (R402). -/
def execRdmaReadComplete (p : BitVec 6) (step : DWord) (sample : Nat) (outcome : RdmaOutcome) (s : State) : Out :=
  .next (s.readEnds p.toNat step sample outcome)

/-- FETCH_TIMEOUT (R404). -/
def execFetchTimeout (p : BitVec 6) (s : State) : Out := .next (s.fetchTimeout p.toNat)

end Sys2Proof.Machine
end

