-- ==== Sys2Proof/Machine/Logbook.lean ====
section
/-!
DEFINITION. The logbook (R429 to R432), the drives of the snapshot port (R412 to R416), and the size and content of a
snapshot image (R431, R433).
-/

namespace Sys2Proof.Machine

/-! ## Entries (R429, R430) -/

/-- A record of an entry: type, length, body, padded to 8 bytes. -/
def recordBytes (r : Half × Bytes) : Bytes :=
  let b := wordLe 2 r.1 ++ natLe 2 r.2.length ++ r.2
  padTo (ceilDiv b.length 8 * 8) b

/-- Records in ascending order of type, equal types in the order they were gathered. -/
def sortRecords (rs : List (Half × Bytes)) : List (Half × Bytes) :=
  sortBy (fun (a b : Half × Bytes) => decide (a.1.toNat ≤ b.1.toNat)) rs

/-- The records of an entry, read back. -/
def entryRecords : Nat → Bytes → List (Half × Bytes)
  | 0, _ => []
  | n + 1, b =>
    let len := leAt b 2 2
    (BitVec.ofNat 16 (leAt b 0 2), slice b 4 len) :: entryRecords n (b.drop (ceilDiv (4 + len) 8 * 8))

/-- Fields of an entry's header (Table 12.9). -/
def entryKind (e : Bytes) : Nat := leAt e 5 1
def entryStep (e : Bytes) : Nat := leAt e 8 8
def entrySeq (e : Bytes) : Nat := leAt e 16 8
def recordsOf (e : Bytes) : List (Half × Bytes) := entryRecords (leAt e 36 4) (e.drop 96)

/-- Blocks of 4 KiB that an entry takes. -/
def entryBlocks (e : Bytes) : Nat := ceilDiv e.length 4096

/-- The chain value that the next entry links to (R430). -/
def State.prevHash (s : State) (p : Nat) : Bytes :=
  let x := s.part p
  if x.chained then x.chain else sha384 (wordLe 8 s.mf.jobId ++ padTo 48 s.mfAux.digest ++ s.deviceId)

/-- The longest entry (R429). -/
def maxEntry : Nat := 2 ^ 20

/-- The records that an entry takes: one that would take it over 1 MiB is left out. DESIGN CHOICE (log entry 103): R429 gives the
bound and not what a longer list of records becomes. -/
def fitRecords (rs : List (Half × Bytes)) : List (Half × Bytes) :=
  (rs.foldl (fun (acc : List (Half × Bytes) × Nat) r =>
    let n := acc.2 + (recordBytes r).length
    if n ≤ maxEntry then (acc.1 ++ [r], n) else acc) ([], 96)).1

/-- The journal keeper composes an entry: every record on the ring is accepted first, and the entry takes its number
(R40, Table 12.9). -/
def State.compose (s : State) (p kind : Nat) (step : DWord) (rs : List (Half × Bytes)) : Bytes × State :=
  let s := s.acceptAll
  let (seq, s) := s.takeSeq
  let rs := fitRecords rs
  let body := (rs.map recordBytes).flatten
  let head := natLe 4 0x424C4443 ++ [1] ++ natLe 1 kind ++ natLe 1 p ++ [0] ++ wordLe 8 step ++ wordLe 8 seq
    ++ wordLe 8 s.mf.jobId ++ natLe 4 body.length ++ natLe 4 rs.length ++ wordLe 8 s.hm.time ++ s.prevHash p
  let e := head ++ body
  (e, s.modPart p (fun x => { x with chain := sha384 e, chained := true }))

/-! ## The ring (R431, R432) -/

/-- Blocks of the logbook area. -/
def ringBlocks : Nat := 16777216

/-- A step that the ring may not give up: at or after that of the older of the two complete snapshots. -/
def StepLog.protects (l : StepLog) (step : Nat) : Bool :=
  match l.slots with
  | [a, _] => decide (a.step.toNat ≤ step)
  | _ => true

/-- The entries of the ring, with whether each is protected. -/
def State.ringEntries (s : State) : List (Bytes × Bool) :=
  s.runs.flatMap (fun e =>
    (e.2.log.entries ++ (e.2.log.unwritten.filter (fun u => u.cid.isSome)).map (fun u => u.bytes)).map
      (fun b => (b, e.2.log.protects (entryStep b))))

/-- Blocks that may be written before R432 holds (JR_LOG_FREE). -/
def State.logFree (s : State) : Nat :=
  let es := s.ringEntries
  match (es.filter (fun e => e.2)).map (fun e => entrySeq e.1) with
  | [] => ringBlocks
  | q :: qs =>
    let oldest := qs.foldl min q
    ringBlocks - ((es.filter (fun e => decide (oldest ≤ entrySeq e.1))).foldl (fun n e => n + entryBlocks e.1) 0)

/-! ## Drives -/

/-- Blocks of the guest's logbook area. -/
def guestRing : Nat := 262144

/-- The first blocks of the areas (R431, Table 12.11): own slots, the guest's logbook, its slots. -/
def DriveLabel.ownSlot (l : DriveLabel) (slot : Bool) : Nat := 2 + ringBlocks + (if slot then l.slotBlocks else 0)
def DriveLabel.guestLog (l : DriveLabel) : Nat := 2 + ringBlocks + 2 * l.slotBlocks
def DriveLabel.guestSlot (l : DriveLabel) (slot : Bool) : Nat := l.guestLog + guestRing + (if slot then l.guestBlocks else 0)

/-- Blocks that drive `d` of `n` takes of `blocks`: two drives take units of 1 MiB in turn, drive 0 first (R414). -/
def stripe (blocks n d : Nat) : Nat :=
  if n ≠ 2 then blocks
  else if d = 0 then blocks / 512 * 256 + min (blocks % 512) 256
  else blocks / 512 * 256 + (blocks % 512 - 256)

/-- A queue pair for a command that is no logbook write: one of 1 to 15 (R414). -/
def dataQueue (cid : Nat) : Nat := 1 + cid % 15

/-- The command is a logbook write. -/
def NvmeCmd.logbook (c : NvmeCmd) : Bool := decide (c.queue = 0)

/-- Logical blocks that the command writes. -/
def NvmeCmd.written (c : NvmeCmd) : Nat :=
  match c.op with
  | .read => 0
  | .write _ => c.blocks

/-- A command is submitted: to queue 0 ahead of every other queue (R414). A run of commands over consecutive blocks is shown
as one (log entry 104). -/
def Drive.submit (x : Drive) (c : NvmeCmd) : Drive :=
  if c.logbook then { x with cmds := x.cmds.filter NvmeCmd.logbook ++ [c] ++ x.cmds.filter (fun y => !y.logbook) }
  else { x with cmds := x.cmds ++ [c] }

/-- The working drives. -/
def State.working (s : State) : List Nat := [0, 1].filter (fun d => decide ((s.drive d).state = .ready))

/-- A logbook write with FUA to a drive. -/
def logWrite (p cid lba blocks : Nat) : NvmeCmd :=
  { cid := cid, queue := 0, op := .write true, lba := lba, blocks := blocks, part := BitVec.ofNat 6 p, retried := false }

/-- A logbook entry goes to every working drive, at the same blocks, under one identifier (R414, R431). -/
def State.logCommand (s : State) (p lba blocks : Nat) : Nat × State :=
  let cid := s.gw.nextCid
  let s := s.modGw (fun g => { g with nextCid := cid + 1 })
  (cid, s.working.foldl (fun s d => s.modDrive d (fun x => x.submit (logWrite p cid lba blocks))) s)

/-- Striped blocks, read or written under one identifier: `skip` of them lie before, from `lba` on (R414). -/
def State.dataCommand (s : State) (p : Nat) (op : NvmeOp) (lba skip blocks : Nat) : Nat × State :=
  let cid := s.gw.nextCid
  let n := s.working.length
  let s := s.modGw (fun g => { g with nextCid := cid + 1 })
  (cid, s.working.foldl (fun s d =>
    let before := stripe skip n d
    s.modDrive d (fun x => x.submit
      { cid := cid, queue := dataQueue cid, op := op, lba := lba + before, blocks := stripe (skip + blocks) n d - before,
        part := BitVec.ofNat 6 p, retried := false })) s)

/-- The place of the next entry in the ring, which wraps (R432), and the ring after it. -/
def State.ringPlace (s : State) (blocks : Nat) : Nat × State :=
  (2 + s.jr.ringPos % ringBlocks, { s with jr := { s.jr with ringPos := s.jr.ringPos + blocks } })

/-- Some drive has the command outstanding. -/
def State.outstanding (s : State) (cid : Nat) : Bool :=
  [0, 1].any (fun d => (s.drive d).cmds.any (fun c => decide (c.cid = cid)))

/-- Whatever of the command is outstanding ends on every drive: how many drives it was. -/
def State.endCommand (s : State) (cid : Nat) : Nat × State :=
  [0, 1].foldl (fun (a : Nat × State) d =>
    let n := ((a.2.drive d).cmds.filter (fun c => decide (c.cid = cid))).length
    (a.1 + n, a.2.modDrive d (fun x => { x with cmds := x.cmds.filter (fun c => decide (c.cid ≠ cid)) }))) (0, s)

/-- Logical blocks written. -/
def State.countWritten (s : State) (blocks : Nat) : State :=
  s.modGwAux (fun a => { a with nvmeWritten := a.nvmeWritten + BitVec.ofNat 64 blocks })

/-- The Gateway writes an entry to every working drive; a write that the ring has no room for is held (R432): whether
it was written. -/
def State.submit (s : State) (p : Nat) (step : Bool) (e : Bytes) : Bool × State :=
  if entryBlocks e ≤ s.logFree then
    let (lba, s) := s.ringPlace (entryBlocks e)
    let (cid, s) := s.logCommand p lba (entryBlocks e)
    (true, s.modLog p (fun l =>
      { l with unwritten := l.unwritten ++ [{ cid := some cid, step := step, bytes := e, lba := lba }] }))
  else (false, s.modLog p (fun l => { l with unwritten := l.unwritten ++ [{ cid := none, step := step, bytes := e }] }))

/-- The ring holds a write: JR_ERROR.ring_forced, event 0x4016, and a snapshot to capture (R432). -/
def State.ringForced (s : State) (p : Nat) : State :=
  let s := { s with jr := { s.jr with error := setBit s.jr.error 2 } }
  let s := s.modPart p (fun x => { x with snapStatus := setBit x.snapStatus 4 })
  s.raiseJr 0x4016 p (wordLe 8 (s.part p).step)

/-- An entry outside a step's: a job action (kind 1) or a recovery (kind 2). -/
def State.writeEntry (s : State) (p kind : Nat) (rs : List (Half × Bytes)) : State :=
  let (e, s) := s.compose p kind (s.part p).step (sortRecords rs)
  let (ok, s) := s.submit p false e
  if ok then s else s.ringForced p

/-- Held writes go on when the ring has room again. -/
def State.resubmitHeld (s : State) (p : Nat) : State :=
  (s.log p).unwritten.foldl (fun s u =>
    if u.cid.isNone ∧ entryBlocks u.bytes ≤ s.logFree then
      let (lba, s) := s.ringPlace (entryBlocks u.bytes)
      let (cid, s) := s.logCommand p lba (entryBlocks u.bytes)
      s.modLog p (fun l =>
        { l with unwritten := l.unwritten.map (fun x => if x = u then { x with cid := some cid, lba := lba } else x) })
    else s) s

/-- The entries of a partition that were not written are submitted again, to the drives that work now. -/
def State.resubmit (s : State) (p : Nat) : State :=
  (s.log p).unwritten.foldl (fun s u =>
    match u.cid with
    | none => s
    | some c =>
      s.working.foldl (fun s d =>
        if (s.drive d).cmds.any (fun x => decide (x.cid = c)) then s
        else s.modDrive d (fun x => x.submit (logWrite p c u.lba (entryBlocks u.bytes)))) s) s

/-! ## The snapshot image (R431, R433) -/

/-- Bytes of the Manifest store (R59). -/
def storeBytes : Nat := 96 * mib

/-- Bytes of a region of the program by index; 0 for none. -/
def StepProgram.regionBytes (g : StepProgram) (i : Nat) : Nat := ((g.regions[i]?).map (fun r => r.size * 4096)).getD 0

/-- Bytes of a snapshot image: the shard, the stash space, the second set of sum images, the Manifest store and 8 KiB
for the lading state and the rest; the manual gives the image no layout (log entry 40). -/
def State.snapBytes (s : State) (p : Nat) : Nat :=
  match s.program? p with
  | none => 0
  | some g => (s.shardRanges p).foldl (fun n r => n + r.2) 0 + g.control.stashCapacity * 4096
      + g.regionBytes g.control.lateRegion + storeBytes + 8192

/-- Blocks that one drive takes for an image and its trailer, with `n` working drives (R431). -/
def driveBlocks (bytes n : Nat) : Nat :=
  let total := bytes + 4096
  if n = 2 then ceilDiv total (2 * mib) * 256 else ceilDiv total 4096

/-- The layout of R431 for own images and a guest's, which a size of 0 leaves out, on the drives that work now. -/
def State.newLabel (s : State) (bytes guest : Nat) : DriveLabel :=
  let n := s.working.length
  { jobId := s.mf.jobId, drives := n, slotBlocks := driveBlocks bytes n,
    guestBlocks := if guest = 0 then 0 else driveBlocks guest n, snaps := [] }

/-- Blocks of a layout. -/
def DriveLabel.size (l : DriveLabel) : Nat := l.guestSlot true + l.guestBlocks

/-- The layout fits every working drive. -/
def State.layoutFits (s : State) (bytes guest : Nat) : Bool :=
  s.working ≠ [] && s.working.all (fun d => decide ((s.newLabel bytes guest).size ≤ (s.drive d).blocks))

/-- The label in force stands on every working drive, with the complete snapshots as they are now (R431; log entry 104). -/
def State.writeLabel (s : State) (l : DriveLabel) : State :=
  let snaps := s.runs.flatMap (fun e => e.2.log.slots.map (fun i => (BitVec.ofNat 6 e.1, i.slot, i.step)))
  let l := { l with snaps := snaps }
  s.working.foldl (fun s d => s.modDrive d (fun x => { x with label := some l })) { s with jr := { s.jr with label := some l } }
def State.relabel (s : State) : State :=
  match s.jr.label with
  | some l => s.writeLabel l
  | none => s

/-- The first block of a partition's image in an own slot, in which the images of the partitions before it come first (log entry
40); the label is the one in force. -/
def State.imageLba (s : State) (p : Nat) (slot : Bool) : Nat :=
  match s.jr.label with
  | none => 0
  | some l => l.ownSlot slot + (((s.configured.filter (· < p)).map (fun q => driveBlocks (s.snapBytes q) l.drives)).foldl (· + ·) 0)

/-- Blocks of an image with its trailer. -/
def imageBlocks (bytes : Nat) : Nat := ceilDiv bytes 4096 + 1

/-- The hold-tier ranges that the image holds: the shard and the stash entries (R273); with a late fold outstanding, whose
kept inputs no field places, every hold-tier region with the write right but the mirror region (log entry 40). -/
def State.imageRanges (s : State) (p : Nat) (late : Bool) (es : List StashEntry) : List (Nat × Nat) :=
  match s.cfg? p with
  | none => []
  | some c =>
    (if late then
      (c.program.regions.zipIdx.filter (fun ri => decide (ri.1.kind = 3) && ri.1.write
        && !(c.mirror.any (fun m => decide (m.mirrorRegion = ri.2))))).map (fun ri => (ri.1.lo, ri.1.size * 4096))
    else s.shardRanges p) ++ es.map (fun e => (e.addr.toNat * 4096, e.size.toNat * 4096))

def State.snapRanges (s : State) (p : Nat) : List (Nat × Nat) :=
  s.imageRanges p (s.log p).lateOrigin.isSome (s.stash p).entries

/-- The near-tier range of the late sum images. -/
def State.lateRange (s : State) (p : Nat) : Option (Space × Nat × Nat) :=
  match s.program? p with
  | none => none
  | some g =>
    match g.regions[g.control.lateRegion]? with
    | none => none
    | some r => (spaceOf r.kind).map (fun sp => (sp, r.lo, r.size * 4096))

/-- The cells of ranges of a memory. -/
def Cells.ranges (m : Cells) (rs : List (Nat × Nat)) : Cells :=
  m.filter (fun c => rs.any (fun r => decide (r.1 ≤ c.1) && decide (c.1 < r.1 + r.2)))

/-- The image of a partition as it stands (R433); its digest is free (log entry 40). -/
def State.snapImage (s : State) (p : Nat) (slot : Bool) : SnapImage × State :=
  let (d, s) := s.draw
  let late : Cells :=
    match s.lateRange p, (s.log p).lateOrigin with
    | some (sp, a, n), some _ => Cells.ranges (s.mem.cells sp) [(a, n)]
    | _, _ => []
  ({ step := (s.part p).step, slot := slot, digest := natLe 48 d, bytes := s.snapBytes p,
     hold := Cells.ranges s.mem.hold (s.snapRanges p), late := late, stash := (s.stash p).entries,
     versions := (s.stash p).versions, places := (s.stash p).places, bound := (s.stash p).bound, lateOrigin := (s.log p).lateOrigin,
     lateGroups := (s.log p).lateGroups, active := s.mf.activeBytes,
     shadow := s.mf.shadow, incoming := if s.mf.slotHeld then s.mf.incoming else [],
     shadowDigest := s.mfAux.shadowDigest, shadowId := s.mf.shadowId, plan := s.mfAux.plan, pend := s.mf.pend, done := s.mf.done,
     tag := s.mf.tag, prevTag := s.mf.prevTag, prevLive := s.mf.prevLive,
     routes := s.kx.routes.filter (fun e => decide (e.part.toNat = p)),
     phase := s.mfAux.phases.get (fun _ => RoutePhase.none) p,
     mean := (s.det p).mean, seen := (s.det p).seen, lading := s.lading p }, s)

/-- Bytes of the snapshot staging regions. -/
def StepProgram.stagingBytes (g : StepProgram) : Nat :=
  if g.control.stagingFirst = 0xFF then 0
  else (List.range g.control.stagingCount).foldl (fun n i => n + g.regionBytes (g.control.stagingFirst + i)) 0

/-- A SNAPSHOT record: 0 captured, 1 complete, 2 deferred, 3 forced. -/
def State.snapRecord (s : State) (p : Nat) (step : DWord) (slot : Bool) (state : Nat) (digest : Bytes) : State :=
  s.addRecord p recSnapshot (wordLe 8 step ++ natLe 1 (b2n slot) ++ natLe 1 state ++ zeros 6 ++ padTo 48 digest)

/-- The own slot that a snapshot is written to: the one that does not hold the latest complete snapshot (R435). -/
def State.nextSlot (s : State) (p : Nat) : Bool :=
  if (s.log p).slots = [] then false else !bit (s.part p).snapStatus 3

/-- A snapshot is captured (R434): the image is copied, and goes to the drives under a command; the excess over the
staging regions goes first, under the next identifier: whether there is an excess. -/
def State.capture (s : State) (p : Nat) (forced : Bool) : Bool × State :=
  match s.program? p with
  | none => (false, s)
  | some g =>
    let slot := s.nextSlot p
    let (img, s) := s.snapImage p slot
    let excess := decide (g.stagingBytes < img.bytes)
    let first := if excess then ceilDiv (img.bytes - g.stagingBytes) 4096 else 0
    let lba := s.imageLba p slot
    let (cid, s) := s.dataCommand p (.write false) lba first (imageBlocks img.bytes - first)
    let s := if excess then (s.dataCommand p (.write false) lba 0 first).2 else s.modGw (fun w => { w with nextCid := w.nextCid + 1 })
    let s := s.modLog p (fun l => { l with snapImage := some (img, cid), sinceSnap := 0, firstDone := true })
    let s := s.modPart p (fun x =>
      { x with snapStatus := putBit (setBit (clearBit (clearBit x.snapStatus 2) 4) 1) 0 excess })
    let s := s.snapRecord p img.step slot (if forced then 3 else 0) img.digest
    (excess, s.raiseJr 0x4005 p (wordLe 8 img.step ++ natLe 1 (b2n slot)))

/-- A snapshot in progress is incomplete and counts as absent (R416, R435). -/
def State.spoilSnapshot (s : State) (p : Nat) : State :=
  match (s.log p).snapImage with
  | none => s
  | some (_, cid) =>
    let s := ((s.endCommand cid).2.endCommand (cid + 1)).2
    let s := s.modLog p (fun l => { l with snapImage := none })
    s.modPart p (fun x => { x with snapStatus := clearBit (clearBit x.snapStatus 0) 1 })

/-- Every snapshot that is being written is incomplete. -/
def State.spoilAll (s : State) : State := (s.runs.map (·.1)).foldl State.spoilSnapshot s

/-! ## Command completion and failure (R414 to R416) -/

/-- A drive's controller is reset: its commands are lost, and a snapshot it was taking is incomplete (R415, R435). -/
def State.resetDrive (s : State) (d : Nat) : State :=
  if (s.drive d).state = .absent then s
  else
    let s := if (s.drive d).cmds.any (fun c => !c.logbook) then s.spoilAll else s
    s.modDrive d (fun x => { x with state := .resetting, cmds := [], queues := 0, admin := [] })

/-- JR_ERROR.entry_write_failed: a write of an entry failed for good on a drive, or no drive takes it (R415, R416; log entry 104).
-/
def State.entryFailed (s : State) : State := { s with jr := { s.jr with error := setBit s.jr.error 0 } }

/-- NVME_COMMAND_TIMEOUT: a command is not complete within 1 s (R415). It is aborted and issued once more. -/
def State.nvmeTimeout (s : State) (d cid : Nat) : State :=
  match (s.drive d).cmds.find? (fun c => decide (c.cid = cid)) with
  | none => s
  | some c =>
    if c.retried then (if c.logbook then s.entryFailed else s).resetDrive d
    else s.modDrive d (fun x =>
      { x with cmds := x.cmds.map (fun y => if y.cid = cid then { y with retried := true } else y),
               admin := x.admin ++ [.abort cid] })

/-- A command completes on a drive; a success at the second attempt is a transient fault (R414, R415, R534). -/
def State.nvmeEnds (s : State) (d cid : Nat) : State :=
  match (s.drive d).cmds.find? (fun c => decide (c.cid = cid)) with
  | none => s
  | some c =>
    let s := s.countWritten c.written
    let s := s.modDrive d (fun x => { x with cmds := x.cmds.filter (fun y => decide (y.cid ≠ cid)) })
    if c.retried then
      let s := s.modGwAux (fun a =>
        { a with nvmeRetries := satAdd a.nvmeRetries 1, faultTransient := satAdd a.faultTransient 1 })
      let s := s.raiseGw 0x500E none (natLe 1 d ++ natLe 1 (Config.openCode 9 (b2n c.logbook)))
      let (promoted, s) := s.transientFault (.drive d)
      if promoted then s.resetDrive d else s
    else s

/-- What is outstanding of a command completes on every drive. -/
def State.commandEnds (s : State) (cid : Nat) : State := (s.nvmeEnds 0 cid).nvmeEnds 1 cid

/-- Reason 6 of HM_SERVICE: a drive failed, or the link trained below plan. -/
def State.snapService (s : State) : State :=
  s.service 6 (decide (s.gw.drive0.state = .failed) || decide (s.gw.drive1.state = .failed)
    || (s.gw.pcieUp && (decide (s.gw.pcieRate = 0) || decide (s.gw.pcieWidth.toNat < 8))))

/-- DRIVE_READY_TIMEOUT: a drive has not returned to ready within 5 s (R415, R416). -/
def State.driveFails (s : State) (d : Nat) : State :=
  if (s.drive d).state ≠ .resetting then s
  else
    let s := (s.modDrive d (fun x => { x with state := .failed, cmds := [], queues := 0, admin := [] })).spoilAll
    ((s.gwError 5).raiseGw 0x500A none (natLe 1 d)).snapService

/-- The admin commands of a controller that is ready: it identifies itself, and gets its 16 I/O queue pairs (R413, R414). -/
def queuePairs : Nat := 16
def setupCommands : List NvmeAdmin :=
  .identify :: (List.range queuePairs).flatMap (fun n => [NvmeAdmin.createCq n, NvmeAdmin.createSq n])

/-- DRIVE_READY: the drive works; unwritten entries go to it as well (R414, R415). -/
def State.driveWorks (s : State) (d blocks : Nat) : State :=
  if (s.drive d).state = .ready ∨ !s.gw.pcieUp then s
  else
    let s := (s.modDrive d (fun x =>
      { x with state := .ready, blocks := blocks, cmds := [], queues := queuePairs, admin := setupCommands })).snapService
    ((s.parts.filter (fun e => !(decide (e.2.state = .halted) && decide (e.2.cause = 6)))).map (·.1)).foldl
      State.resubmit s

/-- SNAPSHOT_LINK_UP (R412): planned are eight lanes, at 16 GT/s or more. -/
def State.snapLinkUp (s : State) (rate : BitVec 2) (width : BitVec 4) : State :=
  let s := s.modGw (fun g => { g with pcieUp := true, pcieRate := rate, pcieWidth := width, bifurcated := bit s.hm.straps 0 })
  let pay := natLe 1 rate.toNat ++ natLe 1 width.toNat
  let s := s.raiseGw 0x500D none pay
  let s := if rate = 0 ∨ width.toNat < 8 then (s.gwError 7).raiseGw 0x500B none pay else s
  s.snapService.calibrate 81

/-! ## The commands -/

/-- The address of GW_CONTROL and of JR_CONTROL. -/
def gwControl : Nat := 0x00050004
def jrControl : Nat := 0x00040004

/-- NVME_COMMAND_TIMEOUT (R415). -/
def execNvmeCommandTimeout (drive : BitVec 1) (cid : Nat) (s : State) : Out := .next (s.nvmeTimeout drive.toNat cid)

/-- DRIVE_READY_TIMEOUT (R415). -/
def execDriveReadyTimeout (drive : BitVec 1) (s : State) : Out := .next (s.driveFails drive.toNat)

/-- DRIVE_READY (R415). -/
def execDriveReady (drive : BitVec 1) (blocks : Nat) (s : State) : Out := .next (s.driveWorks drive.toNat blocks)

/-- DRIVE_RESET (R415): a write of GW_CONTROL pulses SNAP_PERST_N to the drive. -/
def execDriveReset (drive : BitVec 1) (s : State) : Out :=
  .next (s.guardWrite (.driveReset drive) readyGateway gwControl (fun s => s.resetDrive drive.toNat))

/-- PCIE_RETRAIN (R412): a write of GW_CONTROL. -/
def execPcieRetrain (s : State) : Out :=
  .next (s.guardWrite .pcieRetrain readyGateway gwControl (fun s =>
    s.modGw (fun g => { g with pcieUp := false, pcieRate := 0, pcieWidth := 0 })))

/-- SNAPSHOT_LINK_UP (R412). -/
def execSnapshotLinkUp (rate : BitVec 2) (width : BitVec 4) (s : State) : Out := .next (s.snapLinkUp rate width)

/-- FORCE_SNAPSHOT (R433): a write of JR_CONTROL. -/
def execForceSnapshot (p : BitVec 6) (s : State) : Out :=
  .next (s.guardWrite (.forceSnapshot p) readyHm jrControl (fun s =>
    s.modPart p.toNat (fun x => { x with snapStatus := setBit x.snapStatus 4 })))

end Sys2Proof.Machine
end

