-- ==== Sys2Proof/Machine/Slack.lean ====
section
/-!
DEFINITION. Where a step begins and ends: slack water and its six actions (R31, R427, R428), the state digests
(R439, R440), snapshots when due (R433, R434), the entry of a step, replay (R450, R451), and the begin of the next step.
-/

namespace Sys2Proof.Machine

/-! ## The begin of a step (R31, R371) -/

/-- A partition uses a port: it or the device owns the port, one of its route entries names it, or one of its groups spans
its dimension. DESIGN CHOICE (log entry 99): R370 does not define the use. -/
def State.usesPort (s : State) (p : Nat) (r : PortRec) : Bool :=
  decide (r.owner = p) || decide (r.owner = 0xFF)
    || s.kx.routes.any (fun e => decide (e.part.toNat = p) && decide (e.route.port = r.port))
    || (s.cfg? p).any (fun c => c.groups.any (fun g => g.dimMask.testBit r.dimension))

/-- Discovery holds the step loop of a partition: a port of the own role that it uses is missing (R370, R371). -/
def State.discHeld (s : State) (p : Nat) : Bool :=
  decide (s.kx.disc = .waiting) && s.mfAux.dev.ports.any (fun r =>
    s.usesPort p r && decide (r.role = 0) && r.links.any (fun k => bit s.kx.missing k))

/-- Records of a scope's peak: a newer one replaces the older. -/
def replacePeak (old : List PeakRec) (r : PeakRec) : List PeakRec :=
  old.filter (fun x => decide (x.scope ≠ r.scope)) ++ [r]

/-- The sequencer at the begin of a step: data fetched for it, ready packets, records of working copies and
descriptors of earlier steps go on. -/
def Sequencer.begin (q : Sequencer) (step : DWord) : Sequencer :=
  let made := q.peaks.filter (fun r => decide (r.step = step))
  { Sequencer.zero with
    phase := .body
    fetches := q.fetches.filter (fun f => decide (step ≤ f.step))
    ready := q.ready.filter (fun r => decide (step ≤ r.1))
    posted := q.posted.filter (fun x => decide (x.step < step))
    arrived := q.arrived.filter (fun r => decide (step ≤ r.step))
    lateFolds := q.lateFolds.filter (fun x => decide (step ≤ x.1 + 1))
    partials := q.partials.filter (fun r => decide (step ≤ r.1.step))
    standing := made.foldl replacePeak q.standing }

/-- Compute dies on which the partition has contexts. -/
def State.diesOf (s : State) (p : Nat) : List Nat :=
  match s.program? p with
  | some g => (g.contexts.map (·.die)).eraseDups
  | none => []

/-- Issue is released to the clusters of a partition, in waves (R469). -/
def State.releasePart (s : State) (p : Nat) : State := (s.diesOf p).foldl State.release s

/-- The step of a partition begins: no count, loss or digest of an earlier step stays (R31, R191). -/
def State.beginStep (s : State) (p : Nat) : State :=
  let step := (s.part p).step
  let s := s.modPart p (fun x => { x with applyPassed := false })
  let s := s.modSeq p (fun q => q.begin step)
  let s := s.modDet p (fun d => { d with count := 0, kept := 0, keptMask := 0, mask := 0, loss := none, applyTag := none })
  let s := (s.modStash p (fun st => { st with waited := [] })).clearSums p
  let s := s.modLog p (fun l => { l with dataDigest := none, partnerDigest := none, ownDigest := none })
  (s.releasePart p).formDigest p

/-- Regen POSTs of a restore are still to complete (R449). -/
def State.regenOpen (s : State) (p : Nat) : Bool :=
  (s.log p).restoring.any (fun r => (s.seq p).posted.any (fun x => decide (x.step ≤ r.1)))

/-- The recorded entry that the step follows in a replay. -/
def State.replayOf (s : State) (p : Nat) : Option ReplayStep := (s.log p).replay.head?

/-- The bodies of a type. -/
def bodies (type : Nat) (rs : List (Half × Bytes)) : List Bytes :=
  (rs.filter (fun r => decide (r.1.toNat = type))).map (·.2)

/-- The excusals that a replayed step's record holds: group, member, phase, action (R450). -/
def State.replayExcusals (s : State) (p : Nat) : List (Half × Half × Nat × Byte) :=
  match s.replays p, s.replayOf p with
  | true, some r => (bodies recExcusal r.records).map (fun b =>
      (BitVec.ofNat 16 (leAt b 0 2), BitVec.ofNat 16 (leAt b 2 2), leAt b 4 1, BitVec.ofNat 8 (leAt b 5 1)))
  | _, _ => []

/-- A replayed step takes its excusals from the record: the own one by late fold leaves its contribution to the next
step (R442, R450). -/
def State.takeExcusals (s : State) (p : Nat) : State :=
  let xs := s.replayExcusals p
  let me := BitVec.ofNat 16 (s.me p)
  let step := (s.part p).step
  let late := (xs.filter (fun x => decide (x.2.1 = me) && decide (x.2.2.2 = 1))).map (·.1)
  let s := s.modSeq p (fun q => q.excuse step (xs.map (fun x => (x.1, x.2.1, x.2.2.2))))
  if late = [] then s
  else ((s.modPart p (fun x => { x with latePending := true })).modLog p (fun l =>
    { l with lateOrigin := some step, lateGroups := late })).keepSums p

/-- The next step of a running partition begins, unless something holds it. -/
def State.tryBegin (s : State) (p : Nat) : State :=
  let x := s.part p
  if (x.state = .running ∨ x.state = .replaying) ∧ (s.seq p).phase = .none ∧ !(s.run p).held ∧ !s.discHeld p
      ∧ !s.regenOpen p then
    ((s.beginStep p).takeExcusals p).pumpFetch p
  else s

/-- Every partition that nothing holds any more begins. -/
def State.tryBeginAll (s : State) : State := (s.parts.map (·.1)).foldl State.tryBegin s

/-- A partition starts from a step afresh: data fetched for it or later is dropped, and so are peaks of attempts. -/
def State.freshSeq (s : State) (p : Nat) (step : DWord) : State :=
  let s := s.dropReads p
  let s := s.modSeq p (fun q => { q with posted := [], arrived := [], partials := [], peaks := [] })
  s.modLog p (fun l => { l with landed := l.landed.filter (fun x => decide (x.1 < step)) })

/-! ## The end of a step -/

/-- A halt that takes the place of any other. -/
def State.forceHalt (s : State) (p cause : Nat) : State :=
  (s.haltWith p cause 2).modSeq p (fun q => { q with pendingHalt := some (BitVec.ofNat 8 cause, 2) })

/-! ## Replay (R450, R451) -/

/-- The cause that a step's entry was halted with; 0 for none, and for a halt that closes the step. -/
def haltCauseOf (rs : List (Half × Bytes)) : Nat :=
  match bodies recHalt rs with
  | b :: _ => if closesStep (leAt b 0 1) (leAt b 1 1) then 0 else leAt b 0 1
  | [] => 0

/-- The host skipped the step (job control record, action 4). -/
def skippedByHost (rs : List (Half × Bytes)) : Bool := (bodies recHost rs).any (fun b => decide (leAt b 1 1 = 4))

/-- A step that was halted and then skipped by the host: only a verdict's halt is run again, to its verdict. -/
def ReplayStep.passedOver (r : ReplayStep) : Bool :=
  decide (haltCauseOf r.records ≠ 0) && decide (haltCauseOf r.records ≠ 2)

/-- What is compared of a record type: of STATE and DATA the digest, of DETECTION the verdict byte, of PEAKS all. -/
def comparable (type : Nat) (rs : List (Half × Bytes)) : Bytes :=
  if type = recDetection then (bodies type rs).flatMap (fun b => slice b 13 1)
  else if type = recPeaks then (bodies type rs).flatten
  else (bodies type rs).flatMap (fun b => b.take 48)

/-- The first record type in which a replayed step departs from its record. -/
def mismatchType (own recorded : List (Half × Bytes)) : Option Nat :=
  [recState, recData, recDetection, recPeaks].find? (fun t =>
    decide (bodies t recorded ≠ []) && decide (comparable t own ≠ comparable t recorded))

/-! ## The records of a step (Table 12.10) -/

/-- DATA: the digest, and the first and the last position read. -/
def State.dataRecord (s : State) (p : Nat) : List (Half × Bytes) :=
  match (s.log p).dataDigest, s.program? p with
  | some d, some g =>
    let step := (s.part p).step.toNat
    [(BitVec.ofNat 16 recData, d ++ natLe 8 (g.position step 0) ++ natLe 8 (g.position step (g.order.samples - 1)))]
  | _, _ => []

/-- PEAKS: every scope with a record, ascending, in records of at most 8,191 scopes. -/
def peakRecords : Nat → List PeakRec → List (Half × Bytes)
  | 0, _ => []
  | _, [] => []
  | fuel + 1, rs =>
    (BitVec.ofNat 16 recPeaks, (rs.take 8191).flatMap (fun r => wordLe 4 r.scope ++ wordLe 1 r.peak ++ zeros 3))
      :: peakRecords fuel (rs.drop 8191)

def Sequencer.peakRecords (q : Sequencer) : List (Half × Bytes) :=
  let rs := sortBy (fun (a b : PeakRec) => decide (a.scope.toNat ≤ b.scope.toNat)) q.peaks
  Machine.peakRecords (rs.length + 1) rs

/-- HALT: the cause and the mode. -/
def Sequencer.haltRecord (q : Sequencer) : List (Half × Bytes) :=
  match q.pendingHalt with
  | some h => [(BitVec.ofNat 16 recHalt, [h.1, h.2] ++ zeros 6)]
  | none => []

/-! ## The close (R427, R428, R515, R535) -/

/-- What every close does: the close of the step, its energy and lading, tide's exchange (R474), STEP_MARK. -/
def State.closeAlways (s : State) (p : Nat) (replayed : Bool) : State :=
  let q := s.seq p
  let x := s.part p
  let skipped := q.skips
  let s := s.modPart p (fun x => { x with closed := x.step, skipped := skipped })
  let s := (s.stepMark p).closeEnergy p (!q.halts && !skipped)
  let result := if (s.mirror? p).isNone then 2 else if x.partnerLost then 3 else if x.mismatch then 1 else 0
  let s := if q.halts then s
    else s.ladingStep p replayed skipped result ((s.log p).dataDigest.getD [])
  let s := if s.ptAux.tideHeld ∧ s.tidePart = p then s.modPtAux (fun a => { a with tideOn := true, tideHeld := false }) else s
  if s.ptAux.tideOn ∧ s.tidePart = p then (s.tideOffer p).2 else s

/-- FILL_WAIT for a loss declared in complete mode follows the close (R445); tide rests meanwhile (R475). -/
def State.enterFillWait (s : State) (p : Nat) : State :=
  let s := s.modPart p (fun x => { x with state := .fillWait, fillPending := false })
  if s.ptAux.tideOn ∧ s.tidePart = p then s.tideStop else s
def State.fillAfter (s : State) (p : Nat) : State := if (s.part p).fillPending then s.enterFillWait p else s

/-- Slack water of a step closes: the entry goes to the keeper, and the next step begins or the partition halts. -/
def State.closeStep (s : State) (p : Nat) : State :=
  let q := s.seq p
  let s := s.closeAlways p false
  let s := if q.halts then s else s.ladingAuto p
  let s := s.modLog p (fun l => { l with sinceSnap := if q.halts then l.sinceSnap else l.sinceSnap + 1 })
  let s := if q.halts then s else s.modPart p (fun x => { x with step := x.step + 1 })
  match q.pendingHalt with
  | some h => s.enterHalted p h.1.toNat h.2.toNat
  | none =>
    if (s.part p).noticeAt.any (fun n => decide (n ≤ (s.part p).step)) then
      (s.modPart p (fun x => { x with noticeAt := none })).enterHalted p 7 1
    else ((s.modSeq p (fun q => { q with phase := .none })).fillAfter p).tryBegin p

/-! ## Action 5: the entry (R429, R432) -/

/-- The partition halts at action 5 with its entry unwritten (R416, cause 6). A halt of the step that was pending stays so,
and takes effect when the entry is written. -/
def State.entryHalted (s : State) (p : Nat) : State :=
  let h := (s.seq p).pendingHalt.filter (fun h => decide (h.1 ≠ 6))
  (s.enterHalted p 6 2).modSeq p (fun q => { q with phase := .slack 5, pendingHalt := h })

/-- The snapshot is deferred: once, with its record and event. -/
def State.deferSnapshot (s : State) (p : Nat) : State :=
  let x := s.part p
  if bit x.snapStatus 2 then s
  else
    let s := s.modPart p (fun x => { x with snapStatus := setBit x.snapStatus 2 })
    (s.snapRecord p x.step (s.nextSlot p) 2 []).raiseJr 0x4007 p (wordLe 8 x.step)

/-- The records that the step's entry takes. -/
def State.stepRecords (s : State) (p : Nat) : List (Half × Bytes) :=
  let q := s.seq p
  let trained := !q.halts && decide (q.verdict ≠ some .skip)
  sortRecords ((s.log p).records ++ s.dataRecord p ++ q.peakRecords
    ++ [(BitVec.ofNat 16 recEnergy, s.energyRecord p trained)] ++ q.haltRecord)

/-- The entry is composed and goes to the drives; a ring without room holds it and forces a snapshot at once (R432). A
partition that halts captures none until it is restarted (R199): it halts with its entry held; under the flow-stop sequence
the capture is deferred (Table 13.7, row 6).
With no drive working the partition halts here with its entry unwritten (R416, cause 6). -/
def State.entryAction (s : State) (p : Nat) : State :=
  let (e, s) := s.compose p 0 (s.part p).step (s.stepRecords p)
  let s := s.modLog p (fun l => { l with records := [] })
  let s := s.modSeq p (fun q => { q with phase := .slack 5 })
  let (ok, s) := s.submit p true e
  let s := if ok then s
    else
      let s := s.ringForced p
      if (s.seq p).halts then s.closeStep p
      else if s.pt.flowRow ≠ .idle then s.deferSnapshot p
      else if (s.log p).snapImage.isNone then (s.capture p true).2
      else s
  if s.working = [] ∧ (s.seq p).cause = 6 then s.entryHalted p else s

/-! ## Action 4: snapshots (R433, R434) -/

/-- A snapshot is due at this slack water: the job's first, the cadence, a forced or a deferred one. -/
def State.snapDue (s : State) (p : Nat) : Bool :=
  let l := s.log p
  let x := s.part p
  !l.firstDone || decide (x.cadence.toNat ≤ l.sinceSnap) || bit x.snapStatus 4 || bit x.snapStatus 2

/-- Action 4: a halted partition captures none (R199); while one is written out, or power is cut by the flow-stop
sequence (Table 13.7), it is deferred. An excess over the staging regions keeps slack water open (R434). -/
def State.snapAction (s : State) (p : Nat) : State :=
  if (s.seq p).halts ∨ !s.snapDue p then s.entryAction p
  else if (s.log p).snapImage.isSome ∨ s.pt.flowRow ≠ .idle then (s.deferSnapshot p).entryAction p
  else
    let (excess, s) := s.capture p (bit (s.part p).snapStatus 4)
    if excess then s.modSeq p (fun q => { q with phase := .slack 4 }) else s.entryAction p

/-! ## Replayed slack water (R451) -/

/-- The step that the replay takes next: steps that were halted and skipped by the host are passed over. -/
def replayNext : List ReplayStep → List ReplayStep
  | [] => []
  | r :: rs => if r.passedOver then replayNext rs else r :: rs

/-- Replay is complete (R450): its entry, event 0x4014, RUNNING at t + 1. -/
def State.replayDone (s : State) (p : Nat) : State :=
  let t := (s.part p).replayTo
  let l := s.log p
  let first := ((l.restoring.map (·.1)).getD 0) + 1
  let s := s.modPart p (fun x => { x with state := .running, replayTo := 0, step := t + 1 })
  let s := s.recovery p 7 (wordLe 8 first ++ wordLe 8 t ++ natLe 8 l.superseded)
  let rs := (s.log p).records
  let s := s.modLog p (fun l => { l with records := [], replay := [] })
  let s := s.writeEntry p 2 rs
  s.raiseJr 0x4014 p (wordLe 8 first ++ wordLe 8 t)

/-- A difference (R451): event 0x4015, a RECOVERY entry, cause 10. -/
def State.replayMismatch (s : State) (p type : Nat) : State :=
  let step := (s.part p).step
  let s := (s.recovery p 8 (wordLe 8 step ++ natLe 1 type)).raiseJr 0x4015 p (wordLe 8 step ++ natLe 1 type)
  let rs := (s.log p).records.filter (fun r => decide (r.1.toNat = recRecovery))
  let s := (s.modLog p (fun l => { l with records := [] })).writeEntry p 2 rs
  let s := s.modSeq p (fun q => { q with phase := .none, pendingHalt := none })
  (s.modPart p (fun x => { x with replayTo := 0 })).haltWith p 10 2

/-- The replayed step closes: no step entry is written; what it logs besides waits for the replay's own entry. -/
def State.replayClose (s : State) (p : Nat) (r : ReplayStep) : State :=
  let same := decide ((s.seq p).cause = haltCauseOf r.records)
  let s := if same then s.modSeq p (fun q => { q with pendingHalt := none }) else s
  let halted := decide (haltCauseOf r.records ≠ 0)
  let s := if halted then s else s.closeAlways p true
  let s := s.modLog p (fun l =>
    { l with records := l.records.filter (fun x => decide (x.1.toNat = recRecovery) || decide (x.1.toNat = recFeed)),
             replay := replayNext l.replay.tail })
  match (s.seq p).pendingHalt with
  | some h => s.enterHalted p h.1.toNat h.2.toNat
  | none =>
    let s := (s.modSeq p (fun q => { q with phase := .none })).fillAfter p
    match (s.log p).replay with
    | n :: _ => (s.modPart p (fun x => { x with step := n.step })).tryBegin p
    | [] => (s.replayDone p).tryBegin p

/-- The comparison of a replayed slack water, in place of actions 4 to 6. -/
def State.replayCompare (s : State) (p : Nat) : State :=
  match s.replayOf p with
  | none => s.replayDone p
  | some r =>
    let own := (s.log p).records ++ s.dataRecord p ++ (s.seq p).peakRecords
    match mismatchType own r.records with
    | some t => s.replayMismatch p t
    | none => s.replayClose p r

/-! ## Action 3: commits (R70, R79, R436) -/

/-- A replayed commit: the phases that the step's COMMIT records name (R79). -/
def State.replayCommits (s : State) (p : Nat) (r : ReplayStep) : State :=
  ((bodies recCommit r.records).foldl (fun s b =>
    match leAt b 9 1 with
    | 0 => s.commitPart p
    | 1 => s.routeSwitch p
    | _ => s.routeRetire p) s).amendCheck

/-- What the partner or the keeper answers to what START and RESTORE tell it (R436, R438): no row of the table brings
the answer, and it is free (log entry 36). -/
def State.peerAgrees (s : State) : Bool × State :=
  let (v, s) := s.draw
  (decide (v % 2 = 0), s)

/-- The keeper, if one is named, is told the size of the images, and takes it or refuses it (R436). -/
def State.tellKeeper (s : State) (p : Nat) : Bool × State :=
  if (s.recoveryOf p).keeper = 0xFFFF then (true, s)
  else
    let (ok, s) := (s.send p (.imageSize (BitVec.ofNat 64 (s.snapBytes p)))).peerAgrees
    (ok, if ok then { s with jr := { s.jr with keeperLink := true, keeperFull := false } } else s)

/-- A size told after START that the keeper refuses: no further snapshot goes to it, and JR_ERROR.keeper_failed. -/
def State.keeperSize (s : State) (p : Nat) : State :=
  let (ok, s) := s.tellKeeper p
  if ok then s else { s with jr := { s.jr with keeperFull := true, error := setBit s.jr.error 1 } }

/-- The keeper is told of a changed image size. -/
def State.tellSize (s : State) (p old : Nat) : State := if s.snapBytes p ≠ old then s.keeperSize p else s

/-- Action 3, and on to the next. -/
def State.commitAction (s : State) (p : Nat) : State :=
  let old := s.snapBytes p
  match (s.part p).state, s.replayOf p with
  | .replaying, some r => ((s.replayCommits p r).tellSize p old).replayCompare p
  | _, _ => ((s.amendAction p (s.seq p).halts).tellSize p old).snapAction p

/-! ## Action 2: state digests (R439, R440) -/

/-- The STATE record. -/
def State.stateRecord (s : State) (p : Nat) (own partner : Bytes) (result : Nat) : State :=
  s.addRecord p recState (padTo 48 own ++ padTo 48 partner ++ natLe 1 result ++ zeros 7)

/-- The digests are compared. -/
def State.compareDigests (s : State) (p : Nat) (own partner : Bytes) : State :=
  if own = partner then
    ((s.modPart p (fun x => { x with lastEqual := true })).stateRecord p own partner 0).commitAction p
  else
    let step := (s.part p).step
    let who := ((s.mirror? p).map (·.partner)).getD 0
    let s := s.modPart p (fun x => { x with lastEqual := false, mismatch := true })
    let s := s.raiseJr 0x4008 p (wordLe 8 step ++ natLe 2 who)
    ((s.forceHalt p 9).stateRecord p own partner 1).commitAction p

/-- Action 2 with the partner lost. -/
def State.digestAlone (s : State) (p : Nat) (own : Bytes) : State := (s.stateRecord p own [] 3).commitAction p

/-- Action 2: the digest of the shard, and for the partner that of the mirror region. -/
def State.digestAction (s : State) (p : Nat) : State :=
  let own := s.shardDigest p
  match s.mirror? p with
  | none => (s.stateRecord p own [] 2).commitAction p
  | some _ =>
    if (s.part p).partnerLost then s.digestAlone p own
    else
      let s := s.send p (.digest (s.part p).step (own ++ s.mirrorDigest p))
      let s := s.modLog p (fun l => { l with ownDigest := some own })
      match (s.log p).partnerDigest with
      | some d => s.compareDigests p own d
      | none => s.modSeq p (fun q => { q with phase := .slack 2 })

/-! ## Slack water opens (R31) -/

/-- The descriptor waits behind a halt: its context or lighter does not come to it. -/
def State.stuck (s : State) (p : Nat) (x : Posted) : Bool :=
  s.clusters.any (fun e => e.2.ctxs.any (fun c => decide (c.part.toNat = p) && c.halted
      && (c.window.drop c.runsOn).any (fun w => decide (w.berth = x.berth) && decide (w.itemSeq = x.itemSeq))))
    || (s.lightersOf p).any (fun dn =>
      let l := s.lighter dn.1 dn.2
      l.halted && l.queue.any (fun w => decide (w.2.1 = x.berth) && decide (w.2.2.1 = x.itemSeq)))

/-- Something of the step is still to complete: a write-back, or, for a step that writes no optimizer update, whatever
of it has issued. -/
def State.stepBusy (s : State) (p : Nat) : Bool :=
  let q := s.seq p
  let mine := q.posted.filter (fun x => decide (x.step = (s.part p).step))
  let none_ := q.verdict.any Action.discards || q.pendingHalt.any (fun h => decide (h.2 = 1) || decide (h.1 = 4))
  if none_ then mine.any (fun x => !s.stuck p x) else mine.any (fun x => x.writeBack) || decide (q.putOff ≠ [])

/-- The cadence in force from this slack water on (R441). -/
def State.takeCadence (s : State) (p : Nat) : State :=
  let r := s.recoveryOf p
  s.modPart p (fun x =>
    { x with cadence := BitVec.ofNat 32 (if x.sharedFeed then r.cofeedEvery else r.snapshotEvery) })

/-- SLACK_WATER_OPEN: action 1 and on. While management restarts, no slack water goes on (R522). -/
def State.slackOpen (s : State) (p : Nat) : State :=
  if (s.seq p).phase ≠ .ended ∨ s.stepBusy p ∨ s.hmAux.restarting then s
  else
    let s := s.takeCadence p
    let s := if (s.det p).applyHalt then s.forceHalt p 3 else s
    let c := (s.seq p).cause
    let s := if c = 1 ∨ c = 6 then s.send p (.halt (s.part p).step 2 (BitVec.ofNat 8 c)) else s
    (s.detection p).digestAction p

/-! ## What slack water waits for -/

/-- Both digests of action 2 are here: they are compared, unless management restarts (R522). -/
def State.digestsMeet (s : State) (p : Nat) : State :=
  match (s.seq p).phase, (s.log p).ownDigest, (s.log p).partnerDigest with
  | .slack 2, some own, some d => if s.hmAux.restarting then s else s.compareDigests p own d
  | _, _, _ => s

/-- PARTNER_DIGEST_RECEIVE (R440): kept until the own digest is formed. -/
def State.partnerDigest (s : State) (p : Nat) (d : Bytes) : State :=
  if (s.mirror? p).isNone ∨ !(s.part p).state.live then s
  else
    let d := padTo 48 d
    let s := s.modLog p (fun l => { l with partnerDigest := some d })
    s.digestsMeet p

/-- The excess of the image has been written: slack water goes on (R434). -/
def State.excessDone (s : State) (p : Nat) : State :=
  match (s.seq p).phase, (s.log p).snapImage with
  | .slack 4, some (_, c) =>
    if s.outstanding (c + 1) ∨ s.hmAux.restarting then s
    else (s.modPart p (fun x => { x with snapStatus := clearBit x.snapStatus 0 })).entryAction p
  | .slack 4, none => s.entryAction p
  | _, _ => s

/-- Slack water of every partition that waits for its excess. -/
def State.excessAll (s : State) : State := (s.parts.map (·.1)).foldl State.excessDone s

/-- LOGBOOK_ENTRY_WRITTEN (R414): the oldest entry that went to the drives is complete; a step's entry closes its slack
water, which goes to the keeper as well (R436). -/
def State.entryWritten (s : State) (p : Nat) : State :=
  match (s.log p).unwritten.find? (fun u => u.cid.isSome) with
  | none => s
  | some u =>
    if s.working = [] ∨ s.hmAux.restarting then s
    else
      let s := s.commandEnds (u.cid.getD 0)
      let s := s.modLog p (fun l =>
        { l with unwritten := l.unwritten.filter (fun x => decide (x ≠ u)), entries := l.entries ++ [u.bytes] })
      let s := { s with jr := { s.jr with entries := s.jr.entries + 1 } }
      let s := s.modLading p (fun l => { l with entries := l.entries + 1 })
      let s := if s.jr.keeperLink ∧ (s.recoveryOf p).keeper ≠ 0xFFFF then s.send p (.keeperEntry u.bytes) else s
      if u.step ∧ (s.seq p).phase = .slack 5 then s.closeStep p else s

/-- A write that the ring holds after a snapshot is complete forces another: the older of two moves on with it (R432). -/
def State.stillHeld (s : State) (p : Nat) : State :=
  if (s.seq p).phase = .slack 5 ∧ !(s.seq p).halts ∧ (s.log p).unwritten.any (fun u => u.cid.isNone)
      ∧ (s.log p).snapImage.isNone ∧ s.pt.flowRow = .idle then
    ((s.ringForced p).capture p true).2
  else s

/-- Quiesce ends (R484): a write that the ring holds has its snapshot captured. -/
def State.powerBack (before s : State) : State :=
  if before.pt.flowRow ≠ .idle ∧ s.pt.flowRow = .idle then (s.parts.map (·.1)).foldl State.stillHeld s else s

/-- QUIESCE_END and PT_CONTROL RESUME, and what goes on then. -/
def State.quiesceOver (s : State) : State := s.powerBack s.quiesceEnds
def State.ptResumed (s : State) : State := s.powerBack s.ptResume

/-- SNAPSHOT_WRITE_OUT_COMPLETE (R435): the commands of the snapshot complete, and where no drive fails at that, so does it. -/
def State.snapWritten (s : State) (p : Nat) : State :=
  match (s.log p).snapImage with
  | none => s
  | some (img, c) =>
    if s.working = [] ∨ s.hmAux.restarting then s
    else
      let s := (s.commandEnds c).commandEnds (c + 1)
      if (s.log p).snapImage = none then s else
      let s := s.modLog p (fun l =>
        { l with snapImage := none, slots := l.slots.filter (fun x => decide (x.slot ≠ img.slot)) ++ [img] })
      let s := s.modPart p (fun x =>
        { x with snap := img.step, snapStatus := putBit (clearBit (clearBit x.snapStatus 0) 1) 3 img.slot })
      let s := (s.snapRecord p img.step img.slot 1 img.digest).raiseJr 0x4006 p (wordLe 8 img.step ++ natLe 1 (b2n img.slot))
      let s := if s.jr.keeperLink ∧ !s.jr.keeperFull ∧ (s.recoveryOf p).keeper ≠ 0xFFFF then s.send p (.keeperSnapshot img.step) else s
      let s := ((s.runs.map (·.1)).foldl State.resubmitHeld s.relabel).stillHeld p
      if (s.seq p).phase = .slack 4 then s.entryAction p else s

/-- A running partition that no drive serves halts (cause 6): between steps at once, in a step once it is complete and its
entry has no drive. The notice goes out when the halt stands: with the verdict received, in complete mode (R426). -/
def State.noDriveFor (s : State) (p : Nat) : State :=
  let pend := fun (s : State) => if s.haltTaken p 6 then s
    else s.modSeq p (fun q => { q with pendingHalt := some (6, 2) })
  match (s.seq p).phase with
  | .none => s.haltWith p 6 1
  | .slack k =>
    let s := (pend s).send p (.halt (s.part p).step 2 6)
    if k = 5 then s.entryHalted p else s
  | _ => pend s

/-- LOGBOOK_DRIVE_TIMEOUT (R416): no drive has worked for the time given. -/
def State.noDrive (s : State) : State :=
  if s.working ≠ [] then s
  else
    let mine := (s.parts.filter (fun e => e.2.state.live && decide (e.2.state ≠ .halted))).map (·.1)
    match mine with
    | [] => s
    | first :: _ =>
      let step := (s.part first).step
      let s := (s.entryFailed.gwError 6).raiseGw 0x500C none (wordLe 8 step)
      mine.foldl State.noDriveFor s

/-! ## The commands -/

/-- QUIESCE_END (R484). -/
def execQuiesceEnd (s : State) : Out := .next s.quiesceOver

/-- PT_RESUME (R484). -/
def execPtResume (s : State) : Out := .next (s.guardWrite .ptResume readyPower ptControl State.ptResumed)

/-- SLACK_WATER_OPEN (R31). -/
def execSlackWaterOpen (p : BitVec 6) (s : State) : Out := .next (s.slackOpen p.toNat)

/-- PARTNER_DIGEST_RECEIVE (R440). -/
def execPartnerDigestReceive (p : BitVec 6) (digest : Bytes) (s : State) : Out :=
  .next (s.partnerDigest p.toNat digest)

/-- LOGBOOK_ENTRY_WRITTEN (R414). -/
def execLogbookEntryWritten (p : BitVec 6) (s : State) : Out := .next (s.entryWritten p.toNat)

/-- SNAPSHOT_WRITE_OUT_COMPLETE (R435). -/
def execSnapshotWriteOutComplete (p : BitVec 6) (s : State) : Out := .next (s.snapWritten p.toNat)

/-- NVME_COMMAND_COMPLETE (R414). -/
def execNvmeCommandComplete (drive : BitVec 1) (cid : Nat) (s : State) : Out :=
  .next ((s.nvmeEnds drive.toNat cid).excessAll)

/-- LOGBOOK_DRIVE_TIMEOUT (R416). -/
def execLogbookDriveTimeout (s : State) : Out := .next s.noDrive

end Sys2Proof.Machine
end

