-- ==== Sys2Proof/Machine/Body.lean ====
section
/-!
DEFINITION. The step sequencer's instructions (Table 12.3): loops, data, posts, waits, reductions, the loss and the
verdict; and the peak records it takes (R147, R148).
-/

namespace Sys2Proof.Machine

/-! ## When an instruction runs -/

/-- A message of the sequencer still waits for room in a berth of the partition (R337): the sequencer stalls. -/
def State.seqStalls (s : State) (p : Nat) : Bool :=
  (s.berthsOf p).any (fun n => (s.berth n).waiting.any (fun w => decide (w.msg.producer.toNat = idSequencer)))

/-- Every reduction that the device is ready for has its result; a VERDICT has its own (R195). -/
def Sequencer.waits (q : Sequencer) : Bool :=
  q.ownReady.any (fun g => !q.reduced.contains g) || (q.verdictSent && q.verdict.isNone)

/-- The instruction at the sequencer's place, when it is of op `op` and the sequencer is not held up. -/
def State.bodyAt (s : State) (p op : Nat) : Option BodyIns :=
  let q := s.seq p
  let x := s.part p
  match (s.bodyOf p)[q.pc]? with
  | none => none
  | some i =>
    if i.op = op ∧ x.state.steps ∧ q.phase = .body ∧ s.gatewayUp ∧ !(s.run p).held
        ∧ !s.seqStalls p ∧ (op = 6 ∨ !q.waits) then some i
    else none

/-- Past the instruction: at the end of a part of BODY that was put off, back to END. -/
def Sequencer.past (q : Sequencer) (last : Nat) : Sequencer :=
  if q.partEnd = some (q.pc + 1) then { q with pc := last, partEnd := none } else { q with pc := q.pc + 1 }

/-- On to the next instruction. -/
def State.goOn (s : State) (p : Nat) : State := s.modSeq p (fun q => q.past ((s.bodyOf p).length - 1))

/-- Runs the instruction at the sequencer's place: a step that nothing holds any more begins first, and the power
controller sees the boundary (R466). -/
def State.bodyStep (s : State) (p op : Nat) (k : State → BodyIns → State) : State :=
  let s := s.tryBegin p
  match s.bodyAt p op with
  | none => s
  | some i =>
    let pc := (s.seq p).pc
    let s := s.endRewind p
    k (if (s.seq p).reported = some pc then s else s.boundary p pc) i

/-! ## Loops and data (R420, R402) -/

/-- LOOP: a count of 0 means micro_batches. -/
def State.bodyLoop (s : State) (p : Nat) (i : BodyIns) : State :=
  let n := if i.a = 0 then ((s.program? p).map (·.control.microBatches)).getD 1 else i.a
  s.modSeq p (fun q => { q with loops := { start := q.pc + 1, index := 0, count := n } :: q.loops, pc := q.pc + 1 })

/-- ENDLOOP. -/
def State.bodyEndloop (s : State) (p : Nat) : State :=
  s.modSeq p (fun q =>
    match q.loops with
    | [] => { q with pc := q.pc + 1 }
    | f :: rest =>
      if f.index + 1 < f.count then { q with loops := { f with index := f.index + 1 } :: rest, pc := f.start }
      else { q with loops := rest, pc := q.pc + 1 })

/-- FETCH of micro-batch index + a: past the step's last one, of a later step's (R402). -/
def State.bodyFetch (s : State) (p : Nat) (i : BodyIns) : State :=
  match s.program? p with
  | none => s
  | some g =>
    let n := max 1 g.control.microBatches
    let m := (s.seq p).index + i.a
    (s.startFetch p ((s.part p).step + BitVec.ofNat 64 (m / n)) (m % n) i.b).goOn p

/-! ## POST (R148, R256, R266, R267) -/

/-- The images of a POST as they stand in the region of IMAGES: none where one cannot be read. -/
def State.readImages (s : State) (p : Nat) (g : StepProgram) (first n : Nat) : Option (List (List Word)) × State :=
  match g.regions[g.control.imageRegion]? with
  | none => (none, s)
  | some r =>
    match spaceOf r.kind with
    | none | some .hold => (none, s)
    | some sp =>
      let at_ := r.lo + first * 64
      let (ok, s) := s.readMem (some { part := p, noAlloc := false }) sp at_ (n * 64) idSequencer .good
      if ok then (some ((List.range n).map (fun k => wordsOf 16 (s.bytes sp (at_ + k * 64) 64))), s) else (none, s)

/-- The peak record of a scope: of this step, else of the working copies made for it. -/
def Sequencer.peakOf (q : Sequencer) (step : DWord) (scope : Nat) : Option PeakRec :=
  match q.peaks.find? (fun r => decide (r.step = step) && decide (r.scope.toNat = scope)) with
  | some r => some r
  | none => q.standing.find? (fun r => decide (r.scope.toNat = scope))

/-- The peaks of the scope pair of an anchored POST; none while a record is missing (R148). -/
def State.pairPeaks (s : State) (p : Nat) (g : StepProgram) (c : Nat) : Option (Nat × Nat) :=
  let q := s.seq p
  let step := (s.part p).step
  match g.scopes[(c / 2 ^ 32) % 65536]?, g.scopes[c / 2 ^ 48]? with
  | some a, some b =>
    (match q.peakOf step a.id, q.peakOf step b.id with
      | some x, some y => some (x.peak.toNat, y.peak.toNat)
      | _, _ => none)
  | _, _ => none

/-- Writes the anchor of R149 into a PRODUCT descriptor with anchor_given (R148). -/
def anchorImage (peaks : Nat × Nat) (ws : List Word) : List Word :=
  let t := Tile.of ws
  if t.op = 1 ∧ t.anchorGiven then
    modifyAt ws 2 (fun w => setField w 14 10 (twos 10 (anchorOf t.fP t.fQ peaks.1 peaks.2)))
  else ws

/-- The weight blocks that descriptors write. -/
def StepProgram.blocksHit (g : StepProgram) (ws : List (Space × Range)) : List WeightBlock :=
  g.blocks.filter (fun b =>
    match g.blockRange b with
    | some (sp, a, n) => ws.any (fun x => decide (x.1 = sp) && !apart a n x.2.1 x.2.2)
    | none => false)

/-- The blocks are examined before the apply pass writes them (R267, R268): whether all may be written. -/
def State.applyBlocks (s : State) (p : Nat) : List WeightBlock → Bool × State
  | [] => (true, s)
  | b :: bs =>
    let (ok, s) := s.applyBlock p b
    let (rest, s) := State.applyBlocks s p bs
    (ok && rest, s)

/-! ### The parts of the apply pass (R268) -/

/-- The blocks that an instruction of BODY writes: a POST's, as the Manifest gives its images. -/
def State.insHits (s : State) (p : Nat) (i : BodyIns) : List WeightBlock :=
  match s.program? p with
  | none => []
  | some g =>
    if i.op ≠ 4 then []
    else g.blocksHit ((g.imagesOf i).flatMap (imageWrites (postClass (s.berth i.a).cfg i.flags)))

/-- A part of the apply pass: its first instruction, the one after its last, and the blocks it writes. -/
abbrev ApplyPart := Nat × Nat × List WeightBlock

/-- What an instruction after VERDICT is to the parts: its place, whether it waits, the blocks that it writes, the
tile_tags of what it posts, and whether it posts write-backs. -/
structure ApplyIns where
  at_  : Nat
  wait : Bool
  hits : List WeightBlock
  tags : List Nat
  back : Bool
  deriving DecidableEq, Repr

/-- The tile_tag of an image. -/
def imageTag (cls : Nat) (ws : List Word) : Nat :=
  if cls = 3 then (Light.of ws).tag else if cls = 1 then (Tile.of ws).tag else (Vec.of ws).tag

def State.applyIns (s : State) (p : Nat) (i : BodyIns) (at_ : Nat) : ApplyIns :=
  let posts := match s.program? p with
    | some g => if i.op = 4 then g.imagesOf i else []
    | none => []
  { at_ := at_, wait := decide (i.op = 5), hits := s.insHits p i,
    tags := posts.map (imageTag (postClass (s.berth i.a).cfg i.flags)), back := decide (i.op = 4) && i.flags.testBit 2 }

/-- Cuts what follows VERDICT into parts (log entry 81): a part ends behind the last POST that writes its blocks, the
write-backs behind it that carry a tile_tag of the part, and the WAITs that follow; other POSTs that write no block belong
to the part that comes after them, and those at the end to the last. `first` and `stop` are the bounds so far of the part
with the blocks `bs` and the tags `ts`, and `open_` the tags behind `stop`. -/
def cutParts (last first stop : Nat) (bs : List WeightBlock) (ts open_ : List Nat) : List ApplyIns → List ApplyPart
  | [] => if bs = [] then [] else [(first, last, bs)]
  | x :: rest =>
    if x.hits = [] then
      if (x.wait && decide (stop = x.at_)) || (decide (bs ≠ []) && x.back && x.tags.any (fun t => ts.contains t)) then
        cutParts last first (x.at_ + 1) bs (ts ++ open_ ++ x.tags) [] rest
      else cutParts last first stop bs ts (open_ ++ x.tags) rest
    else if bs = [] ∨ x.hits.any (fun b => bs.contains b) then
      cutParts last first (x.at_ + 1) (bs ++ x.hits.filter (fun b => !bs.contains b)) (ts ++ open_ ++ x.tags) [] rest
    else (first, stop, bs) :: cutParts last stop (x.at_ + 1) x.hits (open_ ++ x.tags) [] rest

/-- The parts of a partition's apply pass. -/
def State.applyParts (s : State) (p : Nat) : List ApplyPart :=
  let body := s.bodyOf p
  let v := afterVerdict body
  cutParts (body.length - 1) v v [] [] [] ((body.zipIdx.drop v).map (fun x => s.applyIns p x.1 x.2))

/-- The sequencer is past VERDICT. -/
def State.applies (s : State) (p : Nat) : Bool :=
  decide (0 < afterVerdict (s.bodyOf p)) && decide (afterVerdict (s.bodyOf p) ≤ (s.seq p).pc)

/-- The part that the sequencer stands in. -/
def State.partNow (s : State) (p : Nat) : Option ApplyPart :=
  let pc := (s.seq p).pc
  (s.applyParts p).find? (fun x => decide (x.1 ≤ pc) && decide (pc < x.2.1))

/-- A part may be put off as long as nothing of it has run: no loop runs into it or out of it, and any loop that is open
was opened in it. It is the first POST of a part that waits, as all the blocks of the part are examined there. -/
def State.mayPutOff (s : State) (p : Nat) (x : ApplyPart) : Bool :=
  let body := s.bodyOf p
  let ops := ((body.take x.2.1).drop x.1).map (fun i => i.op)
  (s.seq p).loops.all (fun f => decide (x.1 < f.start)) && decide (ops.count 1 = ops.count 2)
    && decide ((s.seq p).partEnd = none)

/-- The number that the next item of a berth takes: behind what waits. -/
def Berth.nextSeq (b : Berth) : DWord :=
  b.seq + BitVec.ofNat 64 (b.waiting.foldl (fun n w => n + w.left b.cfg) 0)

/-- What a POST puts into a berth: the image's number, its words, and the stashed versions that it reads staged. -/
abbrev PostImage := Nat × List Word × List (Word × Byte)

/-- One image goes into the berth under the step (R256), a tile with the sources that R270 gave it; one that the berth
refuses is passed over. -/
def State.postOne (s : State) (p n cls : Nat) (wb : Bool) (step : DWord) (x : PostImage) : State :=
  let mb := (s.seq p).index
  let (ws, reads) := x.2
  let b := s.berth n
  let seq := b.nextSeq
  let (r, s) := s.berthWrite none n
    { serves := 0, producer := BitVec.ofNat 16 idSequencer, cls := BitVec.ofNat 8 cls, step := step,
      bytes := ws.flatMap (wordLe 4) }
  let s := s.intakeFilled n
  if r = .accepted ∧ b.cfg.intake then
    s.modSeq p (fun q =>
      { q with posted := q.posted ++
          [{ berth := n, itemSeq := seq, writeBack := wb, image := x.1, step := step, mb := mb, reads := reads }] })
  else s

/-- The done berth and the tag of a descriptor that posts a notice. -/
def noticeOf (cls : Nat) (ws : List Word) : Option (Nat × Nat) :=
  if cls = 3 then let d := Light.of ws
    if d.notify then some (d.done, d.tag) else none
  else if cls = 1 then let t := Tile.of ws
    if t.notify then some (t.done, t.tag) else none
  else let v := Vec.of ws
    if v.notify then some (v.done, v.tag) else none

/-- An image of a POST: a write-back that completed before a rewind is passed over, and counts as noticed (R443). -/
def State.postImage (s : State) (p n cls : Nat) (wb : Bool) (x : PostImage) : State :=
  if wb && (s.seq p).writtenBack.contains x.1 then
    match noticeOf cls x.2.1 with
    | some d => s.modSeq p (fun q => { q with notices := q.notices ++ [d] })
    | none => s
  else s.postOne p n cls wb (s.part p).step x

/-- Before the first POST of a micro-batch, its readers are bound (R266). -/
def State.bindOnce (s : State) (p mb : Nat) : State :=
  if (s.seq p).boundMbs.contains mb ∨ s.applies p then s
  else (s.bindReaders p mb).modSeq p (fun q => { q with boundMbs := q.boundMbs ++ [mb] })

/-! ## Late fold (R442) -/

/-- A descriptor of a lighter that stands for what the sequencer has a lighter do. -/
def lateWork (p : Nat) (c : PartCfg) (step : DWord) : Work :=
  { die := 0, n := 0, part := p, cfg := c, words := [], berth := 0, seq := 0, step := step }

/-- One sum image of the excused step is settled to X16 in late_region, and added into the same slot of this step (R442,
R312, R316): whether every codeword of it could be read. -/
def State.lateAdd (s : State) (p : Nat) (c : PartCfg) (o : DWord) (x : LateImage) : Bool × State :=
  let w := lateWork p c o
  let d := x.settle
  let b := { d with src := x.kept, dst := x.panel, dstKind := 1 }
  let (ok, s) := s.readRanges w.via .near w.ident .good b.srcRanges
  if !ok then (false, s)
  else
    let s := s.settleInto w b .near
    let a := { d with op := 2, addFmt := 2, indexed := false, src := x.panel, srcStride := d.dstStride, dst := d.src,
                      dstStride := d.srcStride }
    let (r, s) := State.addRows w a .near .good (List.range a.rows) ({ rows := 0, cuts := 0, bad := 0, stop := 0 }, s)
    (decide (r.stop = 0), s)

def State.lateAdds (p : Nat) (c : PartCfg) (o : DWord) : List LateImage → State → Bool × State
  | [], s => (true, s)
  | x :: xs, s =>
    let (ok, s) := s.lateAdd p c o x
    if ok then State.lateAdds p c o xs s else (false, s)

/-- Late contributions are taken in before the tie fold and the Reduce phase, once every descriptor of their step is done
(R442): whether the sequencer may go on. -/
def State.takeLate (s : State) (p : Nat) : Bool × State :=
  match (s.log p).lateOrigin, s.cfg? p with
  | some o, some c =>
    if o = (s.part p).step ∨ (s.seq p).lateAdded then (true, s)
    else if (s.seq p).posted.any (fun x => decide (x.step = o)) then (false, s)
    else
      match State.lateAdds p c o (s.lateImages p) s with
      | (false, s) => (false, s.rewind p 0x900D)
      | (true, s) =>
        let s := s.modSeq p (fun q => { q with lateAdded := true })
        if !(s.part p).latePending then (true, s)
        else
          let s := s.modPart p (fun x => { x with latePending := false, lateFolds := satAdd x.lateFolds 1 })
          (true, (s.log p).lateGroups.foldl (fun s g => (s.countLading p 3).raiseJr 0x400B p (wordLe 2 g ++ wordLe 8 o)) s)
  | _, _ => (true, s)

/-- POST: it waits for the micro-batch's data, for peak records, for late contributions before a SETTLE (R442), for room to
stage what its tiles read (R270), and for
the blocks that its part of the apply pass writes: a part that must wait is put off, and the others go on (R268). How the
exponent e_L reaches the pe field of an apply-pass descriptor (R189) the spec does not say: the image is posted with the pe
it holds (DESIGN CHOICE, log entry 96). -/
def State.bodyPost (s : State) (p : Nat) (i : BodyIns) : State :=
  match s.program? p with
  | none => s
  | some g =>
    let q := s.seq p
    let mb := q.index
    if q.loops ≠ [] ∧ q.fetching (s.part p).step mb then s.modSeq p (fun q => { q with waitsData := some mb })
    else
      let peaks := if i.flags.testBit 0 then s.pairPeaks p g i.c else some (0, 0)
      match peaks with
      | none => s
      | some pk =>
        let first := i.c % 2 ^ 32
        let cls := postClass (s.berth i.a).cfg i.flags
        match s.readImages p g first i.b with
        | (none, s) => s.rewind p 0x9002
        | (some images, s) =>
          let images := if i.flags.testBit 0 then images.map (anchorImage pk) else images
          let part := if s.applies p then s.partNow p else none
          let blocks := match part with
            | some x => x.2.2
            | none => if s.applies p then g.blocksHit (images.flatMap (imageWrites cls)) else []
          let (ok, s) := s.applyBlocks p blocks
          let (late, s) := if cls = 3 ∧ images.any (fun ws => decide ((Light.of ws).op = 3)) then s.takeLate p else (true, s)
          if !ok then
            match part with
            | some x => if s.mayPutOff p x then s.modSeq p (fun q => { q with pc := x.2.1, loops := [], putOff := q.putOff ++ [(x.1, x.2.1)] }) else s
            | none => s
          else if !late then s
          else
            let s := s.bindOnce p mb
            let (posts, s) := if cls = 1 then s.redirectTiles p mb (s.part p).step images
              else (some (images.map (fun ws => (ws, []))), s)
            match posts with
            | none => s
            | some xs =>
              (xs.zipIdx.foldl (fun s x => s.postImage p i.a cls (i.flags.testBit 2) (first + x.2, x.1)) s).goOn p

/-! ## WAIT -/

/-- WAIT takes one notice of the berth and the tag, when it has come. -/
def State.bodyWait (s : State) (p : Nat) (i : BodyIns) : State :=
  match indexOf? (fun (x : Nat × Nat) => decide (x = (i.a, i.b))) (s.seq p).notices with
  | none => s
  | some k => (s.modSeq p (fun q => { q with notices := q.notices.eraseIdx k })).goOn p

/-! ## REDUCE (R442, R443) -/


/-- REDUCE: ready goes to the coordinator; a group whose result is held is passed over, and nothing is sent again. What feeds
only such groups cannot be told, and runs again (DESIGN CHOICE, log entry 113). -/
def State.bodyReduce (s : State) (p : Nat) (i : BodyIns) : State :=
  let g : Half := BitVec.ofNat 16 i.a
  let q := s.seq p
  let me := BitVec.ofNat 16 (s.me p)
  let excused := q.excused.any (fun x => decide (x.1 = g) && decide (x.2.1 = me))
  if q.reduced.contains g ∨ q.ownReady.contains g ∨ excused then s.goOn p
  else
    let (ok, s) := s.takeLate p
    if !ok then s
    else
      let now := s.hm.time
      let s := s.send p (.ready g (s.part p).step)
      (s.modSeq p (fun q =>
        { q with ownReady := q.ownReady ++ [g], readyAt := q.readyAt ++ [(g, now)] })).goOn p

/-! ## LOSS and VERDICT (R192, R193, R195, R196) -/

/-- The LSUM status record that LOSS names (log entry 16): its result and its total, none where it cannot be read. -/
def State.lossRecord (s : State) (p c : Nat) : Option (Word × BitVec 128) × State :=
  let a := c % 2 ^ 62
  match spaceOf (c / 2 ^ 62) with
  | none | some .hold => (none, s)
  | some sp =>
    if !s.mayAccess p false sp .read a 32 then (none, s.regionFault (sp.unit a) p idSequencer a)
    else
      let (ok, s) := s.readMem (some { part := p, noAlloc := false }) sp a 32 idSequencer .good
      let b := s.bytes sp a 32
      if ok then (some (BitVec.ofNat 32 (leAt b 12 4), BitVec.ofNat 128 (leAt b 16 16)), s) else (none, s)

/-- LOSS: the job's total becomes the step's loss. A record in a locked row is waited for (R322). -/
def State.bodyLoss (s : State) (p : Nat) (i : BodyIns) (total : BitVec 128) : State :=
  if (spaceOf (i.c / 2 ^ 62)).any (fun sp => s.rowLocked sp (i.c % 2 ^ 62) 32) then s else
  let (r, s) := s.lossRecord p i.c
  let own := (r.map (·.2)).getD 0
  let (loss, s) := match r with
    | some (result, own) => s.jobLoss own result total
    | none => (let (v, s) := s.draw
               (BitVec.ofNat 32 v, s))
  let s := s.send p (.lossTotal (s.part p).step own)
  (s.writeLoss p loss).goOn p

/-- VERDICT: the device's two flags go into the exchange. -/
def State.bodyVerdict (s : State) (p : Nat) : State :=
  let d := s.det p
  let spike := match s.cfg? p with
    | some c => d.spike c.policy.spikeRatio
    | none => none
  let s := s.send p (.verdict (s.part p).step (decide (d.count ≠ 0)) (spike.getD false))
  (s.modSeq p (fun q => { q with verdictSent := true, spikeNotRun := spike.isNone })).goOn p

/-- The LATE_IN records of the step that takes late contributions in (R198, R442). -/
def State.lateIn (s : State) (p : Nat) (skip : Bool) : State :=
  match (s.log p).lateOrigin with
  | none => s
  | some o =>
    if o = (s.part p).step ∨ (s.part p).latePending then s
    else
      let me := natLe 2 (s.me p)
      let s := (s.log p).lateGroups.foldl (fun s g =>
        let s := s.addRecord p recLateIn (wordLe 8 o ++ wordLe 2 g ++ me ++ natLe 1 (b2n skip) ++ zeros 3)
        if skip then
          ((s.modPart p (fun x => { x with drops := satAdd x.drops 1 })).countLading p 4).raiseJr 0x400C p
            (wordLe 2 g ++ wordLe 8 o)
        else s) s
      s.modLog p (fun l => { l with lateOrigin := none, lateGroups := [] })

/-- VERDICT_RESULT: the pair of flags that every device of the job receives, and the action they take (R196). -/
def State.verdictResult (s : State) (p : Nat) (nonfinite spike : Bool) : State :=
  let q := s.seq p
  if !q.verdictSent ∨ q.verdict.isSome ∨ q.phase ≠ .body then s
  else
    let act := match s.cfg? p with
      | some c => c.policy.verdict nonfinite spike
      | none => .none
    let s := s.modSeq p (fun q => { q with verdict := some act, jobNonfinite := nonfinite, jobSpike := spike })
    let s := if act = .halt then s else s.lateIn p act.discards
    if act.discards then
      let s := if act = .halt then s.haltWith p 2 2 else s
      (s.withdraw p).modSeq p (fun q => { q with phase := .ended })
    else s.releasePart p

/-- The first part put off whose blocks may be written now. -/
def State.resumePart (s : State) (p : Nat) : List (Nat × Nat) → Option (Nat × Nat) × State
  | [] => (none, s)
  | x :: xs =>
    let blocks := (((s.applyParts p).find? (fun y => decide (y.1 = x.1))).map (·.2.2)).getD []
    let (ok, s) := s.applyBlocks p blocks
    if ok then (some x, s) else State.resumePart s p xs

/-- END: BODY is done, once the parts put off are made up for; it waits while none may go on (R268). -/
def State.bodyEnd (s : State) (p : Nat) : State :=
  if (s.seq p).putOff = [] then (s.observe p).modSeq p (fun q => { q with phase := .ended, reported := none })
  else
    match s.resumePart p (s.seq p).putOff with
    | (none, s) => s
    | (some x, s) => s.modSeq p (fun q => { q with pc := x.1, partEnd := some x.2, putOff := q.putOff.erase x })

/-! ## Peak records (R147, R148) -/

/-- PEAK_RECORD_RECEIVE: the record is taken under the step it was made for, else under the step in progress; a scope's
records join by maximum, with the own partial peak (R147). One with invalid_seen raises 0xB003, with the scope's lowest
logical cluster; that of a scope which no cluster of this device scaled is another device's, and free (log entry 79). -/
def State.takePeak (s : State) (p : Nat) (w : DWord) : State :=
  if (s.cfg? p).isNone then s
  else
    let scope : Word := BitVec.ofNat 32 (bits w 31 0)
    let peak := bits w 39 32
    let invalid := bit w 40
    let fmt : BitVec 3 := BitVec.ofNat 3 (bits w 43 41)
    let q := s.seq p
    let k := indexOf? (fun (r : PeakRec) => decide (r.scope = scope) && decide (r.peak.toNat = peak)
      && decide (r.invalid = invalid) && decide (r.fmt = fmt)) q.arrived
    let step := match k.bind (fun i => q.arrived[i]?) with
      | some r => r.step
      | none => (s.part p).step
    let mine := fun (r : PeakRec) => decide (r.scope = scope) && decide (r.step = step)
    let old := q.peaks.find? mine
    let own := ((k.bind (fun i => q.arrived[i]?)).orElse (fun _ => (q.partials.find? (fun x => mine x.1)).map (·.1)))
    let joined := fun (o : Option PeakRec) => (o.map (fun r => r.peak.toNat)).getD 0
    let r : PeakRec :=
      { step := step, scope := scope, peak := BitVec.ofNat 8 (max peak (max (joined own) (joined old))),
        invalid := invalid || own.any (·.invalid) || (old.map (·.invalid)).getD false, fmt := fmt
        cluster := own.bind (·.cluster) }
    let s := s.modSeq p (fun q =>
      let rest := match k with
        | some i => q.arrived.eraseIdx i
        | none => q.arrived
      { q with arrived := rest, peaks := q.peaks.filter (fun x => !mine x) ++ [r] })
    if invalid || (r.invalid && !old.any (·.invalid)) then
      let (where_, s) := match r.cluster with
        | some c => (natLe 1 c.1 ++ natLe 1 c.2.2, s)
        | none => (let (v, s) := s.draw
                   (natLe 2 v, s))
      s.raiseDie 0xB003 gwIndex (some p) (where_ ++ wordLe 4 scope ++ wordLe 8 step)
    else s

/-! ## The commands -/

/-- LOOP (R420). -/
def execLoop (p : BitVec 6) (s : State) : Out := .next (s.bodyStep p.toNat 1 (fun s i => s.bodyLoop p.toNat i))

/-- ENDLOOP (R420). -/
def execEndloop (p : BitVec 6) (s : State) : Out := .next (s.bodyStep p.toNat 2 (fun s _ => s.bodyEndloop p.toNat))

/-- FETCH (R402). -/
def execFetch (p : BitVec 6) (s : State) : Out := .next (s.bodyStep p.toNat 3 (fun s i => s.bodyFetch p.toNat i))

/-- POST (R256). -/
def execPost (p : BitVec 6) (s : State) : Out := .next (s.bodyStep p.toNat 4 (fun s i => s.bodyPost p.toNat i))

/-- WAIT (R420). -/
def execWait (p : BitVec 6) (s : State) : Out := .next (s.bodyStep p.toNat 5 (fun s i => s.bodyWait p.toNat i))

/-- REDUCE (R442). -/
def execReduce (p : BitVec 6) (s : State) : Out := .next (s.bodyStep p.toNat 6 (fun s i => s.bodyReduce p.toNat i))

/-- LOSS (R192). -/
def execLoss (p : BitVec 6) (total : BitVec 128) (s : State) : Out :=
  .next (s.bodyStep p.toNat 7 (fun s i => s.bodyLoss p.toNat i total))

/-- VERDICT (R195). -/
def execVerdict (p : BitVec 6) (s : State) : Out := .next (s.bodyStep p.toNat 8 (fun s _ => s.bodyVerdict p.toNat))

/-- VERDICT_RESULT (R196). -/
def execVerdictResult (p : BitVec 6) (nonfinite spike : Bool) (s : State) : Out :=
  .next (s.verdictResult p.toNat nonfinite spike)

/-- END (R420). -/
def execEndStep (p : BitVec 6) (s : State) : Out := .next (s.bodyStep p.toNat 9 (fun s _ => s.bodyEnd p.toNat))

/-- PEAK_RECORD_RECEIVE (R148). -/
def execPeakRecordReceive (p : BitVec 6) (record : DWord) (s : State) : Out := .next (s.takePeak p.toNat record)

/-- VECTOR_QUANT (R235). -/
def execVectorQuant (c : ClusterId) (slot : BitVec 1) (f : LaneFault) (s : State) (stop : Option Nat := none) :
    Out := .next (s.vectorRun c slot 2 f stop)

end Sys2Proof.Machine
end

