-- ==== Sys2Proof/Machine/Links.lean ====
section
/-!
DEFINITION. Kraek links (R358 to R372): training, lanes, discovery and its decision, flits.
-/

namespace Sys2Proof.Machine

/-! ## Links and ports -/

def State.modKx (s : State) (f : Kx → Kx) : State := { s with kx := f s.kx }

/-- The link die of a link works. -/
def State.linkUp (s : State) (k : Nat) : Bool := s.ready (readyLink (k / 4)) && !s.dead (ldIndex (k / 4))

/-- An event of a link, and one of the fabric (R389). -/
def State.raiseKx (s : State) (code k : Nat) (more : Bytes) : State :=
  s.raiseDie code (ldIndex (k / 4)) none (natLe 1 k ++ more)
def State.raiseFabric (s : State) (code : Nat) (part : Option Nat) (more : Bytes) : State :=
  s.raiseDie code (ldIndex 0) part (natLe 1 0xFF ++ more)

/-- An error bit of KX_LINK_ERROR (Table 10.14). -/
def State.linkError (s : State) (k b : Nat) : State := s.modLink k (fun l => { l with error := setBit l.error b })

/-- The port of a link. -/
def State.portOf (s : State) (k : Nat) : Option PortRec := s.mfAux.dev.ports.find? (fun r => r.links.contains k)

/-- Links of a port that carry packets. -/
def State.activeLinks (s : State) (r : PortRec) : List Nat :=
  r.links.filter (fun k => decide ((s.link k).state = .active) && s.linkUp k)
def State.portActive (s : State) (r : PortRec) : Bool := decide (s.activeLinks r ≠ [])
def State.portWhole (s : State) (r : PortRec) : Bool := decide ((s.activeLinks r).length = r.width)

/-! ## Lanes (R358, R359) -/

/-- Data lanes in service in a direction whose lanes `bad` are out, the spare being lane 4. -/
def lanesLeft (bad : List (BitVec 3)) : Nat := min 4 (5 - bad.length)

/-- The spare lane of the direction serves a data lane. -/
def spareServes (bad : List (BitVec 3)) : Bool := bad.any (fun x => decide (x ≠ 4)) && !bad.contains 4

/-- The physical lanes in service in a direction. -/
def lanesServing (bad : List (BitVec 3)) : List Nat :=
  (List.range (if spareServes bad then 5 else 4)).filter (fun n => !bad.contains (BitVec.ofNat 3 n))

/-- KX_LINK_STATUS.lanes and spare_used of a link that has trained: the narrower direction, and either direction's
spare (log entry 83). -/
def Link.lanes (l : Link) : Nat := min (lanesLeft l.badTx) (lanesLeft l.badRx)
def Link.spareUsed (l : Link) : Bool := spareServes l.badTx || spareServes l.badRx
def Link.bad (l : Link) (tx : Bool) : List (BitVec 3) := if tx then l.badTx else l.badRx

/-! ## Shared feeds (R441) -/

/-- The partner's feed identity: as the exchange of R438 gave it, before that as the Manifest names it. -/
def State.feedOf (s : State) (p : Nat) (m : Mirror) : Nat := ((s.part p).partnerFeed.map BitVec.toNat).getD m.partnerFeed

/-- The partner is on this device's feed: by its feed identity, or by KX_LINK_STATUS.same_feed of a link to it (R441). -/
def State.partnerShares (s : State) (p : Nat) : Bool :=
  match s.cfg? p, s.mirror? p with
  | some c, some m =>
    decide (s.feedOf p m = bits s.hm.feed 15 0)
      || s.links.any (fun (e : Nat × Link) => e.2.sameFeed && decide (bits e.2.peerCoord 15 0 = physicalOf c.remaps m.partner))
  | _, _ => false

/-- A feed found shared, or no longer, while a job runs: the FEED record, and event 0x4009 (R441). -/
def State.feedCheck (s : State) (p : Nat) : State :=
  let x := s.part p
  let now := s.partnerShares p
  if !x.state.live ∨ now = x.sharedFeed then s
  else
    let r := s.recoveryOf p
    let cadence := if now then r.cofeedEvery else r.snapshotEvery
    let own := bits s.hm.feed 15 0
    let s := s.modPart p (fun x => { x with sharedFeed := now })
    let s := s.addRecord p recFeed (natLe 2 own ++ natLe 2 (((s.mirror? p).map (s.feedOf p)).getD 0) ++ natLe 4 cadence)
    if now then s.raiseJr 0x4009 p (natLe 2 own ++ natLe 4 cadence) else s
def State.feedCheckAll (s : State) : State := (s.parts.map (·.1)).foldl State.feedCheck s

/-! ## Discovery (R369 to R371) -/

/-- A port's links, as bits. -/
def PortRec.mask (r : PortRec) : BitVec 16 := r.links.foldl (fun w k => setBit w k) 0

/-- What discovery makes of a port whose links have changed: one that is ACTIVE again, with all its links (R369), is missing
no more, and when no port is missing the wait ends (R371). -/
def State.discoveryStep (s : State) : State :=
  let ports := s.mfAux.dev.ports
  let back := ports.filter (fun r => s.portWhole r)
  let gone := back.foldl (fun (w : BitVec 16) r => w ||| r.mask) 0
  let s := s.modKx (fun x =>
    { x with missing := x.missing &&& ~~~gone,
             missingDims := x.missingDims.filter (fun d => !back.any (fun r => decide (r.dimension = d))) })
  let whole := ports.all (fun r => s.portWhole r)
  let s :=
    if s.kx.disc = .running ∧ whole then s.modKx (fun x => { x with disc := .complete })
    else if (s.kx.disc = .waiting ∨ s.kx.disc = .degraded) ∧ s.kx.missing = 0 then
      s.modKx (fun x => { x with disc := .complete, waitLeft := 0 })
    else s
  s.tryBeginAll

/-- Links that have not come back from a retrain by the deadline retrain no more: their port's packets wait no longer,
and their return is a discovery (R371). -/
def State.giveUpRetrain (s : State) (r : PortRec) : State :=
  (r.links.filter (fun k => (s.link k).retraining)).foldl (fun s k =>
    s.modLink k (fun l => { l with retraining := false })) s

/-- A port of which some links are ACTIVE raises event 0x6008 (R369). -/
def State.portPart (s : State) (r : PortRec) : State :=
  let n := (s.activeLinks r).length
  if n = 0 ∨ n = r.width then s else s.raiseFabric 0x6008 none (natLe 1 n)
def State.portBelow (s : State) (k : Nat) : State :=
  match s.portOf k with
  | none => s
  | some r => s.portPart r

/-- PORT_MISSING_DEADLINE: a port with no link ACTIVE is missing (R370); one with some runs at their rate (R369). -/
def State.portDeadline (s : State) (port : Nat) : State :=
  match s.mfAux.dev.ports.find? (fun r => decide (r.port = port)) with
  | none => s
  | some r =>
    let n := (s.activeLinks r).length
    let s := s.giveUpRetrain r
    if n = r.width then s
    else if n ≠ 0 then s.raiseFabric 0x6008 none (natLe 1 n)
    else if s.kx.missingDims.contains r.dimension then s
    else
      let s := s.modKx (fun x =>
        { x with missing := x.missing ||| r.mask, missingDims := x.missingDims ++ [r.dimension] })
      let s := s.raiseFabric 0x6003 none (natLe 1 port ++ natLe 2 r.peerCoord)
      let wait := s.mfAux.dev.discovery.waitMs
      let s := s.modKx (fun x =>
        if x.disc = .waiting then x else { x with disc := .waiting, waitLeft := BitVec.ofNat 32 wait })
      s.raiseFabric 0x6005 none (natLe 4 s.kx.missing.toNat ++ natLe 4 wait)

/-- The partitions that a missing port holds. -/
def State.heldParts (s : State) : List Nat := (s.parts.map (·.1)).filter (fun p => s.discHeld p)

/-- A decision (R371): to proceed on the degraded routes, or to halt the held jobs with cause 12. -/
def State.decide_ (s : State) (proceed byDefault : Bool) : State :=
  if s.kx.disc ≠ .waiting then s
  else
    let held := s.heldParts
    let s := s.modKx (fun x =>
      { x with disc := if proceed then .degraded else .halted, byDefault := byDefault, waitLeft := 0 })
    let s := s.raiseFabric 0x6006 none (natLe 1 (if proceed then 1 else 2) ++ natLe 1 (b2n byDefault))
    if proceed then s.tryBeginAll else held.foldl (fun s p => s.halt p 12) s

/-! ## Training (R368, Table 10.4) -/

/-- The link is in a state, and its die works. -/
def State.linkIn (s : State) (k : Nat) (x : LinkState) : Bool := s.linkUp k && decide ((s.link k).state = x)

def State.setLinkState (s : State) (k : Nat) (x : LinkState) : State := s.modLink k (fun l => { l with state := x })

/-- HM_SERVICE reason 4: Kraek lanes. -/
def State.laneService (s : State) : State := s.service 4 true

/-- A return to DETECT or LOCK. -/
def State.countRetrain (s : State) (k : Nat) : State :=
  s.modLinkCtr k (fun c => { c with retrains := satAdd c.retrains 1 })

/-- The link enters FAULT, for a cause the manual does not number (log entry 10). -/
def State.linkFaults (s : State) (k cause : Nat) : State :=
  let was := (s.link k).state = .active ∨ (s.link k).retraining
  let s := (s.modLink k (fun l => { l with state := .fault, retraining := false })).linkError k 2
  let s := if was then s.portBelow k else s
  (s.raiseKx 0x6009 k (natLe 1 (Config.openCode 11 cause))).laneService.discoveryStep

/-- A retrain (R371): from LOCK, counted. -/
def State.retrainLink (s : State) (k : Nat) : State :=
  let s := s.modLink k (fun l => { l with retraining := l.retraining || decide (l.state = .active), state := .lock })
  s.countRetrain k

/-- A state past LOCK, whose lanes carry symbols. -/
def LinkState.locked : LinkState → Bool
  | .rtt => true
  | .ident => true
  | .check => true
  | .active => true
  | _ => false

/-- A lasting fault of a lane of a direction (R359): a data lane's brings the spare in, a further one leaves three lanes,
and the next is FAULT; an idle spare's takes it out of service. A link past LOCK retrains. -/
def State.laneFails (s : State) (k : Nat) (tx : Bool) (lane : BitVec 3) : State :=
  let bad := (s.link k).bad tx
  if bad.contains lane ∨ 4 < lane.toNat then s
  else
    let now := bad ++ [lane]
    let s := (s.modLink k (fun l => if tx then { l with badTx := now } else { l with badRx := now })).linkError k 0
    if lanesLeft now < 3 then s.linkFaults k 0
    else if lane = 4 ∧ bad = [] then s
    else
      let s := if (s.link k).state.locked then s.retrainLink k else s
      if lanesLeft now = 4 then (s.raiseKx 0x6007 k (natLe 1 lane.toNat)).laneService
      else ((s.linkError k 1).raiseKx 0x6008 k (natLe 1 3)).laneService

/-- LINK_DETECT_PROBE. -/
def State.linkProbe (s : State) (k : Nat) (present : Bool) : State :=
  if present && s.linkIn k .detect then s.setLinkState k .equalise else s

/-- LINK_EQUALISE_COMPLETE: the link reaches LOCK. -/
def State.linkEqualised (s : State) (k : Nat) : State :=
  if !s.linkIn k .equalise then s
  else if (s.link k).lanes < 3 then s.linkFaults k 0
  else s.modLink k (fun l => { l with state := .lock, failures := 0 })

/-- A state that Table 10.4 gives a limit. -/
def LinkState.limited : LinkState → Bool
  | .equalise => true
  | .lock => true
  | .rtt => true
  | _ => false

/-- LINK_TRAINING_TIMEOUT: back to DETECT; lanes that failed training are lasting faults; the sixteenth failure in a
row to reach LOCK is FAULT. -/
def State.linkTimeout (s : State) (k : Nat) (bad : List (Bool × BitVec 3)) : State :=
  let l := s.link k
  if !s.linkUp k ∨ !l.state.limited then s
  else
    let n := if l.state = .equalise then l.failures + 1 else l.failures
    let s := ((s.detectLink k n).linkError k 4).countRetrain k
    let s := bad.foldl (fun s x => s.laneFails k x.1 x.2) s
    if (s.link k).state = .fault then s
    else
      if 16 ≤ n then s.linkFaults k 1 else s

/-- LINK_LOCK_COMPLETE: the lane map; the training is the link's last successful one (R532). -/
def State.linkLocked (s : State) (k : Nat) (laneMap : BitVec 24) : State :=
  if !s.linkIn k .lock then s
  else (s.modLink k (fun l => { l with state := .rtt, laneMap := laneMap })).calibrate (64 + k)

/-- The identity record that this device sends on a link (Table 10.5): zeros for the port, the job and the Manifest while
there are none. -/
def State.identityRecord (s : State) (k : Nat) : Bytes :=
  let place := match s.portOf k with
    | some r => r.port + r.dimension * 16
    | none => 0
  let job : DWord := match s.portOf k with
    | some r => if r.owner = 0xFF then 0 else s.mf.jobId
    | none => 0
  natLe 2 s.coord ++ natLe 1 k ++ natLe 1 place ++ natLe 2 (bits s.hm.feed 15 0) ++ natLe 2 0 ++ s.deviceId
    ++ wordLe 8 job ++ wordLe 8 s.mf.activeId ++ padTo 16 []

/-- The link's identity record goes out. -/
def State.sendIdent (s : State) (k : Nat) : State := s.modLink k (fun l => { l with identSent := s.identityRecord k })

/-- Links in IDENT repeat their records every 1 ms (Table 10.4). -/
def State.identTick (s : State) : State :=
  if s.hm.time.toNat % 100000 ≠ 0 then s
  else (List.range 16).foldl (fun s k => if s.linkIn k .ident then s.sendIdent k else s) s

/-- LINK_RTT_COMPLETE: the median; over 6,144 ns the link is out of its budget (R362). The link sends its record. -/
def State.linkRtt (s : State) (k : Nat) (rtt : Word) : State :=
  if !s.linkIn k .rtt then s
  else (s.modLink k (fun l => { l with state := .ident, rtt := rtt, rttOver := decide (6144 < rtt.toNat) })).sendIdent k

/-- LINK_IDENT_RECEIVED: the peer's record (Table 10.5). -/
def State.linkIdent (s : State) (k : Nat) (b : Bytes) : State :=
  if !s.linkIn k .ident ∨ b.length ≠ 48 then s
  else s.modLink k (fun l =>
    { l with state := .check, peerCoord := BitVec.ofNat 32 (leAt b 0 2 + leAt b 4 2 * 65536),
             peerId := BitVec.ofNat 64 (leAt b 8 8), peerJob := BitVec.ofNat 64 (leAt b 16 8) })

/-- The link becomes ACTIVE; a retrained one raises no discovery event (R371). Flits that the peer has not acknowledged are
sent again, so that none is lost (R363, R371). -/
def State.linkActive (s : State) (k : Nat) (r : PortRec) : State :=
  let l := s.link k
  let s := s.modLink k (fun l => { l with state := .active, retraining := false, resend := l.kept })
  let s := if l.retraining then s
    else s.raiseKx 0x6001 k (natLe 2 (bits l.peerCoord 15 0) ++ natLe 1 r.port)
  let s := if l.rttOver then s.raiseKx 0x600A k (wordLe 4 l.rtt) else s
  let s := if l.retraining then s else s.portBelow k
  s.discoveryStep

/-- The peer is on the same feed (Table 10.6); a retrained link raises no discovery event (R371). -/
def State.checkFeed (s : State) (k : Nat) : State :=
  let l := s.link k
  let feed := bits l.peerCoord 31 16
  let same := decide (feed = bits s.hm.feed 15 0)
  let s := s.modLink k (fun l => { l with sameFeed := same })
  let s := if same && !l.retraining then s.raiseKx 0x600F k (natLe 2 (bits l.peerCoord 15 0) ++ natLe 2 feed) else s
  s.feedCheckAll

/-- LINK_CHECK (R369): the plan's comparison, once the coordinate is valid and a Manifest has committed. -/
def State.linkCheck (s : State) (k : Nat) : State :=
  if !s.linkIn k .check ∨ s.boardCoord? = none ∨ !s.mf.active then s
  else
    let l := s.link k
    let found := bits l.peerCoord 15 0
    let s := s.checkFeed k
    match s.portOf k with
    | none =>
      let s := (s.setLinkState k .dark).modKx (fun x => { x with extra := setBit x.extra k })
      s.raiseKx 0x6002 k (natLe 2 found)
    | some r =>
      if found ≠ r.peerCoord ∨ (r.role = 0 ∧ l.peerJob.toNat ≠ r.peerJob) then
        let s := (s.modLink k (fun l => { l with state := .dark, retraining := false })).linkError k 3
        let s := if l.retraining then s.portBelow k else s
        (s.raiseKx 0x6004 k (natLe 2 r.peerCoord ++ natLe 2 found ++ wordLe 8 l.peerJob)).discoveryStep
      else s.linkActive k r

/-! ## KX_LINK_CONTROL (Table 10.11) -/

/-- ENABLE: a FAULT link becomes DARK, a DARK one trains (Table 10.4). -/
def State.linkEnable (s : State) (k : Nat) : State :=
  match (s.link k).state with
  | .fault => s.setLinkState k .dark
  | .dark => s.detectLink k 0
  | _ => s

/-- DISABLE. -/
def State.linkDisable (s : State) (k : Nat) : State :=
  let was := (s.link k).state = .active ∨ (s.link k).retraining
  let s := s.modLink k (fun l => { l with state := .dark, retraining := false })
  (if was then s.portBelow k else s).discoveryStep

/-- RETRAIN of an ACTIVE link (R371). -/
def State.linkRetrain (s : State) (k : Nat) : State :=
  if (s.link k).state = .active then s.retrainLink k else s

/-- A command of KX_LINK_CONTROL. -/
def State.linkCommand (s : State) (k cmd : Nat) : State :=
  match cmd with
  | 1 => s.linkEnable k
  | 2 => s.linkDisable k
  | 3 => s.linkRetrain k
  | _ => s

/-- The window of a link, and the fabric registers in that of KL0 (R388). -/
def linkBase (k : Nat) : Nat := 0x00100000 + k * 0x1000
def discoveryControl : Nat := 0x00100808

/-! ## Flits (R363) -/

/-- The receive lane that a flit's fault is of: the flit layer does not know it, so it is free among those in service (log
entry 9). -/
def State.flitLane (s : State) (k : Nat) : Nat × State :=
  let (v, s) := s.draw
  let ls := lanesServing (s.link k).badRx
  (ls.getD (v % ls.length) 0, s)

/-- A transient fault of a link: counted, 0x600B, promoted at its threshold (R534). -/
def State.linkTransient (s : State) (k : Nat) (seq : DWord) : State :=
  let s := s.modLinkCtr k (fun c => { c with faultTransient := satAdd c.faultTransient 1 })
  let s := s.raiseKx 0x600B k (wordLe 8 seq)
  let (lane, s) := s.flitLane k
  let (promoted, s) := s.transientFault (.kraekLane k lane)
  if promoted then s.laneFails k false (BitVec.ofNat 3 lane) else s

/-- What a good flit's link header gives the sender of this end: flits acknowledged are kept no more, room of their virtual
channels comes back, and from a flit that failed at the peer onward the kept ones are sent again (R363). -/
def Link.takeHeader (l : Link) (f : FlitRx) : Link :=
  let kept := match f.ack with
    | some n => l.kept.filter (fun x => decide (n < x.seq))
    | none => l.kept
  let again := match f.replay with
    | some n => kept.filter (fun x => decide (n ≤ x.seq))
    | none => l.resend.filter (fun x => kept.contains x)
  { l with kept := kept, resend := again,
           inFlight := f.credits.foldl (fun m c => m.modify (fun _ => 0) c.1.toNat (fun n => n - c.2.toNat)) l.inFlight }

/-- FLIT_RECEIVE: a flit that fails its CRC is replayed; a replay that is good is a transient fault, the third that
fails a lasting one. -/
def State.flit (s : State) (k : Nat) (f : FlitRx) : State :=
  if !s.linkIn k .active then s
  else
    let s := s.modLinkCtr k (fun c => { c with rxFlits := c.rxFlits + 1 })
    if f.crcOk then
      let s := (s.modLinkCtr k (fun c => { c with replayRun := 0 })).modLink k (fun l => l.takeHeader f)
      if f.replayed then s.linkTransient k f.seq else s
    else
      let n := if f.replayed then (s.linkCtr k).replayRun + 1 else 0
      let s := s.modLinkCtr k (fun c => { c with crcErrors := satAdd c.crcErrors 1 })
      if 3 ≤ n then
        let s := s.modLinkCtr k (fun c => { c with replayRun := 0 })
        let (lane, s) := s.flitLane k
        s.laneFails k false (BitVec.ofNat 3 lane)
      else s.modLinkCtr k (fun c => { c with replays := satAdd c.replays 1, replayRun := n })

/-- FEC_RATE_WINDOW: symbols corrected on a lane over 1 s; above 10⁻⁵ the lane has a lasting fault. -/
def State.fecWindow (s : State) (k : Nat) (lane : BitVec 3) (corrected : Word) (high : Bool) : State :=
  if !s.linkUp k then s
  else
    let s := s.modLinkCtr k (fun c => { c with fecCorrected := satAdd c.fecCorrected corrected.toNat })
    if high && (s.link k).state.locked then s.laneFails k false lane else s

/-! ## The commands -/

/-- LINK_DETECT_PROBE (R368). -/
def execLinkDetectProbe (k : BitVec 4) (present : Bool) (s : State) : Out := .next (s.linkProbe k.toNat present)

/-- LINK_EQUALISE_COMPLETE (R368). -/
def execLinkEqualiseComplete (k : BitVec 4) (s : State) : Out := .next (s.linkEqualised k.toNat)

/-- LINK_TRAINING_TIMEOUT (R368). -/
def execLinkTrainingTimeout (k : BitVec 4) (badLanes : List (Bool × BitVec 3)) (s : State) : Out :=
  .next (s.linkTimeout k.toNat badLanes)

/-- LINK_LOCK_COMPLETE (R368). -/
def execLinkLockComplete (k : BitVec 4) (laneMap : BitVec 24) (s : State) : Out := .next (s.linkLocked k.toNat laneMap)

/-- LINK_RTT_COMPLETE (R362). -/
def execLinkRttComplete (k : BitVec 4) (rtt : Word) (s : State) : Out := .next (s.linkRtt k.toNat rtt)

/-- LINK_IDENT_RECEIVED (R368). -/
def execLinkIdentReceived (k : BitVec 4) (record : Bytes) (s : State) : Out := .next (s.linkIdent k.toNat record)

/-- LINK_CHECK (R369). -/
def execLinkCheck (k : BitVec 4) (s : State) : Out := .next (s.linkCheck k.toNat)

/-- PORT_MISSING_DEADLINE (R370). -/
def execPortMissingDeadline (port : BitVec 4) (s : State) : Out := .next (s.portDeadline port.toNat)

/-- DISCOVERY_WAIT_EXPIRY (R371). -/
def execDiscoveryWaitExpiry (s : State) : Out :=
  .next (s.decide_ (decide (s.mfAux.dev.discovery.missingDefault = 1)) true)

/-- PROCEED (R371): a write of KX_DISCOVERY_CONTROL. -/
def execProceed (s : State) : Out := .next (s.guardWrite .proceed (readyLink 0) discoveryControl (fun s => s.decide_ true false))

/-- HALT (R371): a write of KX_DISCOVERY_CONTROL. -/
def execDiscoveryHalt (s : State) : Out :=
  .next (s.guardWrite .discoveryHalt (readyLink 0) discoveryControl (fun s => s.decide_ false false))

/-- ENABLE, DISABLE and RETRAIN (R368, R371): writes of KX_LINK_CONTROL. -/
def State.linkControl (s : State) (c : Instr) (k cmd : Nat) : State :=
  s.guardWrite c (readyLink (k / 4)) (linkBase k + 4) (fun s => s.linkCommand k cmd)

/-- ENABLE (R368). -/
def execEnable (k : BitVec 4) (s : State) : Out := .next (s.linkControl (.enable k) k.toNat 1)

/-- DISABLE (R368). -/
def execDisable (k : BitVec 4) (s : State) : Out := .next (s.linkControl (.disable k) k.toNat 2)

/-- RETRAIN (R371). -/
def execRetrain (k : BitVec 4) (s : State) : Out := .next (s.linkControl (.retrain k) k.toNat 3)

/-- LINK_LOSS_OF_LOCK (R371). -/
def execLinkLossOfLock (k : BitVec 4) (s : State) : Out := .next (if s.linkUp k.toNat then s.linkRetrain k.toNat else s)

/-- FLIT_RECEIVE (R363). -/
def execFlitReceive (k : BitVec 4) (flit : FlitRx) (s : State) : Out := .next (s.flit k.toNat flit)

/-- FEC_RATE_WINDOW (R363). -/
def execFecRateWindow (k : BitVec 4) (lane : BitVec 3) (corrected : Word) (high : Bool) (s : State) : Out :=
  .next (s.fecWindow k.toNat lane corrected high)

end Sys2Proof.Machine
end

