-- ==== Sys2Proof/Machine/Fabric.lean ====
section
/-!
DEFINITION. Packets of the Kraek fabric (R364, R373 to R382), class-0 operations and exact reductions (R383 to R387),
and what an excusal does (R442).
-/

namespace Sys2Proof.Machine

/-! ## Packets (R364, R377, R378) -/

/-- Job traffic of this device: the packet's tag is that of its job (R378). -/
def State.ownTraffic (s : State) (pkt : Packet) : Bool :=
  s.mf.active && decide (pkt.jobTag.toNat = bits s.mf.jobId 15 0)

/-- Flits that a packet takes (R363): its header and payload in 240 bytes each. -/
def packetFlits (pkt : Packet) : Nat := ceilDiv (16 + pkt.payload.length) 240

/-- A class-0 packet, of own traffic or in transit (Table 10.7); in the transit escape VC its kind shows the class. -/
def packetClass0 (pkt : Packet) : Bool :=
  decide (pkt.vc = 0) || decide (pkt.vc = 5) || decide (pkt.vc = 1)
    || (decide (pkt.vc = 7) && (decide (pkt.kind = 1) || decide (pkt.kind = 5) || decide (pkt.kind = 7)))

/-- A packet in an escape channel. -/
def packetEscapes (pkt : Packet) : Bool := decide (pkt.vc = 5) || decide (pkt.vc = 6) || decide (pkt.vc = 7)

/-- The virtual channel that a packet leaves in (Table 10.7, R378, R370): `escape` where it has taken a detour or its
entry says so. Own traffic that comes in a transit channel goes on in the channel of its class: of VC 4 its kind shows whether
that is 1 or 2. -/
def egressVc (own escape : Bool) (pkt : Packet) : BitVec 3 :=
  let escapes := escape || packetEscapes pkt
  if own then
    if packetClass0 pkt then (if escapes then 5 else 0)
    else if escapes then 6
    else if pkt.vc = 4 then (if pkt.kind = 6 then 3 else 2)
    else pkt.vc
  else if escape || decide (pkt.vc = 7) then 7
  else if packetClass0 pkt then 1
  else 4

/-- A port by its number, and the one of a dimension. -/
def State.portNo (s : State) (n : Nat) : Option PortRec := s.mfAux.dev.ports.find? (fun r => decide (r.port = n))
def State.portDim (s : State) (d : Nat) : Option PortRec := s.mfAux.dev.ports.find? (fun r => decide (r.dimension = d))

/-- The port takes packets: it is active, or it is in a retrain, behind whose credits they wait (R371). -/
def State.portTakes (s : State) (r : PortRec) : Bool :=
  s.portActive r || r.links.any (fun k => (s.link k).retraining)

/-- The lowest other dimension with an active port that the packet did not arrive on (R370). -/
def State.detourPort (s : State) (d : Nat) (ingress : Option Nat) : Option PortRec :=
  (List.range 16).findSome? (fun e =>
    if e = d then none
    else
      match s.portDim e with
      | some r => if s.portActive r ∧ ingress ≠ some r.port then some r else none
      | none => none)

/-- A hop: the port, whether by the escape channel, and whether it is a detour. -/
abbrev Hop := PortRec × Bool × Bool

/-- The hop that an entry gives, else R367's, else R370's over a missing dimension; none sends a packet back over the port
it arrived on (R370). -/
def State.nextHop (s : State) (pkt : Packet) (ingress : Option Nat) : Option Hop :=
  let dst := pkt.dst.toNat
  let byEntry : Option Hop :=
    match bestRoute s.kx.routes pkt.tag dst with
    | some e =>
      match s.portNo e.route.port with
      | some r => if s.portTakes r ∧ ingress ≠ some r.port then some (r, e.route.escape, false) else none
      | none => none
    | none => none
  match byEntry with
  | some h => some h
  | none =>
    match defaultDim s.coord dst with
    | none => none
    | some d =>
      let direct := match s.portDim d with
        | some r => if s.portTakes r ∧ ingress ≠ some r.port then some r else none
        | none => none
      match direct with
      | some r => some (r, false, false)
      | none =>
        if s.kx.missingDims.contains d then (s.detourPort d ingress).map (fun r => (r, true, true)) else none

/-- A hop by an entry of another tag than the packet's (R77): MF_TAG_FALLBACK, MF_WARN.tag_fallback and event 0x300A. -/
def State.tagFallback (s : State) (pkt : Packet) : State :=
  match bestRoute s.kx.routes pkt.tag pkt.dst.toNat with
  | some e =>
    if e.tag = pkt.tag then s
    else ({ s with mf := { s.mf with warn := setBit s.mf.warn 2 } }.modMfAux
      (fun a => { a with tagFallback := satAdd a.tagFallback 1 })).raiseHm 0x300A none
      (natLe 2 pkt.dst.toNat ++ natLe 1 pkt.tag.toNat)
  | none => s

/-- A class-0 hop's time (R382): over 480 ns it is counted on the egress link, with 0x600C for the step's first. -/
def State.hopTime (s : State) (r : PortRec) (ns : Nat) : State :=
  let k := (s.activeLinks r).headD r.firstLink
  let s := s.modLinkCtr k (fun c => { c with class0Max := BitVec.ofNat 32 (max c.class0Max.toNat ns) })
  if ns ≤ 480 then s
  else
    let step := s.recordStep none
    let s := (s.modLinkCtr k (fun c => { c with class0Over := satAdd c.class0Over 1 })).linkError k 5
    if s.kx.class0Seen = some step then s
    else (s.modKx (fun x => { x with class0Seen := some step })).raiseKx 0x600C k (wordLe 8 step ++ natLe 4 ns)

/-- The two ports lie on different link dies (R380). -/
def PortRec.apart (a b : PortRec) : Bool := !a.links.any (fun k => b.links.any (fun j => decide (j / 4 = k / 4)))

/-- The packet goes to the egress of a hop, where it waits its turn; between ports of different link dies it crosses
through a compute die (R380). -/
def State.send_ (s : State) (pkt : Packet) (h : Hop) (ingress : Option Nat) (ns : Nat) : State :=
  let detour := pkt.detour || h.2.2
  let out := { pkt with vc := egressVc (s.ownTraffic pkt) (h.2.1 || detour) pkt, detour := detour }
  let entry := (BitVec.ofNat 4 h.1.port, out)
  let crosses := (ingress.bind s.portNo).any (fun r => r.apart h.1)
  let s := s.modKx (fun x =>
    if crosses then { x with relay := x.relay ++ [entry] } else { x with egress := x.egress ++ [entry] })
  if packetClass0 pkt then s.hopTime h.1 ns else s

/-- The partitions that a packet's loss halts (R377): those of the job it names. -/
def State.jobParts (s : State) (pkt : Packet) : List Nat :=
  if s.ownTraffic pkt then (s.parts.filter (fun e => e.2.cfg.isSome)).map (·.1) else []

/-- A packet that nothing routes is discarded (R377). -/
def State.noRoute (s : State) (pkt : Packet) (parts : List Nat) : State :=
  let s := s.modKx (fun x => { x with noRoute := satAdd x.noRoute 1 })
  let s := s.raiseFabric 0x6010 none (natLe 2 pkt.dst.toNat ++ natLe 2 pkt.jobTag.toNat)
  parts.foldl (fun s p => s.halt p 12) s

/-- The identity that a berth message arrives under (log entry 47): the berth's own producer where that is a unit of a
link die, else engine 0 of LD0. -/
def kraekProducer (c : BerthCfg) : Nat :=
  if isUnit c.producer ∧ within 2 5 ((c.producer / 256) % 64) then c.producer else idUnit (ldIndex 0) 0

/-- A packet for this device: a berth message goes to its berth, anything else to its unit. Nothing of another job
enters one (R378): nothing routes such a packet further, and it is discarded (R377). -/
def State.deliver (s : State) (pkt : Packet) : State :=
  if !s.ownTraffic pkt then s.noRoute pkt []
  else if pkt.kind = 6 then
    let n := bits pkt.stream 13 0
    let c := (s.berth n).cfg
    (s.berthWrite none n
      { serves := BitVec.ofNat 6 c.partition, producer := BitVec.ofNat 16 (kraekProducer c), cls := 0,
        step := pkt.seq.setWidth 64, bytes := pkt.payload }).2.intakeFilled n
  else s.modKx (fun x => { x with delivered := x.delivered ++ [pkt] })

/-- A packet's payload fits its class (R364). -/
def packetFits (pkt : Packet) : Bool :=
  if packetClass0 pkt then decide (16 + pkt.payload.length ≤ 256) else decide (pkt.payload.length ≤ 4080)

/-- A packet at this device (R374). -/
def State.forward (s : State) (pkt : Packet) (ingress : Option Nat) (ns : Nat) (parts : List Nat) : State :=
  if !(packetFits pkt) then s
  else if pkt.dst.toNat = s.coord then s.deliver pkt
  else
    match s.nextHop pkt ingress with
    | some h => (s.tagFallback pkt).send_ pkt h ingress ns
    | none => s.noRoute pkt parts

/-- The tag that senders of a partition stamp (R77): while the previous tag is live, the current one only after the
switch of the partition's changed routes; routes that the amendment leaves unchanged keep the previous tag to its end
(log entry 66). -/
def State.stampTag (s : State) (p : Nat) : Byte :=
  if !s.mf.prevLive then s.mf.tag
  else
    match s.mfAux.phases.get (fun _ => RoutePhase.none) p with
    | .switched => s.mf.tag
    | .retired => s.mf.tag
    | _ => s.mf.prevTag

/-- PACKET_INJECT: the logical destination becomes the physical one, and the header is the sender's (R373). -/
def State.inject (s : State) (p : Nat) (pkt : Packet) : State :=
  match s.cfg? p with
  | none => s
  | some c =>
    let dst := physicalOf c.remaps pkt.dst.toNat
    let out := { pkt with dst := BitVec.ofNat 16 dst, src := BitVec.ofNat 16 s.coord,
                          jobTag := BitVec.ofNat 16 (bits s.mf.jobId 15 0), detour := false, tag := s.stampTag p }
    s.forward out none 0 [p]

/-! ## Reductions (R383 to R387) -/

/-- The group of a reduction. -/
def State.groupOf (s : State) (key : RedKey) : Option Group := s.group? key.part.toNat key.group.toNat

/-- A reduction that has not begun. -/
def Reduction.new (key : RedKey) : Reduction :=
  { key := key, tide := false, terms := [], phase := .scale, scales := [], added := [], excused := [], sb := [], blockInvalid := [],
    blockInexact := [], sums := [], class0 := [], wide := [], result := [] }

/-- Excusals that a replayed step's record gives for a group in a phase (R387, R450). -/
def State.recordedExcusals (s : State) (key : RedKey) (phase : Nat) : List (Half × Byte) :=
  if key.step ≠ (s.part key.part.toNat).step then []
  else ((s.replayExcusals key.part.toNat).filter (fun x => decide (x.1 = key.group) && decide (x.2.2.1 = phase))).map
    (fun x => (x.2.1, x.2.2.2))

def State.red (s : State) (key : RedKey) : Reduction :=
  (s.reds.find? (fun r => decide (r.key = key) && !r.tide)).getD
    { Reduction.new key with excused := s.recordedExcusals key 1 }

/-- The tide exchange over a group (R474): no excusal of the group concerns it. -/
def State.tideRed (s : State) (key : RedKey) : Reduction :=
  (s.reds.find? (fun r => decide (r.key = key) && r.tide)).getD { Reduction.new key with tide := true }

/-- A change of a reduction; those of steps that the partition has left are forgotten. -/
def State.setRed (s : State) (r : Reduction) : State :=
  let step := (s.part r.key.part.toNat).step
  let keep := s.reds.filter (fun x => !(decide (x.key = r.key) && decide (x.tide = r.tide))
    && !(decide (x.key.part = r.key.part) && decide (x.key.step < step)))
  { s with reds := keep ++ [r] }

def Group.has (g : Group) (m : Half) : Bool := decide ((m.toNat ^^^ g.base) &&& g.dimMask = m.toNat ^^^ g.base)

/-- The number of the group's shards, also that of its members. -/
def Group.count (g : Group) : Nat := 2 ^ popCount 16 g.dimMask

/-- The member that owns a shard (R383): its mask bits, from the lowest upward, spell the number. -/
def Group.owner (g : Group) (shard : Nat) : Nat :=
  g.base ^^^ ((bitsSet 16 g.dimMask).zipIdx.foldl (fun n bi => if shard.testBit bi.2 then n + 2 ^ bi.1 else n) 0)

def Reduction.isExcused (r : Reduction) (m : Half) : Bool := r.excused.any (fun e => decide (e.1 = m))

/-- Every contribution of the group is in a list, or its member is excused. -/
def Group.allIn (g : Group) (r : Reduction) (got : List (Half × BitVec 3)) : Bool :=
  g.members.all (fun m =>
    let m := BitVec.ofNat 16 m
    r.isExcused m || (List.range g.perDevice).all (fun i => got.contains (m, BitVec.ofNat 3 i)))

/-- A sum group; the class-0 operations are the others (Table 10.10). -/
def Group.sum (g : Group) : Bool := decide (g.op = 1) || decide (g.op = 2)
def Group.blocks (g : Group) : Nat := g.shardElems / 32

/-- The group's Reduce phase has its result here: later instructions go on, and the wait counts as slack (R474). -/
def State.reduced (s : State) (p : Nat) (g : Half) : State :=
  let now := s.hm.time
  s.modSeq p (fun q =>
    let waited := ((q.readyAt.find? (fun x => decide (x.1 = g))).map (fun x => (now.toNat - x.2.toNat) / 100)).getD 0
    if q.reduced.contains g then q
    else { q with reduced := q.reduced ++ [g], slackUs := if q.ownReady.contains g then q.slackUs + waited else q.slackUs })

/-! ### Class 0 (R383) -/

/-- Bytes of an operand (Table 10.10). -/
def class0Size (op : Nat) : Nat := if op = 3 then 1 else if op = 6 then 16 else 4

/-- Two operands combined, element by element. -/
def class0Elem (op a b : Nat) : Nat := if op = 5 then a ||| b else max a b
def class0Combine (op : Nat) (a b : Bytes) : Bytes :=
  let n := class0Size op
  ((chunks n a).zip (chunks n b)).flatMap (fun x => natLe n (class0Elem op (leNat x.1) (leNat x.2)))

/-- An element of a SUM128 operand: none is the invalid pattern of R161. Sums are exact, and only the result is held
against the 128 bits, so that it is free of order (R33, R383). -/
def wideElem (b : Bytes) : Option Int := if leNat b = 2 ^ 127 then none else some (signed 128 (leNat b))
def wideBytes (v : Option Int) : Bytes :=
  match v with
  | some n => natLe 16 (if n ≤ -(2 ^ 127 : Nat) ∨ (2 ^ 127 : Nat) ≤ n then 2 ^ 127 else twos 128 n)
  | none => natLe 16 (2 ^ 127)

/-- A class-0 operand joins those combined so far. -/
def Reduction.join (r : Reduction) (op : Nat) (v : Bytes) : Reduction :=
  if op = 6 then
    let xs := (chunks 16 v).map wideElem
    let sums := if r.added = [] then xs else (r.wide.zip xs).map (fun ab => ab.1.bind (fun a => ab.2.map (a + ·)))
    { r with wide := sums, class0 := sums.flatMap wideBytes }
  else { r with class0 := if r.added = [] then v else class0Combine op r.class0 v }

/-- A class-0 operand of a member is kept and joined. -/
def Reduction.operand (r : Reduction) (op : Nat) (m : Half) (v : Bytes) : Reduction :=
  let i : BitVec 3 := BitVec.ofNat 3 (r.added.filter (fun x => decide (x.1 = m))).length
  { r.join op v with added := r.added ++ [(m, i)], scales := r.scales ++ [(m, i, v)] }

/-- A member's operands are taken as zero (R387), which leaves operations 3 to 6 as the others' operands give them. -/
def Reduction.withoutOperand (r : Reduction) (op : Nat) (m : Half) : Reduction :=
  (r.scales.filter (fun x => decide (x.1 ≠ m))).foldl (fun z x => z.operand op x.1 x.2.2)
    { r with added := [], scales := [], class0 := [], wide := [] }

/-- A MAX8 exchange that has every operand completes its scopes: the peak record of each that this device scaled a part of
is posted, joined with its own part (R147). Element i of the exchange is scope record i (DESIGN CHOICE, log entry 92). -/
def State.peaksDone (s : State) (key : RedKey) (first : Nat) (v : Bytes) : State :=
  let p := key.part.toNat
  let scopes := ((s.cfg? p).map (·.program.scopes)).getD []
  v.zipIdx.foldl (fun s x =>
    match scopes[first + x.2]? with
    | none => s
    | some sc =>
      let mine := fun (r : PeakRec × Nat) => decide (r.1.step = key.step) && decide (r.1.scope.toNat = sc.id)
      match (s.seq p).partials.find? mine with
      | none => s
      | some r => s.modSeq p (fun q =>
          { q with partials := q.partials.filter (fun r => !mine r)
                   arrived := q.arrived ++ [{ r.1 with peak := BitVec.ofNat 8 (max r.1.peak.toNat x.1.toNat) }] })) s

/-- A class-0 operation of the sequencer that has every operand. -/
def State.class0Done (s : State) (key : RedKey) (v : Bytes) : State :=
  let p := key.part.toNat
  let first := key.shard.toNat * ((s.groupOf key).map (·.shardElems)).getD 0
  let s := if (s.seq p).ownReady.contains key.group then s.reduced p key.group else s
  let s := if (s.groupOf key).any (fun g => decide (g.op = 4)) ∧ key.step = (s.part p).step then
      (chunks 4 v).zipIdx.foldl (fun s x => s.noteBound p true (first + x.2) (BitVec.ofNat 32 (leNat x.1))) s
    else s
  match s.groupOf key with
  | some g => if g.op = 3 then s.peaksDone key first v else s
  | none => s

/-- An operand of the tide exchange (R474): three 128-bit sums over the tide group, whatever the group's own operation is.
No operand of the group's own has 48 bytes, as each holds shard_elems, a multiple of 32, elements. -/
def State.isTide (s : State) (key : RedKey) (v : Bytes) : Bool :=
  s.ptAux.tideOn && decide (s.tidePart = key.part.toNat) && decide (s.tideGroup = key.group.toNat) && decide (v.length = 48)

/-- The tide exchange (R474): SUM128 of one operand a member. -/
def State.tideIn (s : State) (key : RedKey) (g : Group) (m : Half) (v : Bytes) : State :=
  let r := s.tideRed key
  if !g.has m ∨ r.added.contains (m, 0) ∨ r.phase = .done then s
  else
    let r := { r.join 6 v with added := r.added ++ [(m, 0)] }
    if g.members.all (fun x => r.added.contains (BitVec.ofNat 16 x, 0)) then
      (s.setRed { r with phase := .done, result := r.class0 }).tideResult
        (leAt r.class0 0 16) (leAt r.class0 16 16) (leAt r.class0 32 16)
    else s.setRed r

/-- A class-0 operation ends with its last operand. -/
def State.class0Ends (s : State) (key : RedKey) (g : Group) (r : Reduction) : State :=
  if g.allIn r r.added then (s.setRed { r with phase := .done, result := r.class0 }).class0Done key r.class0
  else s.setRed r

/-- CLASS0_OPERATION: a member's operand; a member gives per_device of them (Table 10.9). An operand of this device goes on
to the group in its tree. -/
def State.class0 (s : State) (key : RedKey) (m : Half) (v : Bytes) : State :=
  match s.groupOf key with
  | none => s
  | some g =>
    let r := s.red key
    let n := (r.added.filter (fun x => decide (x.1 = m))).length
    if s.isTide key v then s.tideIn key g m v
    else if g.sum ∨ !g.has m ∨ r.isExcused m ∨ r.phase = .done ∨ g.perDevice ≤ n
        ∨ v = [] ∨ v.length % class0Size g.op ≠ 0 ∨ (r.added ≠ [] ∧ v.length ≠ r.class0.length) then s
    else
      let p := key.part.toNat
      let s := if m.toNat = s.me p then s.send p (.class0 key.group key.step key.shard v) else s
      s.class0Ends key g (r.operand g.op m v)

/-! ### Phase 1 (R384) -/

/-- REDUCTION_SCALE_RECEIVE: a contribution's block scales. -/
def State.scaleIn (s : State) (key : RedKey) (m : Half) (i : BitVec 3) (b : Bytes) : State :=
  match s.groupOf key with
  | none => s
  | some g =>
    let r := s.red key
    if !g.sum ∨ !g.has m ∨ g.perDevice ≤ i.toNat ∨ r.isExcused m ∨ r.phase ≠ .scale ∨ b.length ≠ g.blocks
        ∨ r.scales.any (fun x => decide (x.1 = m) && decide (x.2.1 = i)) then s
    else
      let p := key.part.toNat
      let s := s.setRed { r with scales := r.scales ++ [(m, i, b)] }
      if m.toNat = s.me p then s.send p (.reductionScale key.group key.step key.shard i b) else s

/-- S_b of a block: the largest scale but 0xFF, 0 with none. -/
def blockMax (xs : List Nat) : Nat := xs.foldl (fun a x => if x = 255 then a else max a x) 0

/-- The highest dimension of the group in which a member and the shard's owner differ: the exchange in which the member
gives its data of the shard away (R384). -/
def Group.exchange (g : Group) (m owner : Nat) : Option Nat := (bitsSet 16 ((m ^^^ owner) &&& g.dimMask)).getLast?

/-- The exchange of a dimension is the group's first, which carries contributions as they are. -/
def Group.first (g : Group) (d : Nat) : Bool := decide ((bitsSet 16 g.dimMask).getLast? = some d)

/-- The members whose data a member has gathered before the exchange of a dimension: those that agree with it there and
below. -/
def Group.gathered (g : Group) (m d : Nat) : List Nat :=
  g.members.filter (fun x => decide (((x ^^^ m) &&& g.dimMask) % 2 ^ (d + 1) = 0))

/-- Every contribution of some members is in, or the member is excused. -/
def Group.inOf (g : Group) (r : Reduction) (ms : List Nat) : Bool :=
  ms.all (fun m =>
    let m := BitVec.ofNat 16 m
    r.isExcused m || (List.range g.perDevice).all (fun i => r.added.contains (m, BitVec.ofNat 3 i)))

/-- Flag bytes of a partial (R384): bit 0 invalid, bit 1 inexact. -/
def Reduction.flagBytes (r : Reduction) : Bytes :=
  (r.blockInvalid.zip r.blockInexact).map (fun x => BitVec.ofNat 8 (b2n x.1 + 2 * b2n x.2))

/-- The exchange that this device's engine gives a shard away in; none at the shard's owner, and for a device that is no
member. -/
def State.exchange (s : State) (key : RedKey) (g : Group) : Option Nat :=
  let me := s.me key.part.toNat
  if g.has (BitVec.ofNat 16 me) then g.exchange me (g.owner key.shard.toNat) else none

/-- The engine forwards its combination once all that it gathers is in (R384): in the first exchange the contributions
have gone as they came; a later one carries P48. The reduction is then over here. -/
def State.forwardRed (s : State) (key : RedKey) (g : Group) : State :=
  let r := s.red key
  let p := key.part.toNat
  match s.exchange key g with
  | none => s
  | some d =>
    if r.phase ≠ .add ∨ !g.inOf r (g.gathered (s.me p) d) then s
    else
      let toward := BitVec.ofNat 16 (s.me p ^^^ 2 ^ d)
      let s := s.setRed { r with phase := .done }
      if g.first d then s
      else s.send p (.partialSum key.group key.step key.shard toward ((r.added.filter (fun x => decide (x.2 = 0))).map (·.1))
        r.sums r.flagBytes)

/-- The registers of the add phase with no term in them. A block whose scales are all 0xFF is invalid (R384). -/
def Reduction.cleared (r : Reduction) (g : Group) : Reduction :=
  let bs := List.range g.blocks
  { r with
    blockInvalid := bs.map (fun b => r.scales.all (fun x => decide ((x.2.2.getD b 0).toNat = 255))),
    blockInexact := bs.map (fun _ => false), sums := List.replicate g.shardElems 0, terms := [] }

/-- REDUCTION_SCALE_PHASE_CLOSE: every contribution's scales are present, or its member excused. A block with a scale
of 0xFF holds invalid elements (R143), and is invalid. -/
def State.scaleClose (s : State) (key : RedKey) : State :=
  match s.groupOf key with
  | none => s
  | some g =>
    let r := s.red key
    let got := r.scales.map (fun x => (x.1, x.2.1))
    if !g.sum ∨ r.phase ≠ .scale ∨ !g.allIn r got then s
    else
      let of_ := fun b => r.scales.map (fun x => (x.2.2.getD b 0).toNat)
      let s := s.setRed { r.cleared g with
        phase := .add, excused := r.excused ++ s.recordedExcusals key 2,
        sb := (List.range g.blocks).map (fun b => BitVec.ofNat 8 (blockMax (of_ b))) }
      s.forwardRed key g

/-! ### Phase 2 (R385) -/

/-- One element as a term in units of u: the integer, whether bits were lost, whether it is invalid. -/
def redTerm (g8 : Bool) (sb scale code : Nat) : Int × Bool × Bool :=
  if scale = 255 then (0, false, true)
  else if g8 then
    match decodeNarrow fmtG8 code with
    | .fin n m e =>
      let (k, lost) := cutTo n m (e + (scale : Int) - 127) ((sb : Int) - 143)
      (k, lost, false)
    | _ => (0, false, true)
  else
    let m := signed 16 code
    let (k, lost) := cutTo (decide (m < 0)) m.natAbs ((scale : Int) - 142) ((sb : Int) - 158)
    (k, lost, false)

/-- A contribution is added: its 32 terms of block b. -/
def Reduction.addBlock (r : Reduction) (g8 : Bool) (scales elems : Bytes) (acc : Reduction × Nat) (b : Nat) :
    Reduction × Nat :=
  let size := if g8 then 1 else 2
  let sb := (r.sb.getD b 0).toNat
  let scale := (scales.getD b 0).toNat
  let ts := (List.range 32).map (fun i => redTerm g8 sb scale (leAt elems ((32 * b + i) * size) size))
  let cuts := (ts.filter (fun t => t.2.1)).length
  let bad := ts.any (fun t => t.2.2)
  let x := acc.1
  let new := ((x.sums.drop (32 * b)).take 32).zip ts |>.map (fun vt => vt.1 + BitVec.ofInt 48 vt.2.1)
  ({ x with sums := x.sums.take (32 * b) ++ new ++ x.sums.drop (32 * b + 32),
            blockInvalid := modifyAt x.blockInvalid b (· || bad),
            blockInexact := modifyAt x.blockInexact b (· || decide (cuts ≠ 0)) }, acc.2 + cuts)

/-- A term is added to the registers: what it makes of them, and how many of its elements are cut. -/
def Reduction.addTerm (r : Reduction) (g : Group) (t : RedTerm) : Reduction × Nat :=
  let (r, cuts) : Reduction × Nat := match t with
    | .contribution _ _ scales elems =>
      (List.range g.blocks).foldl (r.addBlock (decide (g.op = 2)) scales elems) (r, 0)
    | .partialSum _ sums flags =>
      ({ r with
          sums := (r.sums.zip sums).map (fun ab => ab.1 + ab.2)
          blockInvalid := (r.blockInvalid.zip flags).map (fun bf => bf.1 || bit bf.2 0)
          blockInexact := (r.blockInexact.zip flags).map (fun bf => bf.1 || bit bf.2 1) }, 0)
  ({ r with terms := r.terms ++ [t] }, cuts)

/-- The member of a contribution. -/
def termOf (m : Half) : RedTerm → Bool
  | .contribution n _ _ _ => decide (n = m)
  | .partialSum _ _ _ => false

/-- A member's contribution is taken as zero (R387): the terms of it that are in the registers go out of them again; its
scales stay in S_b. A partial of other devices keeps what they added. -/
def Reduction.without (r : Reduction) (g : Group) (m : Half) : Reduction :=
  (r.terms.filter (fun t => !termOf m t)).foldl (fun r t => (r.addTerm g t).1) (r.cleared g)

/-- The exchange in which an own contribution leaves as it came. -/
def State.leavesRaw (s : State) (key : RedKey) (g : Group) (m : Half) : Option Nat :=
  if m.toNat = s.me key.part.toNat then (s.exchange key g).filter (fun d => g.first d) else none

/-- REDUCTION_CONTRIBUTION_RECEIVE: a contribution, or a partial of other devices with its flags. An own contribution that
leaves in the first exchange goes to the neighbour as it is, and is aligned and added there. -/
def State.termIn (s : State) (key : RedKey) (t : RedTerm) : State :=
  match s.groupOf key with
  | none => s
  | some g =>
    let r := s.red key
    if !g.sum ∨ r.phase ≠ .add then s
    else
      match t with
      | .contribution m i scales elems =>
        if !g.has m ∨ g.perDevice ≤ i.toNat ∨ r.isExcused m ∨ r.added.contains (m, i) ∨ scales.length ≠ g.blocks
            ∨ elems.length ≠ g.shardElems * (if g.op = 2 then 1 else 2) then s
        else
          match s.leavesRaw key g m with
          | some d =>
            let s := s.send key.part.toNat (.contribution key.group key.step key.shard (m ^^^ BitVec.ofNat 16 (2 ^ d)) i
              scales elems)
            (s.setRed { r with added := r.added ++ [(m, i)] }).forwardRed key g
          | none =>
            let (r', cuts) := r.addTerm g t
            let s := s.modKx (fun x => { x with redInexact := satAdd x.redInexact cuts })
            (s.setRed { r' with added := r.added ++ [(m, i)] }).forwardRed key g
      | .partialSum ms sums flags =>
        let all := ms.flatMap (fun m => (List.range g.perDevice).map (fun i => (m, BitVec.ofNat 3 i)))
        if ms = [] ∨ ms.any (fun m => !g.has m) ∨ all.any (fun x => r.added.contains x) ∨ sums.length ≠ g.shardElems
            ∨ flags.length ≠ g.blocks then s
        else
          (s.setRed { (r.addTerm g t).1 with added := r.added ++ all }).forwardRed key g

/-! ### Phases 3 and 4 (R386) -/

/-- The result of a block: its scale and its elements' codes. -/
def Reduction.roundBlock (r : Reduction) (g8 : Bool) (b : Nat) : Nat × List Nat :=
  let f := if g8 then Fmt.g8 else Fmt.x16
  let u := ((r.sb.getD b 0).toNat : Int) - (if g8 then 143 else 158)
  let bad := r.blockInvalid.getD b false
  let vs := ((r.sums.drop (32 * b)).take 32).map (fun v => Val.ofInt v.toInt u)
  let (scale, k) := if bad then (255, 0) else blockScale f vs
  (scale, vs.map (fun v => (quantElem f .nearest scale k v).1))

/-- REDUCTION_ROUND: the owner rounds once, and the shard goes to its compute die and the mirror partner. -/
def State.round (s : State) (key : RedKey) : State :=
  match s.groupOf key with
  | none => s
  | some g =>
    let p := key.part.toNat
    let r := s.red key
    if !g.sum ∨ r.phase ≠ .add ∨ g.owner key.shard.toNat ≠ s.me p ∨ !g.allIn r r.added then s
    else
      let g8 := decide (g.op = 2)
      let out := (List.range g.blocks).map (r.roundBlock g8)
      let bytes := out.map (fun x => BitVec.ofNat 8 x.1) ++ out.flatMap (fun x => x.2.flatMap (natLe (if g8 then 1 else 2)))
      let bad := (out.zipIdx.filter (fun x => decide (x.1.1 = 255))).map (·.2)
      let s := s.setRed { r with phase := .done, result := bytes }
      let s := match bad with
        | [] => s
        | b :: _ =>
          let s := s.modKx (fun x => { x with redInvalid := satAdd x.redInvalid bad.length })
          (s.countKept p 3 (32 * bad.length)).raiseFabric 0x600D (some p)
            (wordLe 2 key.group ++ wordLe 8 key.step ++ natLe 4 b)
      let s := if (s.mirror? p).isSome then s.send p (.reducedShard key.group key.step key.shard bytes) else s
      s.reduced p key.group

/-! ### Excusals (R387, R442) -/

/-- The body's place after a group's REDUCE. -/
def State.afterReduce (s : State) (p : Nat) (g : Half) : Nat :=
  match indexOf? (fun i => decide (i.op = 6) && decide (i.a = g.toNat)) (s.bodyOf p) with
  | some i => i + 1
  | none => (s.seq p).pc

/-- This device is excused (R442). Drop: its outstanding tiles are cancelled, its sum images cleared, and the step goes on
after the group's REDUCE. Late fold: its micro-batches complete under the step, and REDUCE is passed over. -/
def State.selfExcused (s : State) (p : Nat) (key : RedKey) (action : Byte) : State :=
  let pay := wordLe 2 key.group ++ wordLe 8 key.step
  if action = 0 then
    let s := (((s.withdraw p).cancelStep p key.step).dropReaders p key.step).clearSums p
    let s := (s.modPart p (fun x => { x with drops := satAdd x.drops 1 })).countLading p 4
    let at_ := s.afterReduce p key.group
    let s := s.modSeq p (fun q => if q.pc < at_ then { q with pc := at_, loops := [], waitsData := none } else q)
    s.raiseJr 0x400C p pay
  else
    let first := decide ((s.log p).lateOrigin ≠ some key.step)
    let s := s.modPart p (fun x => { x with latePending := true })
    let s := s.modLog p (fun l =>
      { l with lateOrigin := some key.step,
               lateGroups := if l.lateGroups.contains key.group then l.lateGroups else l.lateGroups ++ [key.group] })
    if first then s.keepSums p else s

/-- EXCUSAL_RECEIVE: an engine applies the excusal, in phase 1 or 2, and reports it; the member itself acts on it. A
member that is ready is not excused. -/
def State.excusal (s : State) (key : RedKey) (m : Half) (action : Byte) (engine : Half) : State :=
  match s.groupOf key with
  | none => s
  | some g =>
    let p := key.part.toNat
    let r := s.red key
    let me := decide (m.toNat = s.me p)
    let q := s.seq p
    let ready := (me && q.ownReady.contains key.group)
      || q.ready.any (fun x => decide (x.1 = key.step) && decide (x.2.1 = key.group) && decide (x.2.2 = m))
    if !g.has m ∨ r.isExcused m ∨ r.phase = .done ∨ ready then s
    else
      let phase := if r.phase = .scale then 1 else 2
      let r := if !g.sum then r.withoutOperand g.op m
        else if r.phase = .scale then { r with scales := r.scales.filter (fun x => decide (x.1 ≠ m)) }
        else r.without g m
      let r := { r with excused := r.excused ++ [(m, action)] }
      let s := if g.sum then (s.setRed r).forwardRed key g else s.class0Ends key g r
      let s := s.modKx (fun x => { x with redExcused := satAdd x.redExcused 1 })
      let s := s.raiseFabric 0x600E (some p) (wordLe 2 key.group ++ wordLe 8 key.step ++ wordLe 2 m ++ natLe 1 phase)
      let s := (s.addRecord p recExcusal
        (wordLe 2 key.group ++ wordLe 2 m ++ natLe 1 phase ++ [action] ++ wordLe 2 engine)).countLading p 2
      let known := q.excused.any (fun x => decide (x.1 = key.group) && decide (x.2.1 = m))
      let s := if known then s
        else s.modSeq p (fun q => q.excuse key.step [(key.group, m, action)])
      if me && !known && decide (key.step = (s.part p).step) then s.selfExcused p key action else s

/-! ## The commands -/

/-- PACKET_INJECT (R373). -/
def execPacketInject (p : BitVec 6) (pkt : Packet) (s : State) : Out := .next (s.inject p.toNat pkt)

/-- PACKET_FORWARD (R374). -/
def execPacketForward (pkt : Packet) (ingress : Option (BitVec 4)) (hopNs : Word) (s : State) : Out :=
  .next (s.forward pkt (ingress.map BitVec.toNat) hopNs.toNat (s.jobParts pkt))

/-- CLASS0_OPERATION (R383). -/
def execClass0Operation (key : RedKey) (member : Half) (value : Bytes) (s : State) : Out :=
  .next (s.class0 key member value)

/-- REDUCTION_SCALE_RECEIVE (R384). -/
def execReductionScaleReceive (key : RedKey) (member : Half) (idx : BitVec 3) (scales : Bytes) (s : State) : Out :=
  .next (s.scaleIn key member idx scales)

/-- REDUCTION_SCALE_PHASE_CLOSE (R384). -/
def execReductionScalePhaseClose (key : RedKey) (s : State) : Out := .next (s.scaleClose key)

/-- REDUCTION_CONTRIBUTION_RECEIVE (R385). -/
def execReductionContributionReceive (key : RedKey) (term : RedTerm) (s : State) : Out := .next (s.termIn key term)

/-- REDUCTION_ROUND (R386). -/
def execReductionRound (key : RedKey) (s : State) : Out := .next (s.round key)

/-- EXCUSAL_RECEIVE (R387). -/
def execExcusalReceive (key : RedKey) (member : Half) (action : Byte) (engine : Half) (s : State) : Out :=
  .next (s.excusal key member action engine)

end Sys2Proof.Machine
end

