-- ==== Sys2Proof/Machine/Egress.lean ====
section
/-!
DEFINITION. The egress of the Kraek ports (R360, R363, R378 to R380): which packet a port sends next, flit by flit, the
shaping of class-0 traffic, the room of the virtual channels at the far end, and the way between link dies. It runs in
the ticks of local time, 10 ns each (log entry 82).
-/

namespace Sys2Proof.Machine

/-! ## Packets as flits (R363, Table 10.3) -/

/-- A packet's header and payload. -/
def packetBytes (x : Packet) : Bytes :=
  natLe 16 (x.dst.toNat + x.src.toNat * 2 ^ 16 + x.jobTag.toNat * 2 ^ 32 + x.vc.toNat * 2 ^ 48 + b2n x.detour * 2 ^ 51
      + x.kind.toNat * 2 ^ 52 + x.tag.toNat * 2 ^ 56 + x.payload.length * 2 ^ 64 + x.stream.toNat * 2 ^ 76
      + x.seq.toNat * 2 ^ 92)
    ++ x.payload

/-- The bytes of a flit on the wire. -/
def flitBytes : Nat := 256

/-- What a packet costs a shaper, in 1/256 of a byte. -/
def shapeCost (x : Packet) : Nat := packetFlits x * flitBytes * 256

/-- A class-0 packet is at most 256 bytes (R364), so at most two flits. -/
def class0Cost : Nat := 2 * flitBytes * 256

/-! ## The order of service (R380) -/

/-- Where a packet stands in the order: 0 for VC 0 and VC 5, 1 for transit class 0, and 2 to 4 for the weighted classes 1,
2 and transit. -/
def serviceClass (x : Packet) : Nat :=
  match x.vc.toNat with
  | 0 => 0
  | 5 => 0
  | 1 => 1
  | 2 => 2
  | 3 => 3
  | 6 => if x.kind = 6 then 3 else 2
  | 7 => if packetClass0 x then 1 else 4
  | _ => 4

/-- The share of a weighted class (R379). -/
def TrafficRec.share (t : TrafficRec) (c : Nat) : Nat :=
  match c with
  | 2 => t.c1Share
  | 3 => t.c2Share
  | _ => t.transitShare

/-- The weighted round robin: whose turn it is among the classes that have something to send, and the turn after one unit
of service; a class without a share is served when no other has anything. -/
def Turn.serve (t : Turn) (rec : TrafficRec) (has : Nat → Bool) (cost : Nat → Nat) : Option (Nat × Turn) :=
  if t.left ≠ 0 ∧ has t.cls then some (t.cls, { t with left := t.left - cost t.cls })
  else
    let order := [(t.cls - 1) % 3 + 2, t.cls % 3 + 2, (t.cls + 1) % 3 + 2]
    match order.find? (fun c => has c && decide (rec.share c ≠ 0)) with
    | some c => some (c, { cls := c, left := rec.share c - cost c })
    | none => ([2, 3, 4].find? has).map (fun c => (c, t))

/-- The packets at the heads of the virtual channels: those begun, and of each other channel the oldest that `may` enter
it. -/
def vcHeads (begun queue : List Packet) (may : Packet → Bool) : List Packet :=
  queue.foldl (fun hs x => if hs.any (fun y => decide (y.vc = x.vc)) ∨ !may x then hs else hs ++ [x]) begun

/-- The packet that is served next among those that can be, and the turn after it. -/
def pickPacket (t : Turn) (rec : TrafficRec) (can : List Packet) (cost : Packet → Nat) : Option (Packet × Turn) :=
  match can.find? (fun x => decide (serviceClass x = 0)) with
  | some x => some (x, t)
  | none =>
    match can.find? (fun x => decide (serviceClass x = 1)) with
    | some x => some (x, t)
    | none =>
      let of_ := fun c => can.find? (fun x => decide (serviceClass x = c))
      match t.serve rec (fun c => (of_ c).isSome) (fun c => ((of_ c).map cost).getD 0) with
      | some (c, t) => (of_ c).map (fun x => (x, t))
      | none => none

/-! ## Rates and room -/

/-- The bytes that a link sends in a tick: 16 GB/s of each data lane that transmits (R358). -/
def Link.tickBytes (l : Link) : Nat := 160 * lanesLeft l.badTx

/-- The room of a virtual channel at the far end of each lane, in KiB (Table 10.7, R379). -/
def vcRoom (t : TrafficRec) (vc : Nat) : Nat :=
  let total := t.c1Share + t.c2Share + t.transitShare
  let part := fun n => if total = 0 then 0 else 82 * n / total
  match vc with
  | 0 => 6
  | 2 => 82 - part t.c2Share - part t.transitShare
  | 3 => part t.c2Share
  | 4 => part t.transitShare
  | _ => 2

/-- The link has room for a flit of a virtual channel. -/
def Link.hasRoom (l : Link) (t : TrafficRec) (vc : Nat) : Bool :=
  decide (l.inFlight.get (fun _ => 0) vc < vcRoom t vc * 4 * lanesLeft l.badTx)

def State.portEgress (s : State) (n : Nat) : PortEgress := s.kx.ports.get (fun _ => PortEgress.zero) n
def State.modEgress (s : State) (n : Nat) (f : PortEgress → PortEgress) : State :=
  s.modKx (fun x => { x with ports := x.ports.modify (fun _ => PortEgress.zero) n f })

/-- The TRAFFIC_CLASSES record of a port. -/
def State.trafficOf (s : State) (n : Nat) : TrafficRec :=
  (s.mfAux.dev.traffic.find? (fun t => decide (t.port = n))).getD
    { port := n, c0Limit := 0, c1Share := 0, c2Share := 0, transitShare := 0, transitCtl := 0 }

/-! ## One flit -/

/-- Own traffic of classes 1 and 2, which the Kraek rate limits (R461). -/
def State.ownBulk (s : State) (x : Packet) : Bool := s.ownTraffic x && within 2 3 (serviceClass x)

/-- The percent of its bytes at which a link lets that traffic out, and whether some link of a port is below 100. -/
def State.kraekPercent (s : State) (k : Nat) : Nat := s.ptAux.kraekRate.get (fun _ => 100) k
def State.bulkLimited (s : State) (n : Nat) : Bool :=
  s.mfAux.dev.ports.any (fun r => decide (r.port = n) && (s.activeLinks r).any (fun k => decide (s.kraekPercent k < 100)))

/-- The shaping lets a packet begin: this device's own class-0 packets within c0_limit with a burst of two packets, and
transit class 0 within transit_ctl with one (R380); its own classes 1 and 2 within the Kraek rate (R461). -/
def State.ownShaped (s : State) (e : PortEgress) (x : Packet) : Bool :=
  (!(decide (serviceClass x = 0) && decide (x.src.toNat = s.coord)) || decide (e.ownDebt + shapeCost x ≤ 2 * class0Cost))
    && (!s.ownBulk x || decide (e.bulkDebt = 0))
def PortEgress.transitShaped (e : PortEgress) (t : TrafficRec) (x : Packet) : Bool :=
  decide (serviceClass x ≠ 1) || e.begun.any (fun b => decide (b.1 = x))
    || (decide (t.transitCtl ≠ 0) && decide (e.transitDebt + shapeCost x ≤ class0Cost))

/-- The packets at the heads of a port's channels. -/
def State.portHeads (s : State) (n : Nat) : List Packet :=
  let e := s.portEgress n
  vcHeads (e.begun.map (·.1)) ((s.kx.egress.filter (fun x => decide (x.1.toNat = n))).map (·.2)) (s.ownShaped e)

/-- The links of a port in the order in which they take flits (R360). -/
def State.linkOrder (s : State) (r : PortRec) : List Nat :=
  let ks := s.activeLinks r
  let e := s.portEgress r.port
  ks.filter (fun k => decide (e.next ≤ k)) ++ ks.filter (fun k => decide (k < e.next))

/-- A flit of a packet goes out on a link. -/
def State.sendFlit (s : State) (k : Nat) (x : Packet) (i : Nat) : State :=
  let s := s.modLink k (fun l =>
    { l with txSeq := l.txSeq + 1,
             kept := l.kept ++ [{ seq := l.txSeq, vc := x.vc, payload := slice (packetBytes x) (240 * i) 240 }],
             inFlight := l.inFlight.modify (fun _ => 0) x.vc.toNat (· + 1) })
  let s := s.modLinkCtr k (fun c => { c with txFlits := c.txFlits + 1 })
  if s.ownTraffic x then s else s.modKx (fun y => { y with transitFlits := y.transitFlits + 1 })

/-- A kept flit goes out on its link again (R363). -/
def State.resendFlit (s : State) (k : Nat) : State :=
  (s.modLink k (fun l => { l with resend := l.resend.drop 1 })).modLinkCtr k (fun c => { c with txFlits := c.txFlits + 1 })

/-- The first of a port's links that has flits to send again. -/
def State.resending (s : State) (r : PortRec) : Option Nat := (s.linkOrder r).find? (fun k => decide ((s.link k).resend ≠ []))

/-- The packet begins: it leaves the queue, and its shaper is charged. -/
def State.beginPacket (s : State) (n : Nat) (x : Packet) : State :=
  if (s.portEgress n).begun.any (fun b => decide (b.1 = x)) then s
  else
    let own := decide (serviceClass x = 0) && decide (x.src.toNat = s.coord)
    let bulk := s.ownBulk x && s.bulkLimited n
    let s := s.modKx (fun y => { y with egress := y.egress.erase (BitVec.ofNat 4 n, x) })
    s.modEgress n (fun e =>
      { e with begun := e.begun ++ [(x, 0)], ownDebt := if own then e.ownDebt + shapeCost x else e.ownDebt,
               bulkDebt := if bulk then e.bulkDebt + shapeCost x else e.bulkDebt,
               transitDebt := if serviceClass x = 1 then e.transitDebt + shapeCost x else e.transitDebt })

/-- One flit of a packet is served by a link; the packet's last one takes it away. -/
def State.serveFlit (s : State) (r : PortRec) (k : Nat) (x : Packet) (t : Turn) : State :=
  let n := r.port
  let s := s.beginPacket n x
  let i := (((s.portEgress n).begun.find? (fun b => decide (b.1 = x))).map (·.2)).getD 0
  let last := decide (packetFlits x ≤ i + 1)
  let s := s.sendFlit k x i
  let s := s.modEgress n (fun e =>
    { e with budget := e.budget - flitBytes, turn := t, next := k + 1,
             begun := if last then e.begun.filter (fun b => decide (b.1 ≠ x))
                      else e.begun.map (fun b => if b.1 = x then (x, i + 1) else b) })
  if last then s.modKx (fun y => { y with wire := y.wire ++ [(BitVec.ofNat 4 n, x)] }) else s

/-- A flit is held for want of credit: every active link counts the tick's cycles of the 2.0 GHz core (KX_CREDIT_STALL). -/
def State.stalled (s : State) (r : PortRec) : State :=
  (s.activeLinks r).foldl (fun s k => s.modLinkCtr k (fun c => { c with creditStall := satAdd c.creditStall 20 })) s

/-- Flits of a port while its bytes of the tick last: those that are sent again before any other. -/
def State.servePort (r : PortRec) : Nat → State → State
  | 0, s => s
  | fuel + 1, s =>
    let e := s.portEgress r.port
    if e.budget < flitBytes then s
    else match s.resending r with
    | some k => State.servePort r fuel
        ((s.resendFlit k).modEgress r.port (fun e => { e with budget := e.budget - flitBytes, next := k + 1 }))
    | none =>
      let t := s.trafficOf r.port
      let ready := (s.portHeads r.port).filter (e.transitShaped t)
      let roomFor := fun (x : Packet) => (s.linkOrder r).find? (fun k => (s.link k).hasRoom t x.vc.toNat)
      match pickPacket e.turn t (ready.filter (fun x => (roomFor x).isSome)) (fun _ => 1) with
      | some (x, turn) =>
        (match roomFor x with
        | some k => State.servePort r fuel (s.serveFlit r k x turn)
        | none => s)
      | none =>
        let s := s.modEgress r.port (fun e => { e with budget := 0 })
        if ready = [] then s else s.stalled r

/-- A tick of a port: its links' bytes, its shapers' rates, and what it serves. One without an active link waits. -/
def State.portTick (s : State) (r : PortRec) : State :=
  let rate := ((s.activeLinks r).map (fun k => (s.link k).tickBytes)).sum
  let t := s.trafficOf r.port
  let bulk := ((s.activeLinks r).map (fun k => (s.link k).tickBytes * s.kraekPercent k * 256 / 100)).sum
  let s := s.modEgress r.port (fun e =>
    { e with bulkDebt := e.bulkDebt - bulk, budget := if s.portHeads r.port = [] ∧ s.resending r = none then 0 else e.budget + rate,
             ownDebt := e.ownDebt - t.c0Limit * rate, transitDebt := e.transitDebt - t.transitCtl * rate })
  State.servePort r (rate / flitBytes + 1) s

/-! ## Between link dies -/

/-- Packets cross to a port of another link die while the bytes of the tick last: class 0 first, the others by the same
shares, each in the order of its channel. -/
def State.serveRelay (n : Nat) : Nat → State → State
  | 0, s => s
  | fuel + 1, s =>
    let e := s.portEgress n
    let waiting := (s.kx.relay.filter (fun x => decide (x.1.toNat = n))).map (·.2)
    match pickPacket e.relayTurn (s.trafficOf n) (vcHeads [] waiting (fun _ => true)) packetFlits with
    | none => s.modEgress n (fun e => { e with relayBudget := 0 })
    | some (x, turn) =>
      let size := 16 + x.payload.length
      if e.relayBudget < size then s
      else
        let entry := (BitVec.ofNat 4 n, x)
        let s := s.modKx (fun y => { y with relay := y.relay.erase entry, egress := y.egress ++ [entry] })
        State.serveRelay n fuel (s.modEgress n (fun e => { e with relayBudget := e.relayBudget - size, relayTurn := turn }))

/-- A tick of the way to a port: 128 GB/s of a link-die port (Table 1.4). -/
def State.relayTick (s : State) (n : Nat) : State :=
  if !s.kx.relay.any (fun x => decide (x.1.toNat = n)) then s
  else State.serveRelay n 81 (s.modEgress n (fun e => { e with relayBudget := e.relayBudget + 1280 }))

/-- A tick of the fabric's ports. -/
def State.fabricTick (s : State) : State :=
  s.mfAux.dev.ports.foldl (fun s r => (s.relayTick r.port).portTick r) s

end Sys2Proof.Machine
end

