-- ==== Sys2Proof/Machine/Net.lean ====
section
/-!
DEFINITION. The Ethernet port (R390 to R397, R418): the link, which frames are taken, answered, passed through or
dropped, priorities and their pauses, MACsec in both directions (R396, R512), and the closing of sessions (R406).
-/

namespace Sys2Proof.Machine

/-! ## Addresses and fields -/

/-- Where the EtherType stands: behind one 802.1Q tag, if there is one. -/
def typeAt (f : Bytes) : Nat := if beAt f 12 2 = etVlan then 16 else 12
def etherType (f : Bytes) : Nat := beAt f (typeAt f) 2
def frameBody (f : Bytes) : Bytes := f.drop (typeAt f + 2)

/-- The priority of a received frame (R392): the PCP of its tag, else DSCP bits [5:3] of an IP frame, else 0. -/
def rxPriority (f : Bytes) : Nat :=
  let b := frameBody f
  if beAt f 12 2 = etVlan then beAt f 14 2 / 2 ^ 13
  else if etherType f = etIp4 then beAt b 1 1 / 32
  else if etherType f = etIp6 then beAt b 0 2 / 16 % 256 / 32
  else 0

/-! ## MACsec (R396, R512) -/

/-- A frame dropped under R396. -/
def State.macsecDrop (s : State) : State :=
  (s.modGwAux (fun a => { a with macsecDrops := satAdd a.macsecDrops 1 })).gwError 2

/-- How a received frame stands to MACsec: whether it goes on. The first failed check of a peer after its key was
installed raises 0x5004. DESIGN CHOICE: a peer's MAC address is kept, and stands in an event's payload and in the arguments
of INSTALL_SAK, as its bytes on the wire, first byte first (log entry 84). -/
def State.macsecIn (s : State) (f : Bytes) (x : MacsecRx) : Bool × State :=
  match x with
  | .plain =>
    let secured := match s.peerOf (slice f 6 6) with
      | some (_, y) => y.secured
      | none => false
    if secured || decide (etherType f = etMacsec) then (false, s.macsecDrop) else (true, s)
  | .secured i an ok fresh =>
    let y := s.peer i.toNat
    if ok && fresh && y.keys.any (fun k => decide (k.an = an)) then (true, s)
    else
      let s := s.macsecDrop
      if y.dropSeen then (false, s)
      else (false, (s.modPeer i.toNat (fun y => { y with dropSeen := true })).raiseGw 0x5004 none (padTo 6 y.mac))

/-! ## Sending (R392 to R394, R418) -/

/-- The destination of PFC frames and their body: the priority's bit and a pause time in quanta. -/
def pfcAddress : Bytes := [0x01, 0x80, 0xC2, 0x00, 0x00, 0x01]
def pfcFrame (prio time : Nat) : Bytes :=
  shortPad (pfcAddress ++ ownMac ++ natBe 2 etMacControl ++ natBe 2 0x0101 ++ natBe 2 (2 ^ prio)
    ++ (List.range 8).flatMap (fun i => natBe 2 (if i = prio then time else 0)))

/-- A PFC frame goes out; the pause time of an XOFF is not given: free (log entry 9). -/
def State.sendPfc (s : State) (prio : Nat) (xoff : Bool) : State :=
  let (v, s) := s.draw
  let f := pfcFrame prio (if xoff then v % 65535 + 1 else 0)
  s.modGwAux (fun a => { a with tx := a.tx ++ [(BitVec.ofNat 3 prio, f)], txFrames := a.txFrames + 1 })

/-- What a priority's buffer holds after some time, in which `bytes` came in: how fast it empties is not given, so anything up
to what it held and those (log entry 49). Crossing 6 MiB sends XOFF, falling below 4 MiB XON (R394). -/
def State.buffered (s : State) (prio bytes : Nat) : State :=
  let (v, s) := s.draw
  let x := s.prio prio
  let held := min (v % (x.held + bytes + 1)) (24 * mib)
  let s := s.modPrio prio (fun x => { x with held := held })
  if s.pfcOn prio && decide (6 * mib < held) && !x.xoff then
    (s.modPrio prio (fun x => { x with xoff := true })).sendPfc prio true
  else if x.xoff && decide (held < 4 * mib) then
    (s.modPrio prio (fun x => { x with xoff := false })).sendPfc prio false
  else s

/-- A buffer whose priority the peer was told to stop empties with time (R394). -/
def State.drainTick (s : State) : State :=
  (List.range 8).foldl (fun s n => if (s.prio n).xoff then s.buffered n 0 else s) s

/-- A priority is paused or goes on (R394). -/
def State.setPaused (s : State) (prio : Nat) (v : Bool) : State :=
  s.modPrio prio (fun x => if v then { x with paused := true } else { x with paused := false, stuck := false })

/-- A received pause, obeyed for priorities whose PFC bit is set; what waited for the others is sent (R394). -/
def State.pfcIn (s : State) (b : Bytes) : State :=
  let s := s.modGwAux (fun a => { a with pfcRxPause := satAdd a.pfcRxPause 1 })
  let on := beAt b 2 2
  ((List.range 8).foldl (fun s i =>
    if on.testBit i ∧ s.pfcOn i then s.setPaused i (decide (beAt b (4 + 2 * i) 2 ≠ 0)) else s) s).flushTx

/-- PFC_STUCK: a priority is paused for 100 ms (R394). -/
def State.pfcStuck (s : State) (prio : Nat) : State :=
  let x := s.prio prio
  if !x.paused ∨ x.stuck then s
  else ((s.modPrio prio (fun x => { x with stuck := true })).gwError 1).raiseGw 0x5003 none (natLe 1 prio)

/-! ## Registers (R395, R418) -/

/-- The shares are applied when they sum to 100 over the classes that use ETS (R395). -/
def State.applyEts (s : State) : State :=
  let g := s.gw
  let sum := ((List.range 8).filter (fun t => !bit g.prioCfg (8 + t))).foldl (fun n t => n + etsShare g.etsLo g.etsHi t) 0
  if sum = 100 then s.modGw (fun g => { g with etsLoApplied := g.etsLo, etsHiApplied := g.etsHi }) else s

def State.setPrioCfg (s : State) (value : Word) : State :=
  (s.modGw (fun g => { g with prioCfg := value &&& 0x01FFFFFF })).applyEts

def State.setEts (s : State) (hi : Bool) (value : Word) : State :=
  (s.modGw (fun g => if hi then { g with etsHi := value } else { g with etsLo := value })).applyEts

/-! ## Sessions and the link (R390, R397, R406, R409) -/

/-- A session closes: the bytes that it put into the Manifest slot stay (R409). -/
def State.closeSession (s : State) (n : Nat) : State :=
  let s := s.modSession n (fun _ => Session.closed)
  if s.mf.owner.any (fun o => decide (o.toNat = n)) then s.modMf (fun m => { m with owner := none }) else s

def State.closeSessions (s : State) (f : Session → Bool) : State :=
  ((s.gw.sessions.filter (fun (e : Nat × Session) => e.2.isOpen && f e.2)).map (·.1)).foldl State.closeSession s

/-- SESSION_TIMEOUT (R406). -/
def State.sessionExpires (s : State) (n : Nat) : State :=
  if !(s.session n).isOpen then s else (s.closeSession n).raiseGw 0x5006 none (natLe 2 n)

/-- The Ethernet port can be trained: by the Gateway, or by the boot ROM for network recovery (R504). -/
def State.ethUsable (s : State) : Bool :=
  !s.supply.ethLost && !s.dead gwIndex
    && (s.ready readyGateway || decide (s.boot.phase = .recovery) || decide (s.boot.phase = .abandoned))

/-- ETH_LINK_UP: FEC mode 1 is the only one (R390); the training is the port's last successful one (R532);
network recovery asks for its file (R504). -/
def State.ethUpTo (s : State) (phy : Byte) : State :=
  if !s.ethUsable ∨ s.gw.ethUp then s
  else
    let s := s.modGw (fun g => { g with ethUp := true, anDone := true })
    let s := (s.raiseGw 0x5001 none ([phy] ++ [1])).calibrate 80
    if s.boot.phase = .recovery then s.tftpRequest else s

/-- The link goes down (R397): pauses and frames that waited go with it. -/
def State.ethDown (s : State) (cause : Byte) : State :=
  if !s.gw.ethUp then s
  else
    let s := s.modGw (fun g => { g with ethUp := false, anDone := false, prios := [] })
    let s := (s.modGwAux (fun a => { a with txHeld := [] })).raiseGw 0x5002 none [cause]
    (s.gwError 0).closeSessions (fun _ => true)

/-! ## Received frames (R391 to R393) -/

/-- An ARP reply to a request for the device's address. -/
def arpReply (ip b : Bytes) : Bytes :=
  shortPad (slice b 8 6 ++ ownMac ++ natBe 2 etArp ++ b.take 6 ++ natBe 2 2 ++ ownMac ++ ip ++ slice b 8 6 ++ slice b 14 4)

/-- An ICMP echo reply over IPv4; its identification and time to live are the sender's choice (log entry 9). -/
def echoReply4 (mac b : Bytes) (ident ttl : Nat) : Bytes :=
  let ihl := beAt b 0 1 % 16 * 4
  let msg := (b.take (beAt b 2 2)).drop ihl
  let head := fun sum => [0x45, 0x00] ++ natBe 2 (20 + msg.length) ++ natBe 2 ident ++ [0, 0] ++ natBe 1 ttl ++ [1]
    ++ natBe 2 sum ++ slice b 16 4 ++ slice b 12 4
  let body := fun sum => [0, 0] ++ natBe 2 sum ++ msg.drop 4
  shortPad (mac ++ ownMac ++ natBe 2 etIp4 ++ head (checksum (head 0)) ++ body (checksum (body 0)))

/-- An ICMPv6 message from the device's address. -/
def icmp6 (mac src dst : Bytes) (hops : Nat) (body : Nat → Bytes) : Bytes :=
  let pseudo := src ++ dst ++ natBe 4 (body 0).length ++ [0, 0, 0, 58]
  shortPad (mac ++ ownMac ++ natBe 2 etIp6 ++ [0x60, 0, 0, 0] ++ natBe 2 (body 0).length ++ [58] ++ natBe 1 hops ++ src ++ dst
    ++ body (checksum (pseudo ++ body 0)))

/-- An echo reply, and a solicited neighbour advertisement, over IPv6. -/
def echoReply6 (mac ip b : Bytes) (hops : Nat) : Bytes :=
  let msg := (b.drop 40).take (beAt b 4 2)
  icmp6 mac ip (slice b 8 16) hops (fun sum => [129, 0] ++ natBe 2 sum ++ msg.drop 4)
def advertisement (mac ip b : Bytes) : Bytes :=
  icmp6 mac ip (slice b 8 16) 255 (fun sum => [136, 0] ++ natBe 2 sum ++ [0x60, 0, 0, 0] ++ ip ++ [2, 1] ++ ownMac)

/-- What a received frame is. -/
inductive Delivery where
  /-- Not for the device, or of no supported kind (R17, R391). -/ | drop
  /-- Malformed: counted in GW_FCS_ERRORS. -/ | malformed
  /-- A pass-through frame (R393). -/ | pass
  /-- A frame that the device answers (Table 11.1). -/ | answer (reply : Bytes)
  /-- A datagram of the command transport or of the register protocol. -/
  | cct (via : NetAddr) (data : Bytes) | mrp (via : NetAddr) (data : Bytes)
  /-- A response of RoCEv2, without its invariant CRC. -/ | roce (data : Bytes)
  /-- A congestion notification packet. -/ | cnp
  deriving DecidableEq, Repr

/-- The UDP ports of R393, R405, R410 and of RoCEv2; its CNP is opcode 0x81 of the base transport header, and its other
packets carry the invariant CRC over the IP header `ip` and what follows. -/
def udpDelivery (mac src ip u : Bytes) : Delivery :=
  let port := beAt u 2 2
  let len := beAt u 4 2
  if u.length < 8 ∨ len < 8 ∨ u.length < len then .malformed
  else
    let data := (u.take len).drop 8
    if port = 319 ∨ port = 320 then .pass
    else if port = 47680 then .cct { mac := mac, ip := src, port := beAt u 0 2 } data
    else if port = 47681 then .mrp { mac := mac, ip := src, port := beAt u 0 2 } data
    else if port ≠ rocePort then .drop
    else if leAt data 0 1 = 0x81 then .cnp
    else
      let rest := data.take (data.length - 4)
      if data.length < 20 ∨ data.drop (data.length - 4) ≠ icrc ip (u.take 8) rest then .malformed else .roce rest

/-- A frame with an IPv4 packet. Fragments are not supported (Table 11.1). -/
def State.ip4Delivery (s : State) (f : Bytes) (x y : Nat) : Delivery :=
  let b := frameBody f
  let ihl := beAt b 0 1 % 16 * 4
  let total := beAt b 2 2
  if beAt b 0 1 / 16 ≠ 4 ∨ ihl < 20 ∨ total < ihl ∨ b.length < total then .malformed
  else if s.ownIp4 ≠ some (slice b 16 4) then .drop
  else if beAt b 6 2 % 2 ^ 14 ≠ 0 then .drop
  else
    let msg := (b.take total).drop ihl
    if beAt b 9 1 = 17 then udpDelivery (slice f 6 6) (slice b 12 4) (b.take ihl) msg
    else if beAt b 9 1 = 1 ∧ msg.take 2 = [8, 0] then .answer (echoReply4 (slice f 6 6) b (x % 65536) (y % 255 + 1))
    else .drop

/-- A frame with an IPv6 packet; a neighbour solicitation names the address that it looks for. -/
def State.ip6Delivery (s : State) (f : Bytes) (x : Nat) : Delivery :=
  let b := frameBody f
  let len := beAt b 4 2
  if beAt b 0 1 / 16 ≠ 6 ∨ b.length < 40 + len then .malformed
  else
    match s.ownIp6 with
    | none => .drop
    | some ip =>
      let msg := (b.drop 40).take len
      let mine := decide (slice b 24 16 = ip)
      if beAt b 6 1 = 58 ∧ msg.take 2 = [135, 0] ∧ slice msg 8 16 = ip then .answer (advertisement (slice f 6 6) ip b)
      else if !mine then .drop
      else if beAt b 6 1 = 17 then udpDelivery (slice f 6 6) (slice b 8 16) (b.take 40) msg
      else if beAt b 6 1 = 58 ∧ msg.take 2 = [128, 0] then .answer (echoReply6 (slice f 6 6) ip b (x % 255 + 1))
      else .drop

/-- What a frame that R391 lets in is; x and y are free values for a reply. -/
def State.delivery (s : State) (f : Bytes) (x y : Nat) : Delivery :=
  let t := etherType f
  if t = etIp4 then s.ip4Delivery f x y
  else if t = etIp6 then s.ip6Delivery f x
  else if t = etArp then
    let b := frameBody f
    (match s.ownIp4 with
      | some ip => if slice b 6 2 = [0, 1] ∧ slice b 24 4 = ip then .answer (arpReply ip b) else .drop
      | none => .drop)
  else if t = etMacsec ∨ t = etVlan then .drop
  else .pass

/-- The frame is for the device's MAC address or for a group (R391, R393). -/
def forUs (f : Bytes) : Bool := decide (f.take 6 = ownMac) || bit (f.headD 0) 0

/-- The step that an item of the command transport carries: that of the berth's partition (log entry 50). -/
def State.berthStep (s : State) (n : Nat) : DWord := (s.part (s.berth n).cfg.partition).step

/-- A marked-drop berth has no room for a message. -/
def Berth.drops? (b : Berth) (bytes : Bytes) : Bool :=
  decide (b.cfg.kindOf = kindMarked) && decide (b.cfg.capacity - 1 < b.inRing + slotsNeeded b.cfg bytes)

def State.passDrop (s : State) : State := s.modGw (fun g => { g with passDrops := satAdd g.passDrops 1 })

/-- A pass-through frame goes whole into the berth of GW_PASS_CFG (R393). -/
def State.passThrough (s : State) (f : Bytes) : State :=
  if !bit s.gw.passCfg 14 then s.passDrop
  else
    let n := bits s.gw.passCfg 13 0
    let full := (s.berth n).drops? f
    let (r, s) := s.berthWrite none n
      { serves := 0, producer := BitVec.ofNat 16 idCct, cls := 8, step := s.berthStep n, bytes := f }
    if decide (r ≠ .accepted) || full then s.passDrop else s

def State.fcsError (s : State) : State := s.modGwAux (fun a => { a with fcsErrors := satAdd a.fcsErrors 1 })

/-- A received frame (R390 to R396), from the destination address to the byte before the FCS; `cct` and `mrp` take the
datagrams of the two protocols. -/
def State.frameIn (s : State) (f : Bytes) (x : MacsecRx) (cct mrp : State → NetAddr → Bytes → State) : State :=
  if !s.gw.ethUp ∨ !s.ready readyEth then s
  else if f.length < 60 ∨ 9212 < f.length then s.fcsError
  else
    let s := (s.modGwAux (fun a => { a with rxFrames := a.rxFrames + 1 })).frameBoundary (rxPriority f)
    if !forUs f then s
    else if etherType f = etMacControl ∧ beAt (frameBody f) 0 2 = 0x0101 then s.pfcIn (frameBody f)
    else
      let (ok, s) := s.macsecIn f x
      if !ok then s
      else
        let s := s.buffered (rxPriority f) f.length
        let (a, s) := s.draw
        let (b, s) := s.draw
        match s.delivery f a b with
        | .drop => s
        | .malformed => s.fcsError
        | .pass => s.passThrough f
        | .answer r => s.sendFrame 0 r
        | .cct a d => cct s a d
        | .mrp a d => mrp s a d
        | .roce d => s.roceIn d
        | .cnp => s.modGwAux (fun a => { a with cnpRx := satAdd a.cnpRx 1 })

/-! ## The commands -/

/-- The addresses of GW_PRIO_CFG and of the ETS shares. -/
def gwPrioCfg : Nat := 0x00050014
def gwEts (hi : Bool) : Nat := if hi then 0x0005001C else 0x00050018

/-- PRIO_CFG_WRITE (R418). -/
def execPrioCfgWrite (value : Word) (s : State) : Out :=
  .next (s.guardWrite (.prioCfgWrite value) readyGateway gwPrioCfg (fun s => s.setPrioCfg value))

/-- ETS_SHARE_WRITE (R395). -/
def execEtsShareWrite (hi : Bool) (value : Word) (s : State) : Out :=
  .next (s.guardWrite (.etsShareWrite hi value) readyGateway (gwEts hi) (fun s => s.setEts hi value))

/-- ETH_LINK_UP (R390). -/
def execEthLinkUp (phy : Byte) (s : State) : Out := .next (s.ethUpTo phy)

/-- ETH_LINK_DOWN (R397). -/
def execEthLinkDown (cause : Byte) (s : State) : Out := .next (s.ethDown cause)

/-- ETH_RETRAIN (R397): a write of GW_CONTROL. -/
def execEthRetrain (s : State) : Out := .next (s.guardWrite .ethRetrain readyGateway gwControl (fun s => s.ethDown 4))

/-- PFC_STUCK (R394). -/
def execPfcStuck (prio : BitVec 3) (s : State) : Out := .next (s.pfcStuck prio.toNat)

/-- SESSION_TIMEOUT (R406). -/
def execSessionTimeout (sess : BitVec 6) (s : State) : Out := .next (s.sessionExpires sess.toNat)

end Sys2Proof.Machine
end

