-- ==== Sys2Proof/Machine/Clock.lean ====
section
/-!
DEFINITION. What an idle step does (log entry 6): the local time counter, the always-on counter and the times of the ENERGY record count, the ports of
the fabric send (log entry 82), links in IDENT repeat their records (R368), buffers of the
Ethernet port empty (R394), and banks are copied (R323).
-/

namespace Sys2Proof.Machine

/-- A step of 10⁻⁸ s at the local time counter's 100 MHz, in units of 10⁻⁸ ticks of the always-on counter at 32,768
Hz. -/
def aonPerTick : Nat := 32768
def aonScale : Nat := 100000000

/-- The counters of a tick: HM_TIME counts out of reset (R38), the always-on counter counts while its rail is up (R38). -/
def State.countTime (s : State) : State :=
  let h := s.hm
  let frac := h.aonFrac + aonPerTick
  let h := if s.supply.alwaysOn then
      (if aonScale ≤ frac then { h with aon := h.aon + 1, aonFrac := frac - aonScale } else { h with aonFrac := frac })
    else h
  { s with hm := if s.boot.phase = .held then h else { h with time := h.time + 1 } }

/-- The limit that sets C now, by its code of Table 13.1; 6 where the ceiling lies below it (Table 13.10). -/
def Pt.capCode (x : Pt) : Nat := if x.ceiling < x.limits.cap.2 then 6 else x.limits.cap.1

/-- A tick of a step's time under a gate below full duty, and under the limit in force (Table 13.10). -/
def State.gateTick (s : State) : State :=
  let gated := (List.range 8).any (fun d => decide ((s.ptDie d).duty < 256))
  let code := s.pt.capCode
  let mine := (s.parts.filter (fun e => e.2.state.live)).map (·.1)
  if s.boot.phase = .held then s
  else mine.foldl (fun s p => s.modRun p (fun r =>
    { r with energy := { r.energy with
      gated := r.energy.gated + b2n gated, limits := modifyAt r.energy.limits code (· + 1) } })) s

/-- One tick of 10 ns with no command waiting. -/
def State.idle (s : State) : State := s.countTime.gateTick.bankTick.identTick.fabricTick.drainTick

end Sys2Proof.Machine
end

