-- ==== Sys2Proof/Machine/Spares.lean ====
section
/-!
DEFINITION. The state of a spare fill (Table 12.14), the spares of a lost coordinate in their order, the claims on them
(R446, R449), the records of a fill (R447), and the remap entry of a coordinate that a spare takes (R373).
-/

namespace Sys2Proof.Machine

/-- Values of Table 12.14. -/
def FillState.code : FillState → Nat
  | .idle => 0
  | .claim => 1
  | .route => 2
  | .copy => 3
  | .verify => 4
  | .regen => 5
  | .join => 6
  | .failed => 7

def State.modFill (s : State) (f : Fill → Fill) : State := { s with jr := { s.jr with fill := f s.jr.fill } }

/-- A remap entry is rewritten (R373). -/
def remapTo (rs : List Remap) (lost spare : Nat) : List Remap :=
  rs.filter (fun r => decide (r.logical ≠ lost)) ++ [{ logical := lost, physical := spare }]

def State.remap (s : State) (p lost spare : Nat) : State :=
  s.modPart p (fun x => { x with cfg := x.cfg.map (fun c => { c with remaps := remapTo c.remaps lost spare }) })

/-- Some fill runs in which this device is source or spare. -/
def Fill.active (f : Fill) : Bool := decide (f.state ≠ .idle)

/-! ## Spares (R446) -/

/-- The spares of a lost coordinate: those whose feed differs from the own and the lost device's come first. -/
def State.spareOrder (s : State) (p : Nat) : List PoolRec :=
  let own := bits s.hm.feed 15 0
  let lost := match s.mirror? p with
    | some m => if m.partner = s.jr.fill.lost.toNat then s.feedOf p m else own
    | none => own
  let mine := s.mfAux.dev.pools.filter (fun r => decide (r.part = p))
  let far := fun (r : PoolRec) => decide (r.feed ≠ own) && decide (r.feed ≠ lost)
  mine.filter far ++ mine.filter (fun r => !far r)

/-- The spare that the fill is at. -/
def State.spareNow (s : State) (p : Nat) : Option PoolRec := (s.spareOrder p)[s.jr.fill.tried]?

/-- Its coordinate; all ones for none. -/
def State.spareCoord (s : State) (p : Nat) : Half :=
  if s.jr.fill.spareRole then BitVec.ofNat 16 s.coord
  else if s.jr.fill.follows then s.jr.fill.spare.getD 0xFFFF
  else BitVec.ofNat 16 (((s.spareNow p).map (·.spare)).getD 0xFFFF)

/-- The RECOVERY record that every member writes of a change of the fill's state (R447). -/
def State.fillRecord (s : State) (p : Nat) (x : FillState) : State :=
  s.recovery p 5 (natLe 1 x.code ++ wordLe 2 (s.spareCoord p))

/-- A change of the fill's state at the source or the spare, with its record. -/
def State.fillTo (s : State) (p : Nat) (x : FillState) : State :=
  (s.fillRecord p x).modFill (fun f => { f with state := x })

/-- Recovery is escalated (R448): event 0x4012, and the job halts with cause 13. -/
def State.escalate (s : State) (p : Nat) : State :=
  let s := (s.modFill (fun _ => Fill.zero)).raiseJr 0x4012 p (wordLe 8 (s.part p).step)
  s.halt p 13

/-- The claim on the spare that the fill is at; with none left the fill failed (Table 12.14, CLAIM and FAILED). -/
def State.claimSpare (s : State) (p : Nat) : State :=
  match s.cfg? p, s.spareNow p with
  | some c, some r =>
    let lost := s.jr.fill.lost
    let phys : Half := if s.jr.fill.tried = 0 then BitVec.ofNat 16 (physicalOf c.remaps lost.toNat) else s.jr.fill.lostPhys
    ((s.fillTo p .claim).modFill (fun f => { f with lostPhys := phys })).send p (.claim (BitVec.ofNat 16 r.spare) lost phys)
  | _, _ =>
    let s := (s.fillTo p .failed).raiseJr 0x4010 p (natLe 2 0xFFFF ++ natLe 1 FillState.claim.code)
    s.escalate p

/-- On to the next spare. -/
def State.nextSpare (s : State) (p : Nat) : State :=
  (s.modFill (fun f => { f with tried := f.tried + 1, mismatches := 0, progress := 0 })).claimSpare p

end Sys2Proof.Machine
end

