-- ==== Sys2Proof/Machine/Jobs.lean ====
section
/-!
DEFINITION. Job actions (R423 to R426): START, STOP, RETRY, SKIP, RESUME and RESTORE; halt notices, ready packets and
the straggler wait (R442), and the keeper's side of a guest (R436). DECLARE_LOST and the fill are in Machine/Fill.lean.
-/

namespace Sys2Proof.Machine

/-! ## The job control record (R423) -/

/-- The record of an action; bytes that its action does not use are 0. -/
def jobRecord (p action : Nat) (step arg : DWord) : Bytes :=
  natLe 1 p ++ natLe 1 action ++ zeros 6 ++ wordLe 8 step ++ wordLe 8 arg ++ zeros 8

/-- JR_P_STATE.state (R424). -/
def PState.code : PState → Nat
  | .idle => 0
  | .running => 1
  | .halted => 2
  | .rewinding => 3
  | .fillWait => 4
  | .restoring => 5
  | .replaying => 6
  | .standby => 7

/-- An accepted action is logged with its session (Table 12.10, HOST) in an entry of its own (R429), and counted. -/
def State.hostEntry (s : State) (p sess : Nat) (rec : Bytes) : State :=
  (s.writeEntry p 1 [(BitVec.ofNat 16 recHost, rec ++ natLe 2 sess)]).countLading p 7

/-! ## START -/

/-- The step that START begins with: after a restore the step that follows it, else first_step (Table 12.5). -/
def State.startStep (s : State) (p : Nat) : DWord :=
  match (s.run p).restored, s.program? p with
  | some r, _ => r
  | none, some g => g.control.firstStep
  | none, none => 0

/-- Bytes of the snapshot images of every partition of the Manifest: the own slots hold them (log entry 40). -/
def State.ownImages (s : State) : Nat := (s.configured.map s.snapBytes).foldl (· + ·) 0

/-- Partners exchange their partner fields and feed identities; a partner that names another device is no pair (R438).
-/
def State.pairUp (s : State) (p : Nat) : Bool × State :=
  match s.mirror? p with
  | none => (true, s)
  | some m =>
    let (ok, s) := (s.send p (.pairing (BitVec.ofNat 16 m.partner) (BitVec.ofNat 16 (bits s.hm.feed 15 0)))).peerAgrees
    let (feed, s) := s.draw
    (ok, s.modPart p (fun x => { x with paired := ok, partnerFeed := if ok then some (BitVec.ofNat 16 feed) else none }))

/-- A job that starts without a restore lays its areas out anew: what an earlier job left on the drives is no part of
it, and its chain begins (R430, R431). -/
def State.freshJob (s : State) (p : Nat) (first : DWord) : State :=
  let s := s.modPart p (fun x => { x with chain := [], chained := false })
  let s := s.modLog p (fun l => { l with entries := [], unwritten := [], slots := [], records := [] })
  s.ladingStart p first false

/-- START: its result, and the state. -/
def State.jobStart (s : State) (p sess : Nat) (rec : Bytes) : Nat × State :=
  if (s.part p).state ≠ .idle then (1, s)
  else if !s.layoutFits s.ownImages ((s.jr.guestSize.map BitVec.toNat).getD 0) then (4, s)
  else
    let (keeps, s) := s.tellKeeper p
    if !keeps then (4, s) else
    let (pairs, s) := s.pairUp p
    if !pairs then (5, s) else
    let step := s.startStep p
    let fresh := (s.run p).restored.isNone
    let now := s.hm.time
    let s := if fresh then s.freshJob p step else s
    let s := s.modPart p (fun x => { x with step := step })
    let s := s.writeLabel (s.newLabel s.ownImages ((s.jr.guestSize.map BitVec.toNat).getD 0))
    let s := s.hostEntry p sess rec
    let s := { s with jr := { s.jr with logbookReady := true } }
    let s := s.modRun p (fun r => { r with restored := none, energy := r.energy.fresh now })
    let s := s.modLog p (fun l => { l with firstDone := false, sinceSnap := 0 })
    let s := s.modPart p (fun x => { x with state := .running, cadence := BitVec.ofNat 32 (s.recoveryOf p).snapshotEvery })
    let s := s.raiseJr 0x4001 p (wordLe 8 step ++ wordLe 8 s.mf.jobId)
    (0, ((s.feedCheck p).tideStart p).tryBegin p)

/-! ## STOP, RETRY, SKIP, RESUME (Table 12.7) -/

/-- STOP: a halt with cause 1 at the next slack water. -/
def State.jobStop (s : State) (p sess : Nat) (rec : Bytes) : Nat × State :=
  if (s.part p).state ≠ .running then (1, s)
  else (0, (s.hostEntry p sess rec).haltWith p 1 (if (s.seq p).phase = .none then 1 else 2))

/-- The cause whose restarts are valid: that of the sender for cause 7. -/
def Part.restartCause (x : Part) : Nat := if x.cause = 7 then x.noticeCause.toNat else x.cause.toNat

/-- The halted step closed (Table 12.7). -/
def Part.stepClosed (x : Part) : Bool := closesStep x.cause.toNat x.haltMode.toNat

/-- The partition leaves HALTED: on with the replay it was halted in, if any. -/
def State.leaveHalted (s : State) (p : Nat) : State :=
  let replays := (s.log p).replay ≠ []
  s.modPart p (fun x => { x with state := if replays then .replaying else .running, cause := 0, noticeCause := 0, noticeAt := none, haltMode := 0 })

/-- Event 0x4003. -/
def State.restarted (s : State) (p action : Nat) : State :=
  s.raiseJr 0x4003 p (wordLe 8 (s.part p).step ++ natLe 1 action)

/-- RETRY: the halted step again from its start; after a step that closed, the next. -/
def State.jobRetry (s : State) (p sess : Nat) (rec : Bytes) : Nat × State :=
  let x := s.part p
  if x.state ≠ .halted ∨ !([1, 2, 5, 8, 12].contains x.restartCause) then (1, s)
  else
    let s := s.hostEntry p sess rec
    let s := if x.stepClosed then s else (s.flushPartition p).freshSeq p x.step
    (0, (((s.leaveHalted p).restarted p 3)).tryBegin p)

/-- What the halted step fetched is consumed with it (R196, R402). -/
def State.dropStepData (s : State) (p : Nat) (step : DWord) : State :=
  let s := s.modGw (fun w => { w with reads := w.reads.filter (fun r =>
    !(decide (r.part.toNat = p) && decide (r.step = step))) })
  let s := s.modSeq p (fun q => { q with posted := [], fetches := q.fetches.filter (fun f => decide (f.step ≠ step)) })
  s.modLog p (fun l => { l with landed := l.landed.filter (fun e => decide (e.1 ≠ step)) })

/-- SKIP: the halted step is recorded as skipped, and a late contribution that it was to take in is discarded (R198). -/
def State.jobSkip (s : State) (p sess : Nat) (rec : Bytes) : Nat × State :=
  let x := s.part p
  if x.state ≠ .halted ∨ !([2, 5].contains x.restartCause) then (1, s)
  else
    let s := s.hostEntry p sess rec
    let s := if x.stepClosed then s
      else
        let late := (s.log p).lateOrigin.any (fun o => decide (o ≠ x.step))
        let s := if late then (s.modPart p (fun y => { y with latePending := false })).lateIn p true else s
        let s := ((s.flushPartition p).dropStepData p x.step).countLading p 5
        s.modPart p (fun y => { y with skipped := true, step := y.step + 1 })
    (0, ((s.leaveHalted p).restarted p 4).tryBegin p)

/-- RESUME: after cause 4 the apply pass goes on; after cause 6 the entry goes to the drives; on a member that closed
its step (cause 7), the next step. -/
def State.jobResume (s : State) (p sess : Nat) (rec : Bytes) : Nat × State :=
  let x := s.part p
  let c := x.restartCause
  if x.state ≠ .halted ∨ (c ≠ 4 ∧ c ≠ 6) ∨ (c = 6 ∧ s.working = []) then (1, s)
  else
    let s := if x.cause = 6 then s.resubmit p else s
    let s := s.hostEntry p sess rec
    if x.cause = 6 then (0, (((s.resubmitHeld p).leaveHalted p).restarted p 5).tryBegin p)
    else if x.cause = 4 then
      let s := ((s.flushPartition p).leaveHalted p).restartApply p
      let s := s.modLog p (fun l => { l with ownDigest := none, partnerDigest := none })
      (0, s.restarted p 5)
    else
      let s := if x.stepClosed then s else (s.flushPartition p).freshSeq p x.step
      (0, ((s.leaveHalted p).restarted p 5).tryBegin p)

/-! ## RESTORE (R449) -/

/-- The Manifest gives the partition no unserviceable cluster and no unserviceable row (Table 12.7, cause 11). -/
def State.avoidsBad (s : State) (p : Nat) : Bool :=
  match s.cfg? p with
  | none => false
  | some c => c.part.masks.zipIdx.all (fun m => (bitsSet 250 m.1).all (fun l => s.serviceable m.2 l))
      && c.program.regions.all (fun r => !s.regionOnBadRow r)

/-- The own complete snapshot of a step of this job (R435). -/
def State.ownSnapshot (s : State) (p : Nat) (step : DWord) : Option SnapImage :=
  let l := s.log p
  if l.entries.getLast?.any (fun e => decide (leAt e 24 8 ≠ s.mf.jobId.toNat)) then none
  else l.slots.find? (fun i => decide (i.step = step))

/-- A member of which the job lost another: the claim that RESTORE issues on a spare for the coordinate that arg names (R449;
log entry 107). -/
def State.restoreClaims (s : State) (p : Nat) (arg : DWord) : Bool :=
  (s.part p).lostMembers.contains (BitVec.ofNat 16 (bits arg 15 0)) && !s.jr.fill.spareRole

/-- The keeper serves this spare, which took the lost coordinate that `arg` names (R449). -/
def State.keeperServes (s : State) (p : Nat) (arg : DWord) : Bool :=
  let f := s.jr.fill
  f.spareRole && decide (f.part.toNat = p) && decide (f.lost.toNat = bits arg 15 0)
    && decide ((s.recoveryOf p).keeper ≠ 0xFFFF)

/-- The label in force: after a reset, the one that the drives hold (R431). -/
def State.readLabel (s : State) : State :=
  if s.jr.label.isSome then s
  else { s with jr := { s.jr with label := s.working.findSome? (fun d => (s.drive d).label) } }

/-- The reads of an own snapshot, on the queues that carry restore reads (R414). -/
def State.readSnapshot (s : State) (p : Nat) (step : DWord) : State :=
  match s.ownSnapshot p step with
  | none => s
  | some i =>
    let s := s.readLabel
    let (cid, s) := s.dataCommand p .read (s.imageLba p i.slot) 0 (imageBlocks i.bytes)
    s.modLog p (fun l => { l with loadCid := some cid })

/-- The claim that a RESTORE issues for a lost coordinate (R449). -/
def State.restoreClaim (s : State) (p : Nat) (lost : Half) : State :=
  let now := s.hm.time
  (s.modFill (fun _ =>
    { Fill.zero with part := BitVec.ofNat 6 p, lost := lost, started := now, restore := true })).claimSpare p

/-- RESTORE: the partition leaves what it held, and loads. -/
def State.jobRestore (s : State) (p sess : Nat) (rec : Bytes) : Nat × State :=
  let x := s.part p
  let step : DWord := BitVec.ofNat 64 (leAt rec 8 8)
  let arg : DWord := BitVec.ofNat 64 (leAt rec 16 8)
  let own := (s.ownSnapshot p step).isSome
  let takes := decide (x.state = .fillWait) && s.keeperServes p arg
  if (x.state ≠ .idle ∧ x.state ≠ .halted ∧ !takes) ∨ (x.state = .halted ∧ x.restartCause = 11 ∧ !s.avoidsBad p) then (1, s)
  else if !own ∧ !s.keeperServes p arg then (3, s)
  else
    let (keeps, s) := s.tellKeeper p
    if !keeps then (4, s) else
    let s := match (s.log p).entries.getLast? with
      | some e => if x.chained then s else s.modPart p (fun y => { y with chain := sha384 (e.take (96 + leAt e 32 4)), chained := true })
      | none => s
    let s := s.writeEntry p 1 [(BitVec.ofNat 16 recHost, rec ++ natLe 2 sess)]
    let s := { s with jr := { s.jr with logbookReady := true } }
    let s := (s.flushPartition p).freshSeq p 0
    let s := s.modPart p (fun y =>
      { y with state := .restoring, cause := 0, noticeCause := 0, noticeAt := none, haltMode := 0, fillPending := false, mismatch := false,
               applyPassed := false, latePending := false, replayTo := 0 })
    let s := s.modSeq p (fun _ => Sequencer.zero)
    let s := s.modLog p (fun l => { l with restoring := some (step, !own), records := [], replay := [] })
    let s := if own then s.readSnapshot p step else s
    let s := ((s.unlearn p).feedCheck p).tideStart p
    (0, if s.restoreClaims p arg then s.restoreClaim p (BitVec.ofNat 16 (bits arg 15 0)) else s)

/-! ## Halt notices (R426) -/

/-- HALT_NOTICE_RECEIVE: under abandon mode the step ends as before its commit point; under complete mode it is
completed. A member that already passed the step of the notice halts where it stands; one that is still in the slack
water before an abandoned step halts at its close. -/
def State.haltNotice (s : State) (p : Nat) (step : DWord) (mode cause : Byte) : State :=
  let x := s.part p
  if !x.state.live ∨ x.state = .halted ∨ s.haltTaken p 7 then s
  else
    let s := s.modPart p (fun y => { y with noticeCause := cause })
    if mode = 2 ∧ step < x.step then
      ((s.flushPartition p).freshSeq p x.step).enterHalted p 7 2
    else if mode = 2 then s.haltWith p 7 2
    else if x.step < step ∧ (s.seq p).phase ≠ .none then s.modPart p (fun y => { y with noticeAt := some step })
    else
      let s := s.haltWith p 7 1
      (s.flushPartition p).modSeq p (fun q => { q with posted := [] })

/-! ## Stragglers (R442) -/

/-- This device is the coordinator of a group: the member at the base coordinate. -/
def State.coordinates (s : State) (p : Nat) (g : Half) : Bool :=
  (s.group? p g.toNat).any (fun x => decide (x.base = s.me p))

/-- READY_PACKET_RECEIVE. -/
def State.readyPacket (s : State) (p : Nat) (g : Half) (step : DWord) (m : Half) : State :=
  if !s.coordinates p g ∨ step < (s.part p).step ∨ !(s.group? p g.toNat).any (fun x => x.has m)
      ∨ (s.seq p).ready.contains (step, g, m) then s
  else s.modSeq p (fun q => { q with ready := q.ready ++ [(step, g, m)] })

/-- A member of a group has sent no ready packet of the step, and is not excused. -/
def State.silent (s : State) (p : Nat) (g m : Half) : Bool :=
  let q := s.seq p
  (s.group? p g.toNat).any (fun x => x.has m) && decide (m.toNat ≠ s.me p)
    && !q.ready.contains ((s.part p).step, g, m)
    && !q.excused.any (fun x => decide (x.1 = g) && decide (x.2.1 = m))

/-- The coordinator waits for a group: its own contribution is ready and the result is not here. -/
def State.waitsFor (s : State) (p : Nat) (g : Half) : Bool :=
  s.coordinates p g && (s.seq p).ownReady.contains g && !(s.seq p).reduced.contains g

/-- STRAGGLER_WAIT_EXPIRY: the coordinator excuses a silent member. None is excused while a replay runs, or after a halt
notice for the step (R426, R450). -/
def State.straggler (s : State) (p : Nat) (g m : Half) : State :=
  let r := s.recoveryOf p
  let step := (s.part p).step
  if r.stragglerUs = 0 ∨ !(s.part p).state.steps ∨ s.replays p ∨ (s.seq p).pendingHalt.isSome ∨ !s.waitsFor p g ∨ !s.silent p g m then s
  else
    let action := BitVec.ofNat 8 r.lateAction
    let s := s.send p (.excusal g step m action)
    let s := s.modPart p (fun x => { x with excusals := satAdd x.excusals 1 })
    let s := s.modSeq p (fun q => q.excuse step [(g, m, action)])
    s.raiseJr 0x400A p (wordLe 2 g ++ wordLe 8 step ++ wordLe 2 m ++ [action])

/-! ## The keeper's side (R436) -/

/-- Blocks of a guest slot for an image of a size on the drives that work, its trailer included (R431). -/
def State.guestSlotBlocks (s : State) (size : Nat) : Nat := driveBlocks size s.working.length

/-- A size fits the guest slots, which the first size fixed (R436). -/
def State.fitsGuestSlot (s : State) (size : Nat) : Bool :=
  s.jr.guestSize.all (fun first => decide (s.guestSlotBlocks size ≤ s.guestSlotBlocks first.toNat))

/-- GUEST_SIZE_RECEIVE: the first size fixes the guest's slots; a guest whose areas do not fit, a size that does not fit the
fixed slots and another guest are refused. -/
def State.guestSize (s : State) (guest : Half) (size : DWord) : State :=
  let refuse := s.send 0 (.keeperRefusal guest)
  match s.jr.guest with
  | some g =>
    if g ≠ guest ∨ !s.fitsGuestSlot size.toNat then refuse else s
  | none =>
    if s.layoutFits s.ownImages size.toNat then
      let s := { s with jr := { s.jr with guest := some guest, guestSize := some size } }
      match s.jr.label with
      | some l => s.writeLabel { l with guestBlocks := driveBlocks size.toNat l.drives }
      | none => s
    else refuse

/-- The newest entries that fit the guest's logbook area: it wraps. -/
def keepNewest : Nat → List Bytes → List Bytes
  | _, [] => []
  | room, e :: es => if entryBlocks e ≤ room then e :: keepNewest (room - entryBlocks e) es else []

/-- KEEPER_RECEIVE: an entry goes to the guest's logbook, a snapshot to the guest slot that does not hold the latest
complete one. With no drive to write to, the snapshot is incomplete. -/
def State.keeperTakes (s : State) (item : KeeperItem) : State :=
  if s.jr.guest.isNone then s
  else
    match item with
    | .entry b =>
      if s.working = [] then s
      else
        let s := s.countWritten (entryBlocks b * s.working.length)
        { s with jr := { s.jr with guestEntries := (keepNewest guestRing (b :: s.jr.guestEntries.reverse)).reverse } }
    | .snapshot step img =>
      if s.working = [] ∨ !s.fitsGuestSlot img.length then
        { s with jr := { s.jr with error := setBit s.jr.error 3 } }
      else
        let s := s.countWritten (imageBlocks img.length)
        let old := s.jr.guestImages.drop (s.jr.guestImages.length - 1)
        { s with jr := { s.jr with guestImages := old ++ [(step, img)], guestSnap := step } }

/-! ## The commands -/

/-- HALT_NOTICE_RECEIVE (R426). -/
def execHaltNoticeReceive (p : BitVec 6) (step : DWord) (mode cause : Byte) (s : State) : Out :=
  .next (s.haltNotice p.toNat step mode cause)

/-- READY_PACKET_RECEIVE (R442). -/
def execReadyPacketReceive (p : BitVec 6) (group : Half) (step : DWord) (member : Half) (s : State) : Out :=
  .next (s.readyPacket p.toNat group step member)

/-- STRAGGLER_WAIT_EXPIRY (R442). -/
def execStragglerWaitExpiry (p : BitVec 6) (group member : Half) (s : State) : Out :=
  .next (s.straggler p.toNat group member)

/-- GUEST_SIZE_RECEIVE (R436). -/
def execGuestSizeReceive (guest : Half) (size : DWord) (s : State) : Out := .next (s.guestSize guest size)

/-- KEEPER_RECEIVE (R436). -/
def execKeeperReceive (item : KeeperItem) (s : State) : Out := .next (s.keeperTakes item)

end Sys2Proof.Machine
end

