-- ==== Sys2Proof/Machine/Restore.lean ====
section
/-!
DEFINITION. The load of a snapshot (R449), the recreation of working copies (R433), the recorded steps that the replay
follows (R450), and the Manifest store and commit progress that a restore reinstates (R79).
-/

namespace Sys2Proof.Machine

/-! ## The regen POSTs (R433, R449) -/

/-- The POSTs that recreate working copies, each as often as its loops run it. -/
def regenPosts (micro : Nat) : List Nat → List BodyIns → List BodyIns
  | _, [] => []
  | mult, i :: is =>
    match i.op with
    | 1 => regenPosts micro (mult.headD 1 * (if i.a = 0 then micro else i.a) :: mult) is
    | 2 => regenPosts micro mult.tail is
    | 4 => if i.flags.testBit 1 then List.replicate (mult.headD 1) i ++ regenPosts micro mult is else regenPosts micro mult is
    | _ => regenPosts micro mult is

/-- The peaks that a step's PEAKS record holds. -/
def peaksOf (step : DWord) (rs : List (Half × Bytes)) : List PeakRec :=
  (bodies recPeaks rs).flatMap (fun b => (chunks 8 b).map (fun e =>
    { step := step, scope := BitVec.ofNat 32 (leAt e 0 4), peak := e.getD 4 0, invalid := false, fmt := 0,
      cluster := none }))

/-- A regen POST under the step: its anchors come from the recorded peaks, and stay where no peak is recorded. -/
def State.regenPost (s : State) (p : Nat) (step : DWord) (i : BodyIns) : State :=
  match s.program? p with
  | none => s
  | some g =>
    let first := i.c % 2 ^ 32
    let cls := postClass (s.berth i.a).cfg i.flags
    match s.readImages p g first i.b with
    | (none, s) => s
    | (some images, s) =>
      let images := match i.flags.testBit 0, s.pairPeaks p g i.c with
        | true, some pk => images.map (anchorImage pk)
        | _, _ => images
      images.zipIdx.foldl (fun s x => s.postOne p i.a cls false step (first + x.2, x.1, [])) s

/-- The working copies are recreated under a step. -/
def State.regenAll (s : State) (p : Nat) (step : DWord) : State :=
  match s.program? p with
  | none => s
  | some g => (regenPosts g.control.microBatches [] g.body).foldl (fun s i => s.regenPost p step i) s

/-! ## What reaches a spare (R80, R202, R273, R446, R449) -/

/-- m and c that the detection record of a step holds (R202). -/
def detectedAt (es : List Bytes) (step : DWord) : Option (Word × Word) :=
  (es.reverse.find? (fun e => decide (entryKind e = 0) && decide (entryStep e = step.toNat))).bind (fun e =>
    ((bodies recDetection (recordsOf e)).head?).map (fun b => (BitVec.ofNat 32 (leAt b 20 4), BitVec.ofNat 32 (leAt b 24 4))))

/-- A route phase by its code (R77). -/
def RoutePhase.ofCode : Nat → RoutePhase
  | 1 => .added
  | 2 => .switched
  | 3 => .retired
  | _ => .none

/-- The partition's route entries in a store: of both tags between the phases of a changed route (R77). -/
def guestRoutes (g : GuestImage) (p : Nat) (v : View) : List RouteEntry :=
  match RoutePhase.ofCode g.phase.toNat with
  | .retired => routeEntries p g.tag (v.routes p)
  | .none => routeEntries p (if g.prevLive then g.prevTag else g.tag) (v.routes p)
  | _ => routeEntries p g.prevTag ((View.of g.active).routes p) ++ routeEntries p g.tag (v.routes p)

/-- The save images of a spare are those of contexts that have not run. -/
def State.freshImages (s : State) (p : Nat) : State :=
  match (s.part p).cfg with
  | some cfg => s.layImages s p [] cfg
  | none => s

/-- What the received store leaves in force at the spare: the active Manifest and the shadow (R447). -/
def State.spareActive (s : State) (p : Nat) (g : GuestImage) : Bytes := spareBytes (View.of s.mf.activeBytes) (View.of g.active) p
def State.spareShadow (s : State) (p : Nat) (g : GuestImage) : Bytes :=
  if g.shadow = [] then [] else spareBytes (View.of s.mf.activeBytes) (View.of g.shadow) p

/-- The checks that a spare runs on the store it received (R447): 1 to 4 on the store as its signer signed it, the others on
what it leaves in force, with the lost device's coordinate of the claim in check 7 (log entry 106). -/
def State.spareChecks (s : State) (p : Nat) (g : GuestImage) : Option (Nat × Place) :=
  match s.checks1to4 (View.of g.active) with
  | some x => some x
  | none => s.checks5to21 (View.of (s.spareActive p g)) (fun _ => []) (some s.jr.fill.lostPhys.toNat)

/-- The Manifest store and the commit progress of the lost device, with which the spare goes on (R80): the partition's
sections beside its own device-wide ones (R447). The plan is that of the amendment in the incoming slot (R60). -/
def State.takeStore (s : State) (p : Nat) (g : GuestImage) : State :=
  if g.active = [] then s
  else
    let amends := decide (g.shadow ≠ [])
    let (active, shadow) := (s.spareActive p g, s.spareShadow p g)
    let s := s.modMfAux (fun a =>
      { a with plan := if amends then (View.of g.amendment).plan else [], digest := sha384 g.active,
               shadowDigest := if amends then sha384 g.shadow else [] })
    let s := s.modMf (fun m =>
      { m with activeBytes := active, activeId := BitVec.ofNat 64 (leAt g.active 16 8), shadow := shadow,
               incoming := if amends then g.amendment else m.incoming,
               shadowId := if amends then BitVec.ofNat 64 (leAt g.amendment 16 8) else m.shadowId, slotHeld := amends,
               tag := g.tag, prevTag := g.prevTag, prevLive := g.prevLive, pend := g.pend, done := g.done,
               amendState := if !amends then .none else if g.done = 0 then .staged else if g.pend = 0 then .retiring
                 else .committing })
    let v := View.of (if amends && bit g.done p then shadow else active)
    let s := (s.installPart v p g.tag).freshImages p
    let s := { s with kx := { s.kx with
      routes := s.kx.routes.filter (fun (e : RouteEntry) => decide (e.part.toNat ≠ p)) ++ guestRoutes g p v } }
    s.modMfAux (fun a => { a with phases := a.phases.set (fun _ => .none) p (RoutePhase.ofCode g.phase.toNat) })

/-- Memory, the stash, m and c of the lost device. -/
def State.takeGuest (s : State) (p : Nat) (g : GuestImage) : State :=
  let s := g.hold.foldl (fun s r => s.store .hold r.1 r.2) s
  let es : List StashEntry := g.stash.map (fun e =>
    { block := e.block, tag := e.tag, staged := false, lost := e.lost, readers := e.readers, stepOrigin := e.stepOrigin,
      size := e.size, addr := e.addr })
  let vs : List Version := g.tags.map (fun v =>
    { block := v.1, tag := v.2.1, readers := v.2.2.1, stepOrigin := v.2.2.2, copying := false,
      prevOrigin := v.2.2.2 })
  let s := (s.modStash p (fun st =>
    { st with entries := es, versions := vs, places := [], waits := [], bound := [] })).writeStash p 0
  let (m, c) := (detectedAt g.entries g.last).getD (g.mean, g.seen)
  s.modDet p (fun d => { d with mean := m, seen := c })

/-! ## The recorded steps (R450, R515) -/

/-- Every entry of a partition, in the order it was composed. -/
def State.recorded (s : State) (p : Nat) : List Bytes := (s.log p).entries ++ (s.log p).unwritten.map (fun u => u.bytes)

/-- The last step of a RECOVERY record of kind 7: later steps were superseded. -/
def replayedTo (rs : List (Half × Bytes)) : Option Nat :=
  ((bodies recRecovery rs).find? (fun b => decide (leAt b 0 1 = 7))).map (fun b => leAt b 16 8)

/-- Takes an entry into the steps recorded so far: a step entry becomes its step's effective one, a host action joins
the step it was taken at, and a completed replay takes away the steps it superseded. -/
def takeEntry (acc : List ReplayStep) (e : Bytes) : List ReplayStep :=
  let n : DWord := BitVec.ofNat 64 (entryStep e)
  let rs := recordsOf e
  match entryKind e with
  | 0 => acc.filter (fun r => decide (r.step ≠ n)) ++ [{ step := n, records := rs }]
  | 1 => acc.map (fun r =>
      if r.step = n then { r with records := r.records ++ rs.filter (fun x => decide (x.1.toNat = recHost)) } else r)
  | _ =>
    match replayedTo rs with
    | some u => acc.filter (fun r => decide (r.step.toNat ≤ u))
    | none => acc

/-- A step that stands in the replay: not halted, or halted and skipped by the host. -/
def ReplayStep.effective (r : ReplayStep) : Bool :=
  decide (haltCauseOf r.records = 0) || skippedByHost r.records

/-- The steps after `first` that the replay follows, to `last`, up to the first that is not effective. -/
def replaySteps (es : List Bytes) (first last : DWord) : List ReplayStep :=
  let all := es.foldl takeEntry []
  let mine := all.filter (fun r => decide (first < r.step) && decide (r.step ≤ last))
  (sortBy (fun (a b : ReplayStep) => decide (a.step ≤ b.step)) mine).takeWhile ReplayStep.effective

/-- Step entries written for steps after the last replayed one. -/
def supersededAfter (es : List Bytes) (last : DWord) : Nat :=
  (es.filter (fun e => decide (entryKind e = 0) && decide (last.toNat < entryStep e))).length

/-! ## The Manifest store (R79) -/

/-- The amendment that the image and the present store give: the image's own, else what the store has become since. -/
def Mf.laterStore (m : Mf) (i : SnapImage) : Bytes :=
  if i.shadow ≠ [] then i.shadow else if m.activeBytes ≠ i.active then m.activeBytes else m.shadow

/-- A partition is configured by that amendment now. -/
def Mf.hasLater (m : Mf) (later : Bytes) (q : Nat) : Bool :=
  decide (m.activeBytes = later) || (decide (m.shadow = later) && bit m.done q)

/-- The store and the commit progress of the partition become those of the image; the others keep theirs (R79; log
entry 52). The device-wide entries are those of the amendment once some partition has committed it (R71). -/
def State.reinstate (s : State) (p : Nat) (i : SnapImage) : State :=
  let later := s.mf.laterStore i
  let was := s.mf.hasLater later p
  let want := decide (i.shadow ≠ []) && bit i.done p
  let phase := s.mfAux.phases.get (fun _ => RoutePhase.none) p
  if later = [] ∨ (was = want ∧ phase = i.phase ∧ (s.mf.activeBytes = later ∨ s.mf.shadow = later)) then s
  else
    let plan := if i.shadow ≠ [] then i.plan else s.mfAux.plan
    let done := (plan.map (·.part)).filter (fun q => if q = p then want else s.mf.hasLater later q)
    let pend := (plan.map (·.part)).filter (fun q => !done.contains q)
    let same := decide (s.mf.activeBytes = later)
    let digest := if i.shadow ≠ [] then i.shadowDigest else if same then s.mfAux.digest else s.mfAux.shadowDigest
    let back := decide (i.incoming ≠ [])
    let s := s.modMfAux (fun a => { a with plan := plan, shadowDigest := digest, digest := sha384 i.active })
    let s := s.modMf (fun m =>
      { m with incoming := if back then i.incoming else m.incoming, slotHeld := back || m.slotHeld,
               owner := if back then none else m.owner, loadState := if back then s.restState else m.loadState,
               activeBytes := i.active, shadow := later, shadowId := if i.shadow ≠ [] then i.shadowId else m.shadowId,
               activeId := BitVec.ofNat 64 (leAt i.active 16 8), done := partBits done,
               pend := partBits pend, tag := if done = [] then i.tag else m.tag,
               prevTag := if done = [] then i.prevTag else m.prevTag,
               prevLive := decide (done ≠ []),
               amendState := if done = [] then .staged else if pend = [] then .retiring else .committing })
    let s := s.programPart (View.of (if want then later else i.active)) p i.tag (want || decide (done = []))
    let s := { s with kx := { s.kx with
      routes := s.kx.routes.filter (fun (e : RouteEntry) => decide (e.part.toNat ≠ p)) ++ i.routes } }
    s.modMfAux (fun a => { a with phases := a.phases.set (fun _ => .none) p i.phase })

/-! ## The image (R433, R449, R514) -/

/-- Memory takes the bytes of an image back: its ranges hold what the image holds, and nothing else. -/
def State.restoreBytes (s : State) (p : Nat) (i : SnapImage) : State :=
  let rs := s.imageRanges p i.lateOrigin.isSome i.stash
  let s := rs.foldl (fun s r => s.putCells .hold r.1 r.2 (Cells.ranges i.hold [r])) s
  match s.lateRange p, i.lateOrigin with
  | some (sp, a, n), some _ => s.putCells sp a n (Cells.ranges i.late [(a, n)])
  | _, _ => s

/-- What the image holds beside memory: the stash, m and c (R202), the late fold outstanding, the lading state. -/
def State.restoreUnits (s : State) (p : Nat) (i : SnapImage) : State :=
  let gone := (s.stash p).entries.length - i.stash.length
  let s := s.modStash p (fun st =>
    { st with entries := i.stash.map StashEntry.unstaged, versions := i.versions,
              places := i.places.map (fun x => { x with staged := none }), bound := i.bound, waits := [], waited := [], mirrored := [],
              limitHalt := false, versionWaits := 0, spaceWaits := 0, waitTime := 0, created := 0, released := 0 })
  let s := s.writeStash p gone
  let s := s.modDet p (fun d => { d with mean := i.mean, seen := i.seen })
  let s := s.modLog p (fun l => { l with lateOrigin := i.lateOrigin, lateGroups := i.lateGroups })
  let s := s.modPart p (fun x => { x with latePending := i.lateOrigin.isSome })
  let s := s.modLading p (fun l => { i.lading with cfg := l.cfg, last := l.last })
  let kept := s.ladingKept p
  s.modLading p (fun l => { l with kept := kept })

/-- The latest complete snapshot, as the drives hold it (R435). -/
def State.latestSlot (s : State) (p : Nat) : State :=
  match (s.log p).slots.getLast? with
  | none => s
  | some i => s.modPart p (fun x => { x with snap := i.step, snapStatus := putBit x.snapStatus 3 i.slot })

/-- What the load puts in place: the own image, or the guest's that the keeper gives; the coordinate that a spare took is
its own from then on, and the fill is over. -/
def State.loadImage (s : State) (p : Nat) (step : DWord) (keeper : Bool) (guest : Option GuestImage) : State :=
  match keeper, (s.log p).slots.find? (fun i => decide (i.step = step)), guest with
  | false, some i, _ => (((s.reinstate p i).restoreBytes p i).restoreUnits p i).latestSlot p
  | _, _, some g =>
    let (lost, me) := (s.jr.fill.lost.toNat, s.coord)
    let s := (((s.takeStore p g).remap p lost me).takeGuest p { g with last := step }).ladingTakes p step g.entries g.lading
    s.modFill (fun _ => Fill.zero)
  | _, _, none => s

/-- The records of a step's effective entry. -/
def recordsAt (es : List Bytes) (step : DWord) : List (Half × Bytes) :=
  (((es.foldl takeEntry []).find? (fun r => decide (r.step = step))).map (·.records)).getD []

/-- The entries that a restore follows: the own ones, or those that the keeper gives (R449). -/
def State.restoreEntries (s : State) (p : Nat) (keeper : Bool) (guest : Option GuestImage) : List Bytes :=
  match keeper, guest with
  | true, some g => g.entries
  | _, _ => s.recorded p

/-- The load is in place: its record, event 0x4013, the working copies, and the replay; one of no step is complete at once
(R450; log entry 107). -/
def State.beginReplay (s : State) (p : Nat) (step last : DWord) (keeper : Bool) (guest : Option GuestImage) : State :=
  let es := s.restoreEntries p keeper guest
  let s := s.modPart p (fun x => { x with step := step, closed := step })
  let s := s.modSeq p (fun q => { q with peaks := peaksOf step (recordsAt es step) })
  let s := s.recovery p 6 (wordLe 8 step ++ natLe 1 (b2n keeper))
  let rs := (s.log p).records
  let s := (s.modLog p (fun l => { l with records := [] })).writeEntry p 2 rs
  let steps := replaySteps es step last
  let t := (steps.getLast?.map (·.step)).getD step
  let cut := supersededAfter es t
  let s := s.regenAll p step
  let s := s.modLog p (fun l =>
    { l with replay := replayNext steps, superseded := cut, sinceSnap := t.toNat - step.toNat + 1, firstDone := true })
  let s := s.raiseJr 0x4013 p (wordLe 8 step ++ natLe 1 (b2n keeper))
  let s := s.modRun p (fun r => { r with restored := some (t + 1) })
  match replayNext steps with
  | r :: _ => (s.modPart p (fun x => { x with state := .replaying, step := r.step, replayTo := t })).tryBegin p
  | [] => ((s.modPart p (fun x => { x with state := .replaying, replayTo := t })).replayDone p).tryBegin p

/-- The restored shard's state digest is that of the STATE record of the snapshot's step, where the logbook holds one (R449). -/
def State.shardHolds (s : State) (p : Nat) (step : DWord) (es : List Bytes) : Bool :=
  match bodies recState (recordsAt es step) with
  | b :: _ => decide (b.take 48 = s.shardDigest p)
  | [] => true

/-- RESTORE_LOAD_COMPLETE: the reads are done, and the image and state digests are checked first; a failed check is a mismatch
of the STATE record (log entry 53). What a keeper gives is in place when the command brings it (log entry 51). -/
def State.restoreLoaded (s : State) (p : Nat) (last : DWord) (digestsOk : Bool) (guest : Option GuestImage) : State :=
  match (s.part p).state, (s.log p).restoring with
  | .restoring, some (step, keeper) =>
    if keeper && guest.isNone then s else
    let s := match (s.log p).loadCid with
      | some cid => (s.commandEnds cid).modLog p (fun l => { l with loadCid := none })
      | none => s
    let s := (s.loadImage p step keeper guest).countLading p 7
    if digestsOk && s.shardHolds p step (s.restoreEntries p keeper guest) then s.beginReplay p step last keeper guest
    else (s.modPart p (fun x => { x with step := step })).replayMismatch p recState
  | _, _ => s

/-- RESTORE_LOAD_COMPLETE (R449). -/
def execRestoreLoadComplete (p : BitVec 6) (lastStep : DWord) (digestsOk : Bool) (s : State)
    (guest : Option GuestImage := none) : Out :=
  .next (s.restoreLoaded p.toNat lastStep digestsOk guest)

end Sys2Proof.Machine
end

