-- ==== Sys2Proof/Machine/Fill.lean ====
section
/-!
DEFINITION. Loss of a device (R445), the fill of a spare (R446 to R448), DECLARE_LOST, and the job control record as a
whole (R423).
-/

namespace Sys2Proof.Machine

/-- The surviving partner starts the fill of its partner. -/
def State.startFill (s : State) (p : Nat) (lost : Half) : State :=
  let now := s.hm.time
  (s.modFill (fun f => { Fill.zero with part := BitVec.ofNat 6 p, lost := lost, started := now, queued := f.queued })).claimSpare p

/-! ## Loss (R445, R448) -/

/-- The mode of a loss declared now: the verdict of the step in progress has been received, or has not (R445). -/
def State.lossMode (s : State) (p : Nat) : Byte :=
  if (s.seq p).phase ≠ .none ∧ (s.seq p).verdict.isSome then 2 else 1

/-- The partner is lost: the STATE record shows result 3 from now on. -/
def State.losePartner (s : State) (p : Nat) : State :=
  let s := s.modPart p (fun x => { x with partnerLost := true })
  match (s.seq p).phase, (s.log p).ownDigest with
  | .slack 2, some own => s.digestAlone p own
  | _, _ => s

/-- A member has sent something of its Reduce phase of this step, which waits for its late adds (R442): its ready packet, or
its part in the reduction. -/
def State.heardReduce (s : State) (p : Nat) (g m : Half) : Bool :=
  let step := (s.part p).step
  (s.seq p).ready.contains (step, g, m) || (s.seq p).reduced.contains g
    || s.reds.any (fun r => decide (r.key.part.toNat = p) && decide (r.key.group = g) && decide (r.key.step = step)
      && (r.scales.any (fun x => decide (x.1 = m)) || r.added.any (fun x => decide (x.1 = m))))

/-- Contributions to a late fold that their lost member had not added are dropped (R442): its excusals by late fold of this
step, and of the one before where nothing of its Reduce phase has come. -/
def State.dropLate (s : State) (p : Nat) (lost : Half) : State :=
  let open_ := (s.seq p).lateFolds.filter (fun x =>
    decide (x.2.2 = lost) && (decide (x.1 = (s.part p).step) || !s.heardReduce p x.2.1 lost))
  let s := open_.foldl (fun s x =>
    s.addRecord p recLateIn (wordLe 8 x.1 ++ wordLe 2 x.2.1 ++ wordLe 2 lost ++ natLe 1 1 ++ zeros 3)) s
  s.modSeq p (fun q => { q with lateFolds := q.lateFolds.filter (fun x => !open_.contains x) })

/-- The partition goes to FILL_WAIT: at once under abandon mode, its step abandoned as before the commit point, and at
the close of the step under complete mode, or of the step before the abandoned one. A halted partition stays halted. -/
def State.waitForFill (s : State) (p : Nat) (step : DWord) (mode : Byte) : State :=
  if (s.part p).state = .halted then s
  else if (mode = 2 ∨ (s.part p).step < step) ∧ (s.seq p).phase ≠ .none then s.modPart p (fun x => { x with fillPending := true })
  else
    let s := (s.flushPartition p).freshSeq p (s.part p).step
    let s := s.modSeq p (fun q => { q with phase := .none, pendingHalt := none })
    (s.modPart p (fun x => { x with applyPassed := false })).enterFillWait p

/-- Another member fills the spare: this one follows its fill. Which of the job's spares that is at, no row of the table
brings: it is one of them, and free (log entry 108). -/
def State.someSpare (s : State) (p : Nat) : Option Half × State :=
  match s.mfAux.dev.pools.filter (fun r => decide (r.part = p)) with
  | [] => (none, s)
  | r :: rs =>
    let (v, s) := s.draw
    (some (BitVec.ofNat 16 (((r :: rs).getD (v % (r :: rs).length) r).spare)), s)
def State.follow (s : State) (p : Nat) (lost : Half) (queued : List Half) : State :=
  let (spare, s) := s.someSpare p
  let s := s.modFill (fun _ =>
    { Fill.zero with part := BitVec.ofNat 6 p, lost := lost, follows := true, spare := spare, queued := queued })
  s.fillRecord p .claim

/-- A member of the job is lost, as this device declared or was told. -/
def State.deviceLost (s : State) (p : Nat) (lost : Half) (step : DWord) (mode : Byte) : State :=
  let f := s.jr.fill
  let mine := decide (f.part.toNat = p)
  let waits := decide ((s.part p).state = .fillWait) || (s.part p).fillPending
  let s := (s.recovery p 4 (wordLe 2 lost ++ [mode])).dropLate p lost
  let s := s.modPart p (fun x => { x with lostMembers := x.lostMembers.filter (fun m => decide (m ≠ lost)) ++ [lost] })
  match s.mirror? p with
  | none => s.halt p 13
  | some m =>
    if f.active ∧ f.spareRole ∧ mine ∧ f.claimedBy = some lost then s.escalate p
    else if f.active ∧ !f.spareRole ∧ mine ∧ f.lost = lost then
      if f.state = .claim then s else s.nextSpare p
    else if f.follows ∧ mine ∧ f.lost = lost then s.follow p lost f.queued
    else if waits then
      if f.lost = lost ∧ mine then s
      else (s.modFill (fun f => { f with queued := f.queued ++ [lost] })).raiseJr 0x4011 p (wordLe 2 lost)
    else
      let partner := decide (lost.toNat = m.partner)
      let s := if partner then s.losePartner p else s
      let s := s.waitForFill p step mode
      if partner then s.startFill p lost
      else s.follow p lost []

/-- This device declares a member lost: the loss notice and event 0x400D. -/
def State.declares (s : State) (p : Nat) (lost : Half) : State :=
  let mode := s.lossMode p
  let step := (s.part p).step
  let s := (s.send p (.loss lost step mode)).raiseJr 0x400D p (wordLe 2 lost ++ wordLe 8 step ++ [mode])
  s.deviceLost p lost step mode

/-- The device is lost to a partition's job: a compute die, the Gateway or the Harbourmaster has a lasting fault (R22), or
a logical hold device on which the partition has a region has one and no spare (R326). -/
def State.lostToJob (s : State) (p : Nat) : Bool :=
  s.pkg.deadDies.any (fun d => !within 2 5 d.toNat)
    || (((s.cfg? p).map (fun c => c.program.regions)).getD []).any (fun r => decide (r.kind = 3) && bit s.mem.holdLost r.unit)

/-- HEARTBEAT_TICK: mirror partners exchange heartbeats while the device is whole and its firmware may act (R22, R445,
R523). -/
def State.heartbeat (s : State) (p : Nat) : State :=
  if (s.mirror? p).isSome ∧ (s.part p).state.live ∧ !s.hmAux.escalated ∧ !s.lostToJob p ∧ !(s.part p).partnerLost then
    s.send p .heartbeat
  else s

/-- PARTNER_LOSS_TIMEOUT: nothing was heard from the partner for loss_timeout_ms. -/
def State.partnerSilent (s : State) (p : Nat) : State :=
  match s.mirror? p with
  | none => s
  | some m =>
    if !(s.part p).state.live ∨ (s.part p).partnerLost then s else s.declares p (BitVec.ofNat 16 m.partner)

/-- UNPARTNERED_LOSS_TIMEOUT: a coordinator declares a member without a partner lost whose ready packet has not come since
its own contribution was ready, excused or not; the job halts with cause 13. -/
def State.memberSilent (s : State) (p : Nat) (m : Half) : State :=
  let gs := ((s.cfg? p).map (·.groups)).getD []
  let q := s.seq p
  let quiet := gs.any (fun g => let id := BitVec.ofNat 16 g.id
    s.coordinates p id && q.ownReady.contains id && g.has m && decide (m.toNat ≠ s.me p)
      && !q.ready.contains ((s.part p).step, id, m))
  let partnered := (s.mirror? p).any (fun x => decide (x.partner = m.toNat)) && !(s.part p).partnerLost
  if !(s.part p).state.live ∨ !quiet ∨ partnered then s
  else
    let mode := s.lossMode p
    let step := (s.part p).step
    let s := (s.send p (.loss m step mode)).raiseJr 0x400D p (wordLe 2 m ++ wordLe 8 step ++ [mode])
    let s := s.modPart p (fun x => { x with lostMembers := x.lostMembers.filter (fun y => decide (y ≠ m)) ++ [m] })
    (s.recovery p 4 (wordLe 2 m ++ [mode])).halt p 13

/-- LOSS_NOTICE_RECEIVE. -/
def State.lossNotice (s : State) (p : Nat) (lost : Half) (step : DWord) (mode : Byte) : State :=
  if !(s.part p).state.live then s else s.deviceLost p lost step mode

/-- DECLARE_LOST: valid while the partition runs or is halted. -/
def State.jobDeclare (s : State) (p sess : Nat) (rec : Bytes) : Nat × State :=
  let x := s.part p
  if x.state ≠ .running ∧ x.state ≠ .halted then (1, s)
  else (0, (s.hostEntry p sess rec).declares p (BitVec.ofNat 16 (leAt rec 16 2)))

/-! ## The spare's side (R446) -/

/-- CLAIM_RECEIVE: a STANDBY spare accepts the first claim, and takes the lost coordinate. -/
def State.claimed (s : State) (c : Claim) : State :=
  let p := c.part.toNat
  if (s.part p).state = .standby ∧ !s.jr.fill.active then
    let now := s.hm.time
    let s := s.send p (.claimAnswer c.claimant true)
    let s := s.modFill (fun _ => { Fill.zero with state := .claim, spareRole := true, part := c.part, lost := c.lostLogical,
                                                  started := now, claimedBy := some c.claimant, lostPhys := c.lostPhysical })
    let s := ((s.remap p c.lostLogical.toNat s.coord).fillTo p .route).send p (.remapAck c.lostLogical (BitVec.ofNat 16 s.coord))
    s.modPart p (fun x => { x with state := .fillWait })
  else s.send p (.claimAnswer c.claimant false)

/-! ## The fill goes on -/

/-- The fill of a partition is in a state, with this device as source or spare. -/
def State.fillIn (s : State) (p : Nat) (x : FillState) : Bool :=
  decide (s.jr.fill.state = x) && decide (s.jr.fill.part.toNat = p)

/-- CLAIM_ANSWER. -/
def State.claimAnswered (s : State) (p : Nat) (accepted : Bool) : State :=
  if !s.fillIn p .claim ∨ s.jr.fill.spareRole then s
  else if !accepted then s.nextSpare p
  else
    let lost := s.jr.fill.lost
    let spare := s.spareCoord p
    let s := ((s.fillTo p .route).remap p lost.toNat spare.toNat).send p (.remap lost spare)
    s.raiseJr 0x400E p (wordLe 2 lost ++ wordLe 2 spare)

/-- CLAIM_TIMEOUT: 10 ms without an answer. -/
def State.claimUnanswered (s : State) (p : Nat) : State :=
  if s.fillIn p .claim ∧ !s.jr.fill.spareRole then s.nextSpare p else s

/-- This member follows another's fill. -/
def State.followsIn (s : State) (p : Nat) : Bool := s.jr.fill.follows && decide (s.jr.fill.part.toNat = p)

/-- REMAP_ACKNOWLEDGED: every member has rewritten its remap entry and acknowledged, and the copy runs. A member that is
neither source nor spare does so here (log entry 108). A spare claimed on a RESTORE waits for its own (R449). -/
def State.remapped (s : State) (p : Nat) : State :=
  if s.followsIn p then
    let (spare, s) := s.someSpare p
    let lost := s.jr.fill.lost
    let s := (s.modFill (fun f => { f with spare := spare })).fillRecord p .route
    let at_ := s.spareCoord p
    ((s.remap p lost.toNat at_.toNat).send p (.remapAck lost at_)).fillRecord p .copy
  else if !s.fillIn p .route then s
  else if s.jr.fill.restore then s.modFill (fun _ => Fill.zero)
  else
    let s := s.fillTo p .copy
    if s.jr.fill.spareRole then s else s.send p (.fillCopy (s.spareCoord p))

/-- MiB that a copy moves: two shards and the Manifest store (Table 12.14, COPY). -/
def State.copyMib (s : State) (p : Nat) : Nat :=
  (2 * ((s.mirror? p).map (·.shardBytes)).getD 0 + storeBytes) / mib

/-- The fill failed at this spare, which stands by again under its own coordinates (Table 12.14, FAILED to IDLE). -/
def State.spareFails (s : State) (p : Nat) : State :=
  let f := s.jr.fill
  let s := (s.fillTo p .failed).remap p f.lost.toNat f.lostPhys.toNat
  (s.modFill (fun _ => Fill.zero)).modPart p (fun x => { x with state := .standby })

/-- The spare goes on from what the copy brought (R80, R202, R273), after the checks of R447, and runs the regen POSTs of
the last closed step. Where a check fails, the fill failed at this spare, with the code in MF_REJECT (log entry 106). -/
def State.spareTakes (s : State) (p : Nat) (g : GuestImage) : State :=
  match if g.active = [] then none else s.spareChecks p g with
  | some (code, x) => (s.mfCode code x).spareFails p
  | none =>
    let (lost, me) := (s.jr.fill.lost.toNat, s.coord)
    let s := (((s.fillTo p .regen).takeStore p g).remap p lost me).takeGuest p g
    (s.modPart p (fun x => { x with closed := g.last, step := g.last + 1 })).regenAll p g.last

/-- A member that follows the fill records its changes of state; after a second mismatch the fill goes to the next spare. -/
def State.followsCopy (s : State) (p : Nat) (equal : Bool) : State :=
  let s := s.fillRecord p .verify
  if equal then s.fillRecord p .regen
  else if s.jr.fill.mismatches = 0 then (s.modFill (fun f => { f with mismatches := 1 })).fillRecord p .copy
  else
    let s := s.fillRecord p .failed
    s.follow p s.jr.fill.lost s.jr.fill.queued

/-- FILL_COPY_COMPLETE: the digests are compared; equal, and the working copies are recreated; unequal, and the copy
runs once more, then the fill failed at this spare. What the copy brought to the spare is in place when the command brings
it (log entry 51). -/
def State.copied (s : State) (p : Nat) (equal : Bool) (guest : Option GuestImage) : State :=
  if s.followsIn p then s.followsCopy p equal
  else if !s.fillIn p .copy ∨ (equal ∧ s.jr.fill.spareRole ∧ guest = none) then s
  else
    let n := s.copyMib p
    let s := (s.modFill (fun f => { f with progress := BitVec.ofNat 32 n })).fillTo p .verify
    if equal then
      match s.jr.fill.spareRole, guest with
      | true, some g => s.spareTakes p g
      | _, _ => s.fillTo p .regen
    else if s.jr.fill.mismatches = 0 then
      let s := (s.modFill (fun f => { f with mismatches := 1, progress := 0 })).fillTo p .copy
      if s.jr.fill.spareRole then s else s.send p (.fillCopy (s.spareCoord p))
    else
      if s.jr.fill.spareRole then s.spareFails p
      else ((s.fillTo p .failed).raiseJr 0x4010 p (wordLe 2 (s.spareCoord p) ++ natLe 1 FillState.verify.code)).nextSpare p

/-- The partition runs again after the fill; a halted one stays halted. -/
def State.afterFill (s : State) (p : Nat) : State :=
  if (s.part p).state = .fillWait then
    ((s.modPart p (fun x => { x with state := .running, fillPending := false })).tideStart p).tryBegin p
  else s.modPart p (fun x => { x with fillPending := false })

/-- The fill is over: the next failure in the queue, if any, is dealt with before the job goes on (R448). -/
def State.fillOver (s : State) (p : Nat) : State :=
  match s.jr.fill.queued with
  | [] => (s.modFill (fun _ => Fill.zero)).afterFill p
  | lost :: rest =>
    let s := s.modFill (fun _ => { Fill.zero with part := BitVec.ofNat 6 p, lost := lost, queued := rest })
    if (s.mirror? p).any (fun m => decide (m.partner = lost.toNat)) then (s.losePartner p).startFill p lost
    else s.follow p lost rest

/-- The partner's place is taken by the spare: its feed is the spare's. -/
def State.newPartner (s : State) (p : Nat) (r : Option PoolRec) : State :=
  s.modPart p (fun x =>
    { x with partnerLost := false, partnerFeed := none,
             cfg := x.cfg.map (fun c => { c with mirror := c.mirror.map (fun m =>
               { m with partnerFeed := (r.map (·.feed)).getD m.partnerFeed }) }) })

/-- FILL_REGEN_COMPLETE: JOIN. The source reports it and asserts the replace request; the spare enters RUNNING with a
lading state of its own (R514); every other member leaves FILL_WAIT. -/
def State.regenerated (s : State) (p : Nat) : State :=
  let f := s.jr.fill
  let found := fun (s : State) => s.modPart p (fun x => { x with lostMembers := x.lostMembers.filter (fun m => decide (m ≠ f.lost)) })
  if s.fillIn p .regen then
    let s := found s
    let s := s.fillTo p .join
    if f.spareRole then
      let s := s.ladingStart p (s.part p).step true
      let s := { s with jr := { s.jr with logbookReady := true } }
      (s.keeperSize p).fillOver p
    else
      let spare := s.spareCoord p
      let ms := (s.hm.time.toNat - f.started.toNat) / 100000
      let s := s.raiseJr 0x400F p (wordLe 2 f.lost ++ wordLe 2 spare ++ natLe 4 ms)
      let s := (s.service 9 true).send p (.join f.lost spare)
      ((s.newPartner p (s.spareNow p)).feedCheck p).fillOver p
  else if s.followsIn p then ((found s).fillRecord p .join).fillOver p
  else s

/-- FILL_QUEUE_EXPIRY: a failure still waits when fill_queue_ms ends. -/
def State.queueExpires (s : State) (p : Nat) : State :=
  if s.jr.fill.queued ≠ [] ∧ s.jr.fill.part.toNat = p then s.escalate p else s

/-! ## The job control record (R423) -/

/-- A partition of the committed Manifest. -/
def State.jobPart (s : State) (p : Nat) : Bool := s.mf.active && decide (p < 64) && (s.cfg? p).isSome

/-- The result of an action (Table 12.6), and what it does. -/
def State.jobAct (s : State) (p action sess : Nat) (rec : Bytes) : Nat × State :=
  if !s.jobPart p then (2, s)
  else if (action = 1 ∨ action = 6) ∧ !s.ready readySnapshot then (6, s)
  else
    match action with
    | 1 => s.jobStart p sess rec
    | 2 => s.jobStop p sess rec
    | 3 => s.jobRetry p sess rec
    | 4 => s.jobSkip p sess rec
    | 5 => s.jobResume p sess rec
    | 6 => s.jobRestore p sess rec
    | 7 => s.jobDeclare p sess rec
    | _ => (1, s)

/-- A job control record: the response's payload, and the state. -/
def State.job (s : State) (sess : Nat) (rec : Bytes) : Bytes × State :=
  let p := leAt rec 0 1
  let (r, s) := s.jobAct p (leAt rec 1 1) sess rec
  let x := s.part p
  (natLe 1 r ++ natLe 1 x.state.code ++ zeros 6 ++ wordLe 8 x.step, s)

/-! ## The commands -/

/-- HEARTBEAT_TICK (R445). -/
def execHeartbeatTick (p : BitVec 6) (s : State) : Out := .next (s.heartbeat p.toNat)

/-- PARTNER_LOSS_TIMEOUT (R445). -/
def execPartnerLossTimeout (p : BitVec 6) (s : State) : Out := .next (s.partnerSilent p.toNat)

/-- UNPARTNERED_LOSS_TIMEOUT (R445). -/
def execUnpartneredLossTimeout (p : BitVec 6) (member : Half) (s : State) : Out := .next (s.memberSilent p.toNat member)

/-- LOSS_NOTICE_RECEIVE (R445). -/
def execLossNoticeReceive (p : BitVec 6) (lost : Half) (step : DWord) (mode : Byte) (s : State) : Out :=
  .next (s.lossNotice p.toNat lost step mode)

/-- CLAIM_RECEIVE (R446). -/
def execClaimReceive (claim : Claim) (s : State) : Out := .next (s.claimed claim)

/-- CLAIM_ANSWER (R446). -/
def execClaimAnswer (p : BitVec 6) (accepted : Bool) (s : State) : Out := .next (s.claimAnswered p.toNat accepted)

/-- CLAIM_TIMEOUT (R446). -/
def execClaimTimeout (p : BitVec 6) (s : State) : Out := .next (s.claimUnanswered p.toNat)

/-- REMAP_ACKNOWLEDGED (R446). -/
def execRemapAcknowledged (p : BitVec 6) (s : State) : Out := .next (s.remapped p.toNat)

/-- FILL_COPY_COMPLETE (R446). -/
def execFillCopyComplete (p : BitVec 6) (digestsEqual : Bool) (s : State) (guest : Option GuestImage := none) : Out :=
  .next (s.copied p.toNat digestsEqual guest)

/-- FILL_REGEN_COMPLETE (R446). -/
def execFillRegenComplete (p : BitVec 6) (s : State) : Out := .next (s.regenerated p.toNat)

/-- FILL_QUEUE_EXPIRY (R448). -/
def execFillQueueExpiry (p : BitVec 6) (s : State) : Out := .next (s.queueExpires p.toNat)

end Sys2Proof.Machine
end

