-- ==== Sys2Proof/Machine/Security.lean ====
section
/-!
DEFINITION. Owner commands (R506 to R509): the mailbox, the checks and results, and what each command of Table 14.7
does; the opening of host sessions (R510) is in Machine/Cct.lean.
-/

namespace Sys2Proof.Machine

def State.modSec (s : State) (f : Sec → Sec) : State := { s with sec := f s.sec }

/-- The address of SEC_CONTROL. -/
def secControl : Nat := 0x00010004

/-- Values of Table 14.3. -/
def Lifecycle.code : Lifecycle → Nat
  | .factory => 0
  | .unowned => 1
  | .owned => 2
  | .retired => 3

/-- A change of lifecycle, with event 0x100B. -/
def State.toLifecycle (s : State) (x : Lifecycle) : State :=
  let old := s.sec.lifecycle
  (s.modSec (fun c => { c with lifecycle := x })).raiseHm 0x100B none (natLe 1 old.code ++ natLe 1 x.code)

/-! ## The record (Table 14.6) -/

/-- The mailbox's 512 bytes; SEC_MAILBOX0 holds bytes 0 to 3. -/
def State.mailBytes (s : State) : Bytes := (List.range 128).flatMap (fun i => wordLe 4 (s.sec.mailbox.get (fun _ => (0 : Word)) i))

/-- A record written into the mailbox. -/
def State.putMail (s : State) (b : Bytes) : State :=
  s.modSec (fun c => { c with mailbox := (wordsOf 128 (padTo 512 b)).zipIdx.foldl (fun m x =>
    Sparse.set (fun _ => (0 : Word)) m x.2 x.1) [] })

/-- The record of a command, as a host writes it. -/
def ownerRecord (cmd : Nat) (device counter : DWord) (args sig : Bytes) : Bytes :=
  natLe 4 0x434F4443 ++ natLe 1 cmd ++ [0] ++ natLe 2 args.length ++ wordLe 8 device ++ wordLe 8 counter ++ zeros 8
    ++ args ++ padTo 96 sig

/-- Bytes of arguments of each command (Table 14.7); none for a code the table does not list. -/
def ownerArgs : Nat → Option Nat
  | 1 => some 96
  | 2 => some 100
  | 3 => some 4
  | 4 => some 100
  | 5 => some 4
  | 6 => some 164
  | 7 => some 4
  | 8 => some 4
  | 9 => some 0
  | 10 => some 0
  | 11 => some 0
  | _ => none

/-- The reserved bytes of a command's arguments are 0. -/
def ownerReserved (cmd : Nat) (args : Bytes) : Bool :=
  match cmd with
  | 2 => allZero (slice args 1 3)
  | 3 => allZero (slice args 1 3)
  | 4 => allZero (slice args 1 3)
  | 5 => allZero (slice args 1 3)
  | 6 => allZero (slice args 3 1) && allZero (slice args 10 2) && decide (leAt args 1 1 < 4)
  | 7 => allZero (slice args 1 3)
  | 8 => allZero (slice args 2 2)
  | _ => true

/-- A record is well formed: magic, reserved fields, a listed command and its length of arguments. -/
def ownerFormed (r : Bytes) : Bool :=
  decide (leAt r 0 4 = 0x434F4443) && allZero (slice r 5 1) && allZero (slice r 24 8)
    && decide (ownerArgs (leAt r 4 1) = some (leAt r 6 2)) && ownerReserved (leAt r 4 1) (slice r 32 (leAt r 6 2))

/-! ## The checks (R506, R507) -/

/-- A command is valid in the lifecycle state (Table 14.7). -/
def ownerValid (x : Lifecycle) (cmd : Nat) : Bool :=
  match x with
  | .unowned => decide (cmd = 1) || decide (cmd = 11)
  | .owned => decide (cmd ≠ 1)
  | _ => false

/-- The signature verifies: by the owner key, for CLAIM by the key that it installs; DECOMMISSION in UNOWNED is
accepted unsigned over I3C. -/
def State.ownerSigned (s : State) (i3c : Bool) (r : Bytes) : Bool :=
  let cmd := leAt r 4 1
  let n := 32 + leAt r 6 2
  if cmd = 11 ∧ s.sec.lifecycle = .unowned then i3c
  else
    match (if cmd = 1 then some (slice r 32 96) else s.sec.ownerKey) with
    | some k => ecdsaVerify k (r.take n) (slice r n 96)
    | none => false

/-- A key slot is empty. -/
def KeySlot.empty? : KeySlot → Bool
  | .empty => true
  | _ => false

/-- The slot number lies within the table, and is empty where a key is to be set. -/
def slotOk (slots : List KeySlot) (n : Nat) (mustBeEmpty : Bool) : Bool :=
  match slots[n]? with
  | some x => !mustBeEmpty || x.empty?
  | none => false

/-- The SAK that the arguments deliver (R511). -/
def State.unwrapSak (s : State) (args : Bytes) : Option Bytes :=
  match ecdh s.agreementKey (slice args 28 96) with
  | none => none
  | some z => aesUnwrap (hkdf384 s.deviceId z [0x43, 0x44, 0x53, 0x41, 0x4B] 32) (slice args 124 40)

/-- What a command's arguments fail by: 0 for nothing (R507). -/
def State.ownerArgsFail (s : State) (cmd : Nat) (args : Bytes) : Nat :=
  let n := leAt args 0 1
  match cmd with
  | 2 => if slotOk s.sec.manifestKeys n true then 0 else 6
  | 3 => if slotOk s.sec.manifestKeys n false then 0 else 6
  | 4 => if slotOk s.sec.hostKeys n true then 0 else 6
  | 5 => if slotOk s.sec.hostKeys n false then 0 else 6
  | 6 => if 64 ≤ n then 6 else if (s.unwrapSak args).isNone then 8 else 0
  | 7 => if n < 64 then 0 else 6
  | 8 =>
    let v := leAt args 0 2
    if v < s.sec.minSvn.toNat ∨ s.boot.fwSvn.toNat < v ∨ 64 < v then 9 else 0
  | 10 => if s.jobRunning then 10 else 0
  | 11 => if s.jobRunning then 10 else 0
  | _ => 0

/-- The result of a record: 0, or the first check it fails (log entry 55 for their order). -/
def State.ownerResult (s : State) (i3c : Bool) (r : Bytes) : Nat :=
  let cmd := leAt r 4 1
  if !ownerFormed r then 1
  else if !ownerValid s.sec.lifecycle cmd then 5
  else if cmd = 1 ∧ !i3c then 7
  else if slice r 8 8 ≠ s.deviceId then 4
  else if leAt r 16 8 ≤ s.sec.ownerCounter.toNat then 3
  else if !s.ownerSigned i3c r then 2
  else s.ownerArgsFail cmd (slice r 32 (leAt r 6 2))

/-! ## The effects (Table 14.7) -/

/-- The keys a peer holds when one more is installed: the new one under its AN, and one other, the transmit key before
any (R512; log entry 56). -/
def Peer.install (x : Peer) (k : Sak) (txNow : Bool) : Peer :=
  let others := x.keys.filter (fun y => decide (y.an ≠ k.an))
  let keep := match others.find? (fun y => decide (x.txAn = some y.an)) with
    | some y => [y]
    | .none => others.drop (others.length - 1)
  if txNow then { x with keys := [k], txAn := some k.an }
  else { x with keys := keep ++ [k], txAn := if x.txAn = some k.an then Option.none else x.txAn }

/-- INSTALL_SAK. -/
def State.installKey (s : State) (args : Bytes) : State :=
  match s.unwrapSak args with
  | none => s
  | some sak =>
    let fl := leAt args 2 1
    let xpn := fl.testBit 1
    let k : Sak :=
      { an := BitVec.ofNat 2 (leAt args 1 1), xpn := xpn, sak := sak, ssci := BitVec.ofNat 32 (leAt args 12 4),
        salt := slice args 16 12, pn := 0 }
    s.modPeer (leAt args 0 1) (fun x =>
      { x.install k (fl.testBit 2) with mac := slice args 4 6, secured := fl.testBit 0, dropSeen := false })

/-- A key slot is revoked (event 0x1007; its kind has no number, log entry 10). -/
def State.slotRevoked (s : State) (kind slot : Nat) : State :=
  s.raiseHm 0x1007 none (natLe 1 (Config.openCode 12 kind) ++ natLe 1 slot)

/-- RELEASE erases the owner key, every slot and every SAK. -/
def Sec.released (c : Sec) : Sec :=
  { c with ownerKey := none, manifestKeys := List.replicate 4 .empty, hostKeys := List.replicate 8 .empty,
           hostCounters := List.replicate 8 none, peers := [] }

/-- What the command does. -/
def State.ownerDo (s : State) (cmd : Nat) (args : Bytes) : State :=
  let n := leAt args 0 1
  match cmd with
  | 1 => (s.modSec (fun c => { c with ownerKey := some args })).toLifecycle .owned
  | 2 => s.modSec (fun c => { c with manifestKeys := c.manifestKeys.set n (.provisioned (slice args 4 96)) })
  | 3 => (s.modSec (fun c => { c with manifestKeys := c.manifestKeys.set n .revoked })).slotRevoked 0 n
  | 4 => s.modSec (fun c => { c with hostKeys := c.hostKeys.set n (.provisioned (slice args 4 96)),
                                     hostCounters := c.hostCounters.set n none })
  | 5 => ((s.modSec (fun c => { c with hostKeys := c.hostKeys.set n .revoked })).closeSessions
      (fun x => decide (x.slot.toNat = n))).slotRevoked 1 n
  | 6 => s.installKey args
  | 7 => s.modPeer n (fun _ => Peer.none)
  | 8 => s.modSec (fun c => { c with minSvn := BitVec.ofNat 16 (leAt args 0 2) })
  | 9 => s.modSec (fun c => { c with forceNetwork := true })
  | 10 => (s.modSec Sec.released).toLifecycle .unowned
  | 11 => ((s.modSec (fun c => { c.released with idKeyHeld := false })).closeSessions (fun _ => true)).toLifecycle .retired
  | _ => s

/-- EXECUTE: the record in the mailbox is checked and carried out. A refused one changes nothing else. -/
def State.ownerExecute (s : State) (i3c : Bool) : State :=
  if s.sec.busy then s
  else
    let r := s.mailBytes
    let cmd := leAt r 4 1
    let res := s.ownerResult i3c r
    let s := s.modSec (fun c => { c with cmdResult := BitVec.ofNat 32 (res + cmd * 256) })
    if res = 0 then
      let s := s.modSec (fun c => { c with ownerCounter := BitVec.ofNat 64 (leAt r 16 8) })
      (s.ownerDo cmd (slice r 32 (leAt r 6 2))).raiseHm 0x1004 none (natLe 1 cmd ++ natLe 8 (leAt r 16 8))
    else (s.secError 1).raiseHm 0x1005 none (natLe 1 cmd ++ natLe 1 res)

/-- CLEAR_MAILBOX. -/
def State.clearMail (s : State) : State := if s.sec.busy then s else s.modSec (fun c => { c with mailbox := [] })

/-- A command of SEC_CONTROL. -/
def State.secCommand (s : State) (i3c : Bool) (cmd : Nat) : State :=
  match cmd with
  | 1 => s.ownerExecute i3c
  | 2 => s.clearMail
  | _ => s

/-- A command as a whole: its record goes into the mailbox, and EXECUTE follows. -/
def State.ownerCommand (s : State) (c : Instr) (i3c : Bool) (cmd : Nat) (device counter : DWord) (args sig : Bytes) :
    State :=
  s.guardWrite c readySecurity secControl (fun s =>
    if s.sec.busy then s else (s.putMail (ownerRecord cmd device counter args sig)).ownerExecute i3c)

/-! ## The commands -/

/-- CLAIM (R506). -/
def execClaim (i3c : Bool) (device counter : DWord) (key sig : Bytes) (s : State) : Out :=
  .next (s.ownerCommand (.claim i3c device counter key sig) i3c 1 device counter (padTo 96 key) sig)

/-- SET_MANIFEST_KEY (R506). -/
def execSetManifestKey (i3c : Bool) (device counter : DWord) (slot : Byte) (key sig : Bytes) (s : State) : Out :=
  .next (s.ownerCommand (.setManifestKey i3c device counter slot key sig) i3c 2 device counter ([slot] ++ zeros 3 ++ padTo 96 key) sig)

/-- REVOKE_MANIFEST_KEY (R509). -/
def execRevokeManifestKey (i3c : Bool) (device counter : DWord) (slot : Byte) (sig : Bytes) (s : State) : Out :=
  .next (s.ownerCommand (.revokeManifestKey i3c device counter slot sig) i3c 3 device counter ([slot] ++ zeros 3) sig)

/-- SET_HOST_KEY (R506). -/
def execSetHostKey (i3c : Bool) (device counter : DWord) (slot : Byte) (key sig : Bytes) (s : State) : Out :=
  .next (s.ownerCommand (.setHostKey i3c device counter slot key sig) i3c 4 device counter ([slot] ++ zeros 3 ++ padTo 96 key) sig)

/-- REVOKE_HOST_KEY (R510). -/
def execRevokeHostKey (i3c : Bool) (device counter : DWord) (slot : Byte) (sig : Bytes) (s : State) : Out :=
  .next (s.ownerCommand (.revokeHostKey i3c device counter slot sig) i3c 5 device counter ([slot] ++ zeros 3) sig)

/-- INSTALL_SAK (R511). -/
def execInstallSak (i3c : Bool) (device counter : DWord) (args sig : Bytes) (s : State) : Out :=
  .next (s.ownerCommand (.installSak i3c device counter args sig) i3c 6 device counter (padTo 164 args) sig)

/-- REMOVE_PEER (R506). -/
def execRemovePeer (i3c : Bool) (device counter : DWord) (peer : Byte) (sig : Bytes) (s : State) : Out :=
  .next (s.ownerCommand (.removePeer i3c device counter peer sig) i3c 7 device counter ([peer] ++ zeros 3) sig)

/-- RAISE_MIN_SVN (R506). -/
def execRaiseMinSvn (i3c : Bool) (device counter : DWord) (svn : Half) (sig : Bytes) (s : State) : Out :=
  .next (s.ownerCommand (.raiseMinSvn i3c device counter svn sig) i3c 8 device counter (wordLe 2 svn ++ zeros 2) sig)

/-- FORCE_NETWORK_BOOT (R506). -/
def execForceNetworkBoot (i3c : Bool) (device counter : DWord) (sig : Bytes) (s : State) : Out :=
  .next (s.ownerCommand (.forceNetworkBoot i3c device counter sig) i3c 9 device counter [] sig)

/-- RELEASE (R506). -/
def execRelease (i3c : Bool) (device counter : DWord) (sig : Bytes) (s : State) : Out :=
  .next (s.ownerCommand (.release i3c device counter sig) i3c 10 device counter [] sig)

/-- DECOMMISSION (R499). -/
def execDecommission (i3c : Bool) (device counter : DWord) (sig : Bytes) (s : State) : Out :=
  .next (s.ownerCommand (.decommission i3c device counter sig) i3c 11 device counter [] sig)

/-- CLEAR_MAILBOX (R506): a write of SEC_CONTROL. -/
def execClearMailbox (s : State) : Out := .next (s.guardWrite .clearMailbox readySecurity secControl State.clearMail)

end Sys2Proof.Machine
end

