-- ==== Sys2Proof/Machine/Bringup.lean ====
section
/-!
DEFINITION. Power-up, reset and boot (R35, R38, R500 to R505, R545 to R556), ready reporting (R529 to R531), management
restarts (R521 to R523), and the loss of a die or of a package lane (R22, R23, R28).
-/

namespace Sys2Proof.Machine

def State.modSupply (s : State) (f : Supply → Supply) : State := { s with supply := f s.supply }
def State.modBoot (s : State) (f : Boot → Boot) : State := { s with boot := f s.boot }
def State.modHm (s : State) (f : Hm → Hm) : State := { s with hm := f s.hm }
def State.modHmAux (s : State) (f : HmAux → HmAux) : State := { s with hmAux := f s.hmAux }

/-! ## What reset leaves (R546; log entry 16) -/

/-- A map whose entries pass through `f`, in canonical form. -/
def Sparse.remake {β : Type} [DecidableEq β] (d : Nat → β) (f : Nat → β → β) (m : Sparse β) : Sparse β :=
  m.foldl (fun r e => Sparse.set d r e.1 (f e.1 e.2)) []

/-- A cluster after reset: the map of logical to physical clusters is as last recorded (R128); a cluster in test or
taking over was a spare before (R129). -/
def Cluster.afterReset (k : Nat) (c : Cluster) : Cluster :=
  { Cluster.dflt k with
    logical := c.logical,
    state := match c.state with
      | .testing => .spare
      | .filling => .spare
      | x => x }

/-- A spare hold device after reset: one that serves stays in service. -/
def HoldSpare.afterReset : HoldSpare → HoldSpare
  | .serving j => .serving j
  | .retired => .retired
  | _ => .idle

/-- The memories after reset: the repairs are restored (R321), the contents are not kept (log entry 4). -/
def Mem.afterReset (m : Mem) : Mem :=
  { Mem.zero with
    h16 := m.h16.afterReset, h17 := m.h17.afterReset, holdRetired := m.holdRetired, remaps := m.remaps,
    banks := m.banks, unserviceable := m.unserviceable, bonds := m.bonds }

def MemDieAux.afterReset (_ : Nat) (x : MemDieAux) : MemDieAux :=
  { MemDieAux.zero with poolFree := x.poolFree, rowsRepaired := x.rowsRepaired, banksRepaired := x.banksRepaired }

/-- A die's power state after reset: its user calibration, unless RESTORE_FACTORY erased it (R532, R533), and the cuts
of the pins that are low (R556). -/
def PtDie.afterReset (restore : Bool) (cutPin cutFlow : Nat) (_ : Nat) (x : PtDie) : PtDie :=
  let y := if restore then PtDie.zero
    else { PtDie.zero with trimMv := x.trimSaved, trimSaved := x.trimSaved, trimSteps := x.trimSteps }
  { y with cutPin := cutPin, cutFlow := cutFlow }

/-- Every die's, the unlisted ones too. -/
def State.ptAfterReset (s : State) : Sparse PtDie :=
  let cutPin := if s.supply.warnLow then Pt.zero.warnCut else 0
  let cutFlow := if s.supply.flowLow then floorCut else 0
  (List.range 8).foldl (fun m d => Sparse.set (fun _ => PtDie.zero) m d
    (PtDie.afterReset s.hmAux.restorePending cutPin cutFlow d (s.ptDie d))) []

/-- The protected storage after reset (R493); the SEC_ registers and the MACsec peers are cleared. -/
def Sec.afterReset (c : Sec) : Sec :=
  { c with busy := false, error := 0, cmdResult := 0, authFails := 0, mailbox := [], peers := [] }

/-- The reasons of HM_SERVICE that are latched: bits 0 to 5 and 11 (Table 15.9). -/
def latchedReasons : Word := 0x83F

/-- The HM_ registers after reset; the always-on counter goes on. -/
def Hm.afterReset (h : Hm) : Hm :=
  { Hm.zero with
    resetCause := h.resetCause, service := h.service &&& latchedReasons, aon := h.aon, aonFrac := h.aonFrac }

/-- What protected storage and the always-on logic keep of the rest (R522, R532, R533, R546). -/
def HmAux.afterReset (a : HmAux) : HmAux :=
  { HmAux.zero with
    userLayer := a.userLayer, watchdog := a.watchdog, jtag := a.jtag }

/-- What the drives hold of a partition: entries and snapshots. -/
def PartRun.afterReset (_ : Nat) (r : PartRun) : PartRun :=
  { PartRun.zero with log := { StepLog.zero with entries := r.log.entries, slots := r.log.slots } }

/-- Every die but the always-on logic is in reset. -/
def State.deviceReset (s : State) : State :=
  { State.reset with
    pending := s.pending, free := s.free, supply := { s.supply with snapPerst := false }, sec := s.sec.afterReset,
    ptDies := s.ptAfterReset, hm := s.hm.afterReset, hmAux := s.hmAux.afterReset,
    clusters := Sparse.remake Cluster.dflt Cluster.afterReset s.clusters, mem := s.mem.afterReset,
    memAux := Sparse.remake (fun _ => MemDieAux.zero) MemDieAux.afterReset s.memAux,
    runs := Sparse.remake (fun _ => PartRun.zero) PartRun.afterReset s.runs,
    jr := { Jr.zero with guestEntries := s.jr.guestEntries, guestImages := s.jr.guestImages }, pkg := s.pkg }

/-! ## HM_RESET_CAUSE (Table 15.8) -/

/-- A cause joins those of a reset in progress, or begins a new reset; an escalation stays with the first (R523). -/
def State.addCause (s : State) (w : Word) : State :=
  s.modHm (fun h => { h with resetCause := if s.boot.phase = .held then h.resetCause ||| w
                                           else (if s.hmAux.escalated then setBit w 2 else w) })

/-! ## The start of a boot (R38, R501, R546) -/

/-- The boot of Table 14.5 starts once PWR_GOOD_OUT and RESET_N are high and no loss of REFCLK_SYS holds the device; a
RETIRED device boots no firmware (R499). -/
def State.bootStart (s : State) : State :=
  if s.boot.phase ≠ .held ∨ !s.supply.powerGood ∨ !s.supply.resetN ∨ s.supply.clkHold ∨ s.dead 0 then s
  else
    let s := s.modHm (fun h => { h with time := 0, resetCause := putBit h.resetCause 3 s.supply.tripLatched })
    let s := s.modBoot (fun b => { b with phase := if s.sec.lifecycle = .retired then .stopped else .ring })
    s.raiseHm 0x000F none (wordLe 4 s.hm.resetCause)

/-! ## Power (R545, R548, R549, R555) -/

/-- INPUT_RISE_20V: the always-on rail comes up. -/
def State.alwaysOnRises (s : State) : State :=
  if s.supply.alwaysOn then s
  else
    let s := s.modSupply (fun p => { p with alwaysOn := true, armed := true, tripLatched := false })
    let s := s.modHmAux (fun a => { a with watchdog := 0 })
    s.modHm (fun h => { h with aon := 0, aonFrac := 0, resetCause := 1 })

/-- INPUT_RISE_39V: the input stage charges the bulk capacitance. -/
def State.stageCharges (s : State) : State :=
  if !s.supply.alwaysOn ∨ s.supply.stageClosed then s
  else s.modSupply (fun p => { p with stageClosed := true, bulkCharged := true })

/-- RAILS_IN_REGULATION: PWR_GOOD_OUT is released. -/
def State.railsUp (s : State) : State :=
  if !s.supply.alwaysOn ∨ !s.supply.stageClosed ∨ !s.supply.bulkCharged ∨ s.supply.powerGood then s
  else (s.modSupply (fun p => { p with powerGood := true })).bootStart

/-- BROWN_OUT: every rail but the always-on one is off. -/
def State.brownsOut (s : State) : State :=
  if !s.supply.powerGood then s
  else
    let s := s.addCause 0
    (s.modSupply (fun p => { p with powerGood := false, bulkCharged := false, stageClosed := false })).deviceReset

/-- INPUT_OVERVOLTAGE: the input stage opens. -/
def State.stageOpens (s : State) : State := s.modSupply (fun p => { p with stageClosed := false })

/-- INPUT_STAGE_CLOSE. -/
def State.stageCloses (s : State) : State :=
  if !s.supply.alwaysOn then s else s.modSupply (fun p => { p with stageClosed := true, bulkCharged := true })

/-- ALWAYS_ON_RAIL_FALL: the always-on logic stops, and THERM_TRIP_N is released. -/
def State.alwaysOnFalls (s : State) : State :=
  let s := s.modSupply (fun p =>
    { p with alwaysOn := false, armed := false, stageClosed := false, bulkCharged := false, powerGood := false,
             tripLatched := false })
  s.deviceReset

/-! ## RESET_N and the reference clocks (R38, R546, R553) -/

/-- RESET_N_ASSERT. Its rise needs every reference clock stable (R552). -/
def State.resetFalls (s : State) : State :=
  let s := s.addCause 2
  (s.modSupply (fun p =>
    { p with resetN := false, clkHold := false, sysLost := false, ethLost := false, pcieLost := false })).deviceReset

/-- RESET_N_DEASSERT: the local time counter is cleared and, with power good, the boot starts. -/
def State.resetRises (s : State) : State :=
  if s.supply.resetN then s
  else ((s.modSupply (fun p => { p with resetN := true })).modHm (fun h => { h with time := 0 })).bootStart

/-- The snapshot link goes down, and what its drives were asked is lost (R415, R553). -/
def State.snapLinkDown (s : State) : State :=
  let s := s.modGw (fun g => { g with pcieUp := false, pcieRate := 0, pcieWidth := 0 })
  (s.resetDrive 0).resetDrive 1

/-- REFCLK_LOST. -/
def State.clockLost (s : State) (clk : RefClk) : State :=
  match clk with
  | .sys =>
    let s := s.addCause 0
    (s.modSupply (fun p => { p with sysLost := true, clkHold := true })).deviceReset
  | .eth => (s.modSupply (fun p => { p with ethLost := true })).ethDown 5
  | .pcie => (s.modSupply (fun p => { p with pcieLost := true })).snapLinkDown

/-! ## Firmware images (R500 to R503) -/

/-- The header of Table 14.4 is in range, and the image is whole. -/
def imageHeaderOk (b : Bytes) : Bool :=
  let len := leAt b 12 4
  let flags := leAt b 7 1
  decide (leAt b 0 4 = 0x57464443) && decide (leAt b 4 2 = 1) && decide (leAt b 6 1 < 2)
    && (decide (flags = 0) || (decide (flags = 1) && decide (leAt b 6 1 = 1)))
    && decide (leAt b 8 2 ≤ 64) && decide (leAt b 10 2 = 0)
    && decide (len % 4096 = 0) && decide (0 < len) && decide (len ≤ 16 * mib) && decide (len ≤ b.length)
    && decide (leAt b 24 4 < len) && allZero (slice b 28 36)

/-- The bytes of an image that its signature covers. -/
def imageSigned (b : Bytes) : Bytes := b.take (leAt b 12 4 - 96)

/-- Why an image fails verification (R501): 0 it does not; 1 its header, 2 key 0 revoked, 3 its svn, 4 its signature. -/
def State.imageFault (s : State) (b : Bytes) : Nat :=
  if !imageHeaderOk b then 1
  else if leAt b 6 1 = 0 ∧ s.sec.key0Revoked then 2
  else if leAt b 8 2 < s.sec.minSvn.toNat then 3
  else if ecdsaVerify ((s.sec.fwKeys[leAt b 6 1]?).getD []) (imageSigned b) (slice b (leAt b 12 4 - 96) 96) then 0
  else 4

/-- Event 0x1001; its reasons have no numbers (log entry 10). -/
def State.imageRefused (s : State) (b : Bytes) (why : Nat) : State :=
  s.raiseHm 0x1001 none (natLe 1 (Config.openCode 15 why) ++ natLe 1 (leAt b 6 1) ++ natLe 2 (leAt b 8 2))

/-- The first 272 bytes of the alias certificate (Table 14.2). -/
def State.aliasBody (s : State) : Bytes :=
  let owner := match s.sec.ownerKey with
    | some k => (sha384 k).take 8
    | none => zeros 8
  natLe 4 0x54434443 ++ [2] ++ natLe 1 s.sec.lifecycle.code ++ wordLe 2 s.boot.fwSvn ++ s.deviceId
    ++ publicKey s.boot.aliasSign ++ publicKey s.boot.aliasAgree ++ padTo 48 s.boot.fwDigest
    ++ owner ++ zeros 8

/-- Steps 7 and 8 of Table 14.5: the alias keys follow from the digest and the svn (R495), the certificate is signed, the
identity key is locked (R494), control passes. A key-1 image may revoke key 0 (R502). -/
def State.bootFirmware (s : State) (b : Bytes) (recovery flashOk : Bool) : State :=
  let s := if leAt b 7 1 = 1 then s.modSec (fun c => { c with key0Revoked := true }) else s
  let s := s.modBoot (fun x =>
    { x with fwDigest := sha384 (imageSigned b), fwSvn := BitVec.ofNat 16 (leAt b 8 2), fwVerified := true,
             recoveryBoot := recovery, flashRewritten := recovery && flashOk })
  let s := s.modBoot (fun x => { x with aliasSign := x.aliasScalar labelSign, aliasAgree := x.aliasScalar labelAgree })
  let body := s.aliasBody
  s.modBoot (fun x =>
    { x with aliasCert := body ++ ecdsaSign Config.idScalar body, idLocked := true, phase := .firmware })

/-- Network recovery begins (R504). -/
def State.recoveryStarts (s : State) : State :=
  ((s.modBoot (fun b => { b with phase := .recovery, retransmits := 0, attempts := 1 })).raiseHm 0x1002 none
    (wordLe 4 s.hm.recoveryServer)).tftpRequest

/-- MGMT_CLK_LOCK (R35): the sideband is ready. -/
def State.mgmtLocks (s : State) : State :=
  if s.boot.phase ≠ .ring then s
  else
    let s := s.modBoot (fun b => { b with phase := .rom })
    (s.modHm (fun h => { h with ready := setBit h.ready readySideband })).raiseHm 0x0001 none (natLe 1 readySideband)

/-- An item of protected storage fails authentication and reads as absent (R493): SEC_ERROR.store_failed, event 0x100C (its
items have no numbers, log entry 10). What the part is without it is the model's choice (log entry 111). -/
def State.storeAbsent (s : State) (x : StoreItem) : State :=
  let s := match x with
    | .factoryCalibration => s.modHmAux (fun a => { a with factoryAbsent := true })
    | .userCalibration =>
      { (s.modHmAux (fun a => { a with userLayer := false, calItems := [] })) with
        ptDies := Sparse.remake (fun _ => PtDie.zero) (fun _ d => { d with trimMv := [], trimSaved := [], trimSteps := 0 }) s.ptDies }
    | .clusterMap => { s with clusters := [] }
    | .rowRemaps => { (s.modMem (fun m => { m with remaps := [], banks := [] })) with memAux := [] }
    | .identityCert => s.modSec (fun c => { c with certAbsent := true })
    | .ownerState => s.modSec (fun c =>
        { c with ownerKey := none, lifecycle := if c.lifecycle = Lifecycle.owned then .unowned else c.lifecycle })
    | .ownerCounter => s.modSec (fun c => { c with ownerCounter := 0 })
    | .ownerKeys => s.modSec (fun c => { c with manifestKeys := List.replicate 4 .empty, hostKeys := List.replicate 8 .empty })
  let item := match x with
    | .factoryCalibration => 0
    | .userCalibration => 1
    | .clusterMap => 2
    | .rowRemaps => 3
    | .identityCert => 4
    | .ownerState => 5
    | .ownerCounter => 6
    | .ownerKeys => 7
  (s.secError 3).raiseHm 0x100C none (natLe 1 (Config.openCode 14 (1 + item)))

/-- IMAGE_VERIFY_COMPLETE: steps 3 to 8 of Table 14.5. A forced network boot does not read the flash (Table 14.7). -/
def State.imageVerified (s : State) (kat : Bool) (b : Bytes) (absent : List StoreItem) : State :=
  let s0 := s
  let s := absent.foldl State.storeAbsent s
  if s0.boot.phase ≠ .rom then s0
  else if !kat then
    (s0.modBoot (fun x => { x with phase := .stopped })).raiseHm 0x100C none (natLe 1 (Config.openCode 14 0))
  else if s.sec.forceNetwork then (s.modSec (fun c => { c with forceNetwork := false })).recoveryStarts
  else
    let why := s.imageFault b
    if why = 0 then s.bootFirmware b false false else ((s.secError 0).imageRefused b why).recoveryStarts

/-! ## Network recovery (R504, R505) -/

/-- A new attempt. -/
def State.newAttempt (s : State) : State :=
  (s.modBoot (fun b => { b with phase := .recovery, retransmits := 0, attempts := b.attempts + 1 })).tftpRequest

/-- TFTP_RETRANSMIT_TIMEOUT. -/
def State.tftpTimeout (s : State) : State :=
  if s.boot.phase ≠ .recovery then s
  else if s.boot.retransmits < 5 then (s.modBoot (fun b => { b with retransmits := b.retransmits + 1 })).tftpRequest
  else s.modBoot (fun b => { b with phase := .abandoned })

/-- RECOVERY_IMAGE_RECEIVED. -/
def State.recovered (s : State) (b : Bytes) (flashOk : Bool) : State :=
  if s.boot.phase ≠ .recovery ∨ !s.gw.ethUp then s
  else
    let why := s.imageFault b
    if why = 0 then
      (s.bootFirmware b true flashOk).raiseHm 0x1003 none (natLe 2 (leAt b 8 2) ++ natLe 1 (b2n flashOk))
    else (s.imageRefused b why).newAttempt

/-! ## Ready bits (R529 to R531) -/

/-- A bit of HM_READY is set, with event 0x0001. -/
def State.setReady (s : State) (b : Nat) : State :=
  (s.modHm (fun h => { h with ready := setBit h.ready b })).raiseHm 0x0001 none (natLe 1 b)

/-- The bits of Table 15.3 that a bring-up sets by itself; mrp and cct come with eth, coord with its register. -/
def bringupBit (b : Nat) : Bool := within 1 5 b || decide (b = 8) || within 12 23 b

/-- The condition of Table 15.3 that the model holds. -/
def State.mayReady (s : State) (b : Nat) : Bool :=
  decide (s.boot.phase = .firmware) && bringupBit b && !bit s.hm.ready b && !bit s.hm.readyFail b
    && (match b with
      | 4 => !s.dead gwIndex
      | 5 => s.gw.ethUp
      | 8 => s.gw.pcieUp && decide (s.working ≠ [])
      | _ =>
        if within 12 15 b then !s.dead (ldIndex (b - 12))
        else if within 16 23 b then !s.dead (cdIndex (b - 16))
        else true)

/-- What comes with a ready bit: held events (R503), the flow stop of a pin that is low (R556), SNAP_PERST_N, mrp and
cct, the links of a link die (R368), the replacements of a compute die that a reset cut short (R129) and its bond and
hold-link training (R532). -/
def State.readied (s : State) (b : Nat) : State :=
  match b with
  | 1 => s.deliverHeld
  | 3 => if s.supply.flowLow then s.startQuiesce 0 else s
  | 4 => s.modSupply (fun p => { p with snapPerst := true })
  | 5 => (s.setReady 6).setReady 7
  | _ =>
    if within 12 15 b then
      (List.range 4).foldl (fun s i =>
        let k := 4 * (b - 12) + i
        if (s.link k).state = .dark then s.linkEnable k else s) s
    else if within 16 23 b then (s.calibrate (82 + (b - 16)))
    else s

/-- FUNCTION_READY. The hm bit delivers what was held before its own event; a compute die's bit waits until its
replacements are complete, whose spares are tested first (R129). -/
def State.functionReady (s : State) (b : Nat) : State :=
  if !s.mayReady b then s
  else if b = 1 then
    let s := (s.modHm (fun h => { h with ready := setBit h.ready 1 })).readied 1
    s.raiseHm 0x0001 none (natLe 1 1)
  else
    let s := if within 16 23 b then s.resumeSlipway (b - 16) else s
    if within 16 23 b ∧ s.slipwayOpen (b - 16) then s else (s.setReady b).readied b

/-! ## Loss of a die (R22, R23) -/

/-- The links of a link die are dark. -/
def State.darken (s : State) (ld : Nat) : State :=
  (List.range 4).foldl (fun s i =>
    s.modLink (4 * ld + i) (fun l => { l with state := .dark, retraining := false })) s

/-- LINK_DIE_LOSS: its links are missing neighbours, and SERVICE_N is asserted. -/
def State.linkDieLost (s : State) (ld : Nat) : State :=
  let s := { s with pkg := { s.pkg with
    linkDies := if s.pkg.linkDies.contains (BitVec.ofNat 2 ld) then s.pkg.linkDies else s.pkg.linkDies ++ [BitVec.ofNat 2 ld],
    deadDies := if s.dead (ldIndex ld) then s.pkg.deadDies else s.pkg.deadDies ++ [BitVec.ofNat 4 (ldIndex ld)] } }
  let s := s.modHm (fun h => { h with ready := clearBit h.ready (readyLink ld) })
  let hit := s.mfAux.dev.ports.filter (fun r => s.portActive r && r.links.any (fun k => decide (k / 4 = ld)))
  ((hit.foldl State.portPart (s.darken ld)).discoveryStep).service 5 true

/-- BRINGUP_FAILED (R529, R531). -/
def State.bringupFails (s : State) (b : Nat) (cause : Byte) : State :=
  if s.boot.phase = .held ∨ s.boot.phase = .stopped ∨ bit s.hm.ready b ∨ bit s.hm.readyFail b ∨ 24 ≤ b then s
  else
    let s := s.modHm (fun h => { h with readyFail := setBit h.readyFail b })
    let s := (s.raiseHm 0x0002 none (natLe 1 b ++ [cause])).service 11 true
    if within 12 15 b then s.linkDieLost (b - 12) else s

/-- DEVICE_LOSS: a compute die, the Gateway or the Harbourmaster is out; its functions are ready no more. A lost link
die is the case of R23. -/
def State.dieLost (s : State) (die : Nat) : State :=
  if within 2 5 die then s.linkDieLost (die - 2)
  else if 14 ≤ die then s
  else
    let s := { s with pkg := { s.pkg with
      deadDies := if s.dead die then s.pkg.deadDies else s.pkg.deadDies ++ [BitVec.ofNat 4 die] } }
    let r := s.hm.ready
    let left := if die = 0 then 0
      else if die = 1 then r &&& ~~~(0x1F0 : Word)
      else clearBit r (readyCompute (die - 6))
    s.modHm (fun h => { h with ready := left })

/-! ## Package lanes (R28) -/

/-- Links of Table 1.4, in its order; the first eight are near-tier bonds, which have no spare lanes. -/
def packageLinks : Nat := 84

/-- Lanes lost of a package link in a direction. -/
def State.lanesLost (s : State) (link : Nat) (up : Bool) : Nat :=
  ((s.pkg.lanes.find? (fun x => decide (x.1 = link) && decide (x.2.1 = up))).map (fun x => x.2.2)).getD 0

/-- A data bond of a stack fails (R324): its pseudo-channel has 128 of them. -/
def State.bondFails (s : State) (stack bond : Nat) : State :=
  let b := (stack, bond / 128 % 256, bond % 128)
  if s.mem.bonds.contains b then s
  else
    let s := s.modMem (fun m => { m with bonds := m.bonds ++ [b] })
    (s.raiseDie 0x9011 (cdIndex stack) none (natLe 1 stack ++ natLe 1 b.2.1 ++ natLe 1 b.2.2)).service 1 true

/-- The device reports a link below full width (R28): the replace request, again where it stands already (log entry
57). -/
def State.belowWidth (s : State) : State :=
  if bit s.hm.service 3 then s.raiseHm 0x0005 none (wordLe 4 s.hm.service) else s.service 3 true

/-- PACKAGE_LANE_FAULT: two spares of each direction take a lane's place; a further loss leaves the link below full
width, and asserts SERVICE_N; that of a hold link is a lasting fault of its device, which can be read while the link has a
wire left (R325), unless a spare serves in its place, whose own link then counts (R326). A near-tier bond has no spare lanes (R28). -/
def State.packageLane (s : State) (link : Nat) (up : Bool) (lane : Nat) : State :=
  if packageLinks ≤ link then s
  else if link < 8 then s.bondFails link lane
  else
    let n := s.lanesLost link up + 1
    let rest := s.pkg.lanes.filter (fun x => !(decide (x.1 = link) && decide (x.2.1 = up)))
    let s := { s with pkg := { s.pkg with lanes := rest ++ [(link, up, n)] } }
    if n ≤ 2 then s
    else if link < 24 then
      if s.mem.replaced (link - 8) then s.belowWidth else s.belowWidth.holdFault (link - 8) (decide (n < 1026))
    else s.belowWidth.spareFault (decide (28 ≤ link)) (link - 24)

/-! ## Management restart (R521 to R523) -/

/-- 10 s of local time. -/
def ticks10s : Nat := 1000000000

/-- The restart that follows another within 10 s escalates (R523). -/
def State.escalateMgmt (s : State) (cause : Nat) : State :=
  let s := s.modHmAux (fun a => { a with escalated := true })
  let s := s.modHm (fun h => { h with resetCause := setBit h.resetCause 2 })
  s.raiseHm 0x0004 none (natLe 1 (Config.openCode 13 cause))

/-- A management restart starts (R522): 0 by the watchdog, 1 by an uncorrectable error. -/
def State.mgmtRestart (s : State) (cause : Nat) : State :=
  if s.boot.phase ≠ .firmware ∨ s.hmAux.restarting then s
  else
    let now := s.hm.time
    let second := match s.hmAux.lastRestart with
      | some t => decide (now.toNat ≤ t.toNat + ticks10s)
      | none => false
    let recent := s.hmAux.restartTimes.filter (fun t => decide (now.toNat < t.toNat + ticks24h)) ++ [now]
    let s := s.modHmAux (fun a =>
      { a with restarting := true, watchdog := satAdd a.watchdog 1, lastRestart := some now, restartTimes := recent })
    let s := s.modPtAux (fun a => { a with profiles := [], tideHeld := a.tideHeld || a.tideOn })
    let s := if s.ptAux.tideOn then s.tideStop else s
    let s := s.raiseHm 0x0003 none (natLe 1 (Config.openCode 13 cause) ++ wordLe 4 s.hmAux.watchdog)
    let s := if 3 ≤ recent.length then s.service 10 true else s
    if second then s.escalateMgmt cause else s

/-- MANAGEMENT_RESTART_COMPLETE: held events are delivered, register accesses are answered, and slack water that stood
still goes on (R31, R522). -/
def State.mgmtBack (s : State) : State :=
  if !s.hmAux.restarting then s
  else
    let s := (s.modHmAux (fun a => { a with restarting := false })).deliverHeld
    (s.parts.map (·.1)).foldl (fun s p => (s.digestsMeet p).excessDone p) s

/-- SERVICE_MANAGEMENT_CLEAR: 24 hours after the last restart (Table 15.9). -/
def State.mgmtServiceClear (s : State) : State := s.service 10 false

/-! ## The commands -/

/-- INPUT_RISE_20V (R545). -/
def execInputRise20V (s : State) : Out := .next s.alwaysOnRises
/-- INPUT_RISE_39V (R545). -/
def execInputRise39V (s : State) : Out := .next s.stageCharges
/-- RAILS_IN_REGULATION (R545). -/
def execRailsInRegulation (s : State) : Out := .next s.railsUp
/-- BROWN_OUT (R548). -/
def execBrownOut (s : State) : Out := .next s.brownsOut
/-- INPUT_OVERVOLTAGE (R549). -/
def execInputOvervoltage (s : State) : Out := .next s.stageOpens
/-- INPUT_STAGE_CLOSE (R549). -/
def execInputStageClose (s : State) : Out := .next s.stageCloses
/-- REFCLK_LOST (R553). -/
def execRefclkLost (clk : RefClk) (s : State) : Out := .next (s.clockLost clk)
/-- RESET_N_ASSERT (R546). -/
def execResetNAssert (s : State) : Out := .next s.resetFalls
/-- RESET_N_DEASSERT (R501, R38). -/
def execResetNDeassert (s : State) : Out := .next s.resetRises
/-- MGMT_CLK_LOCK (R35). -/
def execMgmtClkLock (s : State) : Out := .next s.mgmtLocks
/-- IMAGE_VERIFY_COMPLETE (R501). -/
def execImageVerifyComplete (kat : Bool) (image : Bytes) (s : State) (absent : List StoreItem := []) : Out :=
  .next (s.imageVerified kat image absent)
/-- TFTP_RETRANSMIT_TIMEOUT (R504). -/
def execTftpRetransmitTimeout (s : State) : Out := .next s.tftpTimeout
/-- TFTP_ATTEMPT_RESTART (R504). -/
def execTftpAttemptRestart (s : State) : Out := .next (if s.boot.phase = .abandoned then s.newAttempt else s)
/-- RECOVERY_IMAGE_RECEIVED (R505). -/
def execRecoveryImageReceived (image : Bytes) (flashOk : Bool) (s : State) : Out := .next (s.recovered image flashOk)
/-- FUNCTION_READY (R529). -/
def execFunctionReady (bit : BitVec 5) (s : State) : Out := .next (s.functionReady bit.toNat)
/-- BRINGUP_FAILED (R529). -/
def execBringupFailed (bit : BitVec 5) (cause : Byte) (s : State) : Out := .next (s.bringupFails bit.toNat cause)
/-- WATCHDOG_EXPIRY (R522). -/
def execWatchdogExpiry (s : State) : Out := .next (s.mgmtRestart 0)
/-- MANAGEMENT_MEMORY_UE (R521). -/
def execManagementMemoryUe (s : State) : Out := .next (s.mgmtRestart 1)
/-- LINK_DIE_LOSS (R23). -/
def execLinkDieLoss (ld : BitVec 2) (s : State) : Out := .next (s.linkDieLost ld.toNat)
/-- PACKAGE_LANE_FAULT (R28). -/
def execPackageLaneFault (link : Nat) (upward : Bool) (s : State) (lane : Nat := 0) : Out :=
  .next (s.packageLane link upward lane)
/-- ALWAYS_ON_RAIL_FALL (R555). -/
def execAlwaysOnRailFall (s : State) : Out := .next s.alwaysOnFalls
/-- SERVICE_MANAGEMENT_CLEAR (R539). -/
def execServiceManagementClear (s : State) : Out := .next s.mgmtServiceClear
/-- DEVICE_LOSS (R22). -/
def execDeviceLoss (die : BitVec 4) (s : State) : Out := .next (s.dieLost die.toNat)

end Sys2Proof.Machine
end

