-- ==== Sys2Proof/Machine/Mgmt.lean ====
section
/-!
DEFINITION. The board's side of the Harbourmaster (15): board inputs (R527, R528), features at run time (R535, R536),
HM_CONTROL (R533, R534), the output pins (R538, R539, R554) and the JTAG port (R498).
-/

namespace Sys2Proof.Machine

/-! ## Board inputs (R527, R528) -/

/-- Event 0x000B, where a write changed a value. -/
def State.inputChanged (s : State) (addr : Nat) (old new : Word) : State :=
  if old = new then s else s.raiseHm 0x000B none (natLe 4 addr ++ wordLe 4 old ++ wordLe 4 new)

/-- The registers of Table 15.2. -/
def boardAddr : BoardInput → Nat
  | .coord => 0x30
  | .feed => 0x34
  | .linkMedium => 0x38
  | .straps => 0x3C
  | .recoveryServer => 0x40
  | .ipv4 => 0x00050070

/-- The bits that each register holds. -/
def boardMask : BoardInput → Word
  | .coord => 0x1FFFF
  | .feed => 0xFFFF
  | .straps => 1
  | _ => 0xFFFFFFFF

def State.input (s : State) : BoardInput → Word
  | .coord => s.hm.boardCoord
  | .feed => s.hm.feed
  | .linkMedium => s.hm.linkMedium
  | .straps => s.hm.straps
  | .recoveryServer => s.hm.recoveryServer
  | .ipv4 => s.gw.ipv4

def State.setInput (s : State) (i : BoardInput) (v : Word) : State :=
  match i with
  | .coord => s.modHm (fun h => { h with boardCoord := v })
  | .feed => s.modHm (fun h => { h with feed := v })
  | .linkMedium => s.modHm (fun h => { h with linkMedium := v })
  | .straps => s.modHm (fun h => { h with straps := v })
  | .recoveryServer => s.modHm (fun h => { h with recoveryServer := v })
  | .ipv4 => s.modGw (fun g => { g with ipv4 := v })

/-- What a changed input starts: a valid coordinate sets its ready bit (Table 15.3), a feed is compared with the
partners' (R441). -/
def State.inputActs (s : State) (i : BoardInput) : State :=
  match i with
  | .coord => if bit s.hm.boardCoord 16 && !s.ready readyCoord then s.setReady readyCoord else s
  | .feed => s.feedCheckAll
  | _ => s

/-- A board input is written; the coordinate is locked from the first commit (R68). -/
def State.boardWrite (s : State) (i : BoardInput) (value : Word) : State :=
  let new := value &&& boardMask i
  let old := s.input i
  if i = .coord ∧ s.mfAux.locked then s
  else ((s.setInput i new).inputChanged (boardAddr i) old new).inputActs i

/-- HM_TRAY_TEMP is written. -/
def State.trayTempWrite (s : State) (value : Word) : State :=
  let new := value &&& 0xFFFF
  let old := s.hm.trayTemp
  (s.modHm (fun h => { h with trayTemp := new, trayTempSet := true })).inputChanged 0x44 old new

/-- HM_TRAY_FLOW is written: a tray reading with the temperatures that stand (R528). -/
def State.trayFlowWrite (s : State) (value : Word) : State :=
  let new := value &&& 0xFFF
  let old := s.hm.trayFlow
  let ordered := s.hm.trayTempSet
  let s := s.modHm (fun h =>
    { h with trayFlow := new, trayTempSet := false, error := if ordered then h.error else setBit h.error 3 })
  let s := s.inputChanged 0x48 old new
  s.takeTray { inlet := bits s.hm.trayTemp 7 0, outlet := bits s.hm.trayTemp 15 8, flow := new.toNat }

/-- PT_HEADROOM is written (R468); it is a board input (Table 15.2). -/
def ptHeadroom : Nat := 0x00020010
def State.headroomWrite (s : State) (value : Word) : State :=
  (s.inputChanged ptHeadroom s.pt.headroom (value &&& 0xFFFF)).setHeadroom value

def ptEnvelope : Nat := 0x0002000C

/-! ## Features (R535, R536) -/

/-- Addresses of HM_SIDE_CFGn and of a timer's registers. -/
def hmSide (n : Nat) : Nat := 0xA0 + 4 * n
def hmTimer (t : Nat) : Nat := 0x100 + 16 * t

/-- LEAK_IN_ASSERT: a pin whose LEAK_IN runs was low for 1 ms; the sequence of R483 follows from the same source code
as in Table 13.16. -/
def State.leak (s : State) (pin : Nat) : State :=
  let w := s.side pin
  if sideActive w && decide (sideFeatureOf w = featLeakIn) then
    let s := s.modSupply (fun p => { p with sideIn := putBit p.sideIn pin (bit w 16) })
    let s := s.raiseHm 0x0010 none (natLe 1 pin)
    if s.ptUp then s.startQuiesce 2 else s
  else s

/-- PT_INPUT_POWER, PT_CAP and PT_THERM_MAX (Table 13.11). -/
def State.inputPowerReg (s : State) : Nat := s.pt.measuredW % 65536 + s.pt.estimatedMean % 65536 * 65536
def State.capReg (s : State) : Nat :=
  if s.ptUp then s.pt.limits.cap.2 % 65536 + s.pt.limits.cap.1 % 8 * 65536 else 0
def State.thermMaxReg (s : State) : Nat :=
  let h := s.hottest
  h.1 % 256 + h.2.1 % 256 * 256 + h.2.2 % 256 * 65536

/-- The record of TELEMETRY_TICK (Table 15.6). -/
def State.telemetry (s : State) : Bytes :=
  padTo 64 (wordLe 8 s.hm.time ++ natLe 4 s.inputPowerReg ++ natLe 4 s.capReg ++ natLe 4 s.thermMaxReg
    ++ wordLe 4 s.hm.ready)

/-- TIMER_OUT: a pulse on the pin, when the pin serves this timer; a pin taken by another feature is a conflict. -/
def State.timerOut (s : State) (t : Nat) : State :=
  let pin := bits (s.timer t).target 18 16
  let w := s.side pin
  if !sideActive w then s
  else if sideFeatureOf w = featTimerOut then (if bits w 19 17 = t then s.pulse pin else s)
  else (s.modTimer t (fun x => { x with cfg := setBit x.cfg 19 })).conflict 1 pin featTimerOut (sideFeatureOf w)

/-- TELEMETRY_TICK: a class-8 message of the event concentrator to a marked-drop berth. -/
def State.telemetryOut (s : State) (t : Nat) : State :=
  let n := bits (s.timer t).target 13 0
  (s.berthWrite none n
    { serves := 0, producer := BitVec.ofNat 16 idConcentrator, cls := 8, step := s.berthStep n, bytes := s.telemetry }).2

/-- TIMER_EXPIRY: the timer goes on or stops, and its feature acts. -/
def State.timerExpires (s : State) (t : Nat) : State :=
  let x := s.timer t
  if !bit x.cfg 18 then s
  else
    let s := s.modTimer t (fun x =>
      if bit x.cfg 16 then { x with count := x.period }
      else { x with cfg := clearBit x.cfg 18, count := 0 })
    if bits x.cfg 7 0 = featTelemetry then s.telemetryOut t else s.timerOut t

/-! ## HM_CONTROL (R533, R534) -/

def hmControl : Nat := 0x8

/-- RESTORE_FACTORY. -/
def State.restoreUser (s : State) : State :=
  if s.jobRunning then s.modHm (fun h => { h with error := setBit h.error 1 })
  else (s.modHmAux (fun a => { a with userLayer := false, restorePending := true, calItems := [] })).raiseHm 0x000A none []

/-- CLEAR_FAULT_COUNTS. -/
def State.clearCounts (s : State) : State := s.modHmAux (fun a => { a with faultCounts := [] })

/-- A command of HM_CONTROL. -/
def State.hmCommand (s : State) (cmd : Nat) : State :=
  match cmd with
  | 1 => s.restoreUser
  | 2 => s.clearCounts
  | _ => s

/-! ## Output pins (Table 16.6) -/

/-- EVENT_N is low: events are pending (R538), an escalation (R523), or the loss of REFCLK_SYS (R553). -/
def State.eventLow (s : State) : Bool :=
  decide (s.events.pending ≠ 0) || s.hmAux.escalated || (s.supply.clkHold && decide (s.boot.phase = .held))

/-- SERVICE_N is low (R539, R523); it is released until the hm ready bit. -/
def State.serviceLow (s : State) : Bool := (s.ready readyHm && decide (s.hm.service ≠ 0)) || s.hmAux.escalated

/-- PWR_GOOD_OUT and THERM_TRIP_N are low. -/
def State.powerGoodLow (s : State) : Bool := !s.supply.powerGood
def State.thermTripLow (s : State) : Bool := s.supply.tripLatched

/-- The level that an output feature gives its SIDE pin between pulses; the pin's sense may be inverted. -/
def State.sideLow (s : State) (n : Nat) : Option Bool :=
  let w := s.side n
  if !sideActive w then none
  else
    match sideFeatureOf w with
    | 0x12 => some (decide ((s.part (sideOwner w)).state = .halted) != bit w 16)
    | 0x13 => some (decide (s.jr.fill.state ≠ .idle) != bit w 16)
    | 0x11 => some (bit w 16)
    | 0x14 => some (bit w 16)
    | _ => none

/-! ## JTAG (R498) -/

/-- The instruction register: outside FACTORY every code but the four decodes as BYPASS. -/
def State.jtagScan (s : State) (ins : JtagIns) : State :=
  let i := match ins with
    | .other c => if s.sec.lifecycle = .factory then JtagIns.other c else .bypass
    | x => x
  s.modHmAux (fun a => { a with jtag := i })

/-- What the instruction acts as: EXTEST drives the pins only while RESET_N is low. -/
def State.jtagActs (s : State) : JtagIns :=
  if s.hmAux.jtag = .extest ∧ s.supply.resetN then .bypass else s.hmAux.jtag

/-! ## The commands -/

/-- BOARD_INPUT_CHANGE (R527). -/
def execBoardInputChange (input : BoardInput) (value : Word) (s : State) : Out :=
  .next (s.guardWrite (.boardInputChange input value) readySideband (boardAddr input) (fun s => s.boardWrite input value))

/-- TRAY_READING (R528). -/
def execTrayReading (flow : Word) (s : State) : Out :=
  .next (s.guardWrite (.trayReading flow) readySideband 0x48 (fun s => s.trayFlowWrite flow))

/-- HEADROOM_WRITE (R468). -/
def execHeadroomWrite (value : Word) (s : State) : Out :=
  .next (s.guardWrite (.headroomWrite value) readyPower ptHeadroom (fun s => s.headroomWrite value))

/-- ENVELOPE_WRITE (R455). -/
def execEnvelopeWrite (value : Word) (s : State) : Out :=
  .next (s.guardWrite (.envelopeWrite value) readyPower ptEnvelope (fun s => s.setEnvelope value))

/-- SIDE_CFG_WRITE (R536). -/
def execSideCfgWrite (pin : BitVec 3) (value : Word) (s : State) : Out :=
  .next (s.guardWrite (.sideCfgWrite pin value) readySideband (hmSide pin.toNat) (fun s => s.requestSide pin.toNat value))

/-- TIMER_CFG_WRITE (R536). -/
def execTimerCfgWrite (timer : BitVec 3) (value : Word) (s : State) : Out :=
  .next (s.guardWrite (.timerCfgWrite timer value) readySideband (hmTimer timer.toNat) (fun s => s.requestTimer timer.toNat value))

/-- LEAK_IN_ASSERT (R535). -/
def execLeakInAssert (pin : BitVec 3) (s : State) : Out := .next (s.leak pin.toNat)

/-- TIMER_EXPIRY (R535). -/
def execTimerExpiry (timer : BitVec 3) (s : State) : Out := .next (s.timerExpires timer.toNat)

/-- RESTORE_FACTORY (R533): a write of HM_CONTROL. -/
def execRestoreFactory (s : State) : Out := .next (s.guardWrite .restoreFactory readySideband hmControl State.restoreUser)

/-- CLEAR_FAULT_COUNTS (R534): a write of HM_CONTROL. -/
def execClearFaultCounts (s : State) : Out := .next (s.guardWrite .clearFaultCounts readySideband hmControl State.clearCounts)

/-- EVENT_RECORD_ACCEPT (R40): the oldest record of a die arrives from the management ring. -/
def execEventRecordAccept (die : BitVec 4) (s : State) : Out := .next (s.acceptFrom die)

/-- JTAG_INSTRUCTION (R498). -/
def execJtagInstruction (ins : JtagIns) (s : State) : Out := .next (s.jtagScan ins)

end Sys2Proof.Machine
end

