-- ==== Sys2Proof/Machine/RegMap.lean ====
section
/-!
DEFINITION. The management address map (R8, R10, R11): blocks and windows, which offsets registers occupy, which ready
bit serves each, and the registers that a read clears (R12, R14).
-/

namespace Sys2Proof.Machine

/-! ## Blocks (Table 0.3) -/

/-- A block or a window of a block; `gap` is where no block lies. -/
inductive Block where
  | hm
  | sec
  | cert (alias_ : Bool)
  | secPart (p : Nat)
  | pt
  | ptDie (d : Nat)
  | ptPart (p : Nat)
  | mf
  | jr
  | jrPart (p : Nat)
  | gw
  | link (k : Nat)
  | fabric
  | berth (n : Nat)
  | cluster (die phys : Nat)
  | mem
  | memDie (d : Nat)
  | stash (p : Nat)
  | gap
  deriving DecidableEq, Repr

/-- Block and offset of an address of the low blocks. -/
def placeLow (a : Nat) : Block × Nat :=
  let o := a % 0x10000
  match a / 0x10000 with
  | 0 => (.hm, o)
  | 1 =>
    if o < 0x800 then (.sec, o)
    else if o < 0xC00 then (.cert false, o - 0x800)
    else if o < 0x1000 then (.cert true, o - 0xC00)
    else if o < 0x1400 then (.secPart ((o - 0x1000) / 16), o % 16)
    else (.gap, 0)
  | 2 =>
    if o < 0x800 then (.pt, o)
    else if o < 0xA00 then (.ptDie ((o - 0x800) / 64), o % 64)
    else if within 0x1000 0x17FF o then (.ptPart ((o - 0x1000) / 32), o % 32)
    else (.gap, 0)
  | 3 => (.mf, o)
  | 4 =>
    if o < 0x1000 then (.jr, o)
    else if o < 0x5000 then (.jrPart ((o - 0x1000) / 256), o % 256)
    else (.gap, 0)
  | 5 => (.gw, o)
  | _ => (.gap, 0)

/-- Block and offset of an address. -/
def place (a : Nat) : Block × Nat :=
  if a % 4 ≠ 0 then (.gap, 0)
  else if a < 0x00060000 then placeLow a
  else if within 0x00100000 0x0010FFFF a then
    (if within 0x00100800 0x00100FFF a then (.fabric, a % 0x1000) else (.link (a / 0x1000 % 16), a % 0x1000))
  else if within 0x01000000 0x010FFFFF a then (.berth ((a - 0x01000000) / 64), a % 64)
  else if within 0x10000000 0x17FFFFFF a then (.cluster (a / 0x01000000 % 16) (a / 0x10000 % 256), a % 0x10000)
  else if within 0x20000000 0x20000FFF a then (.mem, a % 0x1000)
  else if within 0x20010000 0x20017FFF a then (.memDie (a / 0x1000 % 16), a % 0x1000)
  else if within 0x2F000000 0x2F0007FF a then (.stash ((a - 0x2F000000) / 32), a % 32)
  else (.gap, 0)

/-- Offsets that registers occupy (Tables 2.10, 3.12, 7.6, 8.14, 8.15, 9.7, 10.11, 10.12, 11.8, 12.17, 12.18, 13.11 to
13.13, 14.11, 14.12, 15.8). -/
def occupied : Block → Nat → Bool
  | .hm, o => within 0 0xD8 o || within 0x100 0x17C o
  | .sec, o => within 0 0x28 o || within 0x30 0x5C o || within 0x60 0x8C o || within 0x100 0x2FC o
  | .cert _, o => within 0 0x16C o
  | .secPart _, _ => true
  | .pt, o => within 0 0x74 o
  | .ptDie _, o => within 0 0x20 o
  | .ptPart _, o => within 0 0x18 o
  | .mf, o => within 0 0x4C o || within 0xB0 0x114 o
  | .jr, o => within 0 0x28 o
  | .jrPart _, o => within 0 0x94 o
  | .gw, o => within 0 0x88 o
  | .link _, o => within 0 0x54 o
  | .fabric, o => within 0x800 0x838 o
  | .berth _, _ => true
  | .cluster .., o => within 0 0x88 o && decide (o ≠ 0x14) && decide (o ≠ 0x3C)
  | .mem, o => within 0 0x2C o
  | .memDie _, o => within 0 0x68 o
  | .stash _, _ => true
  | .gap, _ => false

/-- The ready bit that serves a register (R529, R530): the HM_ block, SEC_STATUS and GW_IPV4 from the sideband on. The
memory registers that belong to no die come with the maps of protected storage (log entry 58). -/
def readyFor : Block → Nat → Nat
  | .hm, _ => readySideband
  | .sec, o => if o = 0 then readySideband else readySecurity
  | .cert _, _ => readySecurity
  | .secPart _, _ => readySecurity
  | .pt, _ => readyPower
  | .ptDie _, _ => readyPower
  | .ptPart _, _ => readyPower
  | .mf, _ => readyHm
  | .jr, _ => readyHm
  | .jrPart _, _ => readyHm
  | .gw, o => if o = 0x70 then readySideband else readyGateway
  | .link k, _ => readyLink (k / 4)
  | .fabric, _ => readyLink 0
  | .berth _, _ => readyGateway
  | .cluster d _, _ => readyCompute d
  | .mem, _ => readyHm
  | .memDie d, _ => readyCompute d
  | .stash _, _ => readyHm
  | .gap, _ => readySideband

/-- Registers that the sideband reaches while the boot ROM runs (R526). -/
def romVisible : Block → Nat → Bool
  | .hm, _ => true
  | .sec, o => decide (o = 0)
  | .gw, o => decide (o = 0x70)
  | _, _ => false

/-! ## Registers that a read clears -/

/-- A field of code RC: how it is read and set, and whether it counts cycles or other timing that no command states, so
that what it holds is more than the commands gave, by a free amount (log entry 9). -/
structure RcReg where
  get   : State → Word
  set   : State → Word → State
  timed : Bool

def rc (get : State → Word) (set : State → Word → State) : RcReg := { get := get, set := set, timed := false }
def rcTimed (get : State → Word) (set : State → Word → State) : RcReg := { get := get, set := set, timed := true }

def rcCluster (die phys : Nat) (timed : Bool) (get : ClCounters → Word) (set : ClCounters → Word → ClCounters) : RcReg :=
  { get := fun s => get (s.cluster die phys).counters,
    set := fun s v => s.modCluster die phys (fun c => { c with counters := set c.counters v }), timed := timed }
def rcMemDie (d : Nat) (timed : Bool) (get : MemDie → Word) (set : MemDie → Word → MemDie) : RcReg :=
  { get := fun s => get (s.memDie d), set := fun s v => s.modMemDie d (fun x => set x v), timed := timed }
def rcMemAux (d : Nat) (timed : Bool) (get : MemDieAux → Word) (set : MemDieAux → Word → MemDieAux) : RcReg :=
  { get := fun s => get (s.memDieAux d), set := fun s v => s.modMemDieAux d (fun x => set x v), timed := timed }
def rcCache (d : Nat) (get : YardCache → Word) (set : YardCache → Word → YardCache) : RcReg :=
  rc (fun s => get (s.cache d)) (fun s v => s.modCache d (fun x => set x v))
def rcLink (k : Nat) (timed : Bool) (get : LinkCounters → Word) (set : LinkCounters → Word → LinkCounters) : RcReg :=
  { get := fun s => get (s.linkCtr k), set := fun s v => s.modLinkCtr k (fun x => set x v), timed := timed }
def rcGw (timed : Bool) (get : GwAux → Word) (set : GwAux → Word → GwAux) : RcReg :=
  { get := fun s => get s.gwAux, set := fun s v => s.modGwAux (fun x => set x v), timed := timed }
def rcPart (p : Nat) (get : Part → Word) (set : Part → Word → Part) : RcReg :=
  rc (fun s => get (s.part p)) (fun s v => s.modPart p (fun x => set x v))
def rcStash (p : Nat) (get : Stash → Word) (set : Stash → Word → Stash) : RcReg :=
  rc (fun s => get (s.stash p)) (fun s v => s.modStash p (fun x => set x v))

/-- The RC registers of a cluster (Table 3.12). -/
def rcOfCluster (d c o : Nat) : Option RcReg :=
  match o with
  | 0x60 => some (rcCluster d c true (·.stallOperand) (fun x v => { x with stallOperand := v }))
  | 0x64 => some (rcCluster d c true (·.stallAnchor) (fun x v => { x with stallAnchor := v }))
  | 0x68 => some (rcCluster d c true (·.stallDrain) (fun x v => { x with stallDrain := v }))
  | 0x6C => some (rcCluster d c true (·.stallHazard) (fun x v => { x with stallHazard := v }))
  | 0x70 => some (rcCluster d c true (·.stallGate) (fun x v => { x with stallGate := v }))
  | 0x74 => some (rcCluster d c true (·.stallContext) (fun x v => { x with stallContext := v }))
  | 0x78 => some (rcCluster d c false (·.tilesDone) (fun x v => { x with tilesDone := v }))
  | 0x7C => some (rcCluster d c false (·.storeCe) (fun x v => { x with storeCe := v }))
  | 0x84 => some (rcCluster d c false (·.swaps) (fun x v => { x with swaps := v }))
  | 0x88 => some (rcCluster d c false (·.rowRetries) (fun x v => { x with rowRetries := v }))
  | _ => none

/-- Those of a die's memories (Table 8.15). -/
def rcOfMemDie (d o : Nat) : Option RcReg :=
  match o with
  | 0x0C => some (rcMemDie d false (·.refreshBusy) (fun x v => { x with refreshBusy := v }))
  | 0x10 => some (rcMemDie d false (·.nearCe) (fun x v => { x with nearCe := v }))
  | 0x14 => some (rcMemDie d false (·.nearUe) (fun x v => { x with nearUe := v }))
  | 0x1C => some (rcMemDie d false (·.holdCe) (fun x v => { x with holdCe := v }))
  | 0x20 => some (rcMemDie d false (·.holdUe) (fun x v => { x with holdUe := v }))
  | 0x24 => some (rcMemDie d false (·.holdRetry) (fun x v => { x with holdRetry := v }))
  | 0x28 => some (rcMemDie d false (·.yardCe) (fun x v => { x with yardCe := v }))
  | 0x2C => some (rcMemDie d false (·.yardUe) (fun x v => { x with yardUe := v }))
  | 0x44 => some (rcCache d (·.hits) (fun x v => { x with hits := v }))
  | 0x48 => some (rcCache d (·.misses) (fun x v => { x with misses := v }))
  | 0x4C => some (rcCache d (·.writebacks) (fun x v => { x with writebacks := v }))
  | 0x50 => some (rcMemAux d false (·.addSectors) (fun x v => { x with addSectors := v }))
  | 0x54 => some (rcMemAux d false (·.addInexact) (fun x v => { x with addInexact := v }))
  | 0x58 => some (rcMemAux d false (·.addInvalid) (fun x v => { x with addInvalid := v }))
  | _ => none

/-- Those of a link (Table 10.11). -/
def rcOfLink (k o : Nat) : Option RcReg :=
  match o with
  | 0x24 => some (rcLink k false (·.fecCorrected) (fun x v => { x with fecCorrected := v }))
  | 0x28 => some (rcLink k false (·.crcErrors) (fun x v => { x with crcErrors := v }))
  | 0x2C => some (rcLink k false (·.replays) (fun x v => { x with replays := v }))
  | 0x34 => some (rcLink k false (·.retrains) (fun x v => { x with retrains := v }))
  | 0x48 => some (rcLink k true (·.creditStall) (fun x v => { x with creditStall := v }))
  | 0x4C => some (rcLink k false (·.class0Over) (fun x v => { x with class0Over := v }))
  | 0x50 => some (rcLink k false (·.class0Max) (fun x v => { x with class0Max := v }))
  | _ => none

/-- Those of the fabric (Table 10.12). -/
def rcOfFabric (o : Nat) : Option RcReg :=
  match o with
  | 0x824 => some (rc (fun s => s.kx.redInvalid) (fun s v => s.modKx (fun x => { x with redInvalid := v })))
  | 0x828 => some (rc (fun s => s.kx.redInexact) (fun s v => s.modKx (fun x => { x with redInexact := v })))
  | 0x82C => some (rc (fun s => s.kx.redExcused) (fun s v => s.modKx (fun x => { x with redExcused := v })))
  | 0x838 => some (rc (fun s => s.kx.noRoute) (fun s v => s.modKx (fun x => { x with noRoute := v })))
  | _ => none

/-- Those of the Gateway (Table 11.8). -/
def rcOfGw (o : Nat) : Option RcReg :=
  match o with
  | 0x34 => some (rcGw false (·.fetchRetries) (fun x v => { x with fetchRetries := v }))
  | 0x48 => some (rcGw false (·.fcsErrors) (fun x v => { x with fcsErrors := v }))
  | 0x4C => some (rcGw true (·.fecUncorrected) (fun x v => { x with fecUncorrected := v }))
  | 0x50 => some (rcGw false (·.pfcRxPause) (fun x v => { x with pfcRxPause := v }))
  | 0x54 => some (rcGw false (·.cnpRx) (fun x v => { x with cnpRx := v }))
  | 0x58 => some (rcGw false (·.macsecDrops) (fun x v => { x with macsecDrops := v }))
  | 0x68 => some (rcGw false (·.nvmeRetries) (fun x v => { x with nvmeRetries := v }))
  | 0x88 => some (rc (fun s => s.gw.passDrops) (fun s v => s.modGw (fun g => { g with passDrops := v })))
  | _ => none

/-- Those of the power controller (Tables 13.11, 13.12). -/
def rcOfPt (o : Nat) : Option RcReg :=
  match o with
  | 0x60 => some (rc (fun s => s.ptAux.bursts) (fun s v => s.modPtAux (fun x => { x with bursts := v })))
  | 0x64 => some (rc (fun s => s.ptAux.disagrees) (fun s v => s.modPtAux (fun x => { x with disagrees := v })))
  | 0x68 => some (rc (fun s => s.ptAux.warnCount) (fun s v => s.modPtAux (fun x => { x with warnCount := v })))
  | 0x6C => some (rc (fun s => s.ptAux.warnTime) (fun s v => s.modPtAux (fun x => { x with warnTime := v })))
  | _ => none
def rcOfPtDie (d o : Nat) : Option RcReg :=
  match o with
  | 0x10 => some (rc (fun s => (s.ptDie d).stretch) (fun s v => s.modPtDie d (fun x => { x with stretch := v })))
  | 0x14 => some (rc (fun s => (s.ptDie d).droop) (fun s v => s.modPtDie d (fun x => { x with droop := v })))
  | _ => none

/-- Those of a partition's journal window, of its stash and of a berth (Tables 12.18, 7.6, 9.7). -/
def rcOfJrPart (p o : Nat) : Option RcReg :=
  match o with
  | 0x24 => some (rcPart p (·.rewinds) (fun x v => { x with rewinds := v }))
  | 0x28 => some (rcPart p (·.excusals) (fun x v => { x with excusals := v }))
  | 0x2C => some (rcPart p (·.lateFolds) (fun x v => { x with lateFolds := v }))
  | 0x30 => some (rcPart p (·.drops) (fun x v => { x with drops := v }))
  | _ => none
def rcOfStash (p o : Nat) : Option RcReg :=
  match o with
  | 0x0C => some (rcStash p (·.versionWaits) (fun x v => { x with versionWaits := v }))
  | 0x10 => some (rcStash p (·.spaceWaits) (fun x v => { x with spaceWaits := v }))
  | 0x14 => some (rcStash p (·.waitTime) (fun x v => { x with waitTime := v }))
  | 0x18 => some (rcStash p (·.created) (fun x v => { x with created := v }))
  | 0x1C => some (rcStash p (·.released) (fun x v => { x with released := v }))
  | _ => none
def rcOfBerth (n o : Nat) : Option RcReg :=
  match o with
  | 0x34 => some (rc (fun s => (s.berth n).drops) (fun s v => s.modBerth n (fun b => { b with drops := v })))
  | 0x38 => some (rc (fun s => (s.berth n).enqueued) (fun s v => s.modBerth n (fun b => { b with enqueued := v })))
  | _ => none

/-- The RC register at a place. A read of HM_EVLOG_LOST also ends the first loss (R538). -/
def rcAt : Block → Nat → Option RcReg
  | .hm, 0xC0 => some (rc (fun s => s.events.lost) (fun s v =>
      { s with events := { s.events with lost := v, lostSeen := false } }))
  | .hm, 0xD8 => some (rcTimed (fun s => s.hmAux.memCe) (fun s v => s.modHmAux (fun a => { a with memCe := v })))
  | .sec, 0x20 => some (rc (fun s => s.sec.authFails) (fun s v => s.modSec (fun c => { c with authFails := v })))
  | .pt, o => rcOfPt o
  | .ptDie d, o => rcOfPtDie d o
  | .mf, 0x3C => some (rc (fun s => s.mfAux.tagFallback) (fun s v => s.modMfAux (fun a => { a with tagFallback := v })))
  | .jrPart p, o => rcOfJrPart p o
  | .gw, o => rcOfGw o
  | .link k, o => rcOfLink k o
  | .fabric, o => rcOfFabric o
  | .berth n, o => rcOfBerth n o
  | .cluster d c, o => rcOfCluster d c o
  | .mem, 0x24 => some (rc (fun s => s.mem.regionFaults) (fun s v => s.modMem (fun m => { m with regionFaults := v })))
  | .mem, 0x28 => some (rc (fun s => s.mem.addRefused) (fun s v => s.modMem (fun m => { m with addRefused := v })))
  | .memDie d, o => rcOfMemDie d o
  | .stash p, o => rcOfStash p o
  | _, _ => none

end Sys2Proof.Machine
end

