-- ==== Sys2Proof/Machine/RegRead.lean ====
section
/-!
DEFINITION. What a register shows (R6, R10, R12): the tables' fields, computed from the state. A register that shows a
quantity of time, which no command states, shows a free value (log entry 9).
-/

namespace Sys2Proof.Machine

/-- Words of a 64-bit quantity. -/
def lowWord (v : Nat) : Word := BitVec.ofNat 32 v
def highWord (v : Nat) : Word := BitVec.ofNat 32 (v / 2 ^ 32)

/-- Word `i` of a byte string; byte 0 in bits [7:0]. -/
def bytesWord (b : Bytes) (i : Nat) : Word := BitVec.ofNat 32 (leAt b (4 * i) 4)

/-- A register word from a number. -/
def reg (v : Nat) : Word := BitVec.ofNat 32 v

/-- Bits for the elements that satisfy `p`. -/
def maskOf (n : Nat) (p : Nat → Bool) : Nat := (List.range n).foldl (fun w i => w + flagAt (p i) i) 0

/-! ## HM_ (Tables 15.8, 15.9) -/

/-- The selected record of the event log. -/
def State.selected (s : State) : Option LogRec := s.events.log[bits s.events.sel 11 0]?

/-- A word of HM_EVLOG_DATA; the record counts as read. -/
def State.logData (s : State) (i : Nat) : Word × State :=
  match s.selected with
  | none => (0, s)
  | some r =>
    (bytesWord r.ev.bytes i,
      { s with events := { s.events with log := modifyAt s.events.log (bits s.events.sel 11 0) (fun x => { x with read := true }) } })

/-- µs to a timer's next expiry. -/
def State.timerLeft (s : State) (t : Nat) : Word × State :=
  let x := s.timer t
  if bit x.cfg 18 then
    let (v, s) := s.draw
    (reg (v % (x.count.toNat + 1)), s)
  else (0, s)

def State.hmStatus (s : State) : Word :=
  reg (flagAt s.hmAux.restarting 0 + flagAt s.hmAux.escalated 1 + flagAt s.romRuns 2)

def State.calStatus (s : State) : Word :=
  reg (flagAt (!s.hmAux.factoryAbsent) 0 + flagAt s.hmAux.userLayer 1 + flagAt s.hmAux.restorePending 2 + s.hmAux.calWrites * 256)

/-- A register of a timer. -/
def State.peekTimer (s : State) (o : Nat) : Word × State :=
  let t := (o - 0x100) / 16
  match o % 16 / 4 with
  | 0 => ((s.timer t).cfg, s)
  | 1 => ((s.timer t).period, s)
  | 2 => ((s.timer t).target, s)
  | _ => s.timerLeft t

def State.peekHm (s : State) (o : Nat) : Word × State :=
  match o with
  | 0x00 => (reg (0x6400 + Config.stepping.toNat * 65536), s)
  | 0x04 => (s.hmStatus, s)
  | 0x0C => (s.hm.error, s)
  | 0x10 => (s.hm.ready, s)
  | 0x14 => (s.hm.readyFail, s)
  | 0x18 => (s.hm.resetCause, s)
  | 0x1C => (s.hm.service, s)
  | 0x20 => (lowWord s.hm.time.toNat, s.modHm (fun h => { h with timeHi := highWord h.time.toNat }))
  | 0x24 => (s.hm.timeHi, s)
  | 0x28 => (lowWord s.hm.aon.toNat, s.modHm (fun h => { h with aonHi := highWord h.aon.toNat }))
  | 0x2C => (s.hm.aonHi, s)
  | 0x30 => (s.hm.boardCoord, s)
  | 0x34 => (s.hm.feed, s)
  | 0x38 => (s.hm.linkMedium, s)
  | 0x3C => (s.hm.straps, s)
  | 0x40 => (s.hm.recoveryServer, s)
  | 0x44 => (s.hm.trayTemp, s)
  | 0x48 => (s.hm.trayFlow, s)
  | 0x4C => (s.events.mask, s)
  | 0x50 => (s.events.pending, s)
  | 0x54 => (s.events.berth, s)
  | 0x58 => (reg s.events.log.length, s)
  | 0x5C => (s.events.sel, s)
  | 0xC4 => (s.hmAux.conflict, s)
  | 0xC8 => (s.hmAux.faultTransient, s)
  | 0xCC => (s.hmAux.faultCfg, s)
  | 0xD0 => (s.calStatus, s)
  | 0xD4 => (s.hmAux.watchdog, s)
  | o =>
    if within 0x60 0x9C o then s.logData ((o - 0x60) / 4)
    else if within 0xA0 0xBC o then (s.side ((o - 0xA0) / 4), s)
    else if 0x100 ≤ o then s.peekTimer o
    else (0, s)

/-! ## SEC_ (Tables 14.11 to 14.13) -/

/-- Two bits of SEC_KEY_SLOTS. -/
def KeySlot.code : KeySlot → Nat
  | .empty => 0
  | .provisioned _ => 1
  | .revoked => 2

def slotBits (xs : List KeySlot) : Nat := xs.foldr (fun x n => x.code + 4 * n) 0

def State.secStatus (s : State) : Word :=
  reg (s.sec.lifecycle.code + flagAt s.boot.fwVerified 2 + flagAt s.boot.recoveryBoot 3 + flagAt s.boot.flashRewritten 4
    + flagAt s.sec.ownerKey.isSome 5 + flagAt s.sec.busy 6)

def State.peekSec (s : State) (o : Nat) : Word :=
  let c := s.sec
  match o with
  | 0x00 => s.secStatus
  | 0x08 => c.error
  | 0x0C => c.cmdResult
  | 0x10 => lowWord c.ownerCounter.toNat
  | 0x14 => highWord c.ownerCounter.toNat
  | 0x18 => reg (c.minSvn.toNat + s.boot.fwSvn.toNat * 65536)
  | 0x1C => reg (slotBits c.manifestKeys + slotBits c.hostKeys * 256 + flagAt c.key0Revoked 24)
  | 0x24 => reg ((c.peers.filter (fun (e : Nat × Peer) => decide (e.2.keys ≠ []))).length
      + (c.peers.filter (fun (e : Nat × Peer) => e.2.secured)).length * 256)
  | 0x28 => 0x01700170
  | o =>
    if within 0x30 0x5C o then bytesWord s.boot.fwDigest ((o - 0x30) / 4)
    else if within 0x60 0x8C o then bytesWord s.idDigest ((o - 0x60) / 4)
    else if within 0x100 0x2FC o then c.mailbox.get (fun _ => (0 : Word)) ((o - 0x100) / 4)
    else 0

def State.peekSecPart (s : State) (p o : Nat) : Word :=
  let l := s.lading p
  match o with
  | 0 => l.cfg
  | 8 => reg (flagAt l.kept 0 + flagAt (s.ladingPending p) 1 + flagAt l.overflow 2)
  | 12 => l.last
  | _ => 0

/-! ## PT_ (Tables 13.11 to 13.14) -/

def State.ptStatus (s : State) : Word :=
  let x := s.pt
  reg (flagAt s.supply.warnLow 0 + flagAt s.supply.flowLow 1 + flagAt (decide (x.flowRow ≠ .idle)) 2
    + flagAt (decide (x.flowRow = .quiesced)) 3 + flagAt x.burst 4 + flagAt x.disagree 5 + flagAt x.sensorFault 6
    + flagAt s.learning 7 + flagAt s.ptAux.tideOn 8 + flagAt s.supply.tripLatched 9 + flagAt s.ptAux.trayStale 10)

def State.coolantReg (s : State) : Word :=
  let r := s.ptAux.tray.getLastD { inlet := 0, outlet := 0, flow := 0 }
  reg (r.inlet + r.outlet * 256 + r.flow * 65536 + flagAt s.ptAux.trayStale 28)

/-- Energy in mJ, from a count in µJ. -/
def milli (uj : DWord) : Nat := uj.toNat / 1000

def State.peekPt (s : State) (o : Nat) : Word :=
  let a := s.ptAux
  match o with
  | 0x00 => s.ptStatus
  | 0x08 => s.pt.error
  | 0x0C => s.pt.envelope
  | 0x10 => s.pt.headroom
  | 0x14 => reg s.capReg
  | 0x18 => reg (s.pt.ceiling % 65536)
  | 0x1C => reg s.inputPowerReg
  | 0x20 => reg (s.pt.milliV % 65536 + s.pt.deciA % 4096 * 65536)
  | 0x24 => s.pt.warn
  | 0x28 => s.pt.config
  | 0x2C => a.tideCfg
  | 0x30 => a.tidePool
  | 0x34 => a.tideParam
  | 0x38 => reg (a.tideAlloc % 65536 + a.tideReserve % 65536 * 65536)
  | 0x3C => s.coolantReg
  | 0x40 => reg s.thermMaxReg
  | 0x44 => lowWord (milli a.energy)
  | 0x48 => highWord (milli a.energy)
  | 0x4C => lowWord (milli a.shared)
  | 0x50 => highWord (milli a.shared)
  | 0x54 => a.berthSel
  | 0x58 => lowWord (milli (a.berthEnergy.get (fun _ => (0 : DWord)) (bits a.berthSel 13 0)))
  | 0x5C => highWord (milli (a.berthEnergy.get (fun _ => (0 : DWord)) (bits a.berthSel 13 0)))
  | 0x70 => a.quiesceUs
  | 0x74 => a.droopCfg
  | _ => 0

/-- The hottest of some spots: protective temperature and prediction. -/
def State.hottestOf (s : State) (xs : List Nat) : Nat × Nat :=
  xs.foldl (fun m i => if m.1 < (s.spot i).protective then ((s.spot i).protective, (s.spot i).prediction) else m) (0, 0)

/-- The suspect pairs of a die (PT_DIE_SUSPECT). -/
def State.suspects (s : State) (d : Nat) : Nat :=
  maskOf 16 (fun h => (s.spot (16 * d + h)).suspect) + maskOf 4 (fun n => (s.spot (128 + 4 * d + n)).suspect) * 65536
    + maskOf 2 (fun n => (s.spot (160 + 2 * d + n)).suspect) * 2 ^ 20

/-- The duty in force: none while the gate is closed by a trip or an escalation. -/
def State.dutyReg (s : State) (d : Nat) : Nat := if s.gateOpen d then (s.ptDie d).duty else 0

def State.peekPtDie (s : State) (d o : Nat) : Word :=
  let x := s.ptDie d
  match o with
  | 0x00 => reg (x.mhz % 2048 + x.milliV % 1024 * 2048 + s.dutyReg d * 2 ^ 21 + flagAt x.stretched 30)
  | 0x04 => reg x.fmax
  | 0x08 => reg (x.estimateW % 65536 + x.railW % 65536 * 65536)
  | 0x0C =>
    let j := s.hottestOf ((List.range 16).map (fun h => 16 * d + h))
    let n := s.hottestOf ((List.range 4).map (fun h => 128 + 4 * d + h))
    let h := s.hottestOf [160 + 2 * d, 161 + 2 * d]
    reg (j.1 % 256 + j.2 % 256 * 256 + n.1 % 256 * 65536 + h.1 % 256 * 2 ^ 24)
  | 0x18 => reg (x.pointV d 7 % 1024 + factoryV d 7 % 1024 * 1024 + x.trimSteps * 2 ^ 20)
  | 0x1C => reg x.roAge.toNat
  | 0x20 => reg (s.suspects d)
  | _ => 0

def State.peekPtPart (s : State) (p o : Nat) : Word :=
  let e := (s.run p).energy
  match o with
  | 0x00 => lowWord e.stepUj.toNat
  | 0x04 => highWord e.stepUj.toNat
  | 0x08 => e.perToken
  | 0x0C => lowWord (milli (e.energy + e.running))
  | 0x10 => highWord (milli (e.energy + e.running))
  | 0x14 => lowWord e.tokens.toNat
  | 0x18 => highWord e.tokens.toNat
  | _ => 0

/-! ## MF_ (Tables 2.10 to 2.14) -/

/-- Values of Table 2.7 and of MF_STATE.amend_state. -/
def LoadState.code : LoadState → Nat
  | .empty => 0
  | .receiving => 1
  | .verifying => 2
  | .checking => 3
  | .loaded => 4
  | .committed => 5
  | .rejected => 6
def AmendState.code : AmendState → Nat
  | .none => 0
  | .receiving => 1
  | .checking => 2
  | .staged => 3
  | .committing => 4
  | .rejected => 5
  | .retiring => 6

def State.mfState (s : State) : Word :=
  reg (s.mf.loadState.code + s.mf.amendState.code * 16 + flagAt s.mf.reproducible 8 + flagAt s.jobRunning 9
    + flagAt s.mf.active 10 + s.mf.partCount * 65536)

/-- Pins or timers that the active Manifest claims. -/
def State.claimMask (s : State) (kind : Nat) : Nat :=
  maskOf 8 (fun n => s.mfAux.dev.claims.any (fun c => decide (c.kind = kind) && decide (c.index = n)))

def State.peekMf (s : State) (o : Nat) : Word × State :=
  let m := s.mf
  match o with
  | 0x00 => (lowWord m.activeId.toNat, s)
  | 0x04 => (highWord m.activeId.toNat, s)
  | 0x08 => (s.mfState, s)
  | 0x10 => (reg m.incoming.length, s)
  | 0x14 => (m.reject, s)
  | 0x18 => (m.warn, s)
  | 0x1C => (lowWord m.shadowId.toNat, s)
  | 0x20 => (highWord m.shadowId.toNat, s)
  | 0x24 => (lowWord m.pend.toNat, s)
  | 0x28 => (highWord m.pend.toNat, s)
  | 0x2C => (lowWord m.done.toNat, s)
  | 0x30 => (highWord m.done.toNat, s)
  | 0x34 => (reg (m.tag.toNat + m.prevTag.toNat * 256 + flagAt m.prevLive 16), s)
  | 0x38 =>
    (reg s.oldInflight, s)
  | 0x40 => (s.mfAux.commitTime, s)
  | 0x44 => (s.mfAux.loadCount, s)
  | 0x48 => (s.mfAux.amendCount, s)
  | 0x4C => (m.rejectDetail, s)
  | 0x110 => (reg (s.claimMask 1), s)
  | 0x114 => (reg (s.claimMask 2), s)
  | o =>
    if within 0xB0 0xDC o then (bytesWord s.mfAux.digest ((o - 0xB0) / 4), s)
    else if within 0xE0 0x10C o then (bytesWord s.mfAux.shadowDigest ((o - 0xE0) / 4), s)
    else (0, s)

/-! ## JR_ (Tables 12.17 to 12.20) -/

/-- The journal keeper serves (Table 15.3). -/
def State.jrUp (s : State) : Bool := s.ready readyHm

def State.fillReg (s : State) : Word :=
  let f := s.jr.fill
  if f.active then reg (f.state.code + flagAt f.spareRole 3 + f.lost.toNat * 16) else 0

def State.peekJr (s : State) (o : Nat) : Word :=
  let j := s.jr
  match o with
  | 0x00 => reg (flagAt j.logbookReady 0 + flagAt j.keeperLink 1 + flagAt j.guest.isSome 2 + flagAt j.fill.active 3)
  | 0x08 => j.error
  | 0x0C => if s.jrUp then reg s.logFree else 0
  | 0x10 => lowWord j.entries.toNat
  | 0x14 => highWord j.entries.toNat
  | 0x18 => s.fillReg
  | 0x1C => j.fill.progress
  | 0x20 => (match j.guest with
      | some g => reg (g.toNat + 65536)
      | none => 0)
  | 0x24 => lowWord j.guestSnap.toNat
  | 0x28 => highWord j.guestSnap.toNat
  | _ => 0

def State.mirrorReg (s : State) (p : Nat) : Word :=
  let x := s.part p
  reg (((s.mirror? p).map (·.partner)).getD 0 + flagAt x.paired 16 + flagAt x.lastEqual 17 + flagAt x.mismatch 18
    + flagAt x.sharedFeed 19 + flagAt x.partnerLost 20)

def State.jrState (s : State) (p : Nat) : Word :=
  let x := s.part p
  reg (x.state.code + (if x.state = .halted then x.cause.toNat * 16 else 0) + flagAt x.latePending 12
    + flagAt x.applyPassed 13 + flagAt x.skipped 14)

def State.peekJrPart (s : State) (p o : Nat) : Word :=
  let x := s.part p
  match o with
  | 0x00 => s.jrState p
  | 0x04 => lowWord x.step.toNat
  | 0x08 => highWord x.step.toNat
  | 0x0C => lowWord x.closed.toNat
  | 0x10 => highWord x.closed.toNat
  | 0x14 => lowWord x.snap.toNat
  | 0x18 => highWord x.snap.toNat
  | 0x1C => x.snapStatus
  | 0x20 => s.mirrorReg p
  | 0x34 => lowWord x.replayTo.toNat
  | 0x38 => highWord x.replayTo.toNat
  | 0x3C => x.cadence
  | 0x90 => if x.cfg.isSome then lowWord s.mf.jobId.toNat else 0
  | 0x94 => if x.cfg.isSome then highWord s.mf.jobId.toNat else 0
  | o =>
    if within 0x40 0x5C o then bytesWord x.detect ((o - 0x40) / 4)
    else if within 0x60 0x8C o then bytesWord x.chain ((o - 0x60) / 4)
    else 0

/-! ## GW_ (Tables 11.8, 11.9, 11.13) -/

def State.gwStatus (s : State) : Word :=
  let g := s.gw
  reg (flagAt g.ethUp 0 + flagAt g.anDone 1 + flagAt (s.sec.peers.any (fun (e : Nat × Peer) => e.2.secured)) 2
    + flagAt g.pcieUp 3 + g.pcieRate.toNat * 16 + g.pcieWidth.toNat * 64)

/-- Commands of logbook or snapshot outstanding. -/
def State.nvmeBusy (s : State) (logbook : Bool) : Bool :=
  [0, 1].any (fun d => (s.drive d).cmds.any (fun c => c.logbook == logbook))

def State.nvmeStatus (s : State) : Word :=
  reg (flagAt s.gw.bifurcated 0 + flagAt (decide (s.gw.drive0.state = .ready)) 1
    + flagAt (decide (s.gw.drive1.state = .ready)) 2 + flagAt (s.nvmeBusy true) 3
    + flagAt (s.nvmeBusy false || s.parts.any (fun e => decide (e.2.state = .restoring))) 4)

def State.sessionsReg (s : State) : Word :=
  let open_ := (s.gw.sessions.filter (fun (e : Nat × Session) => e.2.isOpen)).length
  reg (open_ + (match s.mf.owner with
    | some o => o.toNat * 256 + 2 ^ 14
    | none => 0))

def State.peekGw (s : State) (o : Nat) : Word :=
  let g := s.gw
  let a := s.gwAux
  match o with
  | 0x00 => s.gwStatus
  | 0x08 => g.error
  | 0x0C => lowWord Config.macAddress.toNat
  | 0x10 => highWord Config.macAddress.toNat
  | 0x14 => g.prioCfg
  | 0x18 => g.etsLo
  | 0x1C => g.etsHi
  | 0x20 => s.sessionsReg
  | 0x24 => reg ((g.qps.filter (fun (e : Nat × Qp) => decide (e.2.state = .ready))).length
      + (g.qps.filter (fun (e : Nat × Qp) => decide (e.2.state = .error))).length * 65536)
  | 0x28 => reg (g.reads.length % 512 + flagAt (s.runs.any (fun e => e.2.seq.waitsData.isSome)) 16)
  | 0x2C => lowWord a.fetchBytes.toNat
  | 0x30 => highWord a.fetchBytes.toNat
  | 0x38 => lowWord a.rxFrames.toNat
  | 0x3C => highWord a.rxFrames.toNat
  | 0x40 => lowWord a.txFrames.toNat
  | 0x44 => highWord a.txFrames.toNat
  | 0x5C => s.nvmeStatus
  | 0x60 => lowWord a.nvmeWritten.toNat
  | 0x64 => highWord a.nvmeWritten.toNat
  | 0x6C => a.faultTransient
  | 0x70 => g.ipv4
  | 0x84 => g.passCfg
  | o => if within 0x74 0x80 o then g.ipv6.get (fun _ => (0 : Word)) ((o - 0x74) / 4) else 0

/-! ## KX_ (Tables 10.11 to 10.15) -/

/-- Values of Table 10.4 and of KX_DISCOVERY.state. -/
def LinkState.code : LinkState → Nat
  | .dark => 0
  | .detect => 1
  | .equalise => 2
  | .lock => 3
  | .rtt => 4
  | .ident => 5
  | .check => 6
  | .active => 7
  | .fault => 8
def DiscState.code : DiscState → Nat
  | .idle => 0
  | .running => 1
  | .complete => 2
  | .waiting => 3
  | .degraded => 4
  | .halted => 5

def State.linkStatus (s : State) (k : Nat) : Word :=
  let l := s.link k
  let lanes := if within 4 7 l.state.code then l.lanes else 0
  let port := match s.portOf k with
    | some r => r.port * 256 + r.dimension * 4096 + 65536
    | none => 0
  reg (l.state.code + lanes * 16 + flagAt l.spareUsed 7 + port + flagAt l.rttOver 17 + flagAt l.sameFeed 18
    + l.medium.toNat * 2 ^ 19)

def State.peekLink (s : State) (k o : Nat) : Word :=
  let l := s.link k
  let c := s.linkCtr k
  match o with
  | 0x00 => s.linkStatus k
  | 0x08 => l.error
  | 0x0C => l.rtt
  | 0x10 => l.peerCoord
  | 0x14 => lowWord l.peerId.toNat
  | 0x18 => highWord l.peerId.toNat
  | 0x1C => lowWord l.peerJob.toNat
  | 0x20 => highWord l.peerJob.toNat
  | 0x30 => c.faultTransient
  | 0x38 => lowWord c.txFlits.toNat
  | 0x3C => highWord c.txFlits.toNat
  | 0x40 => lowWord c.rxFlits.toNat
  | 0x44 => highWord c.rxFlits.toNat
  | 0x54 => reg l.laneMap.toNat
  | _ => 0

def State.discoveryReg (s : State) : Word :=
  let x := s.kx
  reg (x.disc.code + flagAt x.byDefault 3 + x.missingDims.length % 32 * 16 + popCount 16 x.extra.toNat * 512)

/-- Remap entries in use: those of every partition's tables. -/
def State.remapsUsed (s : State) : Nat :=
  s.parts.foldl (fun n e => n + match e.2.cfg with
    | some c => c.remaps.length
    | none => 0) 0

/-- KX_RED_BUSY: which engines hold the reductions in progress is not given, so it is free. -/
def State.redBusy (s : State) : Word × State :=
  if s.reds.any (fun r => decide (r.phase ≠ .done)) then
    let (v, s) := s.draw
    (reg v, s)
  else (0, s)

def State.peekFabric (s : State) (o : Nat) : Word × State :=
  let x := s.kx
  match o with
  | 0x800 => (s.hm.boardCoord, s)
  | 0x804 => (s.discoveryReg, s)
  | 0x80C => (reg x.missing.toNat, s)
  | 0x810 => (reg x.extra.toNat, s)
  | 0x814 =>
    if x.waitLeft = 0 then (0, s)
    else
      let (v, s) := s.draw
      (reg (v % (x.waitLeft.toNat + 1)), s)
  | 0x818 => (reg (x.routes.length % 16384 + s.remapsUsed % 16384 * 65536), s)
  | 0x81C => s.redBusy
  | 0x820 => s.redBusy
  | 0x830 => (lowWord x.transitFlits.toNat, s)
  | 0x834 => (highWord x.transitFlits.toNat, s)
  | _ => (0, s)

/-! ## BTH_ (Tables 9.7 to 9.12) -/

/-- The occupancies of a berth's group (R344). -/
def State.groupOccupancy (s : State) (n : Nat) : Nat :=
  (s.berths.filter (fun e => decide (e.1 / 64 = n / 64))).foldl (fun t e => t + e.2.occupancy) 0

def State.peekBerth (s : State) (n o : Nat) : Word :=
  let b := s.berth n
  match o with
  | 0x00 => b.cfg.kind
  | 0x04 => b.cfg.ringLo
  | 0x08 => b.cfg.ringHi
  | 0x0C => b.cfg.level
  | 0x10 => b.cfg.links
  | 0x14 => b.cfg.creditCfg
  | 0x18 => b.cfg.consumer
  | 0x20 => reg (b.occupancy + b.tag.toNat * 2 ^ 24)
  | 0x24 => reg (if b.oldItems = 0 then b.head else b.oldHead)
  | 0x28 => reg b.tail
  | 0x2C => reg (if b.cfg.kindOf = kindTensor then b.credits else 0)
  | 0x30 => (b.status &&& 0x1F) ||| reg (flagAt b.old.isSome 5 + flagAt b.armed 6 + flagAt (decide (b.waiting ≠ [])) 7)
  | 0x3C => reg (s.groupOccupancy n)
  | _ => 0

/-! ## CL_ (Tables 3.12 to 3.17) -/

/-- Values of Table 3.9. -/
def ClusterState.code : ClusterState → Nat
  | .active => 0
  | .spare => 1
  | .filling => 2
  | .retired => 3
  | .testing => 4

/-- The context resident in a slot. -/
def Cluster.inSlot (c : Cluster) (slot : Nat) : Option Ctx :=
  c.ctxs.find? (fun x => x.resident && decide (x.slot.toNat = slot))

/-- A slot's state: empty, ready, running, halted. -/
def Cluster.slotCode (c : Cluster) (slot : Nat) : Nat :=
  match c.inSlot slot with
  | none => 0
  | some x =>
    if x.halted then 3
    else if c.flight.any (fun f => decide (f.slot = x.slot)) || x.window.any (fun e => decide (e.phase = .running)) then 2
    else 1

def Cluster.ctxReg (c : Cluster) (slot : Nat) : Word :=
  match c.inSlot slot with
  | none => 0
  | some x => reg (x.id + 8 + x.priority.toNat * 16 + c.slotCode slot * 64 + x.part.toNat * 256)

def Cluster.windowReg (c : Cluster) (slot : Nat) : Word :=
  match c.inSlot slot with
  | none => 0
  | some x => reg (x.base + x.size * 256)

/-- The tile at the head of a slot: its tag and its next row. -/
def Cluster.tileReg (c : Cluster) (slot : Nat) : Word :=
  match (c.inSlot slot).bind (fun x => x.window.find? (fun e => !e.vector)) with
  | none => 0
  | some e => reg ((Tile.of e.words).tag + (e.row?.getD e.nextRow) * 65536)

/-- CL_PILOT: entries; requests outstanding are free while some operand is awaited. -/
def State.pilotReg (s : State) (c : Cluster) : Word × State :=
  let es := (c.ctxs.filter (fun x => x.resident)).flatMap (fun x => x.window)
  let awaits := fun (k : Nat) => es.any (fun e =>
    let t := Tile.of e.words
    !e.vector && ((!e.pReady && decide (t.pKind = k)) || (!e.qReady && decide (t.qKind = k))))
  if awaits 1 || awaits 2 then
    let (v, s) := s.draw
    let near := if awaits 1 then v % 1025 else 0
    let yard := if awaits 2 then v / 1025 % 257 else 0
    (reg (es.length % 32 + near * 32 + yard * 65536), s)
  else (reg (es.length % 32), s)

def State.clId (d phys : Nat) (c : Cluster) : Word :=
  reg (phys + d * 256 + ((c.logical.map (·.toNat)).getD 0xFF) * 65536 + c.state.code * 2 ^ 24)

def State.clStatus (s : State) (d : Nat) (c : Cluster) : Word :=
  reg (flagAt (decide (c.flight ≠ [])) 0 + c.slotCode 0 * 2 + c.slotCode 1 * 8 + flagAt c.swap.isSome 5
    + flagAt (c.testing || decide (c.state = .testing)) 6 + flagAt (!s.gateOpen d) 7)

/-- CL_SELFTEST: a usable die's clusters have all been tested in its bring-up (Table 15.3). -/
def State.selftestReg (s : State) (d : Nat) (c : Cluster) : Word :=
  if c.selftest = 0 ∧ s.ready (readyCompute d) then 1 else c.selftest

/-- CL_CYCLES counts cycles: by a free amount between two reads. -/
def State.countCycles (s : State) (d phys : Nat) : State :=
  let (v, s) := s.draw
  s.modCluster d phys (fun c => { c with counters := { c.counters with cycles := c.counters.cycles + BitVec.ofNat 64 v } })

def State.peekCluster (s : State) (d phys o : Nat) : Word × State :=
  let c := s.cluster d phys
  let n := c.counters
  match o with
  | 0x00 => (State.clId d phys c, s)
  | 0x04 => (s.clStatus d c, s)
  | 0x0C => (c.error, s)
  | 0x10 => (c.errorInfo, s)
  | 0x18 => (c.ctxReg 0, s)
  | 0x1C => (c.ctxReg 1, s)
  | 0x20 => (c.windowReg 0, s)
  | 0x24 => (c.windowReg 1, s)
  | 0x28 => (c.tileReg 0, s)
  | 0x2C => (c.tileReg 1, s)
  | 0x30 => s.pilotReg c
  | 0x34 => (s.selftestReg d c, s)
  | 0x38 => (reg (maskOf 8 (fun i => c.ctxs.any (fun x => !x.resident && decide (x.id = i)))), s)
  | 0x40 =>
    let s := s.countCycles d phys
    (lowWord (s.cluster d phys).counters.cycles.toNat, s)
  | 0x44 =>
    let s := s.countCycles d phys
    (highWord (s.cluster d phys).counters.cycles.toNat, s)
  | 0x48 => (lowWord n.issueF4.toNat, s)
  | 0x4C => (highWord n.issueF4.toNat, s)
  | 0x50 => (lowWord n.issue8b.toNat, s)
  | 0x54 => (highWord n.issue8b.toNat, s)
  | 0x58 => (lowWord n.issueB16.toNat, s)
  | 0x5C => (highWord n.issueB16.toNat, s)
  | 0x80 => (n.faultTransient, s)
  | _ => (0, s)

/-! ## MEM_ (Tables 7.6, 7.7, 8.14 to 8.17) -/

/-- A spare hold device: the logical device it serves, if it does. -/
def HoldSpare.serves : HoldSpare → Option Nat
  | .serving j => some j.toNat
  | _ => none
def HoldSpare.busy : HoldSpare → Bool
  | .testing .. => true
  | .filling .. => true
  | _ => false

def Mem.mapReg (m : Mem) : Word :=
  reg (m.h16.serves.getD 0 + m.h17.serves.getD 0 * 16 + flagAt m.h16.serves.isSome 8 + flagAt m.h17.serves.isSome 9
    + flagAt (decide (m.h16 = .retired)) 10 + flagAt (decide (m.h17 = .retired)) 11
    + flagAt (m.h16.busy || m.h17.busy) 12 + m.holdRetired.toNat * 65536)

def State.memServiceReg (s : State) : Word :=
  reg (maskOf 8 (fun d => (s.memDieAux d).low) + flagAt (s.mem.h16.serves.isSome || s.mem.h17.serves.isSome) 8
    + flagAt (decide (s.mem.unserviceable ≠ [])) 9 + flagAt (decide (s.mem.bonds ≠ [])) 10)

def State.peekMem (s : State) (o : Nat) : Word :=
  let m := s.mem
  match o with
  | 0x00 => 0x0007F000
  | 0x04 => 0x000FFFA0
  | 0x08 => m.mapReg
  | 0x0C => s.memServiceReg
  | 0x10 => reg m.unserviceable.length
  | 0x14 => lowWord m.lastUnserviceable.toNat
  | 0x18 => highWord m.lastUnserviceable.toNat
  | 0x20 => reg (flagAt m.scrubRunning 0 + m.scrubPasses.toNat * 2)
  | 0x2C => m.holdTransient
  | _ => 0

def State.peekMemDie (s : State) (d o : Nat) : Word :=
  let m := s.memDie d
  let a := s.memDieAux d
  match o with
  | 0x00 => reg m.scratch
  | 0x04 => reg ((List.range 4).foldl (fun n i => n + m.band i * 2 ^ (4 * i)) 0)
  | 0x08 => m.dramTemp
  | 0x18 => m.nearTransient
  | 0x40 => reg (min a.rowsRepaired 65535 + min a.banksRepaired 63 * 65536)
  | 0x5C => reg (maskOf 16 (fun n => decide ((s.lighter d n).queue ≠ [])) + maskOf 16 (fun n => (s.lighter d n).halted) * 65536)
  | 0x60 => a.lighterError
  | 0x64 => a.lighterErrorInfo
  | o => if within 0x30 0x3C o then reg (a.free ((o - 0x30) / 4)) else 0

def State.stashStatus (s : State) (p : Nat) : Word :=
  let st := s.stash p
  let x := s.part p
  reg (st.entries.length % 65536 + flagAt (st.waits.any (fun w => !w.space)) 16 + flagAt (st.waits.any (fun w => w.space)) 17
    + flagAt (st.limitHalt && decide (x.state = .halted) && decide (x.cause = 4)) 18
    + flagAt (st.entries.any (fun e => e.lost)) 19)

def State.peekStash (s : State) (p o : Nat) : Word :=
  match o with
  | 0x00 => s.stashStatus p
  | 0x04 => reg (s.stash p).used
  | 0x08 => (match s.program? p with
      | some g => reg g.control.stashCapacity
      | none => 0)
  | _ => 0

/-! ## A read of a register -/

/-- What the register at a place shows; reads of code RC apart. A place without a register reads 0 (R10). -/
def State.peek (s : State) : Block → Nat → Word × State
  | .hm, o => s.peekHm o
  | .sec, o => (s.peekSec o, s)
  | .cert false, o => (bytesWord s.idCert (o / 4), s)
  | .cert true, o => (bytesWord s.boot.aliasCert (o / 4), s)
  | .secPart p, o => (s.peekSecPart p o, s)
  | .pt, o => (s.peekPt o, s)
  | .ptDie d, o => (s.peekPtDie d o, s)
  | .ptPart p, o => (s.peekPtPart p o, s)
  | .mf, o => s.peekMf o
  | .jr, o => (s.peekJr o, s)
  | .jrPart p, o => (s.peekJrPart p o, s)
  | .gw, o => (s.peekGw o, s)
  | .link k, o => (s.peekLink k o, s)
  | .fabric, o => s.peekFabric o
  | .berth n, o => (s.peekBerth n o, s)
  | .cluster d c, o => s.peekCluster d c o
  | .mem, o => (s.peekMem o, s)
  | .memDie d, o => (s.peekMemDie d o, s)
  | .stash p, o => (s.peekStash p o, s)
  | .gap, _ => (0, s)

/-- A read of an RC register returns its value and clears it; what the hardware adds in the same access is kept (R12,
R14). -/
def RcReg.read (r : RcReg) (upd : Word) (s : State) : Word × State :=
  if r.timed then
    let (v, s) := s.draw
    (satAdd (r.get s) v, r.set s upd)
  else (r.get s, r.set s upd)

/-- A register is read where its block serves it. -/
def State.readAt (s : State) (b : Block) (o : Nat) (upd : Word) : Word × State :=
  if !occupied b o then (0, s)
  else
    match rcAt b o with
    | some r => r.read upd s
    | none => s.peek b o

/-- A read of the management address space (R10, R526, R530): its data, and the state. A register whose block is not
ready shows its reset value. -/
def State.readReg (s : State) (addr : Nat) (upd : Word) : Word × State :=
  let (b, o) := place addr
  if s.romRuns && !romVisible b o then (0, s)
  else if s.ready (readyFor b o) then s.readAt b o upd
  else ((s.deviceReset.readAt b o 0).1, s)

/-- RC_READ (R14). -/
def execRcRead (addr upd : Word) (s : State) : Out :=
  if s.hmAux.restarting then .next (s.defer (.cmd (.rcRead addr upd)))
  else if s.served then
    let (v, s) := s.readReg addr.toNat upd
    .next { s with gwAux := { s.gwAux with lastRead := v } }
  else .next s

end Sys2Proof.Machine
end

