-- ==== Sys2Proof/Machine/Registers.lean ====
section
/-!
DEFINITION. Writes of the management address space (R10 to R13, R526, R530): what each writable register does, by its
access code.
-/

namespace Sys2Proof.Machine

/-- The key of a control register, and its command. -/
def keyOf (v : Word) : Nat := bits v 31 16
def cmdOf (v : Word) : Nat := bits v 3 0

/-- A control register acts on its command when the key is right. -/
def keyed (key : Nat) (v : Word) (s : State) (k : Nat → State) : State := if keyOf v = key then k (cmdOf v) else s

/-! ## HM_ -/

/-- Bits of HM_TIMERt_TARGET. -/
def targetMask : Word := 0x00073FFF

def State.writeTimer (s : State) (o : Nat) (v : Word) : State :=
  let t := (o - 0x100) / 16
  match o % 16 / 4 with
  | 0 => s.requestTimer t v
  | 1 => s.modTimer t (fun x => { x with period := v })
  | 2 => s.modTimer t (fun x => { x with target := v &&& targetMask })
  | _ => s

def State.modEvents (s : State) (f : Events → Events) : State := { s with events := f s.events }

def State.writeHm (s : State) (o : Nat) (v : Word) : State :=
  match o with
  | 0x08 => keyed 0x484D v s s.hmCommand
  | 0x0C => s.modHm (fun h => { h with error := w1c h.error v 0xF })
  | 0x30 => s.boardWrite .coord v
  | 0x34 => s.boardWrite .feed v
  | 0x38 => s.boardWrite .linkMedium v
  | 0x3C => s.boardWrite .straps v
  | 0x40 => s.boardWrite .recoveryServer v
  | 0x44 => s.trayTempWrite v
  | 0x48 => s.trayFlowWrite v
  | 0x4C => s.modEvents (fun e => { e with mask := v &&& 0xFFFF })
  | 0x50 => s.modEvents (fun e => { e with pending := w1c e.pending v 0xFFFF })
  | 0x54 => s.modEvents (fun e => { e with berth := v &&& 0x7FFF })
  | 0x5C => s.modEvents (fun e => { e with sel := v &&& 0xFFF })
  | 0xCC => s.modHmAux (fun a => { a with faultCfg := v &&& 0xFF })
  | o =>
    if within 0xA0 0xBC o then s.requestSide ((o - 0xA0) / 4) v
    else if 0x100 ≤ o then s.writeTimer o v
    else s

/-! ## SEC_ -/

/-- The mailbox is written while no command executes (R508). -/
def State.writeMail (s : State) (i : Nat) (v : Word) : State :=
  if s.sec.busy then s
  else s.modSec (fun c => { c with mailbox := c.mailbox.set (fun _ => (0 : Word)) i v })

def State.writeSec (s : State) (i3c : Bool) (o : Nat) (v : Word) : State :=
  match o with
  | 0x04 => keyed 0x5345 v s (s.secCommand i3c)
  | 0x08 => s.modSec (fun c => { c with error := w1c c.error v 0x7F })
  | o => if within 0x100 0x2FC o then s.writeMail ((o - 0x100) / 4) v else s

def State.writeSecPart (s : State) (p o : Nat) (v : Word) : State :=
  match o with
  | 0 => s.modLading p (fun l => { l with cfg := v &&& 0xFFFF7FFF })
  | 4 => keyed 0x4C52 v s (fun c => if c = 1 then s.ladingIssue p else s)
  | _ => s

/-! ## PT_ -/

/-- A command of PT_CONTROL. -/
def State.ptCommand (s : State) (cmd : Nat) : State :=
  match cmd with
  | 1 => s.ptResumed
  | 2 => s.clearSensor
  | 3 => s.tideReset
  | _ => s

/-- PT_WARN: the gate follows warn_duty while SUPPLY_WARN_N holds it (R467). -/
def State.writeWarn (s : State) (v : Word) : State :=
  let s := s.modPt (fun x => { x with warn := v &&& 0x1FF })
  if s.warned then s.allDies (fun x => { x with cutPin := s.pt.warnCut }) else s

def State.writePt (s : State) (o : Nat) (v : Word) : State :=
  match o with
  | 0x04 => keyed 0x5054 v s s.ptCommand
  | 0x08 => s.modPt (fun x => { x with error := w1c x.error v 0x7FF })
  | 0x0C => s.setEnvelope v
  | 0x10 => s.headroomWrite v
  | 0x24 => s.writeWarn v
  | 0x28 => s.modPt (fun x => { x with config := v &&& 3 })
  | 0x2C => s.modPtAux (fun a => { a with tideCfg := v &&& 0x7FFFFF })
  | 0x30 => s.modPtAux (fun a => { a with tidePool := v })
  | 0x34 => s.modPtAux (fun a => { a with tideParam := v })
  | 0x54 => s.modPtAux (fun a => { a with berthSel := v &&& 0x3FFF })
  | 0x74 => s.modPtAux (fun a => { a with droopCfg := v &&& 0xFF })
  | _ => s

/-! ## MF_, JR_, GW_ -/

def State.writeMf (s : State) (o : Nat) (v : Word) : State :=
  match o with
  | 0x0C => keyed 0x4D46 v s s.mfCommand
  | 0x18 => s.modMf (fun m => { m with warn := w1c m.warn v 0xF })
  | _ => s

def State.writeJr (s : State) (o : Nat) (v : Word) : State :=
  match o with
  | 0x04 => keyed 0x4A52 v s (fun c =>
      if c = 1 then s.modPart (bits v 9 4) (fun x => { x with snapStatus := setBit x.snapStatus 4 }) else s)
  | 0x08 => { s with jr := { s.jr with error := w1c s.jr.error v 0xF } }
  | _ => s

/-- A command of GW_CONTROL (Table 11.10). -/
def State.gwCommand (s : State) (drive cmd : Nat) : State :=
  match cmd with
  | 1 => s.ethDown 4
  | 2 => s.modGw (fun g => { g with pcieUp := false, pcieRate := 0, pcieWidth := 0 })
  | 3 => s.resetDrive drive
  | _ => s

def State.writeGw (s : State) (o : Nat) (v : Word) : State :=
  match o with
  | 0x04 => keyed 0x4757 v s (s.gwCommand (bits v 4 4))
  | 0x08 => s.modGw (fun g => { g with error := w1c g.error v 0xFF })
  | 0x14 => s.setPrioCfg v
  | 0x18 => s.setEts false v
  | 0x1C => s.setEts true v
  | 0x70 => s.boardWrite .ipv4 v
  | 0x84 => s.modGw (fun g => { g with passCfg := v &&& 0x7FFF })
  | o =>
    if within 0x74 0x80 o then
      s.modGw (fun g => { g with ipv6 := g.ipv6.set (fun _ => (0 : Word)) ((o - 0x74) / 4) v })
    else s

/-! ## KX_, BTH_ -/

def State.writeLink (s : State) (k o : Nat) (v : Word) : State :=
  match o with
  | 0x04 => keyed 0x4B58 v s (s.linkCommand k)
  | 0x08 => s.modLink k (fun l => { l with error := w1c l.error v 0x3F })
  | _ => s

/-- A decision of KX_DISCOVERY_CONTROL. -/
def State.discoveryCommand (s : State) (cmd : Nat) : State :=
  match cmd with
  | 1 => s.decide_ true false
  | 2 => s.decide_ false false
  | _ => s

def State.writeFabric (s : State) (o : Nat) (v : Word) : State :=
  match o with
  | 0x808 => keyed 0x4453 v s s.discoveryCommand
  | _ => s

def State.writeBerth (s : State) (n o : Nat) (v : Word) : State :=
  match o with
  | 0x1C => keyed 0x4254 v s (fun c => if c = 1 then (s.flushBerth n).amendCheck else s)
  | 0x30 => s.modBerth n (fun b => { b with status := w1c b.status v 0x1F })
  | o =>
    if o < 0x1C ∧ !s.mfAux.locked then s.modBerth n (fun b => { b with cfg := b.cfg.setWord (o / 4) v }) else s

/-! ## CL_, MEM_ -/

/-- A command of CL_CONTROL (Table 3.15). -/
def State.clCommand (s : State) (d c : Nat) (slot : BitVec 1) (cmd : Nat) : State :=
  let id : ClusterId := { die := BitVec.ofNat 3 d, phys := BitVec.ofNat 8 c }
  match cmd with
  | 1 => s.selfTest d c
  | 2 => s.slotControl id slot true
  | 3 => s.slotControl id slot false
  | _ => s

def State.writeCluster (s : State) (d c o : Nat) (v : Word) : State :=
  match o with
  | 0x08 => keyed 0x434C v s (s.clCommand d c (BitVec.ofNat 1 (bits v 4 4)))
  | 0x0C => s.modCluster d c (fun x => { x with error := w1c x.error v 0x1FF })
  | _ => s

def State.writeMem (s : State) (o : Nat) (v : Word) : State :=
  match o with
  | 0x1C => keyed 0x4D45 v s (fun c => if c = 1 then s.scrubStart else s)
  | _ => s

/-- A command of MEM_LIGHTER_CONTROL. -/
def State.lighterCommand (s : State) (d n cmd : Nat) : State :=
  match cmd with
  | 1 => s.lighterResume d n
  | 2 => s.lighterFlush d n
  | _ => s

def State.writeMemDie (s : State) (d o : Nat) (v : Word) : State :=
  match o with
  | 0x60 => s.modMemDieAux d (fun a => { a with lighterError := w1c a.lighterError v 0xFFFF })
  | 0x68 => keyed 0x4C54 v s (s.lighterCommand d (bits v 7 4))
  | _ => s

/-! ## A write of a register -/

/-- The effect of a write at a place; a read-only register, and a place without a register, ignore it (R10, R12). -/
def State.poke (s : State) (i3c : Bool) : Block → Nat → Word → State
  | .hm, o, v => s.writeHm o v
  | .sec, o, v => s.writeSec i3c o v
  | .cert _, _, _ => s
  | .secPart p, o, v => s.writeSecPart p o v
  | .pt, o, v => s.writePt o v
  | .ptDie _, _, _ => s
  | .ptPart _, _, _ => s
  | .mf, o, v => s.writeMf o v
  | .jr, o, v => s.writeJr o v
  | .jrPart _, _, _ => s
  | .gw, o, v => s.writeGw o v
  | .link k, o, v => s.writeLink k o v
  | .fabric, o, v => s.writeFabric o v
  | .berth n, o, v => s.writeBerth n o v
  | .cluster d c, o, v => s.writeCluster d c o v
  | .mem, o, v => s.writeMem o v
  | .memDie d, o, v => s.writeMemDie d o v
  | .stash _, _, _ => s
  | .gap, _, _ => s

/-- A write of the management address space: to no register it does nothing (R10), to a block that is not ready it is
reported (R530); while the boot ROM runs only the sideband's registers take it (R526). -/
def State.writeReg (s : State) (i3c : Bool) (addr : Nat) (v : Word) : State :=
  let (b, o) := place addr
  if !occupied b o then s else s.guardWrite (.registerWrite (BitVec.ofNat 32 addr) v) (readyFor b o) addr (fun s => s.poke i3c b o v)

/-- REGISTER_WRITE (R12). DESIGN CHOICE: whether a write of a W1C bit coincides with an event that sets it (R13) is the
order of the queue: an event queued before the write is cleared by it, and one queued behind it leaves the bit set (log
entry 85). -/
def execRegisterWrite (addr data : Word) (s : State) : Out := .next (s.writeReg false addr.toNat data)

end Sys2Proof.Machine
end

