-- ==== Sys2Proof/Machine/I3c.lean ====
section
/-!
DEFINITION. The I3C sideband (R524 to R526): the common command codes that the target supports, private writes and
private reads of registers. What the manual takes from MIPI I3C Basic is in log entry 12.
-/

namespace Sys2Proof.Machine

def State.modI3c (s : State) (f : I3c → I3c) : State := { s with i3c := f s.i3c }

/-- The sideband is usable from boot step 2 (R526). -/
def State.sideband (s : State) : Bool := s.ready readySideband

/-- A transfer that the target acknowledges, with the bytes it returns. -/
def State.i3cReply (s : State) (b : Bytes) : State := s.modI3c (fun x => { x with reply := b, acked := true })

/-- A malformed transfer is NACKed (R525): event 0x000E with its kind, HM_ERROR.i3c_error. -/
def State.i3cError (s : State) (kind : Nat) : State :=
  let s := s.modI3c (fun x => { x with reply := [], acked := false })
  (s.modHm (fun h => { h with error := setBit h.error 2 })).raiseHm 0x000E none (natLe 1 kind)

/-- The length of the data of a transfer is wrong: above 64 bytes or not whole registers. -/
def i3cLength (n : Nat) : Bool := decide (64 < n) || decide (n % 4 ≠ 0)

/-! ## Private transfers (R525) -/

/-- Consecutive registers are written. -/
def State.i3cWords : Nat → Nat → Bytes → State → State
  | 0, _, _, s => s
  | n + 1, addr, b, s => State.i3cWords n (addr + 4) (b.drop 4) (s.writeReg true (addr % 2 ^ 32) (BitVec.ofNat 32 (leAt b 0 4)))

/-- I3C_PRIVATE_WRITE: an address and the data of consecutive registers. -/
def State.i3cWrite (s : State) (b : Bytes) (parityOk : Bool) : State :=
  if s.hmAux.restarting then s.defer (.cmd (.i3cPrivateWrite b parityOk))
  else if !s.served then s
  else if !parityOk then s.i3cError 4
  else if b.length < 4 then s.i3cError 1
  else if i3cLength (b.length - 4) then s.i3cError 2
  else (State.i3cWords ((b.length - 4) / 4) (leAt b 0 4) (b.drop 4) s).i3cReply []

/-- Consecutive registers are read. -/
def State.i3cReads : Nat → Nat → State → Bytes × State
  | 0, _, s => ([], s)
  | n + 1, addr, s =>
    let (v, s) := s.readReg (addr % 2 ^ 32) 0
    let (b, s) := State.i3cReads n (addr + 4) s
    (wordLe 4 v ++ b, s)

/-- I3C_PRIVATE_READ: `len` bytes from the address that a write set before the repeated start. -/
def State.i3cRead (s : State) (addr : Option Word) (len : Nat) (parityOk : Bool) : State :=
  if s.hmAux.restarting then s.defer (.cmd (.i3cPrivateRead addr len parityOk))
  else if !s.served then s
  else if !parityOk then s.i3cError 4
  else
    match addr with
    | none => s.i3cError 3
    | some a =>
      if i3cLength len then s.i3cError 2
      else
        let (b, s) := State.i3cReads (len / 4) a.toNat s
        s.i3cReply b

/-! ## Common command codes (Table 15.1) -/

/-- A command code that the target takes. -/
def State.ccc (s : State) (f : State → State) : State := if s.sideband then f s else s

/-- What the target sends in ENTDAA: its provisioned identity, BCR and DCR. -/
def i3cIdentity : Bytes := natBe 6 Config.i3cPid.toNat ++ [Config.i3cBcr, Config.i3cDcr]

/-- An address is assigned to a target that has none. -/
def State.i3cAssign (s : State) (addr : BitVec 7) (reply : Bytes) : State :=
  if s.i3c.dynamic.isSome then s else (s.modI3c (fun x => { x with dynamic := some addr })).i3cReply reply

/-- The longest private write, with its address, and the longest read; the payload of an interrupt is 4 bytes. -/
def i3cMaxWrite : Nat := 68
def i3cMaxRead : Nat := 64

/-! ## The commands -/

/-- I3C_PRIVATE_WRITE (R525). -/
def execI3cPrivateWrite (bytes : Bytes) (parityOk : Bool) (s : State) : Out := .next (s.i3cWrite bytes parityOk)
/-- I3C_PRIVATE_READ (R525). -/
def execI3cPrivateRead (addr : Option Word) (len : Nat) (parityOk : Bool) (s : State) : Out :=
  .next (s.i3cRead addr len parityOk)
/-- RSTDAA (R524). -/
def execRstdaa (s : State) : Out := .next (s.ccc (fun s => (s.modI3c (fun x => { x with dynamic := none })).i3cReply []))
/-- SETDASA (R524). -/
def execSetdasa (addr : BitVec 7) (s : State) : Out := .next (s.ccc (fun s => s.i3cAssign addr []))
/-- ENTDAA (R524). -/
def execEntdaa (addr : BitVec 7) (s : State) : Out := .next (s.ccc (fun s => s.i3cAssign addr i3cIdentity))
/-- ENEC (R524). -/
def execEnec (s : State) : Out := .next (s.ccc (fun s => (s.modI3c (fun x => { x with ibi := true })).i3cReply []))
/-- DISEC (R524). -/
def execDisec (s : State) : Out := .next (s.ccc (fun s => (s.modI3c (fun x => { x with ibi := false })).i3cReply []))
/-- GETPID (R524). -/
def execGetpid (s : State) : Out := .next (s.ccc (fun s => s.i3cReply (natBe 6 Config.i3cPid.toNat)))
/-- GETBCR (R524). -/
def execGetbcr (s : State) : Out := .next (s.ccc (fun s => s.i3cReply [Config.i3cBcr]))
/-- GETDCR (R524). -/
def execGetdcr (s : State) : Out := .next (s.ccc (fun s => s.i3cReply [Config.i3cDcr]))
/-- GETSTATUS (R524). -/
def execGetstatus (s : State) : Out := .next (s.ccc (fun s => s.i3cReply (natBe 2 Config.i3cStatus.toNat)))
/-- GETMWL (R524). -/
def execGetmwl (s : State) : Out := .next (s.ccc (fun s => s.i3cReply (natBe 2 i3cMaxWrite)))
/-- GETMRL (R524). -/
def execGetmrl (s : State) : Out := .next (s.ccc (fun s => s.i3cReply (natBe 2 i3cMaxRead ++ [4])))

end Sys2Proof.Machine
end

