-- ==== Sys2Proof/Machine/Cct.lean ====
section
/-!
DEFINITION. The command transport and the register protocol (R405 to R411, R510): datagrams, sessions and the order of
their requests, the commands of Table 11.5, and what waits for the end of a management restart (R522).
-/

namespace Sys2Proof.Machine

/-! ## Responses (R405, R407) -/

/-- The longest payload of a datagram and of a response (R405). -/
def cctMax : Nat := 8192

/-- The datagram of a response (Table 11.4). -/
def CctResp.wire (x : CctResp) : Bytes :=
  natLe 1 1 ++ [x.opcode] ++ wordLe 2 x.sess ++ wordLe 4 x.seq ++ natLe 4 x.payload.length ++ [x.status, 1] ++ zeros 2 ++ x.payload

/-- The addresses of a host whose request's row names none. -/
def hostAddr (sess : Nat) : NetAddr :=
  { mac := natBe 6 (Config.hostMac sess).toNat, ip := natBe 4 (Config.hostIp sess).toNat, port := (Config.hostPort sess).toNat }

/-- A response goes out, as a datagram to where its request came from, at the priority of its protocol (R392, R405, R410). -/
def State.answer (s : State) (via : Option NetAddr) (x : CctResp) : State :=
  let s := s.modGwAux (fun a => { a with sent := a.sent ++ [x] })
  let (prio, s) := s.ownPrio (if x.mrp then mrpField else cctField)
  let (k, s) := s.numberFrame
  s.sendFrame prio (s.udpFrame (via.getD (hostAddr x.sess.toNat)) prio (if x.mrp then 47681 else 47680) k x.wire)

/-- A response with the request's opcode, session and seq. -/
def CctReq.reply (r : CctReq) (status : Nat) (b : Bytes) : CctResp :=
  { mrp := r.mrp, opcode := r.opcode, sess := r.sess, seq := r.seq, status := BitVec.ofNat 8 status, payload := b }

/-- What a command answers: its status of Table 11.6 and its payload. -/
abbrev Reply := Nat × Bytes

/-- Status done, with nothing to return. -/
def cctDone : Reply := (0, [])

/-! ## OPEN (R497, R510) -/

/-- What an OPEN is refused by: a reason of event 0x1006 (Table 14.15), 0 for none. A device that is neither UNOWNED nor
OWNED opens no session (log entry 59). -/
def State.openReason (s : State) (pl : Bytes) : Nat :=
  let slot := leAt pl 0 1
  if pl = [] then 5
  else
    match s.sec.lifecycle with
    | .unowned => if slot = 0xFF then 0 else 6
    | .owned =>
      if slot = 0xFF then 6
      else if pl.length ≠ 108 then 5
      else
        (match s.sec.hostKeys[slot]? with
          | none => 1
          | some .empty => 1
          | some .revoked => 2
          | some (.provisioned key) =>
            if ((s.sec.hostCounters[slot]?).getD none).any (fun c => decide (leAt pl 4 8 ≤ c.toNat)) then 3
            else if ecdsaVerify key ([0x43, 0x44, 0x4F, 0x50] ++ s.deviceId ++ slice pl 4 8) (slice pl 12 96) then 0
            else 4)
    | _ => 6

/-- The lowest session that is not open. -/
def State.freeSession (s : State) : Option Nat := (List.range 64).find? (fun n => !(s.session n).isOpen)

/-- A session opens: its next request is the one after the OPEN, and its slot's counter is kept. -/
def State.openSession (s : State) (n : Nat) (r : CctReq) : State :=
  let slot := leAt r.payload 0 1
  let s := s.modSec (fun c => if c.lifecycle = .owned then
      { c with hostCounters := c.hostCounters.set slot (some (BitVec.ofNat 64 (leAt r.payload 4 8))) } else c)
  let s := s.modSession n (fun _ =>
    { isOpen := true, slot := BitVec.ofNat 8 slot, nextSeq := r.seq + 1, held := [], responses := [] })
  s.raiseGw 0x5005 none (natLe 2 n)

/-- OPEN. -/
def State.cctOpenReq (s : State) (r : CctReq) : State :=
  let why := s.openReason r.payload
  if why ≠ 0 then
    let s := (s.modSec (fun c => { c with authFails := satAdd c.authFails 1 })).secError 2
    (s.raiseHm 0x1006 none (natLe 1 (r.payload.headD 0xFF).toNat ++ natLe 1 why)).answer r.via (r.reply 0x0A [])
  else
    match s.freeSession with
    | none => s.answer r.via (r.reply 0x08 [])
    | some n => (s.openSession n r).answer r.via (r.reply 0 (natLe 2 n))

/-! ## MANIFEST_DATA (R60, R61, R409) -/

/-- Bytes of the incoming Manifest slot. -/
def manifestMax : Nat := 32 * 1048576

/-- Bytes join the incoming slot, which the session then owns. -/
def State.takeManifest (s : State) (n : Nat) (old b : Bytes) : State :=
  let s := s.modMf (fun m => { m with incoming := old ++ b, owner := some (BitVec.ofNat 6 n), loadState := .receiving })
  s.modMf (fun m => { m with amendState := if s.amendBytes then .receiving
                                           else if m.amendState = .receiving then .none else m.amendState })

/-- Offset 0 begins a Manifest: in states EMPTY, COMMITTED and REJECTED, and in an unowned slot (R61, R409). -/
def Mf.startsAt0 (m : Mf) : Bool :=
  match m.loadState with
  | .empty => true
  | .committed => true
  | .rejected => true
  | .receiving => m.owner.isNone
  | _ => false

/-- Bytes at an offset of the incoming slot: a status, and the state. -/
def State.manifestAt (s : State) (n off : Nat) (b : Bytes) : Nat × State :=
  let m := s.mf
  if !s.ready (readyCompute 0) then (0x0B, s)
  else if m.slotHeld then (0x03, s)
  else if off = 0 ∧ m.startsAt0 then (0, if b = [] then s else s.takeManifest n [] b)
  else if m.loadState = .receiving ∧ m.owner ≠ some (BitVec.ofNat 6 n) then (0x03, s)
  else if off ≠ m.incoming.length then (0x04, s)
  else if m.loadState ≠ .receiving then (0x03, s)
  else if manifestMax < off + b.length then (0x05, s)
  else (0, s.takeManifest n m.incoming b)

/-- MANIFEST_DATA: MF_RX_LEN goes back. -/
def State.cctManifest (s : State) (n : Nat) (pl : Bytes) : Reply × State :=
  if pl.length < 4 then ((0x01, []), s)
  else
    let (st, s) := s.manifestAt n (leAt pl 0 4) (pl.drop 4)
    ((st, if st = 0 then natLe 4 s.mf.incoming.length else []), s)

/-! ## Berths and frames (R393, R408) -/

/-- BERTH_PUT: a message of the session. -/
def State.cctPut (s : State) (n : Nat) (pl : Bytes) : Reply × State :=
  let berth := leAt pl 0 2
  let cls := leAt pl 2 1
  if pl.length < 5 ∨ 16384 ≤ berth ∨ 8 < cls then ((0x01, []), s)
  else
    let (r, s) := s.berthWrite none berth
      { serves := 0, producer := BitVec.ofNat 16 (idSession n), cls := BitVec.ofNat 8 cls, step := s.berthStep berth,
        bytes := pl.drop 4 }
    ((if r = .accepted then 0 else 0x06, []), s.intakeFilled berth)

/-- An item as BERTH_TAKE returns it: its slot header and its slot. -/
def Item.wire (x : Item) : Bytes := slotHeader x.cls x.flags x.valid x.tag x.producer x.seq x.step x.drops ++ x.payload

/-- Items leave the berth, oldest first, as many as fit. A poisoned item ends the take of a berth that is not marked-drop:
its partition rewinds (R353). -/
def State.takeItems (n : Nat) : Nat → Nat → State → Bytes × State
  | 0, _, s => ([], s)
  | k + 1, room, s =>
    match s.headItem n with
    | none => ([], s)
    | some it =>
      let size := it.wire.length
      if room < size then ([], s)
      else
        let c := (s.berth n).front
        let (_, s) := s.dequeue n
        if it.poisoned ∧ c.kindOf ≠ kindMarked then (it.wire, s.rewind c.partition 0x7005)
        else
          let (b, s) := State.takeItems n k (room - size) s
          (it.wire ++ b, s)

/-- BERTH_TAKE: from a berth whose consumer is the session. -/
def State.cctTake (s : State) (n : Nat) (pl : Bytes) : Reply × State :=
  let berth := leAt pl 0 2
  let b := s.berth berth
  if pl.length ≠ 4 ∨ 16384 ≤ berth ∨ b.front.kindOf = 0 ∨ b.front.consumerId ≠ idSession n then ((0x01, []), s)
  else if b.occupancy = 0 then ((0x07, []), s)
  else
    let (out, s) := State.takeItems berth (min (leAt pl 2 2) 256) cctMax s
    ((0, out), s.amendCheck)

/-- FRAME_SEND: a frame goes out unchanged, at the priority of its tag. -/
def State.cctFrame (s : State) (f : Bytes) : Reply × State :=
  if f.length < 60 ∨ cctMax < f.length then ((0x01, []), s)
  else (cctDone, s.sendFrame (if beAt f 12 2 = etVlan then beAt f 14 2 / 2 ^ 13 else 0) f)

/-! ## Queue pairs (R398) -/

/-- The path MTU code of 4,096 bytes, the only path MTU supported (Table 11.1, R17; log entry 102). -/
def mtu4096 : Nat := 5

/-- QP_CONNECT: the local QPN and start PSN are the device's choice (log entry 9). -/
def State.cctConnect (s : State) (pl : Bytes) : Reply × State :=
  let qp := leAt pl 0 2
  if pl.length ≠ 28 ∨ leAt pl 2 1 ≠ mtu4096 then ((0x01, []), s)
  else if 1024 ≤ qp ∨ (s.qp qp).state = .ready then ((0x09, []), s)
  else
    let (qpn, s) := s.draw
    let (psn, s) := s.draw
    let s := s.modQp qp (fun _ =>
      { state := .ready, mtu := BitVec.ofNat 8 (leAt pl 2 1), remoteQpn := BitVec.ofNat 32 (leAt pl 4 4),
        startPsn := BitVec.ofNat 32 (leAt pl 8 4), gid := BitVec.ofNat 128 (leAt pl 12 16),
        localQpn := qpn % 2 ^ 24, nextPsn := psn % 2 ^ 24 })
    ((0, natLe 4 (qpn % 2 ^ 24) ++ natLe 4 (psn % 2 ^ 24)), s)

/-- QP_DISCONNECT. -/
def State.cctDisconnect (s : State) (pl : Bytes) : Reply × State :=
  let qp := leAt pl 0 2
  if pl.length ≠ 2 then ((0x01, []), s)
  else if 1024 ≤ qp then ((0x09, []), s)
  else (cctDone, s.modQp qp (fun _ => Qp.none))

/-! ## The register protocol (R410, R411) -/

/-- An operation on the wire. -/
def mrpWire (x : MrpOp) : Bytes := natLe 1 (if x.write then 2 else 1) ++ zeros 3 ++ wordLe 4 x.addr ++ wordLe 4 x.data

/-- The operations of a request. -/
def mrpOps (pl : Bytes) : List (Nat × MrpOp) :=
  (List.range (pl.length / 12)).map (fun i =>
    let b := slice pl (12 * i) 12
    (leAt b 0 1, { write := decide (leAt b 0 1 = 2), addr := BitVec.ofNat 32 (leAt b 4 4), data := BitVec.ofNat 32 (leAt b 8 4) }))

/-- The operations run in order; each is returned with the data read or written. -/
def State.mrpRun : List MrpOp → State → Bytes × State
  | [], s => ([], s)
  | x :: rest, s =>
    let (v, s) := if x.write then (x.data, s.writeReg false x.addr.toNat x.data) else s.readReg x.addr.toNat 0
    let (b, s) := State.mrpRun rest s
    (mrpWire { x with data := v } ++ b, s)

/-- The session may only read: the device is UNOWNED, or the session was opened while it was (R497; log entry 59). -/
def State.readsOnly (s : State) (n : Nat) : Bool :=
  decide (s.sec.lifecycle = .unowned) || decide ((s.session n).slot = 0xFF)

/-- A request of the register protocol. -/
def State.cctMrp (s : State) (n : Nat) (pl : Bytes) : Reply × State :=
  let ops := mrpOps pl
  if pl.length % 12 ≠ 0 ∨ ops = [] ∨ 64 < ops.length ∨ ops.any (fun x => decide (x.1 ≠ 1) && decide (x.1 ≠ 2)) then
    ((0x01, []), s)
  else if s.readsOnly n && ops.any (fun x => x.2.write) then ((0x0A, []), s)
  else
    let (b, s) := State.mrpRun (ops.map (·.2)) s
    ((0, b), s)

/-! ## Requests (R407) -/

/-- A request of JOB (R423). -/
def State.cctJob (s : State) (n : Nat) (pl : Bytes) : Reply × State :=
  if pl.length ≠ 32 then ((0x01, []), s)
  else
    let (b, s) := s.job n pl
    ((0, b), s)

/-- What a request does: its reply, and the state. -/
def State.cctDo (s : State) (n : Nat) (r : CctReq) : Reply × State :=
  let pl := r.payload
  match r.opcode.toNat with
  | 0x02 => if pl = [] then (cctDone, s.closeSession n) else ((0x01, []), s)
  | 0x03 => (if pl = [] then cctDone else (0x01, []), s)
  | 0x10 => s.cctManifest n pl
  | 0x20 => s.cctPut n pl
  | 0x21 => s.cctTake n pl
  | 0x22 => s.cctFrame pl
  | 0x30 => s.cctJob n pl
  | 0x40 => s.cctConnect pl
  | 0x41 => s.cctDisconnect pl
  | 0x80 => s.cctMrp n pl
  | _ => ((0x01, []), s)

/-- A request runs, and its response is sent and kept: the last 64 of the session. -/
def State.cctRun (s : State) (n : Nat) (r : CctReq) : State :=
  let ((st, b), s) := s.cctDo n r
  let x := r.reply st b
  let s := if (s.session n).isOpen then
      s.modSession n (fun y => { y with nextSeq := r.seq + 1,
                                        responses := (y.responses ++ [x]).drop (y.responses.length - 63) })
    else s
  s.answer r.via x

/-- A request that needs the management cores while they restart (R522; log entry 60). -/
def State.awaitsMgmt (s : State) (r : CctReq) : Bool :=
  s.hmAux.restarting && (decide (r.opcode = 0x80) || decide (r.opcode = 0x30))

/-- The next request of a session runs, and those held that follow it. -/
def State.cctTurn (n : Nat) : Nat → CctReq → State → State
  | 0, _, s => s
  | fuel + 1, r, s =>
    if s.awaitsMgmt r then (if s.deferred.contains (.request r) then s else s.defer (.request r))
    else
      let s := s.cctRun n r
      let x := s.session n
      match x.held.find? (fun h => decide (h.seq = x.nextSeq)) with
      | none => s
      | some h =>
        State.cctTurn n fuel h (s.modSession n (fun y => { y with held := y.held.filter (fun z => decide (z.seq ≠ h.seq)) }))

/-- Requests held ahead of the expected one (R407). -/
def cctWindow : Nat := 64

/-- A request of an open session: a repeated one is answered from what is kept, an early one is held. -/
def State.sessionRequest (s : State) (n : Nat) (r : CctReq) : State :=
  let x := s.session n
  let ahead := (r.seq - x.nextSeq).toNat
  if ahead = 0 then State.cctTurn n (cctWindow + 1) r s
  else if 2 ^ 31 ≤ ahead then
    match x.responses.find? (fun y => decide (y.seq = r.seq)) with
    | none => s
    | some y => s.answer r.via y
  else if x.held.any (fun h => decide (h.seq = r.seq)) then s
  else if cctWindow ≤ x.held.length then s.answer r.via (r.reply 0x08 [])
  else s.modSession n (fun y => { y with held := y.held ++ [r] })

/-- The Gateway takes datagrams of the protocol (R411, R529). -/
def State.hears (s : State) (mrp : Bool) : Bool := s.gw.ethUp && !s.dead gwIndex && s.ready (if mrp then 6 else 7)

/-- A request as it comes off the network. -/
def State.request (s : State) (r : CctReq) : State :=
  if !s.hears r.mrp then s
  else if decide (r.opcode = 0x80) != r.mrp then s.answer r.via (r.reply 0x01 [])
  else if r.opcode = 0x01 then s.cctOpenReq r
  else if r.sess.toNat < 64 ∧ (s.session r.sess.toNat).isOpen then s.sessionRequest r.sess.toNat r
  else s.answer r.via (r.reply 0x02 [])

/-- A datagram with the header of Table 11.4; a malformed one is dropped and counted (R405). -/
def State.datagram (mrp : Bool) (s : State) (via : Option NetAddr) (d : Bytes) : State :=
  if !s.hears mrp then s
  else if d.length < 16 ∨ leAt d 0 1 ≠ 1 ∨ leAt d 8 4 ≠ d.length - 16 ∨ cctMax + 16 < d.length then s.fcsError
  else s.request { mrp := mrp, opcode := BitVec.ofNat 8 (leAt d 1 1), sess := BitVec.ofNat 16 (leAt d 2 2),
                   seq := BitVec.ofNat 32 (leAt d 4 4), payload := d.drop 16, via := via }

/-- The datagram of a request, as a host sends it. -/
def CctReq.wire (r : CctReq) : Bytes :=
  natLe 1 1 ++ [r.opcode] ++ wordLe 2 r.sess ++ wordLe 4 r.seq ++ natLe 4 r.payload.length ++ zeros 4 ++ r.payload

/-- A request in a frame of its own, which is counted as received (Table 11.8). -/
def State.arrives (s : State) (opcode : Byte) (sess : Half) (seq : Word) (pl : Bytes) : State :=
  let r : CctReq := { mrp := decide (opcode = 0x80), opcode := opcode, sess := sess, seq := seq, payload := pl }
  if !s.hears r.mrp then s
  else State.datagram r.mrp (s.modGwAux (fun a => { a with rxFrames := a.rxFrames + 1 })) none r.wire

/-- A job action as a request of JOB. -/
def State.jobRequest (s : State) (sess : Half) (seq : Word) (p : Byte) (action : Nat) (step arg : DWord) : State :=
  s.arrives 0x30 sess seq (jobRecord p.toNat action step arg)

/-! ## The end of a management restart (R522) -/

/-- The state that a command leaves. -/
def State.after (s : State) : Out → State
  | .next t => t
  | _ => s

/-- A command that waited runs: a register write, a register read or a sideband transfer. -/
def State.redoCmd (s : State) (c : Instr) : State :=
  match c with
  | .registerWrite addr data => s.after (execRegisterWrite addr data s)
  | .rcRead addr upd => s.after (execRcRead addr upd s)
  | .i3cPrivateWrite bytes parityOk => s.after (execI3cPrivateWrite bytes parityOk s)
  | .i3cPrivateRead addr len parityOk => s.after (execI3cPrivateRead addr len parityOk s)
  | .boardInputChange input value => s.after (execBoardInputChange input value s)
  | .trayReading flow => s.after (execTrayReading flow s)
  | .headroomWrite value => s.after (execHeadroomWrite value s)
  | .envelopeWrite value => s.after (execEnvelopeWrite value s)
  | .prioCfgWrite value => s.after (execPrioCfgWrite value s)
  | .etsShareWrite hi value => s.after (execEtsShareWrite hi value s)
  | .sideCfgWrite pin value => s.after (execSideCfgWrite pin value s)
  | .timerCfgWrite timer value => s.after (execTimerCfgWrite timer value s)
  | .restoreFactory => s.after (execRestoreFactory s)
  | .clearFaultCounts => s.after (execClearFaultCounts s)
  | .load => s.after (execLoad s)
  | .commit => s.after (execCommit s)
  | .amend => s.after (execAmend s)
  | .withdraw => s.after (execWithdraw s)
  | .discard => s.after (execDiscard s)
  | .selfTest c => s.after (execSelfTest c s)
  | .haltSlot c slot => s.after (execHaltSlot c slot s)
  | .resumeSlot c slot => s.after (execResumeSlot c slot s)
  | .lighterResume die n => s.after (execLighterResume die n s)
  | .lighterFlush die n => s.after (execLighterFlush die n s)
  | .scrubNow => s.after (execScrubNow s)
  | .berthFlush berth => s.after (execBerthFlush berth s)
  | .proceed => s.after (execProceed s)
  | .discoveryHalt => s.after (execDiscoveryHalt s)
  | .enable k => s.after (execEnable k s)
  | .disable k => s.after (execDisable k s)
  | .retrain k => s.after (execRetrain k s)
  | .ethRetrain => s.after (execEthRetrain s)
  | .pcieRetrain => s.after (execPcieRetrain s)
  | .driveReset drive => s.after (execDriveReset drive s)
  | .forceSnapshot p => s.after (execForceSnapshot p s)
  | .clearSensorFault => s.after (execClearSensorFault s)
  | .ptResume => s.after (execPtResume s)
  | .tideReset => s.after (execTideReset s)
  | .issue p => s.after (execIssue p s)
  | .claim i3c device counter key sig => s.after (execClaim i3c device counter key sig s)
  | .setManifestKey i3c device counter slot key sig => s.after (execSetManifestKey i3c device counter slot key sig s)
  | .revokeManifestKey i3c device counter slot sig => s.after (execRevokeManifestKey i3c device counter slot sig s)
  | .setHostKey i3c device counter slot key sig => s.after (execSetHostKey i3c device counter slot key sig s)
  | .revokeHostKey i3c device counter slot sig => s.after (execRevokeHostKey i3c device counter slot sig s)
  | .installSak i3c device counter args sig => s.after (execInstallSak i3c device counter args sig s)
  | .removePeer i3c device counter peer sig => s.after (execRemovePeer i3c device counter peer sig s)
  | .raiseMinSvn i3c device counter svn sig => s.after (execRaiseMinSvn i3c device counter svn sig s)
  | .forceNetworkBoot i3c device counter sig => s.after (execForceNetworkBoot i3c device counter sig s)
  | .release i3c device counter sig => s.after (execRelease i3c device counter sig s)
  | .decommission i3c device counter sig => s.after (execDecommission i3c device counter sig s)
  | .clearMailbox => s.after (execClearMailbox s)
  | _ => s

/-- What waited runs. -/
def State.redo (s : State) (d : Deferred) : State :=
  match d with
  | .cmd c => s.redoCmd c
  | .request r => s.request r

/-- MANAGEMENT_RESTART_COMPLETE: the cores are back, and what waited runs in its order of arrival. -/
def State.restartOver (s : State) : State :=
  let t := s.mgmtBack
  t.deferred.foldl State.redo { t with deferred := [] }

/-! ## The commands -/

/-- MANAGEMENT_RESTART_COMPLETE (R522). -/
def execManagementRestartComplete (s : State) : Out := .next (if s.hmAux.restarting then s.restartOver else s)

/-- FRAME_RECEIVE (R390 to R396, R405). -/
def execFrameReceive (frame : Bytes) (sec : MacsecRx) (s : State) : Out :=
  .next (s.frameIn frame sec (fun s a => State.datagram false s (some a)) (fun s a => State.datagram true s (some a)))

/-- OPEN (R510). -/
def execCctOpen (seq : Word) (payload : Bytes) (s : State) : Out := .next (s.arrives 0x01 0xFFFF seq payload)

/-- CLOSE (R406). -/
def execCctClose (sess : Half) (seq : Word) (s : State) : Out := .next (s.arrives 0x02 sess seq [])

/-- KEEPALIVE (R406). -/
def execCctKeepalive (sess : Half) (seq : Word) (s : State) : Out := .next (s.arrives 0x03 sess seq [])

/-- MANIFEST_DATA (R409). -/
def execManifestData (sess : Half) (seq offset : Word) (bytes : Bytes) (s : State) : Out :=
  .next (s.arrives 0x10 sess seq (wordLe 4 offset ++ bytes))

/-- BERTH_PUT (R408). -/
def execBerthPut (sess : Half) (seq : Word) (berth : BitVec 14) (cls : Byte) (bytes : Bytes) (s : State) : Out :=
  .next (s.arrives 0x20 sess seq (natLe 2 berth.toNat ++ [cls, 0] ++ bytes))

/-- BERTH_TAKE (R408). -/
def execBerthTake (sess : Half) (seq : Word) (berth : BitVec 14) (maxItems : Half) (s : State) : Out :=
  .next (s.arrives 0x21 sess seq (natLe 2 berth.toNat ++ wordLe 2 maxItems))

/-- FRAME_SEND (R393). -/
def execFrameSend (sess : Half) (seq : Word) (frame : Bytes) (s : State) : Out := .next (s.arrives 0x22 sess seq frame)

/-- QP_CONNECT (R398). -/
def execQpConnect (sess : Half) (seq : Word) (qp : Half) (mtu : Byte) (remoteQpn startPsn : Word) (gid : BitVec 128)
    (s : State) : Out :=
  .next (s.arrives 0x40 sess seq
    (wordLe 2 qp ++ [mtu, 0] ++ wordLe 4 remoteQpn ++ wordLe 4 startPsn ++ wordLe 16 gid))

/-- QP_DISCONNECT (R398). -/
def execQpDisconnect (sess : Half) (seq : Word) (qp : Half) (s : State) : Out :=
  .next (s.arrives 0x41 sess seq (wordLe 2 qp))

/-- MRP_REQUEST (R410). -/
def execMrpRequest (sess : Half) (seq : Word) (ops : List MrpOp) (s : State) : Out :=
  .next (s.arrives 0x80 sess seq (ops.flatMap mrpWire))

/-- START (R423). -/
def execStart (sess : Half) (seq : Word) (p : Byte) (s : State) : Out := .next (s.jobRequest sess seq p 1 0 0)

/-- STOP (R423). -/
def execStop (sess : Half) (seq : Word) (p : Byte) (s : State) : Out := .next (s.jobRequest sess seq p 2 0 0)

/-- RETRY (R423). -/
def execRetry (sess : Half) (seq : Word) (p : Byte) (s : State) : Out := .next (s.jobRequest sess seq p 3 0 0)

/-- SKIP (R423). -/
def execSkip (sess : Half) (seq : Word) (p : Byte) (s : State) : Out := .next (s.jobRequest sess seq p 4 0 0)

/-- RESUME (R423). -/
def execResume (sess : Half) (seq : Word) (p : Byte) (s : State) : Out := .next (s.jobRequest sess seq p 5 0 0)

/-- RESTORE (R449). -/
def execRestore (sess : Half) (seq : Word) (p : Byte) (step arg : DWord) (s : State) : Out :=
  .next (s.jobRequest sess seq p 6 step arg)

/-- DECLARE_LOST (R445). -/
def execDeclareLost (sess : Half) (seq : Word) (p : Byte) (arg : DWord) (s : State) : Out :=
  .next (s.jobRequest sess seq p 7 0 arg)

end Sys2Proof.Machine
end

