-- ==== Sys2Proof/Machine/Dispatch.lean ====
section
/-!
DEFINITION. The dispatch of commands: one arm per constructor of Instr, each one direct call of its meaning.
-/

namespace Sys2Proof.Machine

def exec (i : Instr) (s : State) : Host.Outcome State Fault Refusal :=
  match i with
  | .registerWrite addr data => Sys2Proof.Machine.execRegisterWrite addr data s
  | .rcRead addr upd => Sys2Proof.Machine.execRcRead addr upd s
  | .eventRecordAccept die => Sys2Proof.Machine.execEventRecordAccept die s
  | .inputRise20V => Sys2Proof.Machine.execInputRise20V s
  | .inputRise39V => Sys2Proof.Machine.execInputRise39V s
  | .railsInRegulation => Sys2Proof.Machine.execRailsInRegulation s
  | .brownOut => Sys2Proof.Machine.execBrownOut s
  | .inputOvervoltage => Sys2Proof.Machine.execInputOvervoltage s
  | .inputStageClose => Sys2Proof.Machine.execInputStageClose s
  | .refclkLost clk => Sys2Proof.Machine.execRefclkLost clk s
  | .resetNAssert => Sys2Proof.Machine.execResetNAssert s
  | .resetNDeassert => Sys2Proof.Machine.execResetNDeassert s
  | .mgmtClkLock => Sys2Proof.Machine.execMgmtClkLock s
  | .imageVerifyComplete kat image absent => Sys2Proof.Machine.execImageVerifyComplete kat image s absent
  | .tftpRetransmitTimeout => Sys2Proof.Machine.execTftpRetransmitTimeout s
  | .tftpAttemptRestart => Sys2Proof.Machine.execTftpAttemptRestart s
  | .recoveryImageReceived image flashOk => Sys2Proof.Machine.execRecoveryImageReceived image flashOk s
  | .functionReady bit => Sys2Proof.Machine.execFunctionReady bit s
  | .bringupFailed bit cause => Sys2Proof.Machine.execBringupFailed bit cause s
  | .watchdogExpiry => Sys2Proof.Machine.execWatchdogExpiry s
  | .managementMemoryUe => Sys2Proof.Machine.execManagementMemoryUe s
  | .managementRestartComplete => Sys2Proof.Machine.execManagementRestartComplete s
  | .i3cPrivateWrite bytes parityOk => Sys2Proof.Machine.execI3cPrivateWrite bytes parityOk s
  | .i3cPrivateRead addr len parityOk => Sys2Proof.Machine.execI3cPrivateRead addr len parityOk s
  | .rstdaa => Sys2Proof.Machine.execRstdaa s
  | .setdasa addr => Sys2Proof.Machine.execSetdasa addr s
  | .entdaa addr => Sys2Proof.Machine.execEntdaa addr s
  | .enec => Sys2Proof.Machine.execEnec s
  | .disec => Sys2Proof.Machine.execDisec s
  | .getpid => Sys2Proof.Machine.execGetpid s
  | .getbcr => Sys2Proof.Machine.execGetbcr s
  | .getdcr => Sys2Proof.Machine.execGetdcr s
  | .getstatus => Sys2Proof.Machine.execGetstatus s
  | .getmwl => Sys2Proof.Machine.execGetmwl s
  | .getmrl => Sys2Proof.Machine.execGetmrl s
  | .boardInputChange input value => Sys2Proof.Machine.execBoardInputChange input value s
  | .trayReading flow => Sys2Proof.Machine.execTrayReading flow s
  | .headroomWrite value => Sys2Proof.Machine.execHeadroomWrite value s
  | .envelopeWrite value => Sys2Proof.Machine.execEnvelopeWrite value s
  | .prioCfgWrite value => Sys2Proof.Machine.execPrioCfgWrite value s
  | .etsShareWrite hi value => Sys2Proof.Machine.execEtsShareWrite hi value s
  | .sideCfgWrite pin value => Sys2Proof.Machine.execSideCfgWrite pin value s
  | .timerCfgWrite timer value => Sys2Proof.Machine.execTimerCfgWrite timer value s
  | .leakInAssert pin => Sys2Proof.Machine.execLeakInAssert pin s
  | .timerExpiry timer => Sys2Proof.Machine.execTimerExpiry timer s
  | .restoreFactory => Sys2Proof.Machine.execRestoreFactory s
  | .clearFaultCounts => Sys2Proof.Machine.execClearFaultCounts s
  | .manifestData sess seq offset bytes => Sys2Proof.Machine.execManifestData sess seq offset bytes s
  | .load => Sys2Proof.Machine.execLoad s
  | .manifestSignatureVerified => Sys2Proof.Machine.execManifestSignatureVerified s
  | .manifestChecksComplete => Sys2Proof.Machine.execManifestChecksComplete s
  | .commit => Sys2Proof.Machine.execCommit s
  | .amend => Sys2Proof.Machine.execAmend s
  | .amendmentChecksComplete => Sys2Proof.Machine.execAmendmentChecksComplete s
  | .withdraw => Sys2Proof.Machine.execWithdraw s
  | .discard => Sys2Proof.Machine.execDiscard s
  | .pilotAdmit c slot => Sys2Proof.Machine.execPilotAdmit c slot s
  | .tileNop c slot => Sys2Proof.Machine.execTileNop c slot s
  | .tileFence c slot => Sys2Proof.Machine.execTileFence c slot s
  | .pilotFetchReturn c slot entry op outcome => Sys2Proof.Machine.execPilotFetchReturn c slot entry op outcome s
  | .anchorReady c slot entry fault => Sys2Proof.Machine.execAnchorReady c slot entry s fault
  | .tileProduct c slot fault => Sys2Proof.Machine.execTileProduct c slot fault s
  | .tileRowIssue c slot fault => Sys2Proof.Machine.execTileRowIssue c slot fault s
  | .rowDrain c slot residue => Sys2Proof.Machine.execRowDrain c slot residue s
  | .outputCopyComplete c slot corrected => Sys2Proof.Machine.execOutputCopyComplete c slot s corrected
  | .spareSelfTestComplete spare pass => Sys2Proof.Machine.execSpareSelfTestComplete spare pass s
  | .quantumExpiry c slot => Sys2Proof.Machine.execQuantumExpiry c slot s
  | .swapComplete c slot corrected outcome => Sys2Proof.Machine.execSwapComplete c slot corrected s outcome
  | .selfTest c => Sys2Proof.Machine.execSelfTest c s
  | .selfTestComplete c pass => Sys2Proof.Machine.execSelfTestComplete c pass s
  | .haltSlot c slot => Sys2Proof.Machine.execHaltSlot c slot s
  | .resumeSlot c slot => Sys2Proof.Machine.execResumeSlot c slot s
  | .peakRecordReceive p record => Sys2Proof.Machine.execPeakRecordReceive p record s
  | .vectorDescriptorAdmit c slot => Sys2Proof.Machine.execVectorDescriptorAdmit c slot s
  | .vectorNop c slot => Sys2Proof.Machine.execVectorNop c slot s
  | .vectorMap c slot fault stop => Sys2Proof.Machine.execVectorMap c slot fault s stop
  | .vectorQuant c slot fault stop => Sys2Proof.Machine.execVectorQuant c slot fault s stop
  | .vectorMask c slot fault stop => Sys2Proof.Machine.execVectorMask c slot s fault stop
  | .vectorLsum c slot fault => Sys2Proof.Machine.execVectorLsum c slot s fault
  | .vectorDiscard c slot => Sys2Proof.Machine.execVectorDiscard c slot s
  | .lastTileNotice p block microBatch step => Sys2Proof.Machine.execLastTileNotice p block microBatch step s
  | .stashCopyComplete p block => Sys2Proof.Machine.execStashCopyComplete p block s
  | .stashWaitLimitExpiry p block => Sys2Proof.Machine.execStashWaitLimitExpiry p block s
  | .lighterNop die n => Sys2Proof.Machine.execLighterNop die n s
  | .lighterCopy die n outcome => Sys2Proof.Machine.execLighterCopy die n outcome s
  | .lighterAdd die n outcome => Sys2Proof.Machine.execLighterAdd die n outcome s
  | .lighterSettle die n outcome => Sys2Proof.Machine.execLighterSettle die n outcome s
  | .lighterClear die n => Sys2Proof.Machine.execLighterClear die n s
  | .lighterResume die n => Sys2Proof.Machine.execLighterResume die n s
  | .lighterFlush die n => Sys2Proof.Machine.execLighterFlush die n s
  | .scrubNow => Sys2Proof.Machine.execScrubNow s
  | .patrolScrub finds => Sys2Proof.Machine.execPatrolScrub finds s
  | .refresh stack pc => Sys2Proof.Machine.execRefresh stack pc s
  | .refreshBandRise stack dram temp => Sys2Proof.Machine.execRefreshBandRise stack dram temp s
  | .refreshBandFall stack dram temp => Sys2Proof.Machine.execRefreshBandFall stack dram temp s
  | .rowRepairComplete stack pc row => Sys2Proof.Machine.execRowRepairComplete stack pc row s
  | .bankRepairComplete stack pc bank => Sys2Proof.Machine.execBankRepairComplete stack pc bank s
  | .holdSpareTestComplete spare pass oldReadable => Sys2Proof.Machine.execHoldSpareTestComplete spare pass oldReadable s
  | .holdSpareCopyComplete spare lost partner => Sys2Proof.Machine.execHoldSpareCopyComplete spare s lost partner
  | .berthWrite berth msg => Sys2Proof.Machine.execBerthWrite berth msg s
  | .berthDequeue berth => Sys2Proof.Machine.execBerthDequeue berth s
  | .berthFlush berth => Sys2Proof.Machine.execBerthFlush berth s
  | .linkDetectProbe k present => Sys2Proof.Machine.execLinkDetectProbe k present s
  | .linkEqualiseComplete k => Sys2Proof.Machine.execLinkEqualiseComplete k s
  | .linkTrainingTimeout k badLanes => Sys2Proof.Machine.execLinkTrainingTimeout k badLanes s
  | .linkLockComplete k laneMap => Sys2Proof.Machine.execLinkLockComplete k laneMap s
  | .linkRttComplete k rtt => Sys2Proof.Machine.execLinkRttComplete k rtt s
  | .linkIdentReceived k record => Sys2Proof.Machine.execLinkIdentReceived k record s
  | .linkCheck k => Sys2Proof.Machine.execLinkCheck k s
  | .portMissingDeadline port => Sys2Proof.Machine.execPortMissingDeadline port s
  | .discoveryWaitExpiry => Sys2Proof.Machine.execDiscoveryWaitExpiry s
  | .proceed => Sys2Proof.Machine.execProceed s
  | .discoveryHalt => Sys2Proof.Machine.execDiscoveryHalt s
  | .enable k => Sys2Proof.Machine.execEnable k s
  | .disable k => Sys2Proof.Machine.execDisable k s
  | .retrain k => Sys2Proof.Machine.execRetrain k s
  | .linkLossOfLock k => Sys2Proof.Machine.execLinkLossOfLock k s
  | .flitReceive k flit => Sys2Proof.Machine.execFlitReceive k flit s
  | .fecRateWindow k lane corrected high => Sys2Proof.Machine.execFecRateWindow k lane corrected high s
  | .packetInject p pkt => Sys2Proof.Machine.execPacketInject p pkt s
  | .packetForward pkt ingress hopNs => Sys2Proof.Machine.execPacketForward pkt ingress hopNs s
  | .class0Operation key member value => Sys2Proof.Machine.execClass0Operation key member value s
  | .reductionScaleReceive key member idx scales => Sys2Proof.Machine.execReductionScaleReceive key member idx scales s
  | .reductionScalePhaseClose key => Sys2Proof.Machine.execReductionScalePhaseClose key s
  | .reductionContributionReceive key term => Sys2Proof.Machine.execReductionContributionReceive key term s
  | .reductionRound key => Sys2Proof.Machine.execReductionRound key s
  | .excusalReceive key member action engine => Sys2Proof.Machine.execExcusalReceive key member action engine s
  | .ethLinkUp phy => Sys2Proof.Machine.execEthLinkUp phy s
  | .ethLinkDown cause => Sys2Proof.Machine.execEthLinkDown cause s
  | .frameReceive frame sec => Sys2Proof.Machine.execFrameReceive frame sec s
  | .pfcStuck prio => Sys2Proof.Machine.execPfcStuck prio s
  | .cctOpen seq payload => Sys2Proof.Machine.execCctOpen seq payload s
  | .cctClose sess seq => Sys2Proof.Machine.execCctClose sess seq s
  | .cctKeepalive sess seq => Sys2Proof.Machine.execCctKeepalive sess seq s
  | .berthPut sess seq berth cls bytes => Sys2Proof.Machine.execBerthPut sess seq berth cls bytes s
  | .berthTake sess seq berth maxItems => Sys2Proof.Machine.execBerthTake sess seq berth maxItems s
  | .frameSend sess seq frame => Sys2Proof.Machine.execFrameSend sess seq frame s
  | .qpConnect sess seq qp mtu remoteQpn startPsn gid => Sys2Proof.Machine.execQpConnect sess seq qp mtu remoteQpn startPsn gid s
  | .qpDisconnect sess seq qp => Sys2Proof.Machine.execQpDisconnect sess seq qp s
  | .mrpRequest sess seq ops => Sys2Proof.Machine.execMrpRequest sess seq ops s
  | .sessionTimeout sess => Sys2Proof.Machine.execSessionTimeout sess s
  | .rdmaReadComplete p step sample outcome => Sys2Proof.Machine.execRdmaReadComplete p step sample outcome s
  | .fetchTimeout p => Sys2Proof.Machine.execFetchTimeout p s
  | .ethRetrain => Sys2Proof.Machine.execEthRetrain s
  | .pcieRetrain => Sys2Proof.Machine.execPcieRetrain s
  | .driveReset drive => Sys2Proof.Machine.execDriveReset drive s
  | .snapshotLinkUp rate width => Sys2Proof.Machine.execSnapshotLinkUp rate width s
  | .nvmeCommandComplete drive cid => Sys2Proof.Machine.execNvmeCommandComplete drive cid s
  | .nvmeCommandTimeout drive cid => Sys2Proof.Machine.execNvmeCommandTimeout drive cid s
  | .driveReadyTimeout drive => Sys2Proof.Machine.execDriveReadyTimeout drive s
  | .logbookDriveTimeout => Sys2Proof.Machine.execLogbookDriveTimeout s
  | .loop p => Sys2Proof.Machine.execLoop p s
  | .endloop p => Sys2Proof.Machine.execEndloop p s
  | .fetch p => Sys2Proof.Machine.execFetch p s
  | .post p => Sys2Proof.Machine.execPost p s
  | .wait p => Sys2Proof.Machine.execWait p s
  | .reduce p => Sys2Proof.Machine.execReduce p s
  | .loss p total => Sys2Proof.Machine.execLoss p total s
  | .verdict p => Sys2Proof.Machine.execVerdict p s
  | .verdictResult p nonfinite spike => Sys2Proof.Machine.execVerdictResult p nonfinite spike s
  | .endStep p => Sys2Proof.Machine.execEndStep p s
  | .slackWaterOpen p => Sys2Proof.Machine.execSlackWaterOpen p s
  | .partnerDigestReceive p digest => Sys2Proof.Machine.execPartnerDigestReceive p digest s
  | .logbookEntryWritten p => Sys2Proof.Machine.execLogbookEntryWritten p s
  | .snapshotWriteOutComplete p => Sys2Proof.Machine.execSnapshotWriteOutComplete p s
  | .guestSizeReceive guest size => Sys2Proof.Machine.execGuestSizeReceive guest size s
  | .keeperReceive item => Sys2Proof.Machine.execKeeperReceive item s
  | .start sess seq p => Sys2Proof.Machine.execStart sess seq p s
  | .stop sess seq p => Sys2Proof.Machine.execStop sess seq p s
  | .retry sess seq p => Sys2Proof.Machine.execRetry sess seq p s
  | .skip sess seq p => Sys2Proof.Machine.execSkip sess seq p s
  | .resume sess seq p => Sys2Proof.Machine.execResume sess seq p s
  | .restore sess seq p step arg => Sys2Proof.Machine.execRestore sess seq p step arg s
  | .declareLost sess seq p arg => Sys2Proof.Machine.execDeclareLost sess seq p arg s
  | .restoreLoadComplete p lastStep digestsOk guest => Sys2Proof.Machine.execRestoreLoadComplete p lastStep digestsOk s guest
  | .forceSnapshot p => Sys2Proof.Machine.execForceSnapshot p s
  | .readyPacketReceive p group step member => Sys2Proof.Machine.execReadyPacketReceive p group step member s
  | .stragglerWaitExpiry p group member => Sys2Proof.Machine.execStragglerWaitExpiry p group member s
  | .haltNoticeReceive p step mode cause => Sys2Proof.Machine.execHaltNoticeReceive p step mode cause s
  | .heartbeatTick p => Sys2Proof.Machine.execHeartbeatTick p s
  | .partnerLossTimeout p => Sys2Proof.Machine.execPartnerLossTimeout p s
  | .unpartneredLossTimeout p member => Sys2Proof.Machine.execUnpartneredLossTimeout p member s
  | .lossNoticeReceive p lost step mode => Sys2Proof.Machine.execLossNoticeReceive p lost step mode s
  | .claimReceive claim => Sys2Proof.Machine.execClaimReceive claim s
  | .claimAnswer p accepted => Sys2Proof.Machine.execClaimAnswer p accepted s
  | .claimTimeout p => Sys2Proof.Machine.execClaimTimeout p s
  | .remapAcknowledged p => Sys2Proof.Machine.execRemapAcknowledged p s
  | .fillCopyComplete p digestsEqual guest => Sys2Proof.Machine.execFillCopyComplete p digestsEqual s guest
  | .fillRegenComplete p => Sys2Proof.Machine.execFillRegenComplete p s
  | .fillQueueExpiry p => Sys2Proof.Machine.execFillQueueExpiry p s
  | .powerEstimateTick e => Sys2Proof.Machine.execPowerEstimateTick e s
  | .burstLimitExpiry peakW => Sys2Proof.Machine.execBurstLimitExpiry peakW s
  | .powerMeasurementTick m => Sys2Proof.Machine.execPowerMeasurementTick m s
  | .powerDisagreeExpiry => Sys2Proof.Machine.execPowerDisagreeExpiry s
  | .powerSensorFaultExpiry sensor => Sys2Proof.Machine.execPowerSensorFaultExpiry sensor s
  | .clearSensorFault => Sys2Proof.Machine.execClearSensorFault s
  | .ceilingUpdate meanW => Sys2Proof.Machine.execCeilingUpdate meanW s
  | .fvLoopTick die mhz => Sys2Proof.Machine.execFvLoopTick die mhz s
  | .thermalModelUpdate spots => Sys2Proof.Machine.execThermalModelUpdate spots s
  | .thermalQuiesceExpiry spot => Sys2Proof.Machine.execThermalQuiesceExpiry spot s
  | .floorDutyRelease die => Sys2Proof.Machine.execFloorDutyRelease die s
  | .diodePairSuspect spot r0 r1 => Sys2Proof.Machine.execDiodePairSuspect spot r0 r1 s
  | .hotspotSensorFault spot model => Sys2Proof.Machine.execHotspotSensorFault spot model s
  | .diodePairClear spot => Sys2Proof.Machine.execDiodePairClear spot s
  | .coolantStale => Sys2Proof.Machine.execCoolantStale s
  | .coolantDefault => Sys2Proof.Machine.execCoolantDefault s
  | .marginCheck die slackPerMille => Sys2Proof.Machine.execMarginCheck die slackPerMille s
  | .marginLower die => Sys2Proof.Machine.execMarginLower die s
  | .supplyWarnFall => Sys2Proof.Machine.execSupplyWarnFall s
  | .supplyWarnHeld => Sys2Proof.Machine.execSupplyWarnHeld s
  | .supplyWarnRise => Sys2Proof.Machine.execSupplyWarnRise s
  | .supplyWarnRelease => Sys2Proof.Machine.execSupplyWarnRelease s
  | .sluiceWaveOpen die wave => Sys2Proof.Machine.execSluiceWaveOpen die wave s
  | .droopStretch die => Sys2Proof.Machine.execDroopStretch die s
  | .droopRecover die => Sys2Proof.Machine.execDroopRecover die s
  | .flowStop pin => Sys2Proof.Machine.execFlowStop pin s
  | .quiesceComplete => Sys2Proof.Machine.execQuiesceComplete s
  | .quiesceEnd => Sys2Proof.Machine.execQuiesceEnd s
  | .ptResume => Sys2Proof.Machine.execPtResume s
  | .tideReset => Sys2Proof.Machine.execTideReset s
  | .thermTrip comparator => Sys2Proof.Machine.execThermTrip comparator s
  | .claim i3c device counter key sig => Sys2Proof.Machine.execClaim i3c device counter key sig s
  | .setManifestKey i3c device counter slot key sig => Sys2Proof.Machine.execSetManifestKey i3c device counter slot key sig s
  | .revokeManifestKey i3c device counter slot sig => Sys2Proof.Machine.execRevokeManifestKey i3c device counter slot sig s
  | .setHostKey i3c device counter slot key sig => Sys2Proof.Machine.execSetHostKey i3c device counter slot key sig s
  | .revokeHostKey i3c device counter slot sig => Sys2Proof.Machine.execRevokeHostKey i3c device counter slot sig s
  | .installSak i3c device counter args sig => Sys2Proof.Machine.execInstallSak i3c device counter args sig s
  | .removePeer i3c device counter peer sig => Sys2Proof.Machine.execRemovePeer i3c device counter peer sig s
  | .raiseMinSvn i3c device counter svn sig => Sys2Proof.Machine.execRaiseMinSvn i3c device counter svn sig s
  | .forceNetworkBoot i3c device counter sig => Sys2Proof.Machine.execForceNetworkBoot i3c device counter sig s
  | .release i3c device counter sig => Sys2Proof.Machine.execRelease i3c device counter sig s
  | .decommission i3c device counter sig => Sys2Proof.Machine.execDecommission i3c device counter sig s
  | .clearMailbox => Sys2Proof.Machine.execClearMailbox s
  | .issue p => Sys2Proof.Machine.execIssue p s
  | .linkDieLoss ld => Sys2Proof.Machine.execLinkDieLoss ld s
  | .packageLaneFault link upward lane => Sys2Proof.Machine.execPackageLaneFault link upward s lane
  | .alwaysOnRailFall => Sys2Proof.Machine.execAlwaysOnRailFall s
  | .driveReady drive blocks => Sys2Proof.Machine.execDriveReady drive blocks s
  | .serviceManagementClear => Sys2Proof.Machine.execServiceManagementClear s
  | .deviceLoss die => Sys2Proof.Machine.execDeviceLoss die s
  | .jtagInstruction ins => Sys2Proof.Machine.execJtagInstruction ins s

end Sys2Proof.Machine
end

