-- ==== Sys2Proof/Safety.lean ====
section
/-!
DEFINITION. The terms that claims use: which parts of the state a command leaves alone, and the canonical form that
every memory keeps.
-/

namespace Sys2Proof.Machine

/-- The parts of the state, by the names of its fields. -/
inductive Field where
  | pending | deferred | free | supply | boot | sec | pt | ptAux | ptDies | hm | hmAux | events | i3c
  | mf | mfAux | clusters | mem | memDies | memAux | berths | links | linkCtrs | kx | reds | gw | gwAux
  | parts | runs | jr | pkg
  deriving DecidableEq, Repr

/-- Two states agree on a part. -/
def Field.same : Field → State → State → Prop
  | .pending, s, t => t.pending = s.pending
  | .deferred, s, t => t.deferred = s.deferred
  | .free, s, t => t.free = s.free
  | .supply, s, t => t.supply = s.supply
  | .boot, s, t => t.boot = s.boot
  | .sec, s, t => t.sec = s.sec
  | .pt, s, t => t.pt = s.pt
  | .ptAux, s, t => t.ptAux = s.ptAux
  | .ptDies, s, t => t.ptDies = s.ptDies
  | .hm, s, t => t.hm = s.hm
  | .hmAux, s, t => t.hmAux = s.hmAux
  | .events, s, t => t.events = s.events
  | .i3c, s, t => t.i3c = s.i3c
  | .mf, s, t => t.mf = s.mf
  | .mfAux, s, t => t.mfAux = s.mfAux
  | .clusters, s, t => t.clusters = s.clusters
  | .mem, s, t => t.mem = s.mem
  | .memDies, s, t => t.memDies = s.memDies
  | .memAux, s, t => t.memAux = s.memAux
  | .berths, s, t => t.berths = s.berths
  | .links, s, t => t.links = s.links
  | .linkCtrs, s, t => t.linkCtrs = s.linkCtrs
  | .kx, s, t => t.kx = s.kx
  | .reds, s, t => t.reds = s.reds
  | .gw, s, t => t.gw = s.gw
  | .gwAux, s, t => t.gwAux = s.gwAux
  | .parts, s, t => t.parts = s.parts
  | .runs, s, t => t.runs = s.runs
  | .jr, s, t => t.jr = s.jr
  | .pkg, s, t => t.pkg = s.pkg

/-- Two states agree on every part but those listed: the frame of a command. -/
structure SameBut (fs : List Field) (s t : State) : Prop where
  same : ∀ f : Field, f ∉ fs → f.same s t

/-- A snapshot's image as it is kept has the canonical form. -/
def SnapImage.ok (i : SnapImage) : Prop := Cells.wf i.hold = true ∧ Cells.wf i.late = true

/-- The canonical form of whatever holds bytes by address: in each memory, each cluster store and each snapshot kept,
addresses rise strictly and no listed byte is 0. -/
def State.memOk (s : State) : Prop :=
  Memory.wf s.mem = true ∧ (∀ k, Cells.wf (s.clusterAt k).store = true)
    ∧ ∀ p, (∀ i ∈ (s.log p).slots, i.ok) ∧ ∀ i ∈ (s.log p).snapImage, i.1.ok

/-- Two states hold the same bytes in every memory. -/
def SameBytes (s t : State) : Prop := ∀ (sp : Space) (a : Nat), t.byte sp a = s.byte sp a

/-- Two states hold the same bytes outside a range of one memory. -/
def SameBytesOutside (sp : Space) (a n : Nat) (s t : State) : Prop :=
  ∀ (sq : Space) (b : Nat), (sq ≠ sp ∨ b < a ∨ a + n ≤ b) → t.byte sq b = s.byte sq b

/-- A device in reset (R546): nothing runs, nothing is ready, nothing is configured or queued; the commands that wait
are the model's own and stay. -/
def InReset (s t : State) : Prop :=
  t.boot = Boot.held ∧ t.hm.ready = 0 ∧ t.mf = Mf.zero ∧ t.berths = [] ∧ t.links = [] ∧ t.parts = [] ∧ t.gw = Gw.zero
    ∧ t.events = Events.zero ∧ t.pending = s.pending ∧ t.sec.lifecycle = s.sec.lifecycle ∧ t.sec.hostKeys = s.sec.hostKeys
    ∧ t.hm.aon = s.hm.aon

/-- Register writes reach a block with this ready bit (R522, R529, R530): the sideband answers, no management restart
runs, and the block is ready. -/
def State.serves (s : State) (b : Nat) : Prop :=
  s.ready readySideband = true ∧ s.hmAux.restarting = false ∧ s.ready b = true

/-- The event that a command raises first at the Harbourmaster takes the next sequence number and enters the log, while
records are accepted (R40, R537, R538). -/
def Reports (s t : State) (code : Nat) : Prop :=
  s.reporting = true → ∃ l ∈ t.events.log, l.ev.code = BitVec.ofNat 16 code ∧ l.ev.seq = s.events.seq

/-- The event that a command raises at another die stands on the ring, while records are accepted (R40). -/
def RaisedAt (s t : State) (code die : Nat) : Prop :=
  s.reporting = true → ∃ r ∈ t.events.ring, r.code = BitVec.ofNat 16 code ∧ r.die = BitVec.ofNat 4 die

/-- The frame of a write to berth `n`: where its items go to a context, one may start a swap (R121). -/
def BerthFrame (n : Nat) (fs : List Field) (s t : State) : Prop :=
  SameBut (.events :: .clusters :: fs) s t ∧ (isContext (s.berth n).front.consumerId = false → SameBut fs s t)

/-- Every cluster but one is as it was. -/
def OtherClusters (die phys : Nat) (s t : State) : Prop :=
  ∀ d c, (d ≠ die ∨ c ≠ phys) → d < 8 → c < 256 → t.cluster d c = s.cluster d c

/-- Every partition but one is as it was, in its state and in what its sequencer, logbook, stash and lading hold. -/
def OtherParts (p : Nat) (s t : State) : Prop := ∀ q, q ≠ p → t.part q = s.part q ∧ t.run q = s.run q

/-- A descriptor `e` at place `i` of its context's window has run on the vector engine with the outcome `x` (R229 to R231):
it left the window, its store is written, with its status record where it asks for one, and nothing else of the clusters
changed. -/
def VectorRan (a : At) (i : Nat) (e : Entry) (x : VecRun) (s t : State) : Prop :=
  (t.ctxOf a).window = (s.ctxOf a).window.eraseIdx i
    ∧ (t.clusterOf a).store = (if (Vec.of e.words).statusEn then
        Cells.write x.store (a.ctx.lo + (Vec.of e.words).status * 128)
          (statusBytes x.elems x.bad x.flagByte x.result x.total)
      else x.store)
    ∧ (t.clusterOf a).lastVector = a.slot ∧ (t.clusterOf a).flight = (s.clusterOf a).flight
    ∧ OtherClusters a.die a.phys s t ∧ SameBut [.events, .clusters, .mem, .berths, .runs, .jr] s t
    ∧ ((Vec.of e.words).kind ≠ 2 → t.jr = s.jr)

/-- It has stopped before part `n`, for a swap (R241): what it wrote stays written, and its place, counts and partial
results stand in its entry. -/
def VectorStopped (a : At) (i : Nat) (e : Entry) (n : Nat) (s t : State) : Prop :=
  (t.ctxOf a).window[i]? = some { e with vec := (s.vectorTo a e n).part n }
    ∧ (t.clusterOf a).store = (s.vectorTo a e n).store ∧ (t.clusterOf a).flight = (s.clusterOf a).flight
    ∧ OtherClusters a.die a.phys s t ∧ SameBut [.clusters] s t

/-- A lighter stands with `w` at the front of its queue, or as the oldest item of its intake where the queue is empty, and
may start it: its die works, it is not halted, and its partition is not held. `u` is the machine once the lighter has taken
it. -/
def State.lightStands (s : State) (w : Work) (u : State) : Prop :=
  s.dieUp w.die = true ∧ (s.lighter w.die w.n).halted = false ∧ (s.run w.part).held = false
    ∧ (s.lighterFront w.die w.n).1 = some w ∧ u = (s.lighterFront w.die w.n).2.amendCheck

/-- A lighter's descriptor has left its queue, and only its writes, its notice and its place in the step sequencer's lists
changed beside. -/
def LightLeft (w : Work) (s t : State) : Prop :=
  (t.lighter w.die w.n).queue = (s.lighter w.die w.n).queue.drop 1 ∧ (t.lighter w.die w.n).halted = false
    ∧ OtherParts w.part s t ∧ SameBut [.events, .mem, .memAux, .berths, .parts, .runs] s t

/-- Two states hold the same bytes of a memory outside some ranges, and the same in every other memory. -/
def SameOutside (sp : Space) (rs : List Range) (s t : State) : Prop :=
  ∀ (sq : Space) (a : Nat), (sq ≠ sp ∨ ∀ r ∈ rs, a < r.1 ∨ r.1 + r.2 ≤ a) → t.byte sq a = s.byte sq a

/-- Every link but one is as it was, in its state and its counters. -/
def OtherLinks (k : Nat) (s t : State) : Prop := ∀ j, j ≠ k → t.link j = s.link j ∧ t.linkCtr j = s.linkCtr j

/-- A frame has come in (Table 11.8). -/
def State.heard (s : State) : State := s.modGwAux (fun a => { a with rxFrames := a.rxFrames + 1 })

/-- The next request of an open session is that of `seq`, the Gateway hears it, and none is held behind it (R406, R407). -/
def State.turn (s : State) (sess : Half) (seq : Word) : Prop :=
  s.hears false = true ∧ sess.toNat < 64 ∧ (s.session sess.toNat).isOpen = true
    ∧ (s.session sess.toNat).nextSeq = seq ∧ (s.session sess.toNat).held = []

/-- The last response sent answers the request of `seq` with a status and a payload. -/
def Answered (t : State) (opcode : Byte) (sess : Half) (seq : Word) (status : Byte) (b : Bytes) : Prop :=
  t.gwAux.sent.getLast? = some
    { mrp := decide (opcode = 0x80), opcode := opcode, sess := sess, seq := seq, status := status, payload := b }

/-- The sequencer of a partition stands at an instruction of BODY of op `op` and may run it; `b` is the machine at its
boundary (R420, R424, R466): the step has begun, a rewind has ended, and the power controller has been told of the
instruction. -/
def State.bodyRuns (s : State) (p op : Nat) (i : BodyIns) (b : State) : Prop :=
  (s.tryBegin p).bodyAt p op = some i
    ∧ b = (if (((s.tryBegin p).endRewind p).seq p).reported = some ((s.tryBegin p).seq p).pc
      then (s.tryBegin p).endRewind p
      else ((s.tryBegin p).endRewind p).boundary p ((s.tryBegin p).seq p).pc)

/-- The part of the apply pass that an instruction of BODY belongs to (R268). -/
def State.postPart (s : State) (p : Nat) : Option ApplyPart :=
  if s.applies p then s.partNow p else none

/-- The blocks that must be writable before a POST: those of its part, else those that its images write (R267, R268). -/
def State.postBlocks (s : State) (p : Nat) (g : StepProgram) (cls : Nat) (images : List (List Word)) : List WeightBlock :=
  match s.postPart p with
  | some x => x.2.2
  | none => if s.applies p then g.blocksHit (images.flatMap (imageWrites cls)) else []

/-- A POST's images go into its berth in their order, each with the stash entries it reads, and BODY goes on. -/
def State.postAll (s : State) (p : Nat) (i : BodyIns) (cls : Nat) (xs : List (List Word × List (Word × Byte))) : State :=
  (xs.zipIdx.foldl (fun s x => s.postImage p i.a cls (i.flags.testBit 2) (i.c % 2 ^ 32 + x.2, x.1)) s).goOn p

/-- The sequencer of a partition past the instruction it stands at; at the end of a part of the apply pass that was put off
it is back at END. -/
def State.pastIns (s : State) (p : Nat) : Sequencer := (s.seq p).past ((s.bodyOf p).length - 1)

/-- The sequencer of one partition is as given, and every other partition's running state is as it was. -/
def OnlySeq (p : Nat) (q : Sequencer) (s t : State) : Prop :=
  t.run p = { s.run p with seq := q } ∧ (∀ r, r ≠ p → t.run r = s.run r)

/-- A restore's load is done: its reads have ended, and what it brings is in place (R449). -/
def State.loaded (s : State) (p : Nat) (step : DWord) (keeper : Bool) (guest : Option GuestImage) : State :=
  ((match (s.log p).loadCid with
    | some cid => (s.commandEnds cid).modLog p (fun l => { l with loadCid := none })
    | none => s).loadImage p step keeper guest).countLading p 7

/-- A message has gone to the job after whatever was sent before. -/
def Sent1 (p : Nat) (n : Notice) (s t : State) : Prop :=
  t.jr.sent = s.jr.sent ++ [{ part := BitVec.ofNat 6 p, notice := n }]

/-- A message stands among what went to the job. -/
def SentAmong (p : Nat) (n : Notice) (t : State) : Prop :=
  ({ part := BitVec.ofNat 6 p, notice := n } : Sent) ∈ t.jr.sent

/-- An event of a code stands in the log, while records are accepted. -/
def Logged (s t : State) (code : Nat) : Prop :=
  s.reporting = true → ∃ l ∈ t.events.log, l.ev.code = BitVec.ofNat 16 code

/-- The next request of a session is a JOB request about a partition of the committed Manifest, and management serves it
(R423, R522, R529). -/
def State.jobTurn (s : State) (sess : Half) (seq : Word) (p : Nat) : Prop :=
  s.turn sess seq ∧ s.hmAux.restarting = false ∧ s.jobPart p = true

/-- A job control record has been answered with a result and the partition's state and step (Table 12.6), and no other
partition's state changed. -/
def JobDone (s t : State) (sess : Half) (seq : Word) (p result : Nat) : Prop :=
  Answered t 0x30 sess seq 0 (natLe 1 result ++ natLe 1 (t.part p).state.code ++ zeros 6 ++ wordLe 8 (t.part p).step)
    ∧ ∀ q, q ≠ p → t.part q = s.part q

/-- An owner command reaches the mailbox: the security block serves it and no other command is busy. -/
def State.mailServes (s : State) : Prop := s.serves readySecurity ∧ s.sec.busy = false

/-- The result of an owner command (R506, R507): its record, with zeros after it, fills the mailbox. -/
def State.mailResult (s : State) (i3c : Bool) (cmd : Nat) (device counter : DWord) (args sig : Bytes) : Nat :=
  s.ownerResult i3c (padTo 512 (ownerRecord cmd device counter args sig))

/-- An owner command has been carried out: SEC_CMD_RESULT and the counter say so, and 0x1004 is in the log. -/
def OwnerDone (s t : State) (cmd : Nat) (counter : DWord) : Prop :=
  t.sec.cmdResult = BitVec.ofNat 32 (cmd * 256) ∧ t.sec.ownerCounter = counter ∧ t.sec.error = s.sec.error
    ∧ Logged s t 0x1004 ∧ SameBut [.sec, .events, .i3c, .mf, .mem, .berths, .gw] s t

/-- An owner command has been refused: only its record, its result, SEC_ERROR [1] and 0x1005 say so. -/
def OwnerRefused (s t : State) (cmd result : Nat) (record : Bytes) : Prop :=
  t.sec = { (s.putMail record).sec with cmdResult := BitVec.ofNat 32 (result + cmd * 256), error := setBit s.sec.error 1 }
    ∧ Reports s t 0x1005 ∧ SameBut [.sec, .events, .i3c, .mem, .berths] s t

/-- The frame of a frame sent by the Ethernet port: its packet number, and what the number's end raises (R392, R512). -/
abbrev sendFields : List Field := [.sec, .gw, .gwAux, .events, .i3c, .mem, .berths]

/-- A frame that the port sends puts no event into a berth (R512): no peer has a packet number to use up, or no berth takes
events. -/
def State.quietPort (s : State) : Prop := s.sec.peers = [] ∨ bit s.events.berth 14 = false

/-- A cut of the power controller (R466): every clock that may fall falls; with none, every duty above the floor falls; with
none of those, every memory rate above the least. What stands earlier in the order stays. -/
def PowerCut (s t : State) : Prop :=
  ((∃ d, d < 8 ∧ (s.ptDie d).slows = true) →
    (∀ d, d < 8 → (s.ptDie d).slows = true → (t.ptDie d).mhz < (s.ptDie d).mhz)
    ∧ ∀ d, (t.ptDie d).cutFast = (s.ptDie d).cutFast ∧ (t.ptDie d).memRate = (s.ptDie d).memRate)
  ∧ ((∀ d, d < 8 → (s.ptDie d).slows = false) → (∃ d, d < 8 ∧ (s.ptDie d).cutFast < floorCut) →
    (∀ d, d < 8 → (s.ptDie d).cutFast < floorCut → (s.ptDie d).cutFast < (t.ptDie d).cutFast)
    ∧ ∀ d, (t.ptDie d).mhz = (s.ptDie d).mhz ∧ (t.ptDie d).memRate = (s.ptDie d).memRate)
  ∧ ((∀ d, d < 8 → (s.ptDie d).slows = false ∧ floorCut ≤ (s.ptDie d).cutFast) →
    (∃ d, d < 8 ∧ 25 < (s.ptDie d).memRate) →
    (∀ d, d < 8 → 25 < (s.ptDie d).memRate → (t.ptDie d).memRate < (s.ptDie d).memRate)
    ∧ t.ptAux.kraekRate = s.ptAux.kraekRate)

/-- Power comes back after a quiesce (R484): the flow row is idle, no die is cut, and issue is released in waves. -/
def Resumed (s t : State) : Prop :=
  t.pt = { s.pt with flowRow := .idle, resumeReady := false, ceiling := s.pt.measuredW }
    ∧ (∀ d, d < 8 → t.ptDie d = { s.ptDie d with cutFlow := 0, cutQuiesce := 0, waves := 0 }) ∧ Reports s t 0x200C

/-- The ring of no partition's logbook holds a write back. -/
def State.nothingHeld (s : State) : Prop :=
  ∀ p ∈ s.parts.map (·.1), (s.seq p).phase = .slack 5 → ∀ u ∈ (s.log p).unwritten, u.cid.isSome = true

/-- The frame of a register write that its block serves. -/
abbrev hmFields : List Field := [.hm, .events, .i3c, .mem, .berths]

end Sys2Proof.Machine
end

