-- ==== Sys2Proof/Certificates/Slice0/Obligations.lean ====
section
/-!
DEFINITION. The statements for the provers: what the commands do to the machine, by the rules of the spec.
-/

open Sys2Proof Sys2Proof.Machine

/-- A step takes the command at the front of the queue and runs it on the rest. An idle step (R38; that it is what an
empty queue does, and that the ports of the fabric send in it, is the model's choice: log entries 6, 49 and 82): the
local time counter counts one tick unless the device is held in reset, the always-on counter stands while its rail is
down, every memory holds the bytes it held, and nothing else changes but the times of the steps that run (R489), the
banks in copy (R323), identity records (R368), the packets and flits at the ports of the plan, and buffers that a
pause was sent for (R394). -/
def Obligations.StepRunsTheFrontCommand : Prop :=
  (∀ (c : Instr) (s : State) (rest : List Instr),
    step { s with pending := c :: rest } = exec c { s with pending := rest })
  ∧ (∀ s : State, s.pending = [] →
    ∃ t, step s = .next t ∧ t.hm.time = (if s.boot.phase = .held then s.hm.time else s.hm.time + 1)
      ∧ (s.supply.alwaysOn = false → t.hm.aon = s.hm.aon) ∧ SameBytes s t
      ∧ SameBut [.free, .hm, .mem, .runs, .kx, .links, .linkCtrs, .gw, .gwAux] s t
      ∧ (s.mfAux.dev.ports = [] → (∀ e ∈ s.parts, e.2.state.live = false) → s.mem.bankTicks = [] →
        (∀ k, k < 16 → (s.link k).state ≠ .ident) → (∀ n, n < 8 → (s.prio n).xoff = false) → SameBut [.hm] s t))

/-- Every command in every state answers a next state: none of them stops the machine, and none touches the commands that
wait (a command that the device does not admit has no effect: log entry 5, the model's choice). -/
def Obligations.EveryCommandKeepsTheQueue : Prop :=
  ∀ (c : Instr) (s : State), ∃ t, exec c s = .next t ∧ t.pending = s.pending

/-- The memories keep their canonical form (log entry 4: the model's form) through every step, whatever state it starts
from. -/
def Obligations.StepKeepsMemoryCanonical : Prop :=
  ∀ s t : State, s.memOk → step s = .next t → t.memOk

/-- Reset begins with the canonical form: every memory is empty, and every byte of it reads as zero (log entry 4: the
value is the model's choice). -/
def Obligations.ResetMemoryCanonical : Prop :=
  State.reset.memOk ∧ ∀ (sp : Space) (a : Nat), State.reset.byte sp a = 0

/-- R545, R548, R549 (the input stage and the rails): each edge of the supply changes the supply alone, and the rise of
the always-on rail clears the always-on counter, releases THERM_TRIP_N and gives cause 0. R546: the boot starts when
PWR_GOOD_OUT and RESET_N are high, whichever rises last. A RETIRED part boots no firmware (R499), and RESET_N's rise
clears the local time counter (R38). -/
def Obligations.SupplyAndBootStart : Prop :=
  (∀ s : State,
    (s.supply.alwaysOn = false →
      ∃ t, exec .inputRise20V s = .next t ∧ t.supply.alwaysOn = true ∧ t.supply.armed = true
        ∧ t.supply.tripLatched = false ∧ t.hm.aon = 0 ∧ t.hm.resetCause = 1 ∧ SameBut [.supply, .hm, .hmAux] s t)
    ∧ (s.supply.alwaysOn = true → s.supply.stageClosed = false →
      ∃ t, exec .inputRise39V s = .next t ∧ t.supply.stageClosed = true ∧ t.supply.bulkCharged = true
        ∧ SameBut [.supply] s t)
    ∧ (∃ t, exec .inputOvervoltage s = .next t ∧ t.supply.stageClosed = false ∧ SameBut [.supply] s t)
    ∧ (s.supply.alwaysOn = true →
      ∃ t, exec .inputStageClose s = .next t ∧ t.supply.stageClosed = true ∧ SameBut [.supply] s t))
  ∧ (∀ s : State, s.boot.phase = .held → s.supply.clkHold = false → s.dead 0 = false →
    (s.supply.alwaysOn = true → s.supply.stageClosed = true → s.supply.bulkCharged = true → s.supply.powerGood = false →
      s.supply.resetN = true →
      ∃ t, exec .railsInRegulation s = .next t ∧ t.supply.powerGood = true
        ∧ t.boot.phase = (if s.sec.lifecycle = .retired then .stopped else .ring)
        ∧ SameBut [.supply, .boot, .hm, .events, .i3c, .mem, .berths] s t)
    ∧ (s.supply.powerGood = true → s.supply.resetN = false →
      ∃ t, exec .resetNDeassert s = .next t ∧ t.supply.resetN = true ∧ t.hm.time = 0
        ∧ t.boot.phase = (if s.sec.lifecycle = .retired then .stopped else .ring)
        ∧ SameBut [.supply, .boot, .hm, .events, .i3c, .mem, .berths] s t))

/-- R546, R548, R553, R555: a brown-out, RESET_N, a loss of REFCLK_SYS and the fall of the always-on rail put every die in
reset. RESET_N does not reset the always-on counter; its cause is bit 1 of HM_RESET_CAUSE. -/
def Obligations.ResetsHoldTheDevice : Prop :=
  ∀ s : State,
    (∃ t, exec .resetNAssert s = .next t ∧ InReset s t ∧ t.supply.resetN = false ∧ t.hm.resetCause.getLsbD 1 = true)
    ∧ (s.supply.powerGood = true →
      ∃ t, exec .brownOut s = .next t ∧ InReset s t ∧ t.supply.powerGood = false ∧ t.supply.alwaysOn = s.supply.alwaysOn)
    ∧ (∃ t, exec (.refclkLost .sys) s = .next t ∧ InReset s t ∧ t.supply.clkHold = true)
    ∧ (∃ t, exec .alwaysOnRailFall s = .next t ∧ InReset s t ∧ t.supply.alwaysOn = false ∧ t.supply.powerGood = false
        ∧ t.supply.tripLatched = false)

/-- R35: MGMT_CLK locked, the sideband is ready. R501 to R505: an image that verifies is booted and its digest kept; a
failed self-test halts the boot; a flash image that fails begins network recovery, whose transfers are retried and
restarted as R504 gives, a read request going to the recovery server with each while the Ethernet link is up. R493: an
item of protected storage that fails authentication is absent, and SEC_ERROR says so. R529: a usable function sets its
bit in HM_READY, the eth bit with mrp and cct, a compute die's once no replacement of its clusters stands open (R129);
one that fails sets its bit in HM_READY_FAIL and HM_SERVICE.bringup_failed. -/
def Obligations.BootRecoveryAndReadiness : Prop :=
  (∀ s : State,
    (s.boot.phase = .ring →
      ∃ t, exec .mgmtClkLock s = .next t ∧ t.boot.phase = .rom ∧ t.hm.ready = setBit s.hm.ready 0
        ∧ SameBut [.boot, .hm, .events, .i3c, .mem, .berths] s t)
    ∧ (∀ b : Bytes, s.boot.phase = .rom →
      (∃ t, exec (.imageVerifyComplete false b) s = .next t ∧ t.boot.phase = .stopped
        ∧ SameBut [.boot, .events, .i3c, .mem, .berths] s t)
      ∧ (s.sec.forceNetwork = false → s.imageFault b = 0 →
        ∃ t, exec (.imageVerifyComplete true b) s = .next t ∧ t.boot.phase = .firmware
          ∧ t.boot.fwDigest = sha384 (imageSigned b) ∧ t.boot.fwVerified = true ∧ t.boot.idLocked = true
          ∧ t.boot.recoveryBoot = false ∧ SameBut [.boot, .sec] s t)
      ∧ (s.sec.forceNetwork = false → s.imageFault b ≠ 0 →
        ∃ t, exec (.imageVerifyComplete true b) s = .next t ∧ t.boot.phase = .recovery ∧ t.boot.attempts = 1
          ∧ SameBut (.boot :: sendFields) s t)
      ∧ (∀ x : StoreItem,
        ∃ t, exec (.imageVerifyComplete true b [x]) s = .next t ∧ bit t.sec.error 3 = true
          ∧ (x = .ownerState → t.sec.ownerKey = none) ∧ (x = .ownerCounter → t.sec.ownerCounter = 0)))
    ∧ (s.boot.phase = .recovery →
      (s.boot.retransmits < 5 →
        ∃ t, exec .tftpRetransmitTimeout s = .next t ∧ t.boot = { s.boot with retransmits := s.boot.retransmits + 1 }
          ∧ SameBut (.boot :: sendFields) s t ∧ (s.gw.ethUp = false → SameBut [.boot] s t))
      ∧ (5 ≤ s.boot.retransmits →
        ∃ t, exec .tftpRetransmitTimeout s = .next t ∧ t.boot.phase = .abandoned ∧ SameBut [.boot] s t))
    ∧ (s.boot.phase = .abandoned →
      ∃ t, exec .tftpAttemptRestart s = .next t ∧ t.boot.phase = .recovery ∧ t.boot.retransmits = 0
        ∧ t.boot.attempts = s.boot.attempts + 1 ∧ SameBut (.boot :: sendFields) s t
        ∧ (s.gw.ethUp = false → SameBut [.boot] s t))
    ∧ (∀ (b : Bytes) (flashOk : Bool), s.boot.phase = .recovery → s.gw.ethUp = true →
      (s.imageFault b = 0 →
        ∃ t, exec (.recoveryImageReceived b flashOk) s = .next t ∧ t.boot.phase = .firmware
          ∧ t.boot.recoveryBoot = true ∧ t.boot.flashRewritten = flashOk ∧ t.boot.fwDigest = sha384 (imageSigned b)
          ∧ SameBut [.boot, .sec, .events, .i3c, .mem, .berths] s t)
      ∧ (s.imageFault b ≠ 0 →
        ∃ t, exec (.recoveryImageReceived b flashOk) s = .next t ∧ t.boot.phase = .recovery
          ∧ t.boot.attempts = s.boot.attempts + 1 ∧ SameBut (.boot :: sendFields) s t)))
  ∧ (∀ (s : State) (b : BitVec 5),
    (s.mayReady b.toNat = true →
      (16 ≤ b.toNat → b.toNat < 24 → (s.resumeSlipway (b.toNat - 16)).slipwayOpen (b.toNat - 16) = false) →
      ∃ t, exec (.functionReady b) s = .next t ∧ t.ready b.toNat = true
        ∧ (b.toNat = 5 → t.ready 6 = true ∧ t.ready 7 = true) ∧ (∀ n, s.ready n = true → t.ready n = true)
        ∧ t.boot = s.boot ∧ t.sec = s.sec ∧ t.mf = s.mf)
    ∧ (∀ cause : Byte, s.boot.phase = .firmware → b.toNat < 12 → s.ready b.toNat = false →
      s.hm.readyFail.getLsbD b.toNat = false →
      ∃ t, exec (.bringupFailed b cause) s = .next t ∧ t.hm.readyFail = setBit s.hm.readyFail b.toNat
        ∧ t.hm.ready = s.hm.ready ∧ bit t.hm.service 11 = true ∧ SameBut [.hm, .events, .i3c, .mem, .berths] s t))

/-- R521, R522: an uncorrectable error of the management memories and a watchdog expiry each start a management restart,
counted, which makes every phase profile unlearned and leaves the step programs as they are. At its end the held
events are delivered, and what waited runs in its order of arrival. R539: HM_SERVICE bit 10 is cleared 24 hours after
the last restart. R22: a lost compute die is ready no more. R23: a lost link die is ready no more, its four links are
dark, the other links are as they were, and HM_SERVICE bit 5 is set. R28: two spares take the place of a package
link's first two lanes in a direction, with no other effect; a third loss leaves the link below full width and sets
HM_SERVICE bit 3, with event 0x0005 where the reasons differ from those last reported. R553: a lost REFCLK_ETH takes
the Ethernet link down, and a lost REFCLK_PCIE the snapshot link. -/
def Obligations.RestartsAndLosses : Prop :=
  (∀ s : State,
    (s.boot.phase = .firmware → s.hmAux.restarting = false →
      (∃ t, exec .watchdogExpiry s = .next t ∧ t.hmAux.restarting = true ∧ t.hmAux.watchdog = satAdd s.hmAux.watchdog 1
        ∧ t.ptAux.profiles = [] ∧ t.parts = s.parts ∧ t.runs = s.runs
        ∧ SameBut [.hm, .hmAux, .pt, .ptAux, .events, .i3c, .mem, .berths] s t)
      ∧ (∃ t, exec .managementMemoryUe s = .next t ∧ t.hmAux.restarting = true
        ∧ t.hmAux.watchdog = satAdd s.hmAux.watchdog 1 ∧ t.ptAux.profiles = [] ∧ t.parts = s.parts ∧ t.runs = s.runs
        ∧ SameBut [.hm, .hmAux, .pt, .ptAux, .events, .i3c, .mem, .berths] s t))
    ∧ (s.hmAux.restarting = true →
      (∃ t, exec .managementRestartComplete s = .next t
        ∧ t = s.mgmtBack.deferred.foldl State.redo { s.mgmtBack with deferred := [] })
      ∧ (s.parts = [] →
        ∃ t, exec .managementRestartComplete { s with deferred := [] } = .next t
          ∧ t.hmAux = { s.hmAux with restarting := false } ∧ t.deferred = []
          ∧ (∃ u, u = (s.modHmAux (fun a => { a with restarting := false })).deliverHeld ∧ t.events = u.events)
          ∧ SameBut [.deferred, .hmAux, .events, .i3c, .mem, .berths] s t))
    ∧ (∃ t, exec .serviceManagementClear s = .next t ∧ t.hm.service = putBit s.hm.service 10 false
        ∧ SameBut [.hm, .events, .i3c, .mem, .berths] s t))
  ∧ (∀ s : State,
    (∀ die : BitVec 4, 6 ≤ die.toNat → die.toNat < 14 →
      ∃ t, exec (.deviceLoss die) s = .next t ∧ t.dead die.toNat = true
        ∧ t.hm.ready = clearBit s.hm.ready (readyCompute (die.toNat - 6)) ∧ SameBut [.pkg, .hm] s t)
    ∧ (∀ ld : BitVec 2,
      ∃ t, exec (.linkDieLoss ld) s = .next t ∧ t.dead (ldIndex ld.toNat) = true ∧ t.ready (readyLink ld.toNat) = false
        ∧ (∀ i, i < 4 → (t.link (4 * ld.toNat + i)).state = .dark)
        ∧ (∀ k, k / 4 ≠ ld.toNat → t.link k = s.link k) ∧ bit t.hm.service 5 = true)
    ∧ (∀ (n lane : Nat) (up : Bool), 8 ≤ n → n < packageLinks →
      (s.lanesLost n up < 2 →
        ∃ t, exec (.packageLaneFault n up lane) s = .next t ∧ t.lanesLost n up = s.lanesLost n up + 1
          ∧ SameBut [.pkg] s t)
      ∧ (2 ≤ s.lanesLost n up →
        ∃ t, exec (.packageLaneFault n up lane) s = .next t ∧ t.lanesLost n up = s.lanesLost n up + 1
          ∧ bit t.hm.service 3 = true
          ∧ (32 ≤ n → ((bit s.hm.service 3 = true ∨ s.hm.reported ≠ setBit s.hm.service 3) → Reports s t 0x0005)
            ∧ SameBut [.pkg, .hm, .events, .i3c, .mem, .berths] s t)))
    ∧ (s.gw.ethUp = true →
      ∃ t, exec (.refclkLost .eth) s = .next t ∧ t.gw.ethUp = false ∧ t.supply.ethLost = true)
    ∧ (∃ t, exec (.refclkLost .pcie) s = .next t ∧ t.gw.pcieUp = false ∧ t.supply.pcieLost = true))

/-- R524 (Table 15.1): the common command codes that the target supports. R525: a private write of 1 to 16 registers
writes each of them, in address order, and is acknowledged; a private read of 1 to 16 registers returns 4 bytes for
each; a transfer with a parity error, and one of more than 64 bytes or of no whole number of registers, is NACKed,
raises 0x000E and sets HM_ERROR.i3c_error. -/
def Obligations.SidebandTransfers : Prop :=
  (∀ s : State, s.ready 0 = true →
    (∃ t, exec .rstdaa s = .next t ∧ t.i3c.dynamic = none ∧ t.i3c.acked = true ∧ SameBut [.i3c] s t)
    ∧ (∀ a, s.i3c.dynamic = none →
      (∃ t, exec (.setdasa a) s = .next t ∧ t.i3c.dynamic = some a ∧ SameBut [.i3c] s t)
      ∧ (∃ t, exec (.entdaa a) s = .next t ∧ t.i3c.dynamic = some a ∧ t.i3c.reply = i3cIdentity ∧ SameBut [.i3c] s t))
    ∧ (∃ t, exec .enec s = .next t ∧ t.i3c.ibi = true ∧ t.i3c.dynamic = s.i3c.dynamic ∧ SameBut [.i3c] s t)
    ∧ (∃ t, exec .disec s = .next t ∧ t.i3c.ibi = false ∧ t.i3c.dynamic = s.i3c.dynamic ∧ SameBut [.i3c] s t)
    ∧ (∃ t, exec .getpid s = .next t ∧ t.i3c.reply.length = 6 ∧ t.i3c.acked = true ∧ SameBut [.i3c] s t)
    ∧ (∃ t, exec .getbcr s = .next t ∧ t.i3c.reply = [Config.i3cBcr] ∧ SameBut [.i3c] s t)
    ∧ (∃ t, exec .getdcr s = .next t ∧ t.i3c.reply = [Config.i3cDcr] ∧ SameBut [.i3c] s t)
    ∧ (∃ t, exec .getstatus s = .next t ∧ t.i3c.reply.length = 2 ∧ SameBut [.i3c] s t)
    ∧ (∃ t, exec .getmwl s = .next t ∧ t.i3c.reply = [0, 68] ∧ SameBut [.i3c] s t)
    ∧ (∃ t, exec .getmrl s = .next t ∧ t.i3c.reply = [0, 64, 4] ∧ SameBut [.i3c] s t))
  ∧ (∀ s : State, s.ready 0 = true → s.hmAux.restarting = false →
    (∀ (a : Word) (vs : List Word), vs ≠ [] → vs.length ≤ 16 →
      ∃ t, exec (.i3cPrivateWrite (wordLe 4 a ++ vs.flatMap (wordLe 4)) true) s = .next t
        ∧ t = (vs.zipIdx.foldl (fun u vi => u.writeReg true ((a.toNat + 4 * vi.2) % 2 ^ 32) vi.1) s).i3cReply []
        ∧ t.i3c.acked = true)
    ∧ (∀ (a : Word) (n : Nat), 0 < n → n ≤ 16 →
      ∃ t, exec (.i3cPrivateRead (some a) (4 * n) true) s = .next t ∧ t.i3c.reply.length = 4 * n ∧ t.i3c.acked = true)
    ∧ (∀ b : Bytes,
      ∃ t, exec (.i3cPrivateWrite b false) s = .next t ∧ t.i3c.acked = false ∧ bit t.hm.error 2 = true
        ∧ Reports s t 0x000E ∧ SameBut hmFields s t)
    ∧ (∀ b : Bytes, 68 < b.length ∨ b.length % 4 ≠ 0 →
      ∃ t, exec (.i3cPrivateWrite b true) s = .next t ∧ t.i3c.acked = false ∧ bit t.hm.error 2 = true
        ∧ Reports s t 0x000E ∧ SameBut hmFields s t)
    ∧ (∀ (a : Option Word) (n : Nat),
      ∃ t, exec (.i3cPrivateRead a n false) s = .next t ∧ t.i3c.acked = false ∧ bit t.hm.error 2 = true
        ∧ Reports s t 0x000E ∧ SameBut hmFields s t)
    ∧ (∀ (a : Option Word) (n : Nat), (64 < n ∨ n % 4 ≠ 0) →
      ∃ t, exec (.i3cPrivateRead a n true) s = .next t ∧ t.i3c.acked = false ∧ bit t.hm.error 2 = true
        ∧ Reports s t 0x000E ∧ SameBut hmFields s t))

/-- R10: a read from an address that no register occupies returns 0, and a write to one has no effect, by either way in;
neither sets an error or raises an event. -/
def Obligations.UnoccupiedAddresses : Prop :=
  ∀ (s : State) (a : Word), occupied (place a.toNat).1 (place a.toNat).2 = false →
    (∀ d : Word, exec (.registerWrite a d) s = .next s)
    ∧ (∀ u : Word, s.served = true →
      ∃ t, exec (.rcRead a u) s = .next t ∧ t.gwAux.lastRead = 0 ∧ SameBut [.gwAux] s t)
    ∧ (s.ready 0 = true → s.hmAux.restarting = false →
      (∃ t, exec (.i3cPrivateRead (some a) 4 true) s = .next t ∧ t.i3c.reply = [0, 0, 0, 0] ∧ SameBut [.i3c] s t)
      ∧ ∀ d : Word, ∃ t, exec (.i3cPrivateWrite (wordLe 4 a ++ wordLe 4 d) true) s = .next t ∧ SameBut [.i3c] s t)

/-- R12, R14: what the access codes RW, RO, W1C and RC give; R530: a write to a block that is not ready sets
HM_ERROR.not_ready and changes no register of the block. R522: during a management restart register accesses wait, and
change nothing else, whichever way they come. -/
def Obligations.RegisterAccesses : Prop :=
  (∀ s : State,
    (∀ d : Word, s.serves 0 →
      ∃ t, exec (.registerWrite 0x0000004C d) s = .next t ∧ t.events.mask = d &&& 0xFFFF ∧ SameBut [.events] s t)
    ∧ (∀ d : Word, s.serves readyGateway →
      exec (.registerWrite 0x00050000 d) s = .next s
      ∧ ∃ t, exec (.registerWrite 0x00050008 d) s = .next t
        ∧ (∀ i, i < 8 → t.gw.error.getLsbD i = (s.gw.error.getLsbD i && !d.getLsbD i)) ∧ SameBut [.gw] s t)
    ∧ (∀ u : Word, s.serves readyGateway → s.romRuns = false →
      ∃ t, exec (.rcRead 0x00050048 u) s = .next t ∧ t.gwAux.lastRead = s.gwAux.fcsErrors ∧ t.gwAux.fcsErrors = u
        ∧ SameBut [.gwAux] s t)
    ∧ (∀ d : Word, s.served = true → s.romRuns = false → s.ready readyGateway = false →
      ∃ t, exec (.registerWrite 0x00050084 d) s = .next t ∧ bit t.hm.error 0 = true ∧ t.gw = s.gw
        ∧ SameBut hmFields s t))
  ∧ (∀ s : State, s.ready 0 = true → s.hmAux.restarting = true →
    (∀ a d : Word, occupied (place a.toNat).1 (place a.toNat).2 = true →
      exec (.registerWrite a d) s = .next { s with deferred := s.deferred ++ [.cmd (.registerWrite a d)] })
    ∧ (∀ a u : Word, exec (.rcRead a u) s = .next { s with deferred := s.deferred ++ [.cmd (.rcRead a u)] })
    ∧ (∀ (b : Bytes) (ok : Bool),
      exec (.i3cPrivateWrite b ok) s = .next { s with deferred := s.deferred ++ [.cmd (.i3cPrivateWrite b ok)] })
    ∧ exec .load s = .next { s with deferred := s.deferred ++ [.cmd .load] })

/-- R527, R528: a board input takes the value written; a coordinate once locked keeps its own. A flow write makes a tray
reading, and out of order sets HM_ERROR bit 3. R455, R468: the envelope is held between 1,500 W and 9,600 W, and the
headroom sets limit 1 at 1,500 W or more. R535, R536: a free pin takes a feature that it may hold, and feature 0 frees
it; a free timer takes one with its run bit, from its period, and stops without it; an expiry reloads a periodic timer
and stops another; LEAK_IN starts the quiesce of R483, with the floor cut at every die. R533, R534: RESTORE_FACTORY
discards the user layer at the next reset while no job runs, and sets HM_ERROR bit 1 otherwise; CLEAR_FAULT_COUNTS
clears the counts. R498: the public JTAG instructions are loaded, and outside FACTORY every other code is BYPASS. -/
def Obligations.BoardAndFeatures : Prop :=
  (∀ (s : State) (v : Word),
    (∀ i : BoardInput, s.serves readySideband → (i = .coord → s.mfAux.locked = false) →
      ∃ t, exec (.boardInputChange i v) s = .next t ∧ t.input i = v &&& boardMask i ∧ t.sec = s.sec ∧ t.pt = s.pt
        ∧ t.mf = s.mf)
    ∧ (s.serves readySideband → s.mfAux.locked = true → exec (.boardInputChange .coord v) s = .next s)
    ∧ (s.serves readySideband →
      ∃ t, exec (.trayReading v) s = .next t ∧ t.hm.trayFlow = v &&& 0xFFF ∧ t.hm.trayTempSet = false
        ∧ (s.hm.trayTempSet = false → bit t.hm.error 3 = true)
        ∧ (∃ r, t.ptAux.tray.getLast? = some r ∧ r.flow = (v &&& 0xFFF).toNat)
        ∧ SameBut [.hm, .pt, .ptAux, .free, .events, .i3c, .mem, .berths] s t)
    ∧ (s.serves readyPower →
      ∃ t, exec (.headroomWrite v) s = .next t ∧ t.pt.headroom = v &&& 0xFFFF
        ∧ t.pt.limits.headroom = (if v &&& 0xFFFF = 0 then none else some (max 1500 (bits v 15 0)))
        ∧ SameBut [.pt, .events, .i3c, .mem, .berths] s t)
    ∧ (s.serves readyPower →
      ∃ t, exec (.envelopeWrite v) s = .next t ∧ t.pt.limits.envelope = max 1500 (min 9600 (bits v 15 0))
        ∧ t.pt.envelope.toNat = t.pt.limits.envelope ∧ SameBut [.pt] s t))
  ∧ (∀ s : State,
    (∀ (n : BitVec 3) (w : Word), s.serves readySideband →
      (sideFeature (bits w 7 0) = true → sideActive (s.side n.toNat) = false →
        ∃ t, exec (.sideCfgWrite n w) s = .next t ∧ t.side n.toNat = setBit (w &&& sideMask) 24 ∧ SameBut [.hmAux] s t)
      ∧ (bits w 7 0 = 0 →
        ∃ t, exec (.sideCfgWrite n w) s = .next t ∧ sideActive (t.side n.toNat) = false ∧ SameBut [.hmAux] s t))
    ∧ (∀ (n : BitVec 3) (w : Word), s.serves readySideband → timerFeature (bits w 7 0) = true → bit w 17 = true →
      bit (s.timer n.toNat).cfg 18 = false →
      ∃ t, exec (.timerCfgWrite n w) s = .next t ∧ bit (t.timer n.toNat).cfg 18 = true
        ∧ (t.timer n.toNat).count = (s.timer n.toNat).period ∧ SameBut [.hmAux] s t)
    ∧ (∀ (n : BitVec 3) (w : Word), s.serves readySideband → bit w 17 = false →
      ∃ t, exec (.timerCfgWrite n w) s = .next t ∧ (t.timer n.toNat).cfg = w &&& timerMask ∧ SameBut [.hmAux] s t)
    ∧ (∀ n : BitVec 3, bit (s.timer n.toNat).cfg 18 = true →
      ∃ t, exec (.timerExpiry n) s = .next t
        ∧ bit (t.timer n.toNat).cfg 18 = bit (s.timer n.toNat).cfg 16
        ∧ (bit (s.timer n.toNat).cfg 16 = true → (t.timer n.toNat).count = (s.timer n.toNat).period)
        ∧ SameBut [.hmAux, .events, .i3c, .mem, .berths] s t)
    ∧ (∀ n : BitVec 3, sideActive (s.side n.toNat) = true → sideFeatureOf (s.side n.toNat) = featLeakIn →
      s.ptUp = true → s.pt.flowRow = .idle →
      ∃ t, exec (.leakInAssert n) s = .next t ∧ t.pt.flowRow = .running
        ∧ (∀ d, d < 8 → (t.ptDie d).cutFlow = floorCut)
        ∧ SameBut [.supply, .pt, .ptDies, .events, .i3c, .mem, .berths] s t)
    ∧ (s.serves readySideband →
      (s.jobRunning = false →
        ∃ t, exec .restoreFactory s = .next t ∧ t.hmAux.restorePending = true ∧ t.hmAux.userLayer = false
          ∧ SameBut [.hmAux, .events, .i3c, .mem, .berths] s t)
      ∧ (s.jobRunning = true →
        ∃ t, exec .restoreFactory s = .next t ∧ bit t.hm.error 1 = true ∧ SameBut [.hm] s t)
      ∧ (∃ t, exec .clearFaultCounts s = .next t ∧ t.hmAux.faultCounts = [] ∧ SameBut [.hmAux] s t))
    ∧ (∀ ins : JtagIns, (∀ c, ins ≠ .other c) →
      ∃ t, exec (.jtagInstruction ins) s = .next t ∧ t.hmAux.jtag = ins ∧ SameBut [.hmAux] s t)
    ∧ (∀ c : Word, s.sec.lifecycle ≠ .factory →
      ∃ t, exec (.jtagInstruction (.other c)) s = .next t ∧ t.hmAux.jtag = .bypass ∧ SameBut [.hmAux] s t))

/-- R40, R538: the oldest record of a die leaves the ring, takes the next sequence number and enters the log. -/
def Obligations.EventRecordsAreNumbered : Prop :=
  ∀ (s : State) (die : BitVec 4) (r : EventRec) (rest : List EventRec),
    takeOf die s.events.ring = some (r, rest) → s.events.log.length < 4096 → bit s.events.berth 14 = false →
    ∃ t, exec (.eventRecordAccept die) s = .next t ∧ t.events.ring = rest ∧ t.events.seq = s.events.seq + 1
      ∧ t.events.log = s.events.log ++ [{ ev := { r with seq := s.events.seq }, read := false }]
      ∧ SameBut [.events, .i3c] s t

/-- R61 (Table 2.7), R63: LOAD verifies the bytes of the incoming slot, and DISCARD clears it; each is refused in another
state with code 0x17, and LOAD with 0x16 while a step program runs or an amendment is in progress. A refused command
changes MF_REJECT alone. R60, R61, R409: MANIFEST_DATA at offset 0 begins the incoming slot, and at MF_RX_LEN goes on;
MF_RX_LEN is returned; another offset is answered 0x04, and any while an amendment holds the slot 0x03. -/
def Obligations.ManifestSlots : Prop :=
  (∀ s : State, s.serves readyHm →
    (s.mf.loadState = .receiving → s.amendBytes = false →
      (s.jobRunning = false → s.mf.amendState.busy = false →
        ∃ t, exec .load s = .next t ∧ t.mf = { s.mf with loadState := .verifying, owner := none } ∧ SameBut [.mf] s t)
      ∧ ((s.jobRunning = true ∨ s.mf.amendState.busy = true) →
        ∃ t, exec .load s = .next t ∧ t.mf = { s.mf with reject := 0xFFFFFF16, rejectDetail := 0xFFFF }
          ∧ SameBut [.mf] s t))
    ∧ ((s.mf.loadState ≠ .receiving ∨ s.amendBytes = true) →
      ∃ t, exec .load s = .next t ∧ t.mf = { s.mf with reject := 0xFFFFFF17, rejectDetail := 0xFFFF } ∧ SameBut [.mf] s t)
    ∧ (s.mf.loadState ≠ .verifying → s.mf.loadState ≠ .checking → s.mf.slotHeld = false →
      ∃ t, exec .discard s = .next t ∧ t.mf.incoming = [] ∧ t.mf.owner = none
        ∧ t.mf.loadState = (if s.mf.active then .committed else .empty)
        ∧ t.mf.activeBytes = s.mf.activeBytes ∧ t.mf.activeId = s.mf.activeId ∧ SameBut [.mf] s t)
    ∧ ((s.mf.loadState = .verifying ∨ s.mf.loadState = .checking ∨ s.mf.slotHeld = true) →
      ∃ t, exec .discard s = .next t ∧ t.mf = { s.mf with reject := 0xFFFFFF17, rejectDetail := 0xFFFF }
        ∧ SameBut [.mf] s t))
  ∧ (∀ (s : State) (sess : Half) (seq off : Word) (b : Bytes), s.turn sess seq → s.ready (readyCompute 0) = true →
    b ≠ [] → b.length ≤ 8188 →
    (s.mf.slotHeld = false → off = 0 → s.mf.startsAt0 = true →
      ∃ t, exec (.manifestData sess seq off b) s = .next t ∧ Answered t 0x10 sess seq 0 (natLe 4 b.length)
        ∧ t.mf.incoming = b ∧ t.mf.loadState = .receiving ∧ t.mf.owner = some (BitVec.ofNat 6 sess.toNat)
        ∧ t.mf.activeBytes = s.mf.activeBytes ∧ t.mf.active = s.mf.active ∧ SameBut (.mf :: sendFields) s t)
    ∧ (s.mf.slotHeld = false → s.mf.loadState = .receiving → s.mf.owner = some (BitVec.ofNat 6 sess.toNat) →
      off.toNat = s.mf.incoming.length → s.mf.incoming.length + b.length ≤ manifestMax →
      ∃ t, exec (.manifestData sess seq off b) s = .next t
        ∧ Answered t 0x10 sess seq 0 (natLe 4 (s.mf.incoming.length + b.length))
        ∧ t.mf.incoming = s.mf.incoming ++ b ∧ t.mf.loadState = .receiving ∧ SameBut (.mf :: sendFields) s t)
    ∧ (s.mf.slotHeld = false → s.mf.loadState = .receiving → s.mf.owner = some (BitVec.ofNat 6 sess.toNat) →
      off.toNat ≠ s.mf.incoming.length →
      ∃ t, exec (.manifestData sess seq off b) s = .next t ∧ Answered t 0x10 sess seq 0x04 [] ∧ SameBut sendFields s t)
    ∧ (s.mf.slotHeld = true →
      ∃ t, exec (.manifestData sess seq off b) s = .next t ∧ Answered t 0x10 sess seq 0x03 [] ∧ SameBut sendFields s t))

/-- R62 (Table 2.8): the checks run in order; the first that fails writes its code and its place to MF_REJECT, raises
0x3002 and leaves the Manifest REJECTED; a Manifest that passes is CHECKING, then LOADED, with its RWL fields open
(R68). R66: COMMIT of a loaded Manifest makes it the active one, with tag 0 and its fields locked, and raises 0x3003;
the Manifest before it, with its amendment, is discarded, and the discovery of R370 begins. R72: while no job runs and
none is halted, COMMIT of a staged amendment makes the shadow Manifest the active one, with the next tag, and the
amendment is over. R63: in LOADED it is busy while a step program runs, and it is not valid where nothing is loaded or
staged. -/
def Obligations.ManifestChecksAndCommit : Prop :=
  (∀ s : State,
    (s.mf.loadState = .verifying →
      (s.checks1to4 (View.of s.mf.incoming) = none →
        ∃ t, exec .manifestSignatureVerified s = .next t ∧ t.mf = { s.mf with loadState := .checking } ∧ SameBut [.mf] s t)
      ∧ (∀ code x, s.checks1to4 (View.of s.mf.incoming) = some (code, x) →
        ∃ t, exec .manifestSignatureVerified s = .next t ∧ t.mf.loadState = .rejected
          ∧ t.mf.reject = BitVec.ofNat 32 (code + x.1 * 256 + x.2.1 * 65536) ∧ t.mf.rejectDetail = BitVec.ofNat 32 x.2.2
          ∧ t.mf.activeBytes = s.mf.activeBytes ∧ Reports s t 0x3002 ∧ SameBut [.mf, .events, .i3c, .mem, .berths] s t))
    ∧ (s.mf.loadState = .checking →
      (s.checks5to21 (View.of s.mf.incoming) (fun _ => []) = none →
        ∃ t, exec .manifestChecksComplete s = .next t ∧ t.mf.loadState = .loaded ∧ t.mf.reject = 0xFFFFFF00
          ∧ t.mf.incoming = s.mf.incoming ∧ t.mf.activeBytes = s.mf.activeBytes ∧ t.mfAux = { s.mfAux with locked := false }
          ∧ SameBut [.mf, .mfAux, .events, .i3c, .mem, .berths] s t)
      ∧ (∀ code x, s.checks5to21 (View.of s.mf.incoming) (fun _ => []) = some (code, x) →
        ∃ t, exec .manifestChecksComplete s = .next t ∧ t.mf.loadState = .rejected
          ∧ t.mf.reject = BitVec.ofNat 32 (code + x.1 * 256 + x.2.1 * 65536) ∧ t.mf.rejectDetail = BitVec.ofNat 32 x.2.2
          ∧ t.mf.activeBytes = s.mf.activeBytes ∧ Reports s t 0x3002 ∧ SameBut [.mf, .events, .i3c, .mem, .berths] s t)))
  ∧ (∀ s : State, s.serves readyHm →
    (s.mf.loadState = .loaded → s.jobRunning = false → s.commitReady (View.of s.mf.incoming) = true →
      ∃ t, exec .commit s = .next t ∧ t.mf.active = true ∧ t.mf.loadState = .committed ∧ t.mf.amendState = .none
        ∧ t.mf.activeBytes = s.mf.incoming ∧ t.mf.incoming = [] ∧ t.mf.shadow = [] ∧ t.mf.tag = 0 ∧ t.mf.prevLive = false
        ∧ t.mf.activeId = (View.of s.mf.incoming).header.manifestId ∧ t.mfAux.locked = true
        ∧ t.mfAux.loadCount = s.mfAux.loadCount + 1 ∧ t.mfAux.digest = sha384 s.mf.incoming ∧ t.kx.disc = .running
        ∧ Logged s t 0x3003
        ∧ SameBut [.free, .ptAux, .hm, .hmAux, .events, .i3c, .mf, .mfAux, .clusters, .mem, .memDies, .berths, .links, .kx,
          .parts, .runs, .jr] s t)
    ∧ (s.mf.loadState ≠ .loaded → s.mf.amendState = .staged → s.jobRunning = false → s.someHalted = false →
      s.commitReady (View.of s.mf.shadow) = true →
      ∃ t, exec .commit s = .next t ∧ t.mf.activeBytes = s.mf.shadow ∧ t.mf.shadow = [] ∧ t.mf.amendState = .none
        ∧ t.mf.tag = s.mf.tag + 1 ∧ t.mf.prevLive = false ∧ t.mfAux.locked = true ∧ Logged s t 0x3003
        ∧ SameBut [.free, .ptAux, .hm, .hmAux, .events, .i3c, .mf, .mfAux, .clusters, .mem, .memDies, .berths, .links, .kx,
          .parts, .runs, .jr] s t)
    ∧ (s.mf.loadState = .loaded → s.jobRunning = true →
      ∃ t, exec .commit s = .next t ∧ t.mf = { s.mf with reject := 0xFFFFFF16, rejectDetail := 0xFFFF } ∧ SameBut [.mf] s t)
    ∧ (s.mf.loadState ≠ .loaded → s.mf.amendState ≠ .staged →
      ∃ t, exec .commit s = .next t ∧ t.mf = { s.mf with reject := 0xFFFFFF17, rejectDetail := 0xFFFF } ∧ SameBut [.mf] s t))

/-- R60, R69: AMEND checks the amendment in the incoming slot, and the active Manifest stays; R63: a second one is busy
while one is in progress; one that passes is STAGED with its partitions pending, one that fails is REJECTED with event
0x3005. R73: WITHDRAW discards a staged one that has not begun to commit, with 0x300B, and is not valid otherwise. -/
def Obligations.AmendmentStates : Prop :=
  ∀ s : State,
    (s.serves readyHm → s.mf.loadState = .receiving → s.amendBytes = true → s.mf.amendState.busy = false →
      ∃ t, exec .amend s = .next t
        ∧ t.mf = { s.mf with loadState := if s.mf.active then .committed else .empty, amendState := .checking,
                             slotHeld := true, owner := none } ∧ SameBut [.mf] s t)
    ∧ (s.serves readyHm → s.mf.amendState.busy = true →
      ∃ t, exec .amend s = .next t ∧ t.mf = { s.mf with reject := 0xFFFFFF16, rejectDetail := 0xFFFF } ∧ SameBut [.mf] s t)
    ∧ (s.mf.amendState = .checking →
      (s.amendChecks (View.of s.mf.activeBytes) (View.of s.mf.incoming) = none →
        ∃ t, exec .amendmentChecksComplete s = .next t ∧ t.mf.amendState = .staged ∧ t.mf.done = 0
          ∧ t.mf.shadow = shadowBytes (View.of s.mf.activeBytes) (View.of s.mf.incoming)
          ∧ t.mf.pend = partBits ((View.of s.mf.incoming).plan.map (·.part)) ∧ t.mf.activeBytes = s.mf.activeBytes
          ∧ t.mfAux.plan = (View.of s.mf.incoming).plan
          ∧ SameBut [.free, .mf, .mfAux, .events, .i3c, .mem, .berths] s t)
      ∧ (∀ code x, s.amendChecks (View.of s.mf.activeBytes) (View.of s.mf.incoming) = some (code, x) →
        ∃ t, exec .amendmentChecksComplete s = .next t ∧ t.mf.amendState = .rejected ∧ t.mf.incoming = []
          ∧ t.mf.reject = BitVec.ofNat 32 (code + x.1 * 256 + x.2.1 * 65536) ∧ t.mf.activeBytes = s.mf.activeBytes
          ∧ Reports s t 0x3005 ∧ SameBut [.mf, .events, .i3c, .mem, .berths] s t))
    ∧ (s.serves readyHm → s.mf.amendState = .staged → s.mf.done = 0 →
      ∃ t, exec .withdraw s = .next t ∧ t.mf.amendState = .none ∧ t.mf.shadow = [] ∧ t.mf.incoming = [] ∧ t.mf.pend = 0
        ∧ t.mf.activeBytes = s.mf.activeBytes ∧ t.mf.loadState = s.mf.loadState ∧ Reports s t 0x300B
        ∧ SameBut [.mf, .mfAux, .events, .i3c, .mem, .berths] s t)
    ∧ (s.serves readyHm → (s.mf.amendState ≠ .staged ∨ s.mf.done ≠ 0) →
      ∃ t, exec .withdraw s = .next t ∧ t.mf = { s.mf with reject := 0xFFFFFF17, rejectDetail := 0xFFFF }
        ∧ SameBut [.mf] s t)

/-- R104, R105: a tile descriptor that passes the checks of Table 3.6 leaves the intake and enters the pilot window; one
that fails halts its context, with its code in CL_ERROR_INFO and event 0x8001, while the entries before it go on.
R104, R107, R109: a NOP that no FENCE holds, a FENCE at the front of the window, and a tile whose copy is acknowledged
complete: each leaves the window and counts in CL_TILES_DONE; a store error corrected in the copy counts in
CL_STORE_CE (R97). -/
def Obligations.TilesEnterAndComplete : Prop :=
  (∀ (s : State) (c : ClusterId) (slot : BitVec 1) (a : At) (n : Nat) (it : Item),
    s.at? c slot = some a → s.intakeHead a = some (n, it) → it.cls = 1 → it.poisoned = false → s.pilotOpen a = true →
    (s.checkTile a (Tile.of (wordsOf 16 it.payload)) = 0 → s.tileRefused a (Tile.of (wordsOf 16 it.payload)) = none →
      ∃ t, exec (.pilotAdmit c slot) s = .next t
        ∧ (t.ctxOf a).window = (s.ctxOf a).window ++ [Entry.of it n false] ∧ (t.ctxOf a).halted = false
        ∧ (t.clusterOf a).store = (s.clusterOf a).store ∧ OtherClusters a.die a.phys s t
        ∧ SameBut [.events, .i3c, .mf, .mfAux, .kx, .clusters, .mem, .berths] s t)
    ∧ (s.checkTile a (Tile.of (wordsOf 16 it.payload)) ≠ 0 →
      ∃ t, exec (.pilotAdmit c slot) s = .next t ∧ (t.ctxOf a).halted = true
        ∧ (t.ctxOf a).window = (s.ctxOf a).window ∧ (t.ctxOf a).runsOn = (s.ctxOf a).window.length
        ∧ bit (t.clusterOf a).error 0 = true
        ∧ (t.clusterOf a).errorInfo = BitVec.ofNat 32 (s.checkTile a (Tile.of (wordsOf 16 it.payload)) + a.ctx.id * 256
            + (Tile.of (wordsOf 16 it.payload)).tag * 2048)
        ∧ RaisedAt s t 0x8001 (cdIndex a.die) ∧ OtherClusters a.die a.phys s t
        ∧ SameBut [.events, .i3c, .mf, .mfAux, .kx, .clusters, .mem, .berths] s t))
  ∧ (∀ (s : State) (c : ClusterId) (slot : BitVec 1) (a : At) (i : Nat) (e : Entry),
    s.at? c slot = some a →
    (firstEntry (s.ctxOf a).window (fun e => !e.vector && decide ((Tile.of e.words).op = 0)) = some (i, e) →
      fenced (s.ctxOf a).window i = false → s.entryRuns a i = true →
      ∃ t, exec (.tileNop c slot) s = .next t ∧ (t.ctxOf a).window = (s.ctxOf a).window.eraseIdx i
        ∧ (t.clusterOf a).counters.tilesDone = satAdd (s.clusterOf a).counters.tilesDone 1
        ∧ (t.clusterOf a).store = (s.clusterOf a).store ∧ OtherClusters a.die a.phys s t
        ∧ SameBut [.events, .clusters, .mem, .berths, .runs] s t)
    ∧ ((s.ctxOf a).window.head? = some e → e.vector = false → (Tile.of e.words).op = 2 → s.entryRuns a 0 = true →
      ∃ t, exec (.tileFence c slot) s = .next t ∧ (t.ctxOf a).window = (s.ctxOf a).window.tail
        ∧ (t.clusterOf a).counters.tilesDone = satAdd (s.clusterOf a).counters.tilesDone 1
        ∧ (t.clusterOf a).store = (s.clusterOf a).store ∧ OtherClusters a.die a.phys s t
        ∧ SameBut [.events, .clusters, .mem, .berths, .runs] s t)
    ∧ (∀ corrected : Bool,
      firstEntry (s.ctxOf a).window (fun e => !e.vector && decide (e.phase = .copying)) = some (i, e) →
      ∃ t, exec (.outputCopyComplete c slot corrected) s = .next t
        ∧ (t.ctxOf a).window = (s.ctxOf a).window.eraseIdx i
        ∧ (t.clusterOf a).counters.tilesDone = satAdd (s.clusterOf a).counters.tilesDone 1
        ∧ (t.clusterOf a).counters.storeCe
          = (if corrected then satAdd (s.clusterOf a).counters.storeCe 1 else (s.clusterOf a).counters.storeCe)
        ∧ (t.clusterOf a).store = (s.clusterOf a).store ∧ OtherClusters a.die a.phys s t
        ∧ SameBut [.events, .clusters, .mem, .berths, .runs] s t))

/-- R106, R107: a fetch whose bytes are good, where earlier entries read its slots no more and no row it reads is locked
for repair (R322), lands them in the store and makes its operand ready. R149 to R151: the scale unit gives the tile
its anchor, formed from the resident data, once earlier fills and writes of what it reads are done. R103: a carry tile
whose anchor differs from the record's is refused with check 0x06. -/
def Obligations.OperandsAndAnchor : Prop :=
  ∀ (s : State) (c : ClusterId) (slot : BitVec 1) (a : At) (i : Nat) (e : Entry),
    s.at? c slot = some a → (s.ctxOf a).window[i]? = some e → e.vector = false → s.entryRuns a i = true →
    (∀ (op : TileOperand) (sp : Space), (op = .p → e.pReady = false) → (op = .q → e.qReady = false) →
      fillClear (s.ctxOf a).window i ((Tile.of e.words).fill op) = true →
      spaceOf ((Tile.of e.words).kind op) = some sp →
      s.piecesLocked sp ((Tile.of e.words).src op) ((Tile.of e.words).image op) = false →
      s.firstRefused a.part sp .read ((Tile.of e.words).src op) ((Tile.of e.words).image op) = none →
      (s.readPieces a.via sp ((Tile.of e.words).src op) a.ident .good ((Tile.of e.words).image op)).1 = true →
      ∃ t, exec (.pilotFetchReturn c slot i op .good) s = .next t
        ∧ (∃ e', (t.ctxOf a).window[i]? = some e'
            ∧ e'.pReady = (e.pReady || decide (op = .p)) ∧ e'.qReady = (e.qReady || decide (op = .q)))
        ∧ (t.clusterOf a).store
            = ((s.fillStore a sp ((Tile.of e.words).src op) ((Tile.of e.words).image op)).clusterOf a).store
        ∧ OtherClusters a.die a.phys s t ∧ SameBytes s t ∧ SameBut [.clusters, .mem] s t)
    ∧ ((Tile.of e.words).op = 1 → e.anchor = none → e.pReady = true → e.qReady = true →
      readClear (s.ctxOf a).window i (Tile.of e.words).anchorSpans = true →
      (((Tile.of e.words).carryIn = true →
        (s.ctxOf a).carryDiffers (Tile.of e.words)
          ((Tile.of e.words).formAnchor (s.clusterOf a).store a.ctx.lo) = false) →
      ∃ t, exec (.anchorReady c slot i .none) s = .next t
        ∧ (∃ e', (t.ctxOf a).window[i]? = some e'
            ∧ e'.anchor = some ((Tile.of e.words).formAnchor (s.clusterOf a).store a.ctx.lo)
            ∧ e'.pReady = true ∧ e'.qReady = true)
        ∧ (t.clusterOf a).store = (s.clusterOf a).store ∧ OtherClusters a.die a.phys s t ∧ SameBut [.clusters] s t)
      ∧ ((Tile.of e.words).carryIn = true →
        (s.ctxOf a).carryDiffers (Tile.of e.words)
          ((Tile.of e.words).formAnchor (s.clusterOf a).store a.ctx.lo) = true →
        ∃ t, exec (.anchorReady c slot i .none) s = .next t ∧ (t.ctxOf a).halted = true
          ∧ (t.ctxOf a).window = (s.ctxOf a).window ∧ (t.ctxOf a).runsOn = i
          ∧ (t.clusterOf a).errorInfo = BitVec.ofNat 32 (6 + a.ctx.id * 256 + (Tile.of e.words).tag * 2048)
          ∧ RaisedAt s t 0x8001 (cdIndex a.die) ∧ OtherClusters a.die a.phys s t ∧ SameBut [.events, .clusters] s t))

/-- R108, R111, R154 to R156: the first row of a ready tile, and each later row in its order, enters the pipeline with the
sums of its products, while the other slot's context holds no tile between two rows. R115: a residue error of a row
keeps it out of the pipeline, and it issues again before any other, with the same sums. R563, R165 to R167: the oldest
row of the slot is rounded and written to the store, or, as a CARRY row, kept exactly. R115: a residue error discards
it, and it is issued again with the same sums. -/
def Obligations.TileRowsIssueAndDrain : Prop :=
  (∀ (s : State) (c : ClusterId) (slot : BitVec 1) (a : At) (i : Nat) (e : Entry) (anchor : Int),
    s.at? c slot = some a → arrayEntry (s.ctxOf a).window = some (i, e) → e.anchor = some anchor →
    s.arrayFree (s.at? c (1 - slot)) = true →
    (s.tileReady a = true → s.arrayTurn a (s.at? c (1 - slot)) (fun b => s.tileReady b) = true → e.again = [] →
      ∃ t, exec (.tileProduct c slot .none) s = .next t
        ∧ (t.clusterOf a).flight = (s.clusterOf a).flight ++ [RowInFlight.mk a.slot e.itemSeq e.nextRow
            ((Tile.of e.words).row (s.clusterOf a).store a.ctx.lo anchor e.nextRow).1]
        ∧ (∃ e', (t.ctxOf a).window[i]? = some e' ∧ e'.nextRow = e.nextRow + 1 ∧ e'.phase = .running
            ∧ e'.itemSeq = e.itemSeq)
        ∧ (t.clusterOf a).store = (s.clusterOf a).store ∧ OtherClusters a.die a.phys s t
        ∧ SameBut [.events, .clusters] s t)
    ∧ (e.phase = .running → s.entryRuns a i = true → s.mayIssue a.die a.logical = true →
      (e.again = [] →
        (∃ t, exec (.tileRowIssue c slot .none) s = .next t
          ∧ (t.clusterOf a).flight = (s.clusterOf a).flight ++ [RowInFlight.mk a.slot e.itemSeq e.nextRow
              ((Tile.of e.words).row (s.clusterOf a).store a.ctx.lo anchor e.nextRow).1]
          ∧ (∃ e', (t.ctxOf a).window[i]? = some e' ∧ e'.nextRow = e.nextRow + 1 ∧ e'.phase = .running
              ∧ e'.itemSeq = e.itemSeq)
          ∧ (t.clusterOf a).counters.rowRetries = (s.clusterOf a).counters.rowRetries
          ∧ (t.clusterOf a).store = (s.clusterOf a).store ∧ OtherClusters a.die a.phys s t
          ∧ SameBut [.events, .clusters] s t)
        ∧ (e.retried.contains e.nextRow = false →
          ∃ t, exec (.tileRowIssue c slot .residue) s = .next t ∧ bit (t.clusterOf a).error 3 = true
            ∧ (∃ e', (t.ctxOf a).window[i]? = some e' ∧ e'.retried = e.retried ++ [e.nextRow]
                ∧ e'.again = [(e.nextRow, (Tile.of e.words).row (s.clusterOf a).store a.ctx.lo anchor e.nextRow)])
            ∧ (t.clusterOf a).flight = (s.clusterOf a).flight
            ∧ (t.clusterOf a).store = (s.clusterOf a).store ∧ RaisedAt s t 0x8003 (cdIndex a.die)
            ∧ OtherClusters a.die a.phys s t ∧ SameBut [.events, .clusters] s t))
      ∧ (∀ (row : Nat) (accs : List Acc) (above bad : Bool) (rest : List (Nat × List Acc × Bool × Bool)),
        e.again = (row, accs, above, bad) :: rest →
        ∃ t, exec (.tileRowIssue c slot .none) s = .next t
          ∧ (t.clusterOf a).flight = (s.clusterOf a).flight ++ [RowInFlight.mk a.slot e.itemSeq row accs]
          ∧ (∃ e', (t.ctxOf a).window[i]? = some e' ∧ e'.nextRow = e.nextRow ∧ e'.again = rest)
          ∧ (t.clusterOf a).counters.rowRetries = satAdd (s.clusterOf a).counters.rowRetries 1
          ∧ (t.clusterOf a).store = (s.clusterOf a).store ∧ OtherClusters a.die a.phys s t
          ∧ SameBut [.events, .clusters] s t)))
  ∧ (∀ (s : State) (c : ClusterId) (slot : BitVec 1) (a : At) (f : RowInFlight) (i : Nat) (e : Entry) (anchor : Int),
    s.at? c slot = some a → (s.clusterOf a).flight.find? (fun f => decide (f.slot = slot)) = some f →
    f.entry (s.ctxOf a).window = some (i, e) → e.anchor = some anchor → e.retried.contains f.row = false →
    (e.ueRetried = false →
      (spaceOf (Tile.of e.words).oKind).any (fun sp => s.piecesLocked sp (Tile.of e.words).oDst (Tile.of e.words).imageO)
        = false →
      ∃ t, exec (.rowDrain c slot false) s = .next t
        ∧ (t.clusterOf a).store = ((Tile.of e.words).writeRow (s.clusterOf a).store a.ctx.lo
            a.cfg.program.control.runSeed e.step anchor f.row f.accs).1
        ∧ (t.clusterOf a).flight = (s.clusterOf a).flight.erase f
        ∧ OtherClusters a.die a.phys s t ∧ SameBut [.events, .clusters, .mem, .berths, .runs] s t)
    ∧ (∃ t, exec (.rowDrain c slot true) s = .next t
        ∧ (t.clusterOf a).store = (s.clusterOf a).store ∧ (t.clusterOf a).flight = (s.clusterOf a).flight.erase f
        ∧ (∃ e', (t.ctxOf a).window[i]? = some e' ∧ e'.retried = e.retried ++ [f.row]
            ∧ e'.again = e.again ++ [(f.row, f.accs, false, false)])
        ∧ bit (t.clusterOf a).error 3 = true ∧ RaisedAt s t 0x8003 (cdIndex a.die) ∧ OtherClusters a.die a.phys s t
        ∧ SameBut [.events, .clusters] s t))

/-- R237: a vector descriptor that passes its checks enters the window; one that fails halts its context, with event
0xA001, while the entries before it go on. R213: a vector NOP that no FENCE holds completes. R212, R242: in its turn,
a descriptor that waits for a verdict which discards the apply pass completes without running: its status record says
so, event 0xA003 is raised, and under a halt verdict its context halts. -/
def Obligations.VectorAdmissionAndDiscard : Prop :=
  (∀ (s : State) (c : ClusterId) (slot : BitVec 1) (a : At) (n : Nat) (it : Item),
    s.at? c slot = some a → s.intakeHead a = some (n, it) → it.cls = 2 → it.poisoned = false → s.pilotOpen a = true →
    (s.checkVec a (Vec.of (wordsOf 16 it.payload)) = 0 →
      ∃ t, exec (.vectorDescriptorAdmit c slot) s = .next t
        ∧ (t.ctxOf a).window = (s.ctxOf a).window ++ [Entry.of it n true] ∧ (t.ctxOf a).halted = false
        ∧ (t.clusterOf a).store = (s.clusterOf a).store ∧ OtherClusters a.die a.phys s t
        ∧ SameBut [.events, .i3c, .mf, .mfAux, .kx, .clusters, .mem, .berths] s t)
    ∧ (s.checkVec a (Vec.of (wordsOf 16 it.payload)) ≠ 0 →
      ∃ t, exec (.vectorDescriptorAdmit c slot) s = .next t ∧ (t.ctxOf a).halted = true
        ∧ (t.ctxOf a).window = (s.ctxOf a).window ∧ (t.ctxOf a).runsOn = (s.ctxOf a).window.length
        ∧ RaisedAt s t 0xA001 (cdIndex a.die) ∧ OtherClusters a.die a.phys s t
        ∧ SameBut [.events, .i3c, .mf, .mfAux, .kx, .clusters, .mem, .berths] s t))
  ∧ (∀ (s : State) (c : ClusterId) (slot : BitVec 1) (a : At) (i : Nat) (e : Entry),
    s.at? c slot = some a →
    (firstEntry (s.ctxOf a).window (fun e => e.vector && decide ((Vec.of e.words).kind = 0)) = some (i, e) →
      s.entryRuns a i = true → fenced (s.ctxOf a).window i = false →
      ∃ t, exec (.vectorNop c slot) s = .next t ∧ (t.ctxOf a).window = (s.ctxOf a).window.eraseIdx i
        ∧ (t.clusterOf a).store = (s.clusterOf a).store ∧ OtherClusters a.die a.phys s t
        ∧ SameBut [.events, .clusters, .mem, .berths, .runs] s t)
    ∧ (∀ act, vectorEntry (s.ctxOf a).window = some (i, e) → s.discardReady a i e = some act →
      s.vectorTurn a (s.at? c (1 - slot)) = true →
      ∃ t, exec (.vectorDiscard c slot) s = .next t ∧ (t.ctxOf a).window = (s.ctxOf a).window.eraseIdx i
        ∧ (t.clusterOf a).store = (if (Vec.of e.words).statusEn then
            Cells.write (s.clusterOf a).store (a.ctx.lo + (Vec.of e.words).status * 128) (statusBytes 0 0 128 0 0)
          else (s.clusterOf a).store)
        ∧ (act = .halt → (t.ctxOf a).halted = true) ∧ RaisedAt s t 0xA003 (cdIndex a.die)
        ∧ (t.clusterOf a).lastVector = slot
        ∧ OtherClusters a.die a.phys s t ∧ SameBut [.events, .clusters, .mem, .berths, .runs] s t))

/-- R207, R227, R230, R235, R238, R241, R565: a MAP, QUANT, MASK or LSUM at the head of the vector engine's queue, in its
turn (R212), runs over its elements from where it stands and completes with its status record and its notice, where
the checks of the lanes find nothing that stops it (R239, R240); where they do, it has no other effect than theirs. A
swap stops a MAP, QUANT or MASK between two lane rows, and what it has done so far is kept. -/
def Obligations.VectorDescriptorsRun : Prop :=
  ∀ (s : State) (c : ClusterId) (slot : BitVec 1) (a : At) (i : Nat) (e : Entry) (f : LaneFault) (u : State),
    s.at? c slot = some a → vectorEntry (s.ctxOf a).window = some (i, e) → s.vectorReady a i e = true →
    s.vectorTurn a (s.at? c (1 - slot)) = true → u = (s.laneFault a i (Vec.of e.words).tag f).2 →
    ((s.laneFault a i (Vec.of e.words).tag f).1 = true →
      ((Vec.of e.words).kind = 1 →
        ∃ t, exec (.vectorMap c slot f none) s = .next t ∧ VectorRan a i e (u.vectorAll a e) u t)
      ∧ ((Vec.of e.words).kind = 2 →
        ∃ t, exec (.vectorQuant c slot f none) s = .next t ∧ VectorRan a i e (u.vectorAll a e) u t)
      ∧ ((Vec.of e.words).kind = 3 →
        ∃ t, exec (.vectorMask c slot f none) s = .next t ∧ VectorRan a i e (u.vectorAll a e) u t)
      ∧ ((Vec.of e.words).kind = 4 →
        ∃ t, exec (.vectorLsum c slot f) s = .next t ∧ VectorRan a i e (u.vectorAll a e) u t)
      ∧ (∀ k : Nat, e.vec.done + k < (Vec.of e.words).parts →
        ((Vec.of e.words).kind = 1 →
          ∃ t, exec (.vectorMap c slot f (some k)) s = .next t ∧ VectorStopped a i e (e.vec.done + k) u t)
        ∧ ((Vec.of e.words).kind = 2 →
          ∃ t, exec (.vectorQuant c slot f (some k)) s = .next t ∧ VectorStopped a i e (e.vec.done + k) u t)
        ∧ ((Vec.of e.words).kind = 3 →
          ∃ t, exec (.vectorMask c slot f (some k)) s = .next t ∧ VectorStopped a i e (e.vec.done + k) u t)))
    ∧ ((s.laneFault a i (Vec.of e.words).tag f).1 = false →
      ((Vec.of e.words).kind = 1 → ∀ k, exec (.vectorMap c slot f k) s = .next u)
      ∧ ((Vec.of e.words).kind = 2 → ∀ k, exec (.vectorQuant c slot f k) s = .next u)
      ∧ ((Vec.of e.words).kind = 3 → ∀ k, exec (.vectorMask c slot f k) s = .next u)
      ∧ ((Vec.of e.words).kind = 4 → exec (.vectorLsum c slot f) s = .next u))

/-- R121: at the end of a context's quantum the ready saved context of its slot comes in, unless the other slot is
eligible and its context has held it longer. R124, R125: a swap for which either image has no place is refused, with
event 0x8005, and both contexts stay where they are. R122, R123: the end of a swap saves the one context, makes the
other resident with the window and carry records it had, and counts in CL_SWAPS. R131: CL_CONTROL starts the self-test
of a cluster that may be tested, and has no effect on another; a test that passes sets CL_SELFTEST alone; one that
fails shows in CL_SELFTEST and CL_ERROR, with event 0x800A, and a spare or retired cluster keeps its state, while an
active one becomes RETIRED (R129). Table 3.15: CL_CONTROL halts and resumes the context of a slot. -/
def Obligations.ContextsAndClusters : Prop :=
  (∀ (s : State) (c : ClusterId) (slot : BitVec 1) (a : At), s.at? c slot = some a →
    (∀ (j : Nat) (y : Ctx), a.cfg.part.timeSlice = true → (s.clusterOf a).swap = none →
      comesIn (s.readySaved a) = some (j, y) →
      (∀ b, s.at? c (1 - slot) = some b → s.eligible b = true → (s.ctxOf a).since.toNat < (s.ctxOf b).since.toNat) →
      ((s.imagePlace a (s.ctxOf a)).isSome = true → (s.imagePlace a y).isSome = true →
        ∃ t, exec (.quantumExpiry c slot) s = .next t
          ∧ t.clusterOf a = { s.clusterOf a with
              swap := some { slot := slot, outgoing := a.idx, incoming := j }
              ctxs := modifyAt (s.clusterOf a).ctxs a.idx (fun x => { x with due := true }) }
          ∧ OtherClusters a.die a.phys s t ∧ SameBut [.clusters] s t)
      ∧ ((s.imagePlace a (s.ctxOf a) = none ∨ s.imagePlace a y = none) →
        ∃ t, exec (.quantumExpiry c slot) s = .next t ∧ (t.clusterOf a).swap = none
          ∧ bit (t.clusterOf a).error 5 = true ∧ RaisedAt s t 0x8005 (cdIndex a.die)
          ∧ (t.clusterOf a).ctxs = modifyAt (s.clusterOf a).ctxs a.idx (fun x => { x with due := false })
          ∧ OtherClusters a.die a.phys s t ∧ SameBut [.events, .clusters] s t))
    ∧ (∀ (w : Swap) (y : Ctx) (out inn : Nat) (corrected : Bool), (s.clusterOf a).swap = some w → w.slot = slot →
      (s.clusterOf a).flight.any (fun f => decide (f.slot = slot)) = false →
      (s.clusterOf a).ctxs[w.incoming]? = some y → s.imagePlace a a.ctx = some out → s.imagePlace a y = some inn →
      (s.readMem none .yard inn (imageBytes y.size) (idContext a.die a.logical y.id) .good).1 = true →
      (s.clusterOf a).ctxs.zipIdx.all (fun x => !x.1.due || decide (x.2 = w.outgoing)) = true →
      ∃ t, exec (.swapComplete c slot corrected .good) s = .next t ∧ (t.clusterOf a).swap = none
        ∧ (∃ y', (t.clusterOf a).ctxs[w.incoming]? = some y' ∧ y'.resident = true ∧ y'.id = y.id
            ∧ y'.window = y.window ∧ y'.carries = y.carries)
        ∧ (w.outgoing ≠ w.incoming → ∀ x, (t.clusterOf a).ctxs[w.outgoing]? = some x → x.resident = false)
        ∧ (t.clusterOf a).counters.swaps = satAdd (s.clusterOf a).counters.swaps 1
        ∧ SameBytesOutside .yard out (imageBytes a.ctx.size) s t
        ∧ OtherClusters a.die a.phys s t ∧ SameBut [.free, .clusters, .mem] s t))
  ∧ (∀ (s : State) (c : ClusterId),
    (s.serves (readyCompute c.die.toNat) → (s.cluster c.die.toNat c.phys.toNat).mayTest = true →
      ∃ t, exec (.selfTest c) s = .next t
        ∧ t.cluster c.die.toNat c.phys.toNat = { s.cluster c.die.toNat c.phys.toNat with testing := true }
        ∧ OtherClusters c.die.toNat c.phys.toNat s t ∧ SameBut [.clusters] s t)
    ∧ (s.serves (readyCompute c.die.toNat) → (s.cluster c.die.toNat c.phys.toNat).mayTest = false →
      exec (.selfTest c) s = .next s)
    ∧ ((s.cluster c.die.toNat c.phys.toNat).testing = true →
      (∃ t, exec (.selfTestComplete c true) s = .next t
        ∧ t.cluster c.die.toNat c.phys.toNat
            = { s.cluster c.die.toNat c.phys.toNat with testing := false, selftest := 1 }
        ∧ OtherClusters c.die.toNat c.phys.toNat s t ∧ SameBut [.clusters] s t)
      ∧ ((s.cluster c.die.toNat c.phys.toNat).state ≠ .active →
        ∃ t, exec (.selfTestComplete c false) s = .next t
          ∧ t.cluster c.die.toNat c.phys.toNat = { s.cluster c.die.toNat c.phys.toNat with
              testing := false, selftest := 2, error := setBit (s.cluster c.die.toNat c.phys.toNat).error 8 }
          ∧ RaisedAt s t 0x800A (cdIndex c.die.toNat) ∧ OtherClusters c.die.toNat c.phys.toNat s t
          ∧ SameBut [.events, .clusters] s t)
      ∧ ((s.cluster c.die.toNat c.phys.toNat).state = .active →
        ∃ t, exec (.selfTestComplete c false) s = .next t
          ∧ (t.cluster c.die.toNat c.phys.toNat).state = .retired
          ∧ (t.cluster c.die.toNat c.phys.toNat).selftest = 2
          ∧ bit (t.cluster c.die.toNat c.phys.toNat).error 8 = true
          ∧ bit (t.cluster c.die.toNat c.phys.toNat).error 7 = true ∧ RaisedAt s t 0x800A (cdIndex c.die.toNat)))
    ∧ (∀ (slot : BitVec 1) (a : At), s.serves (readyCompute c.die.toNat) → s.at? c slot = some a →
      (∃ t, exec (.haltSlot c slot) s = .next t ∧ t.ctxOf a = { s.ctxOf a with halted := true, runsOn := 0 }
        ∧ OtherClusters a.die a.phys s t ∧ SameBut [.clusters] s t)
      ∧ (∃ t, exec (.resumeSlot c slot) s = .next t ∧ t.ctxOf a = { s.ctxOf a with halted := false, runsOn := 0 }
        ∧ OtherClusters a.die a.phys s t ∧ SameBut [.clusters] s t)))

/-- R129: a spare that passes its self-test becomes ACTIVE with the logical number of the retired cluster it replaces,
which keeps none, and event 0x8008 is raised; where no partition has a context there or owns the number, nothing else
changes. One that fails is RETIRED, with event 0x800A, and the lowest-numbered SPARE of the die is tested in its
place; with none left the number is unserviceable, with event 0x8009 (R130). -/
def Obligations.SparesTakeTheNumber : Prop :=
  ∀ (s : State) (c : ClusterId) (o l : Byte), o ≠ c.phys →
    (s.cluster c.die.toNat c.phys.toNat).state = .testing →
    (s.cluster c.die.toNat c.phys.toNat).replaces = some o → (s.cluster c.die.toNat o.toNat).logical = some l →
    (∃ t, exec (.spareSelfTestComplete c true) s = .next t
      ∧ (t.cluster c.die.toNat c.phys.toNat).state = .active
      ∧ (t.cluster c.die.toNat c.phys.toNat).logical = some l ∧ (t.cluster c.die.toNat c.phys.toNat).replaces = none
      ∧ (t.cluster c.die.toNat o.toNat).logical = none ∧ RaisedAt s t 0x8008 (cdIndex c.die.toNat)
      ∧ ((s.cluster c.die.toNat o.toNat).ctxs = [] → s.ownerOf c.die.toNat l.toNat = none →
        SameBut [.hm, .events, .i3c, .clusters, .mem, .berths] s t))
    ∧ (∃ t, exec (.spareSelfTestComplete c false) s = .next t
      ∧ (t.cluster c.die.toNat c.phys.toNat).state = .retired
      ∧ (t.cluster c.die.toNat c.phys.toNat).selftest = 2
      ∧ bit (t.cluster c.die.toNat c.phys.toNat).error 8 = true ∧ RaisedAt s t 0x800A (cdIndex c.die.toNat)
      ∧ (∀ n, s.lowestCluster c.die.toNat (fun x => decide (x.state = .spare)) = some n →
        (t.cluster c.die.toNat n).state = .testing ∧ (t.cluster c.die.toNat n).replaces = some o
          ∧ (t.cluster c.die.toNat o.toNat).logical = some l ∧ SameBut [.events, .clusters] s t)
      ∧ (s.lowestCluster c.die.toNat (fun x => decide (x.state = .spare)) = none →
        (t.cluster c.die.toNat o.toNat).logical = none ∧ RaisedAt s t 0x8009 (cdIndex c.die.toNat)))

/-- R147, R148: a peak record that comes to a partition's step sequencer joins what it holds of the scope and the step by
maximum; it counts for the step in progress, or for the step that this device's own record of it was made for. One
with invalid_seen raises 0xB003 (R173). R266, R275: the notice of the last tile of a micro-batch subtracts the readers
that its forward pass bound from the current version, or from the stashed version they are bound to; a count that
would go below 0 stays 0 and raises 0x9105. R271: a stashed version with no reader left, and no descriptor that reads
its staged images, is released. R267: a completed copy puts the old version in the stash, with its readers, and gives
the block its next version. R269: a wait past its limit raises 0x9103 and halts the partition with cause 4. -/
def Obligations.PeaksAndStash : Prop :=
  (∀ (s : State) (p : BitVec 6) (w : DWord), (s.cfg? p.toNat).isSome = true →
    ∃ t r, exec (.peakRecordReceive p w) s = .next t ∧ (t.seq p.toNat).peaks.getLast? = some r
      ∧ r.scope = BitVec.ofNat 32 (bits w 31 0) ∧ bits w 39 32 ≤ r.peak.toNat ∧ r.fmt = BitVec.ofNat 3 (bits w 43 41)
      ∧ ((s.seq p.toNat).arrived = [] → r.step = (s.part p.toNat).step)
      ∧ (bit w 40 = true → r.invalid = true ∧ RaisedAt s t 0xB003 gwIndex)
      ∧ (∀ q, (s.seq p.toNat).peaks.find? (fun x => decide (x.scope = r.scope) && decide (x.step = r.step)) = some q →
          q.peak.toNat ≤ r.peak.toNat ∧ (q.invalid = true → r.invalid = true))
      ∧ OtherParts p.toNat s t ∧ SameBut [.free, .events, .runs] s t)
  ∧ (∀ (s : State) (p : BitVec 6) (block : Word),
    (∀ (mb : Half) (step : DWord) (x : Bound),
      (s.stash p.toNat).bound.find? (fun x => decide (x.block = block) && decide (x.step = step) && decide (x.mb = mb))
        = some x →
      (((s.stash p.toNat).version block).tag = x.tag →
        ∃ t, exec (.lastTileNotice p block mb step) s = .next t
          ∧ ((t.stash p.toNat).version block).readers
              = BitVec.ofNat 16 (((s.stash p.toNat).version block).readers.toNat - x.readers.toNat)
          ∧ ((t.stash p.toNat).version block).tag = x.tag ∧ (t.stash p.toNat).entries = (s.stash p.toNat).entries
          ∧ (((s.stash p.toNat).version block).readers.toNat < x.readers.toNat → RaisedAt s t 0x9105 gwIndex)
          ∧ (x.readers.toNat ≤ ((s.stash p.toNat).version block).readers.toNat → t.events = s.events)
          ∧ OtherParts p.toNat s t ∧ SameBut [.events, .runs] s t)
      ∧ (((s.stash p.toNat).version block).tag ≠ x.tag →
        ∃ t, exec (.lastTileNotice p block mb step) s = .next t
          ∧ (t.stash p.toNat).version block = (s.stash p.toNat).version block
          ∧ (∀ e, e ∈ (s.stash p.toNat).entries → e.block = block → e.tag = x.tag → x.readers.toNat < e.readers.toNat →
              { e with readers := BitVec.ofNat 16 (e.readers.toNat - x.readers.toNat) } ∈ (t.stash p.toNat).entries)
          ∧ (∀ e, e ∈ (t.stash p.toNat).entries → e.block = block → e.tag = x.tag → e.readers = 0 →
              (s.seq p.toNat).posted.any (fun y => y.reads.contains (block, x.tag)) = true)
          ∧ ((s.stash p.toNat).entries.any (fun e => decide (e.block = block) && decide (e.tag = x.tag)
                && decide (x.readers.toNat ≤ e.readers.toNat)) = false → RaisedAt s t 0x9105 gwIndex)
          ∧ OtherParts p.toNat s t ∧ SameBut [.events, .mem, .runs] s t))
    ∧ (∀ (g : StepProgram) (b : WeightBlock), s.program? p.toNat = some g → s.blockOf p.toNat block = some b →
      ((s.stash p.toNat).version block).copying = true → s.mem.poison .hold = [] →
      ∃ t, exec (.stashCopyComplete p block) s = .next t
        ∧ (t.stash p.toNat).version block
            = ((s.stash p.toNat).version block).next (s.part p.toNat).step
        ∧ (t.stash p.toNat).created = satAdd (s.stash p.toNat).created 1
        ∧ (((s.stash p.toNat).version block).readers ≠ 0 →
          (t.stash p.toNat).entries.any (fun e => decide (e.block = block)
            && decide (e.tag = ((s.stash p.toNat).version block).tag)
            && decide (e.readers = ((s.stash p.toNat).version block).readers)
            && decide (e.size = BitVec.ofNat 32 (s.versionPages p.toNat b))) = true)
        ∧ OtherParts p.toNat s t ∧ SameBut [.free, .clusters, .mem, .runs] s t)
    ∧ ((s.stash p.toNat).waits.any (fun w => decide (w.block = block)) = true →
      ∃ t, exec (.stashWaitLimitExpiry p block) s = .next t ∧ (t.stash p.toNat).limitHalt = true
        ∧ RaisedAt s t 0x9103 gwIndex ∧ (t.part p.toNat).step = (s.part p.toNat).step
        ∧ ((s.part p.toNat).state = .running → (s.seq p.toNat).phase ≠ .none → (s.seq p.toNat).pendingHalt = none →
          (t.seq p.toNat).pendingHalt = some (4, BitVec.ofNat 8 (s.haltMode p.toNat)))
        ∧ OtherParts p.toNat s t
        ∧ SameBut [.events, .i3c, .mf, .mfAux, .kx, .mem, .berths, .parts, .runs, .jr] s t))

/-- R303, R304 (Table 8.6): a NOP completes; a CLEAR zeroes the bytes of its rows, and a COPY whose reads are good gives
its destination the source's bytes (stated for one row), and neither changes a byte outside its destination. R190:
what writes back the masters and moments of a layer whose bound is 0 completes and writes nothing. A descriptor waits
while a byte that it reads or writes lies in a row locked for repair (R322). R303, R309 to R312: an ADD of one row,
named by no index, whose reads are good gives the target's elements the sums with the source's, in the number formats
and in S64 with the source's scales, and counts its sectors, cuts and invalid elements; R316: a SETTLE whose reads are
good writes the rounded image of its source with its scales. Neither changes a byte outside its destination. -/
def Obligations.LightersMoveAndAdd : Prop :=
  (∀ (s u : State) (w : Work) (die : BitVec 3) (n : BitVec 4), w.die = die.toNat → w.n = n.toNat → s.lightStands w u →
    (u.checkLight w.part w.cfg w.light).1 = 0 →
    (s.lightLocked w.light = false →
      (w.light.op = 0 →
        ∃ t, exec (.lighterNop die n) s = .next t ∧ LightLeft w u t ∧ (w.light.notify = false → SameBytes u t))
      ∧ (u.writesBack w = true → u.layerStill w.part w.light.tag = true → ∀ (o : ReadOutcome) (cmd : Instr),
        (w.light.op = 1 ∧ cmd = .lighterCopy die n o ∨ w.light.op = 2 ∧ cmd = .lighterAdd die n o
          ∨ w.light.op = 3 ∧ cmd = .lighterSettle die n o ∨ w.light.op = 4 ∧ cmd = .lighterClear die n) →
        ∃ t, exec cmd s = .next t ∧ LightLeft w u t ∧ (w.light.notify = false → SameBytes u t))
      ∧ (∀ dp, w.light.op = 4 → spaceOf w.light.dstKind = some dp →
        (u.writesBack w = true → u.layerStill w.part w.light.tag = false) →
        ∃ t, exec (.lighterClear die n) s = .next t ∧ LightLeft w u t
          ∧ (w.light.notify = false → SameOutside dp w.light.dstRanges u t
            ∧ ∀ r, r ∈ w.light.dstRanges → ∀ k, k < r.2 → t.byte dp (r.1 + k) = 0))
      ∧ (∀ sp dp, w.light.op = 1 → spaceOf w.light.srcKind = some sp → spaceOf w.light.dstKind = some dp →
        (u.writesBack w = true → u.layerStill w.part w.light.tag = false) →
        (State.lightCopy w sp dp .good (w.light.srcRanges.zip w.light.dstRanges) u).1 = true →
        ∃ t, exec (.lighterCopy die n .good) s = .next t ∧ LightLeft w u t
          ∧ (w.light.notify = false → SameOutside dp w.light.dstRanges u t)
          ∧ (w.light.notify = false → w.light.rows = 1 → ∀ k, k < w.light.sectors * 32 →
              t.byte dp (w.light.dst + k) = u.byte sp (w.light.src + k))))
    ∧ (s.lightLocked w.light = true →
      (w.light.op = 0 → exec (.lighterNop die n) s = .next s)
      ∧ (w.light.op = 4 → exec (.lighterClear die n) s = .next s)
      ∧ (w.light.op = 1 → ∀ o, exec (.lighterCopy die n o) s = .next s)
      ∧ (w.light.op = 2 → ∀ o, exec (.lighterAdd die n o) s = .next s)
      ∧ (w.light.op = 3 → ∀ o, exec (.lighterSettle die n o) s = .next s)))
  ∧ (∀ (s u : State) (w : Work) (die : BitVec 3) (n : BitVec 4), w.die = die.toNat → w.n = n.toNat → s.lightStands w u →
    (u.checkLight w.part w.cfg w.light).1 = 0 → s.lightLocked w.light = false → w.light.notify = false →
    (u.writesBack w = true → u.layerStill w.part w.light.tag = false) →
    (∀ sp, w.light.op = 2 → w.light.indexed = false → w.light.rows = 1 →
      spaceOf w.light.srcKind = some sp → u.poisoned .near w.light.dst (w.light.sectors * 32) = false →
      (w.light.addFmt ≠ 2 → u.poisoned sp w.light.src (w.light.sectors * 32) = false →
        ∃ t, exec (.lighterAdd die n .good) s = .next t ∧ LightLeft w u t
          ∧ t.bytes .near w.light.dst (w.light.sectors * 32)
              = addRow w.light.addFmt (u.bytes .near w.light.dst (w.light.sectors * 32))
                  (u.bytes sp w.light.src (w.light.sectors * 32))
          ∧ (t.memDieAux (Space.near.unit w.light.dst)).addSectors
              = satAdd (u.memDieAux (Space.near.unit w.light.dst)).addSectors w.light.sectors
          ∧ SameBytesOutside .near w.light.dst (w.light.sectors * 32) u t)
      ∧ (w.light.addFmt = 2 → (u.log w.part).lateOrigin = none →
        u.poisoned sp w.light.src (ceilDiv w.light.cols 4 * 128) = false →
        u.poisoned sp (w.light.tableAt w.light.src w.light.srcStride) w.light.tableBytes = false →
        ∃ t x, exec (.lighterAdd die n .good) s = .next t
          ∧ w.light.x16Row (u.mem.cells sp) 0 (u.bytes .near w.light.dst (w.light.sectors * 32)) = x ∧ LightLeft w u t
          ∧ t.bytes .near w.light.dst (w.light.sectors * 32) = x.1
          ∧ (t.memDieAux (Space.near.unit w.light.dst)).addInexact
              = satAdd (u.memDieAux (Space.near.unit w.light.dst)).addInexact x.2.1
          ∧ (t.memDieAux (Space.near.unit w.light.dst)).addInvalid
              = satAdd (u.memDieAux (Space.near.unit w.light.dst)).addInvalid x.2.2
          ∧ (x.2.2 ≠ 0 → RaisedAt u t 0x900E (cdIndex w.die))
          ∧ SameBytesOutside .near w.light.dst (w.light.sectors * 32) u t))
    ∧ (∀ dp, w.light.op = 3 → spaceOf w.light.dstKind = some dp →
      (u.readRanges w.via .near w.ident .good w.light.srcRanges).1 = true →
      ∃ t, exec (.lighterSettle die n .good) s = .next t ∧ LightLeft w u t
        ∧ ∀ a, t.byte dp a = Cells.byte
            (((List.range w.light.tableRows).flatMap (fun o =>
                (List.range ((if w.light.blkCols then w.light.rows else w.light.cols) / 32)).map (fun b => (o, b)))).foldl
              (w.light.settleBlock w.cfg.program.control.runSeed w.step
                u.mem.near)
              ((u.clearBytes dp (w.light.tableAt w.light.dst w.light.dstStride) w.light.tableBytes).mem.cells dp, 0)).1 a))

/-- R311: an S64 element L at anchor A has the value L × 2^(A − 40), the pattern 0x8000_0000_0000_0000 marks it invalid,
and an invalid element keeps that pattern under every later add. -/
def Obligations.S64Elements : Prop :=
  (∀ (anchor : Int) (l : DWord), l ≠ 0x8000000000000000 → s64Val anchor l = Val.ofInt l.toInt (anchor - 40))
  ∧ (∀ anchor : Int, s64Val anchor 0x8000000000000000 = .nan)
  ∧ (∀ (anchor m : Int) (scale : Nat), (s64Add anchor 0x8000000000000000 scale m).1 = 0x8000000000000000)

/-- R307: a descriptor that fails a check of Table 8.7 halts the lighter with its code and event 0x900C, and is not run.
R308: an uncorrectable read of a COPY halts it with code 0x50 and event 0x900D; RESUME goes on at the descriptor after
the one it halted on, and FLUSH empties the queue. -/
def Obligations.LightersHaltAndResume : Prop :=
  ∀ (s : State) (die : BitVec 3) (n : BitVec 4),
    (∀ (u : State) (w : Work) (o : ReadOutcome) (cmd : Instr), w.die = die.toNat → w.n = n.toNat → s.lightStands w u →
      (u.checkLight w.part w.cfg w.light).1 ≠ 0 →
      ((w.light.op = 0 ∨ 4 < w.light.op) ∧ cmd = .lighterNop die n ∨ w.light.op = 1 ∧ cmd = .lighterCopy die n o
        ∨ w.light.op = 2 ∧ cmd = .lighterAdd die n o ∨ w.light.op = 3 ∧ cmd = .lighterSettle die n o
        ∨ w.light.op = 4 ∧ cmd = .lighterClear die n) →
      ∃ t, exec cmd s = .next t ∧ (t.lighter w.die w.n).halted = true
        ∧ (t.lighter w.die w.n).queue = (u.lighter w.die w.n).queue
        ∧ bit (t.memDieAux w.die).lighterError w.n = true
        ∧ (t.memDieAux w.die).lighterErrorInfo
            = BitVec.ofNat 32 (w.n + (u.checkLight w.part w.cfg w.light).1 * 16 + w.light.tag * 4096)
        ∧ RaisedAt u t 0x900C (cdIndex w.die) ∧ SameBytes u t ∧ SameBut [.events, .mem, .memAux] u t)
    ∧ (∀ (u : State) (w : Work) (o : ReadOutcome) (sp dp : Space), w.die = die.toNat → w.n = n.toNat →
      s.lightStands w u → (u.checkLight w.part w.cfg w.light).1 = 0 → s.lightLocked w.light = false → w.light.op = 1 →
      spaceOf w.light.srcKind = some sp → spaceOf w.light.dstKind = some dp →
      (u.writesBack w = true → u.layerStill w.part w.light.tag = false) →
      (State.lightCopy w sp dp o (w.light.srcRanges.zip w.light.dstRanges) u).1 = false →
      ∃ t, exec (.lighterCopy die n o) s = .next t
        ∧ bit (t.memDieAux w.die).lighterError w.n = true
        ∧ (t.memDieAux w.die).lighterErrorInfo = BitVec.ofNat 32 (w.n + 0x50 * 16 + w.light.tag * 4096)
        ∧ RaisedAt u t 0x900D (cdIndex w.die))
    ∧ (s.serves (readyCompute die.toNat) →
      ∃ t, exec (.lighterResume die n) s = .next t ∧ (t.lighter die.toNat n.toNat).halted = false
        ∧ (t.lighter die.toNat n.toNat).queue
            = (if (s.lighter die.toNat n.toNat).halted then (s.lighter die.toNat n.toNat).queue.drop 1
               else (s.lighter die.toNat n.toNat).queue)
        ∧ SameBut [.memAux] s t)
    ∧ (s.serves (readyCompute die.toNat) →
      ∃ t, exec (.lighterFlush die n) s = .next t ∧ (t.lighter die.toNat n.toNat).queue = []
        ∧ (t.lighter die.toNat n.toNat).halted = (s.lighter die.toNat n.toNat).halted ∧ SameBut [.memAux] s t)

/-- R290 to R292: a refresh takes 250 cycles, counted in units of 256; a reading that rises sets the band that it asks, a
warmer one stays, and one that has stayed below its threshold lets the band fall; a change of band raises 0x9001.
R320: SCRUB_NOW starts a pass, and the end of one that found nothing is counted, with no other effect. R318: of a pass
that found one error, an uncorrectable one poisons the codeword, counts and raises 0x9002 or 0x9003; a corrected
near-tier one counts as transient where it reads clean, and where it repeats locks its row for repair (R322), with a
pool row that no repair under way takes and not two failed bonds to go on with (R324). -/
def Obligations.RefreshAndScrub : Prop :=
  (∀ (s : State) (stack : BitVec 3),
    (∀ pc : Byte, ∃ t, exec (.refresh stack pc) s = .next t
      ∧ t.memDie stack.toNat = { s.memDie stack.toNat with
          refreshFrac := ((s.memDie stack.toNat).refreshFrac + 250) % 256,
          refreshBusy := satAdd (s.memDie stack.toNat).refreshBusy (((s.memDie stack.toNat).refreshFrac + 250) / 256) }
      ∧ (∀ d, d ≠ stack.toNat → t.memDie d = s.memDie d) ∧ SameBut [.memDies] s t)
    ∧ (∀ (dram : BitVec 2) (temp : Byte),
      (∃ t, exec (.refreshBandRise stack dram temp) s = .next t
        ∧ (t.memDie stack.toNat).band dram.toNat
            = max ((s.memDie stack.toNat).band dram.toNat) (s.bandFor stack.toNat dram.toNat temp.toNat)
        ∧ (∀ m, m < 4 → m ≠ dram.toNat → (t.memDie stack.toNat).band m = (s.memDie stack.toNat).band m)
        ∧ bits (t.memDie stack.toNat).dramTemp (8 * dram.toNat + 7) (8 * dram.toNat) = temp.toNat
        ∧ ((s.memDie stack.toNat).band dram.toNat < s.bandFor stack.toNat dram.toNat temp.toNat →
            RaisedAt s t 0x9001 (cdIndex stack.toNat))
        ∧ SameBut [.events, .memDies] s t)
      ∧ (∃ t, exec (.refreshBandFall stack dram temp) s = .next t
        ∧ (t.memDie stack.toNat).band dram.toNat
            = min ((s.memDie stack.toNat).band dram.toNat) (s.bandFor stack.toNat dram.toNat (temp.toNat + 2))
        ∧ (∀ m, m < 4 → m ≠ dram.toNat → (t.memDie stack.toNat).band m = (s.memDie stack.toNat).band m)
        ∧ SameBut [.events, .memDies] s t)))
  ∧ (∀ s : State,
    (s.serves readyHm → ∃ t, exec .scrubNow s = .next t ∧ t.mem = { s.mem with scrubRunning := true } ∧ SameBut [.mem] s t)
    ∧ (∃ t, exec (.patrolScrub []) s = .next t
        ∧ t.mem = { s.mem with scrubRunning := false, scrubPasses := s.mem.scrubPasses + 1 } ∧ SameBut [.mem] s t)
    ∧ (∀ a, s.poisoned .near a 1 = false → s.twoBonds (a >>> 36) (pseudoChannel (Space.near.offset a)) = false →
      ∃ t, exec (.patrolScrub [{ tier := .near, addr := a, kind := .ueLasting }]) s = .next t
        ∧ t.poisoned .near a 1 = true
        ∧ (t.memDie (a >>> 36)).nearUe = satAdd (s.memDie (a >>> 36)).nearUe 1 ∧ RaisedAt s t 0x9002 (cdIndex (a >>> 36))
        ∧ t.mem.scrubPasses = s.mem.scrubPasses + 1 ∧ SameBytes s t ∧ SameBut [.events, .mem, .memDies] s t)
    ∧ (∀ a, s.poisoned .hold a 1 = false →
      ∃ t, exec (.patrolScrub [{ tier := .hold, addr := a, kind := .ueLasting }]) s = .next t
        ∧ t.poisoned .hold a 1 = true ∧ RaisedAt s t 0x9003 (cdIndex ((a >>> 36) / 2))
        ∧ SameBytes s t ∧ SameBut [.events, .mem, .memDies, .runs] s t)
    ∧ (∀ a, s.poisoned .near a 1 = false →
      (∃ t, exec (.patrolScrub [{ tier := .near, addr := a, kind := .correctedClean }]) s = .next t
        ∧ (t.memDie (a >>> 36)).nearCe = satAdd (s.memDie (a >>> 36)).nearCe 1
        ∧ (t.memDie (a >>> 36)).nearTransient = satAdd (s.memDie (a >>> 36)).nearTransient 1
        ∧ RaisedAt s t 0x900F (cdIndex (a >>> 36)))
      ∧ (∀ pc row, pc = pseudoChannel (Space.near.offset a) → row = rowOf (Space.near.offset a) →
        s.twoBonds (a >>> 36) pc = false →
        (s.rowsLeft (a >>> 36) (dramOf pc) ≠ 0 ∨ s.mem.bankJobs.contains (a >>> 36, pc, bankOf row) = true) →
        s.mem.unserviceable.contains (a >>> 36, pc, row) = false →
        ∃ t, exec (.patrolScrub [{ tier := .near, addr := a, kind := .correctedRepeat }]) s = .next t
          ∧ t.mem.locked.contains (a >>> 36, pc, row) = true
          ∧ (t.memDie (a >>> 36)).nearCe = satAdd (s.memDie (a >>> 36)).nearCe 1
          ∧ SameBytes s t ∧ SameBut [.mem, .memDies] s t)))

/-- R321, R322: a repaired row is served by the next pool row and is locked no more. R323: a bank copied whole is marked,
its rows' repairs and locks go with it, and it takes a pool row for each row that had none. Each repair is counted,
and reported with event 0x9005 or 0x9006. R325 (Table 8.11): a spare hold device whose test passes fills from the old
one, or begins empty where that one cannot be read. R326: one that fails is retired, with 0x900A, and the device it
was to replace has none left, with 0x900B. At the end of the copy it serves, SERVICE_N asks for a repair (HM_SERVICE
bit 2), and 0x9009 is raised. -/
def Obligations.RowsBanksAndSpares : Prop :=
  (∀ (s : State) (stack : BitVec 3) (pc : Byte),
    (∀ row, s.mem.locked.contains (stack.toNat, pc.toNat, row) = true →
      ∃ t, exec (.rowRepairComplete stack pc row) s = .next t
        ∧ t.mem.locked.contains (stack.toNat, pc.toNat, row) = false
        ∧ t.mem.remaps.getLast? = some (RowRemap.mk stack.toNat pc.toNat row
            (poolRows - (s.memDieAux stack.toNat).free (dramOf pc.toNat)))
        ∧ (t.memDieAux stack.toNat).rowsRepaired = min ((s.memDieAux stack.toNat).rowsRepaired + 1) 0xFFFF
        ∧ (t.memDieAux stack.toNat).free (dramOf pc.toNat) = (s.memDieAux stack.toNat).free (dramOf pc.toNat) - 1
        ∧ RaisedAt s t 0x9005 (cdIndex stack.toNat) ∧ SameBytes s t
        ∧ SameBut [.hm, .events, .i3c, .mem, .memAux, .berths] s t)
    ∧ (∀ bank, s.mem.bankJobs.contains (stack.toNat, pc.toNat, bank) = true →
      ∃ t, exec (.bankRepairComplete stack pc bank) s = .next t
        ∧ t.mem.bankJobs.contains (stack.toNat, pc.toNat, bank) = false
        ∧ t.mem.banks = s.mem.banks ++ [(stack.toNat, pc.toNat, bank)]
        ∧ (∀ r, r ∈ t.mem.remaps → ¬ (r.stack = stack.toNat ∧ r.pc = pc.toNat ∧ bankOf r.row = bank))
        ∧ (∀ k, k ∈ t.mem.locked → ¬ (k.1 = stack.toNat ∧ k.2.1 = pc.toNat ∧ bankOf k.2.2 = bank))
        ∧ (t.memDieAux stack.toNat).free (dramOf pc.toNat) = (s.memDieAux stack.toNat).free (dramOf pc.toNat)
            - (8128 - s.mem.rowsOfBank stack.toNat pc.toNat bank)
        ∧ (t.memDieAux stack.toNat).banksRepaired = min ((s.memDieAux stack.toNat).banksRepaired + 1) 63
        ∧ RaisedAt s t 0x9006 (cdIndex stack.toNat) ∧ SameBytes s t
        ∧ SameBut [.hm, .events, .i3c, .mem, .memAux, .berths] s t))
  ∧ (∀ (s : State) (spare : BitVec 1),
    (∀ (j : BitVec 4) (readable old : Bool), (if spare = 1 then s.mem.h17 else s.mem.h16) = .testing j readable →
      (∃ t, exec (.holdSpareTestComplete spare false old) s = .next t
        ∧ (if spare = 1 then t.mem.h17 else t.mem.h16) = .retired ∧ bit t.mem.holdLost j.toNat = true
        ∧ RaisedAt s t 0x900A (cdIndex (j.toNat / 2)) ∧ RaisedAt s t 0x900B (cdIndex (j.toNat / 2))
        ∧ SameBytes s t ∧ SameBut [.events, .mem, .runs] s t)
      ∧ (readable = true → old = true →
        ∃ t, exec (.holdSpareTestComplete spare true old) s = .next t
          ∧ (if spare = 1 then t.mem.h17 else t.mem.h16) = .filling j true ∧ SameBytes s t ∧ SameBut [.mem] s t)
      ∧ ((readable = false ∨ old = false) →
        ∃ t, exec (.holdSpareTestComplete spare true old) s = .next t
          ∧ (if spare = 1 then t.mem.h17 else t.mem.h16) = .filling j false
          ∧ (∀ k, k < 2 ^ 36 → t.byte .hold (j.toNat * 2 ^ 36 + k) = 0)
          ∧ SameBytesOutside .hold (j.toNat * 2 ^ 36) (2 ^ 36) s t ∧ SameBut [.mem, .runs] s t))
    ∧ (∀ j : BitVec 4, (if spare = 1 then s.mem.h17 else s.mem.h16) = .filling j true →
      ∃ t, exec (.holdSpareCopyComplete spare) s = .next t
        ∧ (if spare = 1 then t.mem.h17 else t.mem.h16) = .serving j
        ∧ bit t.mem.holdRetired j.toNat = true ∧ bit t.hm.service 2 = true
        ∧ RaisedAt s t 0x9009 (cdIndex (j.toNat / 2))
        ∧ SameBut [.hm, .events, .i3c, .mem, .berths, .runs] s t))

/-- R333, R335, R336: a message of one slot that its berth admits and has room for is written behind the newest item, with
its header of Table 9.2, to a berth without a level; a tensor berth spends a credit (R338). R342: where the item makes
the occupancy cross an armed level that gives notice by event, the level is disarmed, BTH_STATUS bit 0 is set, and
event 0x7001 is raised. R356: a write that its berth refuses sets BTH_STATUS bit 4 and raises 0x7004; R340: one of a
host session without the credits sets bit 2 and raises 0x7003. R341: a marked-drop berth without room, and without a
level, drops the message, sets bit 1, counts the slots dropped and raises 0x7002 when the bit was clear. R337: another
producer that finds no room in a berth at which none waits stalls, and its message waits. -/
def Obligations.BerthWrites : Prop :=
  (∀ (s : State) (n : BitVec 14) (m : BerthMsg), s.gatewayUp = true → m.bytes ≠ [] →
    s.berthRefuses n.toNat m = false → slotsNeeded (s.berth n.toNat).cfg m.bytes = 1 →
    ((s.berth n.toNat).cfg.kindOf = kindMarked →
      (s.berth n.toNat).inRing + 1 ≤ (s.berth n.toNat).cfg.capacity - 1) →
    ((s.berth n.toNat).cfg.kindOf ≠ kindMarked → (s.berth n.toNat).waiting = [] ∧ (s.berth n.toNat).room = true) →
    ((s.berth n.toNat).cfg.levelOf = 0 →
      ∃ t, exec (.berthWrite n m) s = .next t
        ∧ (t.berth n.toNat).tail = ((s.berth n.toNat).tail + 1) % (s.berth n.toNat).cfg.capacity
        ∧ (t.berth n.toNat).occupancy = (s.berth n.toNat).occupancy + 1
        ∧ (t.berth n.toNat).seq = (s.berth n.toNat).seq + 1
        ∧ (t.berth n.toNat).credits
            = (s.berth n.toNat).credits - (if (s.berth n.toNat).cfg.kindOf = kindTensor then 1 else 0)
        ∧ t.bytes (s.berth n.toNat).cfg.ringSpace ((s.berth n.toNat).cfg.slotAddr (s.berth n.toNat).tail)
              (s.berth n.toNat).cfg.slotSize
            = slotHeader m.cls.toNat 1 m.bytes.length (s.berth n.toNat).tag.toNat m.producer.toNat (s.berth n.toNat).seq
                m.step 0 ++ padTo (s.berth n.toNat).cfg.readWidth m.bytes
        ∧ SameBytesOutside (s.berth n.toNat).cfg.ringSpace
            ((s.berth n.toNat).cfg.slotAddr (s.berth n.toNat).tail) (s.berth n.toNat).cfg.slotSize s t
        ∧ (∀ k, k ≠ n.toNat → t.berth k = s.berth k) ∧ BerthFrame n.toNat [.mem, .berths] s t)
    ∧ ((s.berth n.toNat).armed = true → (s.berth n.toNat).cfg.levelOf = (s.berth n.toNat).occupancy + 1 →
      (s.berth n.toNat).cfg.noticeEvent = true →
      ∃ t, exec (.berthWrite n m) s = .next t ∧ (t.berth n.toNat).armed = false
        ∧ bit (t.berth n.toNat).status 0 = true ∧ (t.berth n.toNat).occupancy = (s.berth n.toNat).occupancy + 1
        ∧ RaisedAt s t 0x7001 gwIndex ∧ (∀ k, k ≠ n.toNat → t.berth k = s.berth k)
        ∧ BerthFrame n.toNat [.events, .mem, .berths] s t))
  ∧ (∀ (s : State) (n : BitVec 14) (m : BerthMsg), s.gatewayUp = true → m.bytes ≠ [] →
    (s.berthRefuses n.toNat m = true →
      ∃ t, exec (.berthWrite n m) s = .next t
        ∧ t.berth n.toNat = { s.berth n.toNat with status := setBit (s.berth n.toNat).status 4 }
        ∧ RaisedAt s t 0x7004 gwIndex ∧ (∀ k, k ≠ n.toNat → t.berth k = s.berth k)
        ∧ BerthFrame n.toNat [.events, .berths] s t)
    ∧ (s.berthRefuses n.toNat m = false → (s.berth n.toNat).cfg.kindOf = kindTensor → isSession m.producer.toNat = true →
      (s.berth n.toNat).credits < slotsNeeded (s.berth n.toNat).cfg m.bytes →
      ∃ t, exec (.berthWrite n m) s = .next t
        ∧ t.berth n.toNat = { s.berth n.toNat with status := setBit (s.berth n.toNat).status 2 }
        ∧ RaisedAt s t 0x7003 gwIndex ∧ (∀ k, k ≠ n.toNat → t.berth k = s.berth k)
        ∧ BerthFrame n.toNat [.events, .berths] s t)
    ∧ (s.berthRefuses n.toNat m = false → (s.berth n.toNat).cfg.kindOf = kindMarked →
      (s.berth n.toNat).cfg.capacity - 1 < (s.berth n.toNat).inRing + slotsNeeded (s.berth n.toNat).cfg m.bytes →
      (s.berth n.toNat).cfg.levelOf = 0 →
      ∃ t, exec (.berthWrite n m) s = .next t ∧ bit (t.berth n.toNat).status 1 = true
        ∧ (t.berth n.toNat).drops
            = satAdd (s.berth n.toNat).drops (slotsNeeded (s.berth n.toNat).cfg m.bytes)
        ∧ (bit (s.berth n.toNat).status 1 = false → RaisedAt s t 0x7002 gwIndex)
        ∧ (∀ k, k ≠ n.toNat → t.berth k = s.berth k) ∧ BerthFrame n.toNat [.events, .mem, .berths] s t)
    ∧ (s.berthRefuses n.toNat m = false → (s.berth n.toNat).cfg.kindOf ≠ kindMarked →
      isSession m.producer.toNat = false → (s.berth n.toNat).waiting = [] → (s.berth n.toNat).room = false →
      ∃ t, exec (.berthWrite n m) s = .next t
        ∧ t.berth n.toNat = { s.berth n.toNat with waiting := [{ msg := m, done := 0 }] }
        ∧ (∀ k, k ≠ n.toNat → t.berth k = s.berth k) ∧ BerthFrame n.toNat [.berths] s t))

/-- R346: a consumer on the module that is no array cluster and no lighter takes the oldest good item of a berth without a
level: head and occupancy move on, and the credits of a tensor berth go back in batches (R339). R354: BTH_CONTROL
discards what the berth holds, restores its credits and raises 0x7006. An amendment that either completes ends after
it (R78). -/
def Obligations.BerthsDequeueAndFlush : Prop :=
  ∀ (s : State) (n : BitVec 14),
    (s.berth n.toNat).cfg.kindOf ≠ 0 →
    (∀ it, s.gatewayUp = true → isSpine (s.berth n.toNat).cfg.consumerId = true →
      s.headItem n.toNat = some it → it.poisoned = false → (s.berth n.toNat).oldItems = 0 →
      (s.berth n.toNat).old = none → (s.berth n.toNat).waiting = [] → (s.berth n.toNat).cfg.levelOf = 0 →
      ∃ u, exec (.berthDequeue n) s = .next u.amendCheck
        ∧ u.berth n.toNat = Berth.returnCredits { s.berth n.toNat with
            head := ((s.berth n.toNat).head + 1) % (s.berth n.toNat).cfg.capacity,
            occupancy := (s.berth n.toNat).occupancy - 1,
            freed := (s.berth n.toNat).freed + (if (s.berth n.toNat).cfg.kindOf = kindTensor then 1 else 0),
            openMarker := if (s.berth n.toNat).occupancy = 1 then false else (s.berth n.toNat).openMarker }
        ∧ (∀ k, k ≠ n.toNat → u.berth k = s.berth k) ∧ SameBytes s u ∧ SameBut [.mem, .berths, .runs] s u)
    ∧ (s.serves readyGateway →
      ∃ u, exec (.berthFlush n) s = .next u.amendCheck ∧ (u.berth n.toNat).occupancy = 0
        ∧ (u.berth n.toNat).head = (s.berth n.toNat).tail ∧ (u.berth n.toNat).waiting = []
        ∧ (u.berth n.toNat).old = none
        ∧ (u.berth n.toNat).credits = (if (s.berth n.toNat).cfg.kindOf = kindTensor then
            (s.berth n.toNat).cfg.capacity else 0)
        ∧ RaisedAt s u 0x7006 gwIndex ∧ (∀ k, k ≠ n.toNat → u.berth k = s.berth k) ∧ SameBut [.events, .berths] s u)

/-- R329: a berth in use is of one of the three kinds, one of kind 0 is unused, and any write to an unused berth is
refused. -/
def Obligations.UnusedBerthsRefuse : Prop :=
  ∀ (s : State) (n : BitVec 14) (m : BerthMsg),
    ((s.berth n.toNat).cfg.kindOf ≠ 0 → (s.berth n.toNat).cfg.kindOf = kindTensor
      ∨ (s.berth n.toNat).cfg.kindOf = kindCommand ∨ (s.berth n.toNat).cfg.kindOf = kindMarked)
    ∧ ((s.berth n.toNat).cfg.kindOf = 0 → s.berthRefuses n.toNat m = true
      ∧ (s.gatewayUp = true → m.bytes ≠ [] → (s.berthWrite none n.toNat m).1 = .refused
        ∧ ∃ t, exec (.berthWrite n m) s = .next t ∧ bit (t.berth n.toNat).status 4 = true
          ∧ (t.berth n.toNat).occupancy = (s.berth n.toNat).occupancy ∧ BerthFrame n.toNat [.events, .berths] s t))

/-- R362, R368 (Table 10.4): the states of training, each with what its end writes; in IDENT the link sends its record of
Table 10.5; EQUALISE ends in LOCK with at least three lanes left and in FAULT with fewer. A timeout goes back to
DETECT, counted, with KX_LINK_ERROR bit 4, and the sixteenth failure in a row to reach LOCK is FAULT, with event
0x6009 and SERVICE_N; a lane that failed the training is out of service (R359). R369 (Table 10.6): once the coordinate
is valid and a Manifest has committed, a link whose peer is the plan's becomes ACTIVE, with 0x6001 unless it comes
from a retrain (R371); one that the plan names in no port becomes DARK with 0x6002 and its bit of KX_EXTRA; one with
another peer, or in a port of the job another job, becomes DARK with 0x6004. -/
def Obligations.LinksTrainAndCheck : Prop :=
  (∀ (s : State) (k : BitVec 4),
    (s.linkIn k.toNat .detect = true →
      (∃ t, exec (.linkDetectProbe k true) s = .next t ∧ t.link k.toNat = { s.link k.toNat with state := .equalise }
        ∧ OtherLinks k.toNat s t ∧ SameBut [.links] s t)
      ∧ exec (.linkDetectProbe k false) s = .next s)
    ∧ (s.linkIn k.toNat .equalise = true →
      (3 ≤ (s.link k.toNat).lanes →
        ∃ t, exec (.linkEqualiseComplete k) s = .next t
          ∧ t.link k.toNat = { s.link k.toNat with state := .lock, failures := 0 }
          ∧ OtherLinks k.toNat s t ∧ SameBut [.links] s t)
      ∧ ((s.link k.toNat).lanes < 3 →
        ∃ t, exec (.linkEqualiseComplete k) s = .next t ∧ (t.link k.toNat).state = .fault
          ∧ bit (t.link k.toNat).error 2 = true ∧ bit t.hm.service 4 = true
          ∧ RaisedAt s t 0x6009 (ldIndex (k.toNat / 4)) ∧ OtherLinks k.toNat s t))
    ∧ (∀ m, s.linkIn k.toNat .lock = true →
      ∃ t, exec (.linkLockComplete k m) s = .next t
        ∧ t.link k.toNat = { s.link k.toNat with state := .rtt, laneMap := m }
        ∧ OtherLinks k.toNat s t ∧ SameBut [.links, .hmAux, .events, .i3c, .mem, .berths] s t)
    ∧ (∀ rtt : Word, s.linkIn k.toNat .rtt = true →
      ∃ t, exec (.linkRttComplete k rtt) s = .next t
        ∧ t.link k.toNat = { s.link k.toNat with
            state := .ident, rtt := rtt, rttOver := decide (6144 < rtt.toNat), identSent := s.identityRecord k.toNat }
        ∧ OtherLinks k.toNat s t ∧ SameBut [.links] s t)
    ∧ (∀ b : Bytes, s.linkIn k.toNat .ident = true → b.length = 48 →
      ∃ t, exec (.linkIdentReceived k b) s = .next t
        ∧ t.link k.toNat = { s.link k.toNat with
            state := .check,
            peerCoord := BitVec.ofNat 32 (leAt b 0 2 + leAt b 4 2 * 65536),
            peerId := BitVec.ofNat 64 (leAt b 8 8), peerJob := BitVec.ofNat 64 (leAt b 16 8) }
        ∧ OtherLinks k.toNat s t ∧ SameBut [.links] s t)
    ∧ (s.linkUp k.toNat = true → (s.link k.toNat).state.limited = true →
      (∀ n : Nat, n = (s.link k.toNat).failures + b2n (decide ((s.link k.toNat).state = .equalise)) →
        (n < 16 →
          (∃ t, exec (.linkTrainingTimeout k []) s = .next t
            ∧ t.link k.toNat = { (s.link k.toNat).detect s.hm.linkMedium k.toNat n with
                error := setBit (s.link k.toNat).error 4 }
            ∧ t.linkCtr k.toNat = { s.linkCtr k.toNat with retrains := satAdd (s.linkCtr k.toNat).retrains 1 }
            ∧ (∀ j, j ≠ k.toNat → t.link j = s.link j ∧ t.linkCtr j = s.linkCtr j)
            ∧ SameBut [.links, .linkCtrs] s t)
          ∧ (∀ (tx : Bool) (lane : BitVec 3), lane.toNat < 4 → (s.link k.toNat).bad tx = [] →
            ∃ t, exec (.linkTrainingTimeout k [(tx, lane)]) s = .next t ∧ (t.link k.toNat).state = .detect
              ∧ (t.link k.toNat).bad tx = [lane] ∧ bit (t.link k.toNat).error 0 = true
              ∧ bit t.hm.service 4 = true ∧ RaisedAt s t 0x6007 (ldIndex (k.toNat / 4)) ∧ OtherLinks k.toNat s t
              ∧ SameBut [.hm, .events, .i3c, .mem, .berths, .links, .linkCtrs] s t))
        ∧ (16 ≤ n →
          ∃ t, exec (.linkTrainingTimeout k []) s = .next t ∧ (t.link k.toNat).state = .fault
            ∧ bit (t.link k.toNat).error 2 = true ∧ bit t.hm.service 4 = true
            ∧ RaisedAt s t 0x6009 (ldIndex (k.toNat / 4)) ∧ OtherLinks k.toNat s t))))
  ∧ (∀ (s : State) (k : BitVec 4), s.linkIn k.toNat .check = true → s.boardCoord?.isSome = true → s.mf.active = true →
    (s.portOf k.toNat = none →
      ∃ t, exec (.linkCheck k) s = .next t ∧ (t.link k.toNat).state = .dark ∧ bit t.kx.extra k.toNat = true
        ∧ RaisedAt s t 0x6002 (ldIndex (k.toNat / 4)) ∧ OtherLinks k.toNat s t
        ∧ SameBut [.events, .i3c, .mem, .berths, .links, .kx, .parts, .runs] s t)
    ∧ (∀ r, s.portOf k.toNat = some r →
      (bits (s.link k.toNat).peerCoord 15 0 ≠ r.peerCoord
          ∨ (r.role = 0 ∧ (s.link k.toNat).peerJob.toNat ≠ r.peerJob) →
        ∃ t, exec (.linkCheck k) s = .next t ∧ (t.link k.toNat).state = .dark
          ∧ bit (t.link k.toNat).error 3 = true ∧ RaisedAt s t 0x6004 (ldIndex (k.toNat / 4)) ∧ OtherLinks k.toNat s t
          ∧ SameBut [.sec, .ptDies, .events, .i3c, .mem, .berths, .links, .kx, .gw, .gwAux, .parts, .runs] s t)
      ∧ (bits (s.link k.toNat).peerCoord 15 0 = r.peerCoord →
        (r.role = 0 → (s.link k.toNat).peerJob.toNat = r.peerJob) →
        ∃ t, exec (.linkCheck k) s = .next t ∧ (t.link k.toNat).state = .active
          ∧ (t.link k.toNat).retraining = false
          ∧ ((s.link k.toNat).retraining = false → RaisedAt s t 0x6001 (ldIndex (k.toNat / 4)))
          ∧ OtherLinks k.toNat s t
          ∧ SameBut [.sec, .ptDies, .events, .i3c, .mem, .berths, .links, .kx, .gw, .gwAux, .parts, .runs] s t)))

/-- R368, R371 (Table 10.11): ENABLE of a FAULT link makes it DARK and of a DARK one trains it, from DETECT, with the
medium that the board states (R362); DISABLE makes a link DARK; RETRAIN, and a loss of lock, take an ACTIVE link to
LOCK, counted. R370: a port with no link ACTIVE at its deadline is missing, with 0x6003, and discovery waits, with
0x6005; R369: one of which some links are ACTIVE raises 0x6008; a link that still retrains retrains no more (R371).
R371: the wait ends with PROCEED, with HALT, or at its expiry with the default of the DISCOVERY section, and with
0x6006. -/
def Obligations.LinksAndDiscovery : Prop :=
  (∀ (s : State) (k : BitVec 4),
    (s.serves (readyLink (k.toNat / 4)) →
      ((s.link k.toNat).state = .fault →
        ∃ t, exec (.enable k) s = .next t ∧ t.link k.toNat = { s.link k.toNat with state := .dark }
          ∧ OtherLinks k.toNat s t ∧ SameBut [.links] s t)
      ∧ ((s.link k.toNat).state = .dark →
        ∃ t, exec (.enable k) s = .next t ∧ t.link k.toNat = (s.link k.toNat).detect s.hm.linkMedium k.toNat 0
          ∧ OtherLinks k.toNat s t ∧ SameBut [.links] s t)
      ∧ (∃ t, exec (.disable k) s = .next t
          ∧ t.link k.toNat = { s.link k.toNat with state := .dark, retraining := false }
          ∧ OtherLinks k.toNat s t ∧ SameBut ([.ptDies, .links, .kx, .parts, .runs] ++ sendFields) s t)
      ∧ ((s.link k.toNat).state = .active →
        ∃ t, exec (.retrain k) s = .next t
          ∧ t.link k.toNat = { s.link k.toNat with state := .lock, retraining := true }
          ∧ t.linkCtr k.toNat = { s.linkCtr k.toNat with retrains := satAdd (s.linkCtr k.toNat).retrains 1 }
          ∧ (∀ j, j ≠ k.toNat → t.link j = s.link j ∧ t.linkCtr j = s.linkCtr j) ∧ SameBut [.links, .linkCtrs] s t))
    ∧ (s.linkUp k.toNat = true → (s.link k.toNat).state = .active →
      ∃ t, exec (.linkLossOfLock k) s = .next t
        ∧ t.link k.toNat = { s.link k.toNat with state := .lock, retraining := true }
        ∧ t.linkCtr k.toNat = { s.linkCtr k.toNat with retrains := satAdd (s.linkCtr k.toNat).retrains 1 }
        ∧ (∀ j, j ≠ k.toNat → t.link j = s.link j ∧ t.linkCtr j = s.linkCtr j) ∧ SameBut [.links, .linkCtrs] s t))
  ∧ (∀ s : State,
    (∀ (port : BitVec 4) (r : PortRec), s.mfAux.dev.ports.find? (fun r => decide (r.port = port.toNat)) = some r →
      (s.activeLinks r = [] → r.width ≠ 0 → s.kx.missingDims.contains r.dimension = false → s.kx.disc ≠ .waiting →
        ∃ t, exec (.portMissingDeadline port) s = .next t ∧ t.kx.missing = s.kx.missing ||| r.mask
          ∧ t.kx.missingDims = s.kx.missingDims ++ [r.dimension] ∧ t.kx.disc = .waiting
          ∧ t.kx.waitLeft = BitVec.ofNat 32 s.mfAux.dev.discovery.waitMs ∧ RaisedAt s t 0x6003 (ldIndex 0)
          ∧ RaisedAt s t 0x6005 (ldIndex 0) ∧ (∀ k, k ∈ r.links → (t.link k).retraining = false)
          ∧ SameBut [.events, .links, .kx] s t)
      ∧ (s.activeLinks r ≠ [] → (s.activeLinks r).length ≠ r.width →
        ∃ t, exec (.portMissingDeadline port) s = .next t ∧ RaisedAt s t 0x6008 (ldIndex 0)
          ∧ (∀ k, k ∈ r.links → (t.link k).retraining = false) ∧ SameBut [.events, .links] s t))
    ∧ (s.kx.disc = .waiting →
      (∃ t, exec .discoveryWaitExpiry s = .next t
        ∧ t.kx.disc = (if s.mfAux.dev.discovery.missingDefault = 1 then .degraded else .halted)
        ∧ t.kx.byDefault = true ∧ t.kx.waitLeft = 0 ∧ RaisedAt s t 0x6006 (ldIndex 0)
        ∧ SameBut ([.ptDies, .mf, .mfAux, .kx, .parts, .runs, .jr] ++ sendFields) s t)
      ∧ (s.serves (readyLink 0) →
        (∃ t, exec .proceed s = .next t ∧ t.kx = { s.kx with disc := .degraded, byDefault := false, waitLeft := 0 }
          ∧ RaisedAt s t 0x6006 (ldIndex 0)
          ∧ SameBut ([.ptDies, .kx, .parts, .runs] ++ sendFields) s t)
        ∧ (∃ t, exec .discoveryHalt s = .next t ∧ t.kx.disc = .halted ∧ t.kx.byDefault = false ∧ t.kx.waitLeft = 0
          ∧ RaisedAt s t 0x6006 (ldIndex 0)
          ∧ (∀ p, p ∈ s.heldParts → (s.part p).state = .running → (s.seq p).phase = .none →
              (s.seq p).pendingHalt = none → (t.part p).state = .halted ∧ (t.part p).cause = 12)
          ∧ SameBut [.events, .i3c, .mf, .mfAux, .mem, .berths, .kx, .parts, .runs, .jr] s t))))

/-- R363: a good flit is counted and its header gives back what it acknowledges and the credits it returns; one that fails
its CRC is counted and replayed, and the kept flits from one that the peer asks for are sent again; the third replay
of it that fails is a lasting fault of a receive lane in service (R359). Corrected symbols are counted, and a lane
above the rate has a lasting fault, so that the direction's spare comes in and the link retrains. R364, R370, R374,
R378, R380: a packet for elsewhere goes to the egress of the port that its hop gives, in its virtual channel, by way
of a compute die where that port is of another link die; R377: one that nothing routes is discarded and counted, with
0x6010. One for this device reaches its unit, and one of another job's is discarded. R373: a packet of this device
gets its physical destination and its header, and then goes as any other. R380: among what a port may send, VC 0 and
VC 5 are served first, then transit class 0. -/
def Obligations.FlitsAndPackets : Prop :=
  (∀ (s : State) (k : BitVec 4),
    (∀ f : FlitRx, s.linkIn k.toNat .active = true →
      (f.crcOk = true → f.replayed = false →
        ∃ t, exec (.flitReceive k f) s = .next t
          ∧ t.linkCtr k.toNat = { s.linkCtr k.toNat with rxFlits := (s.linkCtr k.toNat).rxFlits + 1, replayRun := 0 }
          ∧ t.link k.toNat = (s.link k.toNat).takeHeader f
          ∧ (∀ n, f.replay = some n →
              (t.link k.toNat).resend = (t.link k.toNat).kept.filter (fun x => decide (n ≤ x.seq)))
          ∧ (∀ j, j ≠ k.toNat → t.link j = s.link j ∧ t.linkCtr j = s.linkCtr j) ∧ SameBut [.links, .linkCtrs] s t)
      ∧ (f.crcOk = true → f.replayed = true →
        ∃ t, exec (.flitReceive k f) s = .next t
          ∧ (t.linkCtr k.toNat).faultTransient = satAdd (s.linkCtr k.toNat).faultTransient 1
          ∧ (t.linkCtr k.toNat).rxFlits = (s.linkCtr k.toNat).rxFlits + 1
          ∧ RaisedAt s t 0x600B (ldIndex (k.toNat / 4)) ∧ OtherLinks k.toNat s t)
      ∧ (f.crcOk = false → (f.replayed = true → (s.linkCtr k.toNat).replayRun < 2) →
        ∃ t, exec (.flitReceive k f) s = .next t
          ∧ t.linkCtr k.toNat = { s.linkCtr k.toNat with
              rxFlits := (s.linkCtr k.toNat).rxFlits + 1, crcErrors := satAdd (s.linkCtr k.toNat).crcErrors 1,
              replays := satAdd (s.linkCtr k.toNat).replays 1,
              replayRun := if f.replayed then (s.linkCtr k.toNat).replayRun + 1 else 0 }
          ∧ OtherLinks k.toNat s t ∧ SameBut [.linkCtrs] s t)
      ∧ (f.crcOk = false → f.replayed = true → 2 ≤ (s.linkCtr k.toNat).replayRun →
        lanesServing (s.link k.toNat).badRx ≠ [] →
        ∃ t, exec (.flitReceive k f) s = .next t
          ∧ (∃ n, n ∈ lanesServing (s.link k.toNat).badRx
              ∧ (t.link k.toNat).badRx = (s.link k.toNat).badRx ++ [BitVec.ofNat 3 n])
          ∧ bit (t.link k.toNat).error 0 = true ∧ (t.linkCtr k.toNat).replayRun = 0 ∧ OtherLinks k.toNat s t))
    ∧ (∀ (lane : BitVec 3) (n : Word), s.linkUp k.toNat = true →
      (∃ t, exec (.fecRateWindow k lane n false) s = .next t
        ∧ t.linkCtr k.toNat = { s.linkCtr k.toNat with
            fecCorrected := satAdd (s.linkCtr k.toNat).fecCorrected n.toNat }
        ∧ OtherLinks k.toNat s t ∧ SameBut [.linkCtrs] s t)
      ∧ (lane.toNat < 4 → (s.link k.toNat).badRx = [] → (s.link k.toNat).state.locked = true →
        ∃ t, exec (.fecRateWindow k lane n true) s = .next t
          ∧ (t.link k.toNat).badRx = [lane] ∧ (t.link k.toNat).badTx = (s.link k.toNat).badTx
          ∧ (t.link k.toNat).spareUsed = true
          ∧ (t.link k.toNat).state = .lock ∧ bit (t.link k.toNat).error 0 = true ∧ bit t.hm.service 4 = true
          ∧ RaisedAt s t 0x6007 (ldIndex (k.toNat / 4)) ∧ OtherLinks k.toNat s t
          ∧ SameBut [.hm, .events, .i3c, .mem, .berths, .links, .linkCtrs] s t)))
  ∧ (∀ (s : State) (pkt : Packet), packetFits pkt = true →
    (∀ (ingress : Option (BitVec 4)) (ns : Word), pkt.dst.toNat ≠ s.coord →
      (∀ (h : Hop) (out : Packet), s.nextHop pkt (ingress.map BitVec.toNat) = some h →
        out = { pkt with vc := egressVc (s.ownTraffic pkt) (h.2.1 || (pkt.detour || h.2.2)) pkt,
                         detour := pkt.detour || h.2.2 } →
        ∃ t, exec (.packetForward pkt ingress ns) s = .next t
          ∧ ((((ingress.map BitVec.toNat).bind s.portNo).any (fun r => r.apart h.1)) = false →
            t.kx.egress = s.kx.egress ++ [(BitVec.ofNat 4 h.1.port, out)] ∧ t.kx.relay = s.kx.relay)
          ∧ ((((ingress.map BitVec.toNat).bind s.portNo).any (fun r => r.apart h.1)) = true →
            t.kx.relay = s.kx.relay ++ [(BitVec.ofNat 4 h.1.port, out)] ∧ t.kx.egress = s.kx.egress)
          ∧ SameBut [.events, .i3c, .mf, .mfAux, .mem, .berths, .links, .linkCtrs, .kx] s t)
      ∧ (s.nextHop pkt (ingress.map BitVec.toNat) = none →
        ∃ t, exec (.packetForward pkt ingress ns) s = .next t ∧ t.kx.noRoute = satAdd s.kx.noRoute 1
          ∧ t.kx.egress = s.kx.egress ∧ RaisedAt s t 0x6010 (ldIndex 0)
          ∧ SameBut [.events, .i3c, .mf, .mfAux, .mem, .berths, .kx, .parts, .runs, .jr] s t))
    ∧ (∀ (ingress : Option (BitVec 4)) (ns : Word), pkt.dst.toNat = s.coord →
      (s.ownTraffic pkt = true → pkt.kind ≠ 6 →
        ∃ t, exec (.packetForward pkt ingress ns) s = .next t ∧ t.kx = { s.kx with delivered := s.kx.delivered ++ [pkt] }
          ∧ SameBut [.kx] s t)
      ∧ (s.ownTraffic pkt = false →
        ∃ t, exec (.packetForward pkt ingress ns) s = .next t ∧ t.kx = { s.kx with noRoute := satAdd s.kx.noRoute 1 }
          ∧ RaisedAt s t 0x6010 (ldIndex 0) ∧ SameBut [.events, .kx] s t))
    ∧ (∀ (p : BitVec 6) (c : PartCfg), s.cfg? p.toNat = some c →
      exec (.packetInject p pkt) s = .next (s.forward
        { pkt with dst := BitVec.ofNat 16 (physicalOf c.remaps pkt.dst.toNat), src := BitVec.ofNat 16 s.coord,
                   jobTag := BitVec.ofNat 16 (bits s.mf.jobId 15 0), detour := false, tag := s.stampTag p.toNat }
        none 0 [p.toNat]))
    ∧ (∀ (turn : Turn) (r : TrafficRec) (can : List Packet) (cost : Packet → Nat), pkt ∈ can → serviceClass pkt ≤ 1 →
      ∃ y, pickPacket turn r can cost = some (y, turn) ∧ serviceClass y ≤ serviceClass pkt))

/-- R383 (Table 10.10): a member's operand joins a class-0 operation, element by element, by maximum, OR or exact sum;
with the last operand of its group the operation is done and its result stands. An own operand goes on to the group.
(The tide exchange of R474 is apart.) -/
def Obligations.Class0Operations : Prop :=
  ∀ (s : State) (key : RedKey) (m : Half) (v : Bytes) (g : Group), s.groupOf key = some g → g.sum = false →
    s.isTide key v = false → g.has m = true → (s.red key).isExcused m = false → (s.red key).phase ≠ .done →
    ((s.red key).added.filter (fun x => decide (x.1 = m))).length < g.perDevice →
    v ≠ [] → v.length % class0Size g.op = 0 → ((s.red key).added ≠ [] → v.length = (s.red key).class0.length) →
    ∃ t r, exec (.class0Operation key m v) s = .next t ∧ t.red key = r
      ∧ (g.op ≠ 6 → r.class0 = (if (s.red key).added = [] then v else class0Combine g.op (s.red key).class0 v))
      ∧ (g.op = 6 → r.wide = (if (s.red key).added = [] then (chunks 16 v).map wideElem
            else ((s.red key).wide.zip ((chunks 16 v).map wideElem)).map (fun ab => ab.1.bind (fun a => ab.2.map (a + ·))))
          ∧ r.class0 = r.wide.flatMap wideBytes)
      ∧ r.added = (s.red key).added
          ++ [(m, BitVec.ofNat 3 ((s.red key).added.filter (fun x => decide (x.1 = m))).length)]
      ∧ r.excused = (s.red key).excused
      ∧ (g.allIn (s.red key) r.added = true → r.phase = .done ∧ r.result = r.class0)
      ∧ (g.allIn (s.red key) r.added = false → r.phase = (s.red key).phase ∧ SameBut [.reds, .jr] s t)
      ∧ (m.toNat ≠ s.me key.part.toNat → t.jr = s.jr)
      ∧ (m.toNat = s.me key.part.toNat → Sent1 key.part.toNat (.class0 key.group key.step key.shard v) s t)
      ∧ SameBut [.reds, .runs, .jr] s t

/-- R384 (phase 1): the block scales of a contribution are collected, and the close of the phase gives each block its
largest. R384, R385 (phase 2): a contribution is aligned and added exactly, and so is a partial of other devices with
its flags; an own contribution that leaves in the first exchange goes to the neighbour as it came, and in a later
exchange what has been gathered goes on as a partial. R386: the owner of the shard rounds once, and the partition goes
on. R387, R442: an excusal of a member that is not ready is applied once, counted and reported with 0x600E, and its
scales of phase 1 are left out. The device that it names goes on without its contribution: by drop, counted and with
event 0x400C, or by late fold, with its contribution pending. -/
def Obligations.ReductionsAndExcusals : Prop :=
  (∀ (s : State) (key : RedKey) (g : Group), s.groupOf key = some g → g.sum = true →
    ((s.red key).phase = .scale →
      (∀ (m : Half) (i : BitVec 3) (b : Bytes), g.has m = true → i.toNat < g.perDevice →
        (s.red key).isExcused m = false → b.length = g.blocks →
        (s.red key).scales.any (fun x => decide (x.1 = m) && decide (x.2.1 = i)) = false →
        ∃ t, exec (.reductionScaleReceive key m i b) s = .next t
          ∧ t.red key = { s.red key with scales := (s.red key).scales ++ [(m, i, b)] } ∧ SameBut [.reds, .jr] s t
          ∧ (m.toNat ≠ s.me key.part.toNat → t.jr = s.jr)
          ∧ (m.toNat = s.me key.part.toNat →
              Sent1 key.part.toNat (.reductionScale key.group key.step key.shard i b) s t))
      ∧ (g.allIn (s.red key) ((s.red key).scales.map (fun x => (x.1, x.2.1))) = true →
        ∃ t, exec (.reductionScalePhaseClose key) s = .next t
          ∧ (s.exchange key g = none → (t.red key).phase = .add)
          ∧ (t.red key).scales = (s.red key).scales
          ∧ (t.red key).sb = (List.range g.blocks).map (fun b =>
              BitVec.ofNat 8 (blockMax ((s.red key).scales.map (fun x => (x.2.2.getD b 0).toNat))))
          ∧ (t.red key).sums = List.replicate g.shardElems 0 ∧ SameBut [.reds, .jr] s t))
    ∧ ((s.red key).phase = .add →
      (∀ (m : Half) (i : BitVec 3) (scales elems : Bytes), g.has m = true → i.toNat < g.perDevice →
        (s.red key).isExcused m = false → (s.red key).added.contains (m, i) = false → scales.length = g.blocks →
        elems.length = g.shardElems * (if g.op = 2 then 1 else 2) →
        (s.leavesRaw key g m = none →
          ∃ t x, exec (.reductionContributionReceive key (.contribution m i scales elems)) s = .next t
            ∧ ((List.range g.blocks).foldl ((s.red key).addBlock (decide (g.op = 2)) scales elems) (s.red key, 0)).1 = x
            ∧ (t.red key).sums = x.sums ∧ (t.red key).blockInvalid = x.blockInvalid
            ∧ (t.red key).blockInexact = x.blockInexact ∧ (t.red key).added = (s.red key).added ++ [(m, i)]
            ∧ (s.exchange key g = none → (t.red key).phase = .add ∧ t.jr = s.jr)
            ∧ (∀ d, s.exchange key g = some d → g.first d = false →
                g.inOf (t.red key) (g.gathered (s.me key.part.toNat) d) = true →
                (t.red key).phase = .done ∧ Sent1 key.part.toNat
                  (.partialSum key.group key.step key.shard (BitVec.ofNat 16 (s.me key.part.toNat ^^^ 2 ^ d))
                    (((t.red key).added.filter (fun y => decide (y.2 = 0))).map (·.1)) x.sums x.flagBytes) s t)
            ∧ SameBut [.kx, .reds, .jr] s t)
        ∧ (∀ d, s.leavesRaw key g m = some d →
          ∃ t, exec (.reductionContributionReceive key (.contribution m i scales elems)) s = .next t
            ∧ (t.red key).sums = (s.red key).sums ∧ (t.red key).added = (s.red key).added ++ [(m, i)]
            ∧ Sent1 key.part.toNat (.contribution key.group key.step key.shard (m ^^^ BitVec.ofNat 16 (2 ^ d)) i
                scales elems) s t
            ∧ SameBut [.reds, .jr] s t))
      ∧ (∀ (ms : List Half) (sums : List (BitVec 48)) (flags : Bytes), ms ≠ [] → ms.all (fun m => g.has m) = true →
        ms.all (fun m => (List.range g.perDevice).all (fun i =>
          !(s.red key).added.contains (m, BitVec.ofNat 3 i))) = true →
        sums.length = g.shardElems → flags.length = g.blocks →
        ∃ t, exec (.reductionContributionReceive key (.partialSum ms sums flags)) s = .next t
          ∧ (t.red key).sums = ((s.red key).sums.zip sums).map (fun ab => ab.1 + ab.2)
          ∧ (t.red key).blockInvalid = ((s.red key).blockInvalid.zip flags).map (fun bf => bf.1 || bit bf.2 0)
          ∧ (s.exchange key g = none → (t.red key).phase = .add ∧ t.jr = s.jr) ∧ SameBut [.reds, .jr] s t)
      ∧ (g.owner key.shard.toNat = s.me key.part.toNat → g.allIn (s.red key) (s.red key).added = true →
        ∃ t, exec (.reductionRound key) s = .next t ∧ (t.red key).phase = .done
          ∧ (t.red key).result
              = ((List.range g.blocks).map ((s.red key).roundBlock (decide (g.op = 2)))).map (fun x => BitVec.ofNat 8 x.1)
                ++ ((List.range g.blocks).map ((s.red key).roundBlock (decide (g.op = 2)))).flatMap
                  (fun x => x.2.flatMap (natLe (if g.op = 2 then 1 else 2)))
          ∧ (t.seq key.part.toNat).reduced.contains key.group = true
          ∧ OtherParts key.part.toNat s t ∧ SameBut [.events, .kx, .reds, .runs, .jr] s t)))
  ∧ (∀ (s : State) (key : RedKey) (m : Half) (action : Byte) (engine : Half) (g : Group), s.groupOf key = some g →
    g.has m = true → (s.red key).isExcused m = false → (s.red key).phase ≠ .done →
    (m.toNat = s.me key.part.toNat → (s.seq key.part.toNat).ownReady.contains key.group = false) →
    (s.seq key.part.toNat).ready.any
      (fun x => decide (x.1 = key.step) && decide (x.2.1 = key.group) && decide (x.2.2 = m)) = false →
    ∃ t, exec (.excusalReceive key m action engine) s = .next t
      ∧ (t.red key).excused = (s.red key).excused ++ [(m, action)]
      ∧ ((s.red key).phase = .scale → ∀ x, x ∈ (t.red key).scales → x.1 ≠ m)
      ∧ t.kx.redExcused = satAdd s.kx.redExcused 1 ∧ RaisedAt s t 0x600E (ldIndex 0)
      ∧ (m.toNat = s.me key.part.toNat → key.step = (s.part key.part.toNat).step →
          (s.seq key.part.toNat).excused.any (fun x => decide (x.1 = key.group) && decide (x.2.1 = m)) = false →
          (action ≠ 0 → (t.part key.part.toNat).latePending = true)
          ∧ (action = 0 → (t.part key.part.toNat).drops = satAdd (s.part key.part.toNat).drops 1 ∧ Logged s t 0x400C))
      ∧ OtherParts key.part.toNat s t
      ∧ SameBut [.events, .i3c, .mf, .mfAux, .clusters, .mem, .memAux, .berths, .kx, .reds, .parts, .runs, .jr] s t)

/-- R390, R397: training brings the port up with event 0x5001 (in network recovery it asks for its file, R504); its loss
or GW_CONTROL takes it down with 0x5002 and closes every session. R394: a priority paused for 100 ms is stuck, with
0x5003. R406: a session that nothing comes for is closed, with 0x5006. R395, R418: GW_PRIO_CFG and the ETS shares take
what is written, and the shares are applied when those of the classes that use ETS sum to 100. -/
def Obligations.EthernetPort : Prop :=
  (∀ s : State,
    (∀ phy : Byte, s.ethUsable = true → s.gw.ethUp = false →
      ∃ t, exec (.ethLinkUp phy) s = .next t ∧ t.gw.ethUp = true ∧ t.gw.anDone = true
        ∧ RaisedAt s t 0x5001 gwIndex ∧ SameBut (.hmAux :: sendFields) s t
        ∧ (s.boot.phase ≠ .recovery → t.gw = { s.gw with ethUp := true, anDone := true }
          ∧ SameBut [.hmAux, .events, .i3c, .mem, .berths, .gw] s t))
    ∧ (∀ cause : Byte, s.gw.ethUp = true →
      ∃ t, exec (.ethLinkDown cause) s = .next t ∧ t.gw.ethUp = false ∧ t.gw.anDone = false
        ∧ (∀ n, (t.session n).isOpen = false) ∧ bit t.gw.error 0 = true ∧ t.gwAux.txHeld = []
        ∧ RaisedAt s t 0x5002 gwIndex ∧ SameBut [.events, .mf, .gw, .gwAux] s t)
    ∧ (s.serves readyGateway → s.gw.ethUp = true →
      ∃ t, exec .ethRetrain s = .next t ∧ t.gw.ethUp = false ∧ (∀ n, (t.session n).isOpen = false)
        ∧ RaisedAt s t 0x5002 gwIndex ∧ SameBut [.events, .mf, .gw, .gwAux] s t)
    ∧ (∀ prio : BitVec 3, (s.prio prio.toNat).paused = true → (s.prio prio.toNat).stuck = false →
      ∃ t, exec (.pfcStuck prio) s = .next t ∧ t.prio prio.toNat = { s.prio prio.toNat with stuck := true }
        ∧ bit t.gw.error 1 = true ∧ RaisedAt s t 0x5003 gwIndex ∧ SameBut [.events, .gw] s t)
    ∧ (∀ n : BitVec 6, (s.session n.toNat).isOpen = true →
      ∃ t, exec (.sessionTimeout n) s = .next t ∧ t.session n.toNat = Session.closed
        ∧ (∀ k, k ≠ n.toNat → t.session k = s.session k) ∧ t.mf.incoming = s.mf.incoming
        ∧ (s.mf.owner = some n → t.mf.owner = none) ∧ RaisedAt s t 0x5006 gwIndex ∧ SameBut [.events, .mf, .gw] s t))
  ∧ (∀ (s : State) (v : Word), s.serves readyGateway →
    (∃ t, exec (.prioCfgWrite v) s = .next t ∧ t.gw.prioCfg = v &&& 0x01FFFFFF ∧ t.gw.etsLo = s.gw.etsLo
      ∧ t.gw.etsHi = s.gw.etsHi ∧ t.gw.prioInForce = s.gw.prioInForce ∧ SameBut [.gw] s t)
    ∧ ∀ hi : Bool, ∃ t, exec (.etsShareWrite hi v) s = .next t
      ∧ t.gw.etsLo = (if hi then s.gw.etsLo else v) ∧ t.gw.etsHi = (if hi then v else s.gw.etsHi)
      ∧ t.gw.prioCfg = s.gw.prioCfg
      ∧ (((List.range 8).filter (fun c => !bit t.gw.prioCfg (8 + c))).foldl
            (fun n c => n + etsShare t.gw.etsLo t.gw.etsHi c) 0 = 100 →
          t.gw.etsLoApplied = t.gw.etsLo ∧ t.gw.etsHiApplied = t.gw.etsHi)
      ∧ (((List.range 8).filter (fun c => !bit t.gw.prioCfg (8 + c))).foldl
            (fun n c => n + etsShare t.gw.etsLo t.gw.etsHi c) 0 ≠ 100 →
          t.gw.etsLoApplied = s.gw.etsLoApplied ∧ t.gw.etsHiApplied = s.gw.etsHiApplied)
      ∧ SameBut [.gw] s t)

/-- R391 to R396: a frame too short or too long is counted; one for another address is not taken; a pause is obeyed for a
priority whose PFC bit is set; a plain frame of a peer whose frames are secured is dropped, counted, and sets GW_ERROR
bit 2; a pass-through frame enters the berth of GW_PASS_CFG. -/
def Obligations.FramesReceived : Prop :=
  ∀ (s : State) (f : Bytes), s.gw.ethUp = true → s.ready readyEth = true →
    (∀ x : MacsecRx, (f.length < 60 ∨ 9212 < f.length) →
      ∃ t, exec (.frameReceive f x) s = .next t
        ∧ t.gwAux = { s.gwAux with fcsErrors := satAdd s.gwAux.fcsErrors 1 } ∧ SameBut [.gwAux] s t)
    ∧ (∀ x : MacsecRx, 60 ≤ f.length → f.length ≤ 9212 → forUs f = false →
      ∃ t, exec (.frameReceive f x) s = .next t
        ∧ t.gwAux = { s.gwAux with rxFrames := s.gwAux.rxFrames + 1 } ∧ SameBut [.gw, .gwAux] s t)
    ∧ (∀ p, 60 ≤ f.length → f.length ≤ 9212 → etherType f ≠ etMacControl → forUs f = true →
      s.peerOf (slice f 6 6) = some p → p.2.secured = true →
      ∃ t, exec (.frameReceive f .plain) s = .next t ∧ t.gwAux.macsecDrops = satAdd s.gwAux.macsecDrops 1
        ∧ t.gwAux.rxFrames = s.gwAux.rxFrames + 1 ∧ bit t.gw.error 2 = true ∧ SameBut [.gw, .gwAux] s t)
    ∧ (∀ (x : MacsecRx) (p : Nat), 60 ≤ f.length → f.length ≤ 9212 → forUs f = true → etherType f = etMacControl →
      beAt (frameBody f) 0 2 = 0x0101 → p < 8 → (beAt (frameBody f) 2 2).testBit p = true → bit s.gw.prioInForce p = true →
      (p = rxPriority f → bit s.gw.prioCfg p = true) →
      ∃ t, exec (.frameReceive f x) s = .next t
        ∧ (t.prio p).paused = decide (beAt (frameBody f) (4 + 2 * p) 2 ≠ 0)
        ∧ t.gwAux.pfcRxPause = satAdd s.gwAux.pfcRxPause 1 ∧ SameBut [.gw, .gwAux] s t)
    ∧ (60 ≤ f.length → f.length ≤ 9212 → forUs f = true → s.peerOf (slice f 6 6) = none →
      etherType f = etLldp → bit s.gw.passCfg 14 = true → bit s.gw.prioCfg (rxPriority f) = false →
      (s.prio (rxPriority f)).xoff = false →
      (s.berth (bits s.gw.passCfg 13 0)).cfg.levelOf = 0 →
      s.berthRefuses (bits s.gw.passCfg 13 0) (BerthMsg.mk 0 (BitVec.ofNat 16 idCct) 8
        (s.berthStep (bits s.gw.passCfg 13 0)) f) = false →
      (s.berth (bits s.gw.passCfg 13 0)).cfg.kindOf = kindMarked →
      (s.berth (bits s.gw.passCfg 13 0)).drops? f = false →
      slotsNeeded (s.berth (bits s.gw.passCfg 13 0)).cfg f = 1 →
      ∃ t, exec (.frameReceive f .plain) s = .next t
        ∧ (t.berth (bits s.gw.passCfg 13 0)).occupancy = (s.berth (bits s.gw.passCfg 13 0)).occupancy + 1
        ∧ t.gwAux.rxFrames = s.gwAux.rxFrames + 1 ∧ t.gw.passDrops = s.gw.passDrops
        ∧ SameBut [.free, .mem, .berths, .gw, .gwAux] s t)

/-- R406, R407, R510: an OPEN that is admitted opens the lowest free session; one that is not is counted, answered 0x0A
and raises 0x1006; CLOSE closes the session, KEEPALIVE keeps it, and each is answered; a request of a session that is
not open is answered 0x02. R407: a repeated request is answered from what is kept and not run again; one that comes
early is held, and runs after the one it waits for. -/
def Obligations.SessionsAndOrder : Prop :=
  (∀ (s : State) (seq : Word),
    (∀ pl : Bytes, s.hears false = true → pl.length ≤ 8192 →
      (∀ n, s.openReason pl = 0 → s.freeSession = some n →
        ∃ t, exec (.cctOpen seq pl) s = .next t ∧ Answered t 0x01 0xFFFF seq 0 (natLe 2 n)
          ∧ t.session n = { isOpen := true, slot := BitVec.ofNat 8 (leAt pl 0 1), nextSeq := seq + 1, held := [],
                            responses := [] }
          ∧ (∀ k, k ≠ n → t.session k = s.session k) ∧ RaisedAt s t 0x5005 gwIndex
          ∧ t.sec.hostKeys = s.sec.hostKeys ∧ SameBut sendFields s t)
      ∧ (s.openReason pl ≠ 0 →
        ∃ t, exec (.cctOpen seq pl) s = .next t ∧ Answered t 0x01 0xFFFF seq 0x0A []
          ∧ t.sec.authFails = satAdd s.sec.authFails 1 ∧ (∀ k, t.session k = s.session k) ∧ Reports s t 0x1006
          ∧ SameBut sendFields s t))
    ∧ (∀ sess : Half, s.turn sess seq →
      (∃ t, exec (.cctClose sess seq) s = .next t ∧ Answered t 0x02 sess seq 0 []
        ∧ t.session sess.toNat = Session.closed ∧ (∀ k, k ≠ sess.toNat → t.session k = s.session k)
        ∧ t.mf.incoming = s.mf.incoming ∧ SameBut (.mf :: sendFields) s t)
      ∧ (∃ t, exec (.cctKeepalive sess seq) s = .next t ∧ Answered t 0x03 sess seq 0 []
        ∧ (t.session sess.toNat).isOpen = true ∧ (t.session sess.toNat).nextSeq = seq + 1
        ∧ (∀ k, k ≠ sess.toNat → t.session k = s.session k) ∧ SameBut sendFields s t
        ∧ (s.sec.peers = [] → SameBut [.gw, .gwAux] s t)))
    ∧ (∀ sess : Half, s.hears false = true → (64 ≤ sess.toNat ∨ (s.session sess.toNat).isOpen = false) →
      ∃ t, exec (.cctKeepalive sess seq) s = .next t ∧ Answered t 0x03 sess seq 0x02 [] ∧ (∀ k, t.session k = s.session k)
        ∧ SameBut sendFields s t))
  ∧ (∀ (s : State) (sess : Half) (seq : Word), s.hears false = true → sess.toNat < 64 →
    (s.session sess.toNat).isOpen = true →
    (∀ y, seq = (s.session sess.toNat).nextSeq - 1 →
      (s.session sess.toNat).responses.find? (fun y => decide (y.seq = seq)) = some y →
      ∃ t, exec (.cctKeepalive sess seq) s = .next t ∧ t.gwAux.sent.getLast? = some y
        ∧ t.session sess.toNat = s.session sess.toNat ∧ SameBut sendFields s t)
    ∧ (seq = (s.session sess.toNat).nextSeq + 1 → (s.session sess.toNat).held = [] →
      ∃ t, exec (.cctKeepalive sess seq) s = .next t
        ∧ (t.session sess.toNat).held.map (fun h => (h.opcode, h.seq)) = [(0x03, seq)]
        ∧ (t.session sess.toNat).nextSeq = (s.session sess.toNat).nextSeq ∧ t.gwAux.sent = s.gwAux.sent
        ∧ SameBut [.gw, .gwAux] s t)
    ∧ (∀ h : CctReq, (s.session sess.toNat).held = [h] → h.mrp = false → h.opcode = 0x03 → h.payload = [] →
      h.seq = (s.session sess.toNat).nextSeq + 1 → seq = (s.session sess.toNat).nextSeq →
      ∃ t, exec (.cctKeepalive sess seq) s = .next t ∧ (t.session sess.toNat).nextSeq = seq + 2
        ∧ (t.session sess.toNat).held = [] ∧ t.gwAux.sent.length = s.gwAux.sent.length + 2
        ∧ SameBut sendFields s t))

/-- R393, R408: BERTH_PUT writes its bytes to the berth, and is answered 0x06 where they are not taken; BERTH_TAKE takes
the oldest items of a berth whose oldest item is for the session, and is answered 0x07 where there are none;
FRAME_SEND sends a frame. -/
def Obligations.BerthAndFrameCommands : Prop :=
  ∀ (s : State) (sess : Half) (seq : Word), s.turn sess seq →
    (∀ (n : BitVec 14) (cls : Byte) (b : Bytes), cls.toNat ≤ 8 → b ≠ [] → b.length ≤ 8188 →
      ∃ t, exec (.berthPut sess seq n cls b) s = .next t
        ∧ Answered t 0x20 sess seq (if (s.heard.berthWrite none n.toNat (BerthMsg.mk 0
            (BitVec.ofNat 16 (idSession sess.toNat)) cls (s.berthStep n.toNat) b)).1 = .accepted then 0 else 0x06) []
        ∧ (s.quietPort → t.berths = (s.heard.berthWrite none n.toNat (BerthMsg.mk 0
            (BitVec.ofNat 16 (idSession sess.toNat)) cls (s.berthStep n.toNat) b)).2.berths)
        ∧ SameBut (.clusters :: sendFields) s t)
    ∧ (∀ (n : BitVec 14) (k : Half), (s.berth n.toNat).front.kindOf ≠ 0 →
      (s.berth n.toNat).front.consumerId = idSession sess.toNat →
      ((s.berth n.toNat).occupancy = 0 →
        ∃ t, exec (.berthTake sess seq n k) s = .next t ∧ Answered t 0x21 sess seq 0x07 [] ∧ SameBut sendFields s t)
      ∧ ((s.berth n.toNat).occupancy ≠ 0 →
        ∃ t, exec (.berthTake sess seq n k) s = .next t
          ∧ Answered t 0x21 sess seq 0 (State.takeItems n.toNat (min k.toNat 256) cctMax s.heard).1
          ∧ (s.quietPort →
            t.berths = (State.takeItems n.toNat (min k.toNat 256) cctMax s.heard).2.amendCheck.berths)
          ∧ SameBut ([.mf, .mfAux, .clusters, .memAux, .kx, .parts, .runs, .jr] ++ sendFields) s t))
    ∧ (∀ f : Bytes, 60 ≤ f.length → f.length ≤ 8192 → s.peerOf (f.take 6) = none →
      beAt f 12 2 ≠ etVlan → (s.prio 0).paused = false →
      ∃ t, exec (.frameSend sess seq f) s = .next t ∧ Answered t 0x22 sess seq 0 []
        ∧ ((0 : BitVec 3), f) ∈ t.gwAux.tx ∧ SameBut sendFields s t
        ∧ (s.gwAux.txHeld = [] → ∃ rest, t.gwAux.tx = s.gwAux.tx ++ ((0 : BitVec 3), f) :: rest))

/-- R398: QP_CONNECT gives a queue pair that is free its peer, and answers the local QPN and the start PSN (free values,
log entry 9); QP_DISCONNECT frees it; a pair that is ready is answered 0x09, and a path MTU other than 4,096 bytes
0x01 (R17; its code 5 is the model's, log entry 102). R410: the operations of a register protocol request run in
order, and reads return what they read; a session of a device without an owner writes nothing. -/
def Obligations.QueuePairsAndRegisterRequests : Prop :=
  ∀ (s : State) (sess : Half) (seq : Word),
    (s.turn sess seq →
      (∀ (qp : Half) (mtu : Byte) (rq psn : Word) (gid : BitVec 128), qp.toNat < 1024 →
        (mtu.toNat = 5 → (s.qp qp.toNat).state ≠ .ready →
          ∃ t x y, exec (.qpConnect sess seq qp mtu rq psn gid) s = .next t
            ∧ Answered t 0x40 sess seq 0 (natLe 4 x ++ natLe 4 y) ∧ x < 2 ^ 24 ∧ y < 2 ^ 24
            ∧ t.qp qp.toNat = { state := .ready, mtu := mtu, remoteQpn := rq, startPsn := psn, gid := gid, localQpn := x,
                                nextPsn := y }
            ∧ (∀ q, q ≠ qp.toNat → t.qp q = s.qp q) ∧ SameBut (.free :: sendFields) s t)
        ∧ (mtu.toNat = 5 → (s.qp qp.toNat).state = .ready →
          ∃ t, exec (.qpConnect sess seq qp mtu rq psn gid) s = .next t ∧ Answered t 0x40 sess seq 0x09 []
            ∧ (∀ q, t.qp q = s.qp q) ∧ SameBut sendFields s t)
        ∧ (mtu.toNat ≠ 5 →
          ∃ t, exec (.qpConnect sess seq qp mtu rq psn gid) s = .next t ∧ Answered t 0x40 sess seq 0x01 []
            ∧ (∀ q, t.qp q = s.qp q) ∧ SameBut sendFields s t)
        ∧ (∃ t, exec (.qpDisconnect sess seq qp) s = .next t ∧ Answered t 0x41 sess seq 0 []
            ∧ t.qp qp.toNat = Qp.none ∧ (∀ q, q ≠ qp.toNat → t.qp q = s.qp q) ∧ SameBut sendFields s t)))
    ∧ (∀ ops : List MrpOp, s.hears true = true → sess.toNat < 64 → (s.session sess.toNat).isOpen = true →
      (s.session sess.toNat).nextSeq = seq → (s.session sess.toNat).held = [] → s.hmAux.restarting = false →
      ops ≠ [] → ops.length ≤ 64 →
      ((∀ x ∈ ops, x.write = false) ∨ s.readsOnly sess.toNat = false →
        ∃ t, exec (.mrpRequest sess seq ops) s = .next t
          ∧ Answered t 0x80 sess seq 0 (State.mrpRun ops s.heard).1)
      ∧ ((∃ x ∈ ops, x.write = true) → s.readsOnly sess.toNat = true →
        ∃ t, exec (.mrpRequest sess seq ops) s = .next t ∧ Answered t 0x80 sess seq 0x0A []
          ∧ SameBut sendFields s t))

/-- R398, R402, R404: a READ's data lands where the step program says for its part of the record, its bytes are counted,
and once every part of the record has landed its sample is no longer waited for; a read that fails takes its queue
pair to the error state, with GW_ERROR [3] and 0x5007; a micro-batch that is late drops the partition's reads, sets
GW_ERROR.fetch_timeout, raises 0x5009 and halts the partition at slack water with cause 5. R279: the record lands
outside the hold tier, which the Gateway reaches for nothing else than the Manifest store and snapshots. -/
def Obligations.RecordsLandOrHalt : Prop :=
  ∀ (s : State) (p : BitVec 6),
    (∀ (step : DWord) (j : Nat) (r : FetchRead),
      s.gw.reads.find? (fun r => decide (r.part.toNat = p.toNat) && decide (r.step = step) && decide (r.sample = j))
        = some r →
      (∀ g pos x f sp a (b : Bytes), s.program? p.toNat = some g → s.readSource r = some (pos, x) →
        (s.seq p.toNat).fetches.find? (fun f => decide (f.step = r.step) && decide (f.mb = r.mb)) = some f →
        g.landing f.region j = some (sp, a) → sp ≠ .hold →
        s.mayAccess p.toNat false sp .write (a + r.piece * pieceBytes) b.length = true →
        b.length = pieceLen x.recordBytes r.piece →
        ∃ t, exec (.rdmaReadComplete p step j (.data b)) s = .next t
          ∧ (s.quietPort → t.bytes sp (a + r.piece * pieceBytes) b.length = b
            ∧ SameBytesOutside sp (a + r.piece * pieceBytes) b.length s t)
          ∧ t.gwAux.fetchBytes = s.gwAux.fetchBytes + BitVec.ofNat 64 b.length
          ∧ (g.readsOf r.step.toNat r.sample
              ≤ ((s.log p.toNat).pieces.filter (fun x => decide (x.1 = step) && decide (x.2.1 = j))).length + 1 →
            ∀ f ∈ (t.seq p.toNat).fetches, f.step = step → f.mb = r.mb → j ∉ f.left)
          ∧ SameBut (.runs :: sendFields) s t)
      ∧ (∀ y : Byte, ∃ t, exec (.rdmaReadComplete p step j (.error y)) s = .next t ∧ (t.qp r.qp).state = .error
          ∧ bit t.gw.error 3 = true ∧ RaisedAt s t 0x5007 gwIndex ∧ (s.quietPort → SameBytes s t)
          ∧ SameBut (.runs :: sendFields) s t))
    ∧ (∀ g mb f, (s.seq p.toNat).waitsData = some mb → s.program? p.toNat = some g →
      (s.seq p.toNat).fetches.find? (fun f => decide (f.step = (s.part p.toNat).step) && decide (f.mb = mb)) = some f →
      (s.part p.toNat).state.live = true → (s.part p.toNat).state ≠ .halted → (s.seq p.toNat).pendingHalt = none →
      (s.seq p.toNat).phase ≠ .none →
      ∃ t, exec (.fetchTimeout p) s = .next t ∧ (t.seq p.toNat).fetches = [] ∧ (t.seq p.toNat).waitsData = none
        ∧ (∀ r ∈ t.gw.reads, r.part.toNat ≠ p.toNat) ∧ bit t.gw.error 4 = true ∧ RaisedAt s t 0x5009 gwIndex
        ∧ (t.seq p.toNat).pendingHalt = some (5, BitVec.ofNat 8 (s.haltMode p.toNat))
        ∧ (s.mf.amendState ≠ .committing → s.mf.amendState ≠ .retiring → SameBytes s t)
        ∧ SameBut [.events, .i3c, .mf, .mfAux, .mem, .berths, .kx, .gw, .runs, .jr] s t)

/-- R412, R414 to R416: the link of the snapshot port comes up with its rate and width, and below plan it raises 0x500B
and asks for service; RETRAIN takes it down; a command that ends leaves its drive and counts the blocks that it
writes, one that is late is aborted and issued once more, and then resets the drive; a drive that works again is
ready, with its queue pairs, one that does not has failed, with 0x500A; with no drive working every running partition
halts with cause 6, with 0x500C. -/
def Obligations.SnapshotPort : Prop :=
  ∀ (s : State) (d : BitVec 1),
    (∀ (rate : BitVec 2) (width : BitVec 4),
      ∃ t, exec (.snapshotLinkUp rate width) s = .next t ∧ t.gw.pcieUp = true ∧ t.gw.pcieRate = rate
        ∧ t.gw.pcieWidth = width ∧ t.gw.bifurcated = bit s.hm.straps 0 ∧ RaisedAt s t 0x500D gwIndex
        ∧ ((rate = 0 ∨ width.toNat < 8) → bit t.gw.error 7 = true ∧ bit t.hm.service 6 = true
            ∧ RaisedAt s t 0x500B gwIndex)
        ∧ SameBut [.hm, .hmAux, .events, .i3c, .mem, .berths, .gw] s t)
    ∧ (s.serves readyGateway →
      ∃ t, exec .pcieRetrain s = .next t
        ∧ t = { s with gw := { s.gw with pcieUp := false, pcieRate := 0, pcieWidth := 0 } })
    ∧ (s.serves readyGateway → (s.drive d.toNat).state ≠ .absent →
      ∃ t, exec (.driveReset d) s = .next t ∧ (t.drive d.toNat).state = .resetting ∧ (t.drive d.toNat).cmds = []
        ∧ ((∀ c ∈ (s.drive d.toNat).cmds, c.logbook = true) → SameBut [.gw] s t)
        ∧ SameBut [.gw, .parts, .runs] s t)
    ∧ (∀ cid c, (s.drive d.toNat).cmds.find? (fun c => decide (c.cid = cid)) = some c →
      ((∀ q, (s.seq q).phase ≠ .slack 4) → c.retried = false →
        ∃ t, exec (.nvmeCommandComplete d cid) s = .next t
          ∧ (t.drive d.toNat).cmds = (s.drive d.toNat).cmds.filter (fun y => decide (y.cid ≠ cid))
          ∧ t.gwAux.nvmeWritten = s.gwAux.nvmeWritten + BitVec.ofNat 64 c.written
          ∧ SameBut [.gw, .gwAux] s t)
      ∧ ((∀ q, (s.seq q).phase ≠ .slack 4) → c.retried = true →
        ∃ t, exec (.nvmeCommandComplete d cid) s = .next t ∧ t.gwAux.nvmeRetries = satAdd s.gwAux.nvmeRetries 1
          ∧ t.gwAux.faultTransient = satAdd s.gwAux.faultTransient 1 ∧ RaisedAt s t 0x500E gwIndex)
      ∧ (c.retried = false →
        ∃ t, exec (.nvmeCommandTimeout d cid) s = .next t
          ∧ (t.drive d.toNat).cmds
              = (s.drive d.toNat).cmds.map (fun y => if y.cid = cid then { y with retried := true } else y)
          ∧ (t.drive d.toNat).admin = (s.drive d.toNat).admin ++ [.abort cid] ∧ SameBut [.gw] s t)
      ∧ (c.retried = true → (s.drive d.toNat).state ≠ .absent →
        ∃ t, exec (.nvmeCommandTimeout d cid) s = .next t ∧ (t.drive d.toNat).state = .resetting
          ∧ (t.drive d.toNat).cmds = [] ∧ (c.logbook = true → bit t.jr.error 0 = true)
          ∧ SameBut [.gw, .parts, .runs, .jr] s t))
    ∧ (∀ blocks, (s.drive d.toNat).state ≠ .ready → s.gw.pcieUp = true →
      ∃ t, exec (.driveReady d blocks) s = .next t ∧ (t.drive d.toNat).state = .ready
        ∧ (t.drive d.toNat).blocks = blocks ∧ (t.drive d.toNat).queues = queuePairs
        ∧ (t.drive d.toNat).admin = setupCommands ∧ SameBut [.hm, .events, .i3c, .mem, .berths, .gw] s t)
    ∧ ((s.drive d.toNat).state = .resetting →
      ∃ t, exec (.driveReadyTimeout d) s = .next t ∧ (t.drive d.toNat).state = .failed ∧ (t.drive d.toNat).cmds = []
        ∧ bit t.gw.error 5 = true ∧ bit t.hm.service 6 = true ∧ RaisedAt s t 0x500A gwIndex
        ∧ SameBut [.hm, .events, .i3c, .mem, .berths, .gw, .parts, .runs] s t)
    ∧ (∀ q, s.working = [] → q ∈ s.parts.map (·.1) → (s.part q).state = .running → (s.seq q).phase = .none →
      (s.seq q).pendingHalt = none →
      ∃ t, exec .logbookDriveTimeout s = .next t ∧ (t.part q).state = .halted ∧ (t.part q).cause = 6
        ∧ bit t.gw.error 6 = true ∧ RaisedAt s t 0x500C gwIndex
        ∧ SameBut [.events, .i3c, .mf, .mfAux, .mem, .berths, .kx, .gw, .parts, .runs, .jr] s t)

/-- R402, R420 (Table 12.3), R268: at its place the sequencer runs LOOP, ENDLOOP, FETCH, WAIT and END: a loop is entered
and left after its count, a micro-batch's fetch starts, one notice is taken or awaited, and BODY ends, once the parts
of the apply pass that were put off are made up for: the first that may go on does, and else END waits. Nothing else
of any partition's running state changes but what a fetch reads. An instruction that may not run changes nothing more
than the begin of its step. -/
def Obligations.BodyLoopsFetchesAndWaits : Prop :=
  ∀ (s b : State) (p : BitVec 6) (i : BodyIns),
    (s.bodyRuns p.toNat 1 i b →
      ∃ t, exec (.loop p) s = .next t
        ∧ OnlySeq p.toNat { b.seq p.toNat with
            pc := (b.seq p.toNat).pc + 1,
            loops := { start := (b.seq p.toNat).pc + 1, index := 0,
                       count := if i.a = 0 then ((b.program? p.toNat).map (·.control.microBatches)).getD 1 else i.a }
              :: (b.seq p.toNat).loops } b t
        ∧ SameBut [.runs] b t)
    ∧ (s.bodyRuns p.toNat 2 i b →
      (∀ f rest, (b.seq p.toNat).loops = f :: rest → f.index + 1 < f.count →
        ∃ t, exec (.endloop p) s = .next t
          ∧ OnlySeq p.toNat { b.seq p.toNat with pc := f.start, loops := { f with index := f.index + 1 } :: rest } b t
          ∧ SameBut [.runs] b t)
      ∧ (∀ f rest, (b.seq p.toNat).loops = f :: rest → f.count ≤ f.index + 1 →
        ∃ t, exec (.endloop p) s = .next t
          ∧ OnlySeq p.toNat { b.seq p.toNat with pc := (b.seq p.toNat).pc + 1, loops := rest } b t
          ∧ SameBut [.runs] b t)
      ∧ ((b.seq p.toNat).loops = [] →
        ∃ t, exec (.endloop p) s = .next t
          ∧ OnlySeq p.toNat { b.seq p.toNat with pc := (b.seq p.toNat).pc + 1 } b t ∧ SameBut [.runs] b t))
    ∧ (∀ g, s.bodyRuns p.toNat 3 i b → b.program? p.toNat = some g →
      (∀ m step mb, m = (b.seq p.toNat).index + i.a →
        step = (b.part p.toNat).step + BitVec.ofNat 64 (m / max 1 g.control.microBatches) →
        mb = m % max 1 g.control.microBatches →
        ∃ t, exec (.fetch p) s = .next t ∧ (t.seq p.toNat).pc = (b.pastIns p.toNat).pc
          ∧ ((∀ f ∈ (b.seq p.toNat).fetches, ¬ (f.step = step ∧ f.mb = mb)) →
            ∃ f ∈ (t.seq p.toNat).fetches, f.step = step ∧ f.mb = mb ∧ f.region = i.b ∧ f.left = g.samplesOf mb)
          ∧ ((∃ f ∈ (b.seq p.toNat).fetches, f.step = step ∧ f.mb = mb) →
            OnlySeq p.toNat (b.pastIns p.toNat) b t ∧ SameBut [.runs] b t)
          ∧ SameBut (.runs :: sendFields) b t))
    ∧ (s.bodyRuns p.toNat 5 i b →
      ((i.a, i.b) ∈ (b.seq p.toNat).notices →
        ∃ t, exec (.wait p) s = .next t
          ∧ OnlySeq p.toNat { b.pastIns p.toNat with notices := (b.seq p.toNat).notices.erase (i.a, i.b) } b t
          ∧ SameBut [.runs] b t)
      ∧ ((i.a, i.b) ∉ (b.seq p.toNat).notices → exec (.wait p) s = .next b))
    ∧ (s.bodyRuns p.toNat 9 i b →
      ((b.seq p.toNat).putOff = [] →
        ∃ t, exec (.endStep p) s = .next t
          ∧ OnlySeq p.toNat { b.seq p.toNat with phase := .ended, reported := none } b t
          ∧ SameBut [.free, .ptAux, .runs] b t)
      ∧ ((b.seq p.toNat).putOff ≠ [] →
        (∀ b1, b.resumePart p.toNat (b.seq p.toNat).putOff = (none, b1) → exec (.endStep p) s = .next b1)
        ∧ (∀ x b1, b.resumePart p.toNat (b.seq p.toNat).putOff = (some x, b1) →
          ∃ t, exec (.endStep p) s = .next t
            ∧ OnlySeq p.toNat { b1.seq p.toNat with
                pc := x.1, partEnd := some x.2, putOff := (b1.seq p.toNat).putOff.erase x } b1 t
            ∧ SameBut [.runs] b1 t)))
    ∧ ((s.tryBegin p.toNat).bodyAt p.toNat 1 = none → exec (.loop p) s = .next (s.tryBegin p.toNat))

/-- R195, R442 (Table 12.3): REDUCE sends ready for its group and goes on, passes over a group whose contribution is out
or excused, waits while descriptors of an excused step are not done, and else adds that step's sums in once and
records them as folded; VERDICT sends the device's two flags. -/
def Obligations.BodyReduceAndVerdict : Prop :=
  ∀ (s b : State) (p : BitVec 6) (i : BodyIns),
    (s.bodyRuns p.toNat 6 i b → ∀ g : Half, g = BitVec.ofNat 16 i.a →
      (((b.seq p.toNat).reduced.contains g = true ∨ (b.seq p.toNat).ownReady.contains g = true
          ∨ (b.seq p.toNat).excused.any (fun x => decide (x.1 = g)
              && decide (x.2.1 = BitVec.ofNat 16 (b.me p.toNat))) = true) →
        ∃ t, exec (.reduce p) s = .next t ∧ OnlySeq p.toNat (b.pastIns p.toNat) b t ∧ SameBut [.runs] b t)
      ∧ ((b.seq p.toNat).reduced.contains g = false → (b.seq p.toNat).ownReady.contains g = false →
        (b.seq p.toNat).excused.any (fun x => decide (x.1 = g) && decide (x.2.1 = BitVec.ofNat 16 (b.me p.toNat)))
          = false →
        (((b.log p.toNat).lateOrigin = none ∨ (b.log p.toNat).lateOrigin = some (b.part p.toNat).step
            ∨ (b.seq p.toNat).lateAdded = true) →
          ∃ t, exec (.reduce p) s = .next t
            ∧ OnlySeq p.toNat { b.pastIns p.toNat with
                ownReady := (b.seq p.toNat).ownReady ++ [g],
                readyAt := (b.seq p.toNat).readyAt ++ [(g, b.hm.time)] } b t
            ∧ Sent1 p.toNat (.ready g (b.part p.toNat).step) b t ∧ SameBut [.runs, .jr] b t)
        ∧ (∀ o c, (b.log p.toNat).lateOrigin = some o → b.cfg? p.toNat = some c → o ≠ (b.part p.toNat).step →
          (b.seq p.toNat).lateAdded = false →
          ((b.seq p.toNat).posted.any (fun x => decide (x.step = o)) = true → exec (.reduce p) s = .next b)
          ∧ ((b.seq p.toNat).posted.any (fun x => decide (x.step = o)) = false →
            (∀ b1, State.lateAdds p.toNat c o (b.lateImages p.toNat) b = (false, b1) →
              ∃ t, exec (.reduce p) s = .next t ∧ (t.part p.toNat).rewinds = satAdd (b1.part p.toNat).rewinds 1)
            ∧ (∀ b1, State.lateAdds p.toNat c o (b.lateImages p.toNat) b = (true, b1) →
              ∃ t, exec (.reduce p) s = .next t ∧ (t.seq p.toNat).lateAdded = true
                ∧ (t.seq p.toNat).pc = (b1.pastIns p.toNat).pc
                ∧ g ∈ (t.seq p.toNat).ownReady
                ∧ Sent1 p.toNat (.ready g (b.part p.toNat).step) b t
                ∧ ((b.part p.toNat).latePending = true → (t.part p.toNat).latePending = false
                  ∧ (t.part p.toNat).lateFolds = satAdd (b.part p.toNat).lateFolds 1
                  ∧ ((b.log p.toNat).lateGroups ≠ [] → Logged b1 t 0x400B))
                ∧ SameBut [.events, .i3c, .mem, .berths, .parts, .runs, .jr] b1 t)))))
    ∧ (∀ c, s.bodyRuns p.toNat 8 i b → b.cfg? p.toNat = some c →
      ∃ t, exec (.verdict p) s = .next t
        ∧ OnlySeq p.toNat { b.pastIns p.toNat with
            verdictSent := true, spikeNotRun := ((b.det p.toNat).spike c.policy.spikeRatio).isNone } b t
        ∧ Sent1 p.toNat (.verdict (b.part p.toNat).step (decide ((b.det p.toNat).count ≠ 0))
            (((b.det p.toNat).spike c.policy.spikeRatio).getD false)) b t
        ∧ SameBut [.runs, .jr] b t)

/-- R148, R256, R268 (Table 12.3): POST waits for its micro-batch's data and for the peaks of its scopes; an image that
cannot be read is a local fault, and the step rewinds; else, while no late contribution waits, its images go into the
berth in their order and it goes on, tiles once the stashed versions that they read are staged; in a part of the apply
pass whose blocks may not be written yet it puts the part off or waits. A single image of a program without weight
blocks enters as it is written. R192: LOSS takes the total that the job agrees on: NaN where it is invalid, this
device's own result where it is its own; a record that cannot be read leaves the loss free, and one in a locked row is
waited for (R322). -/
def Obligations.BodyPostAndLoss : Prop :=
  ∀ (s b : State) (p : BitVec 6) (i : BodyIns),
    (∀ g, s.bodyRuns p.toNat 4 i b → b.program? p.toNat = some g →
      ((b.seq p.toNat).loops ≠ [] → (b.seq p.toNat).fetching (b.part p.toNat).step (b.seq p.toNat).index = true →
        ∃ t, exec (.post p) s = .next t
          ∧ OnlySeq p.toNat { b.seq p.toNat with waitsData := some (b.seq p.toNat).index } b t ∧ SameBut [.runs] b t)
      ∧ (((b.seq p.toNat).loops = [] ∨ (b.seq p.toNat).fetching (b.part p.toNat).step (b.seq p.toNat).index = false) →
        (i.flags.testBit 0 = true → b.pairPeaks p.toNat g i.c = none → exec (.post p) s = .next b)
        ∧ (∀ pk, (if i.flags.testBit 0 then b.pairPeaks p.toNat g i.c else some (0, 0)) = some pk →
          (∀ b1, b.readImages p.toNat g (i.c % 2 ^ 32) i.b = (none, b1) →
            ∃ t, exec (.post p) s = .next t
              ∧ (t.part p.toNat).rewinds = satAdd (b1.part p.toNat).rewinds 1)
          ∧ (∀ ws b1 cls, b.readImages p.toNat g (i.c % 2 ^ 32) i.b = (some ws, b1) →
            cls = postClass (b.berth i.a).cfg i.flags → (b1.log p.toNat).lateOrigin = none →
            ∀ imgs, imgs = (if i.flags.testBit 0 then ws.map (anchorImage pk) else ws) →
            (∀ b2 b3, b1.applyBlocks p.toNat (b1.postBlocks p.toNat g cls imgs) = (true, b2) →
              b3 = b2.bindOnce p.toNat (b.seq p.toNat).index →
              (cls ≠ 1 → exec (.post p) s = .next (b3.postAll p.toNat i cls (imgs.map (fun w => (w, [])))))
              ∧ (cls = 1 →
                (∀ xs b4, b3.redirectTiles p.toNat (b.seq p.toNat).index (b3.part p.toNat).step imgs = (some xs, b4) →
                  exec (.post p) s = .next (b4.postAll p.toNat i cls xs))
                ∧ (∀ b4, b3.redirectTiles p.toNat (b.seq p.toNat).index (b3.part p.toNat).step imgs = (none, b4) →
                  exec (.post p) s = .next b4)))
            ∧ (∀ b2, b1.applyBlocks p.toNat (b1.postBlocks p.toNat g cls imgs) = (false, b2) →
              (∀ x, b1.postPart p.toNat = some x → b2.mayPutOff p.toNat x = true →
                ∃ t, exec (.post p) s = .next t
                  ∧ OnlySeq p.toNat { b2.seq p.toNat with
                      pc := x.2.1, loops := [], putOff := (b2.seq p.toNat).putOff ++ [(x.1, x.2.1)] } b2 t
                  ∧ SameBut [.runs] b2 t)
              ∧ (∀ x, b1.postPart p.toNat = some x → b2.mayPutOff p.toNat x = false → exec (.post p) s = .next b2)
              ∧ (b1.postPart p.toNat = none → exec (.post p) s = .next b2)))
          ∧ (∀ ws b1, i.flags.testBit 0 = false → i.flags.testBit 2 = false → g.blocks = [] →
            (b.stash p.toNat).bound = [] →
            (b.log p.toNat).lateOrigin = none → (b.seq p.toNat).boundMbs.contains (b.seq p.toNat).index = true →
            b.readImages p.toNat g (i.c % 2 ^ 32) i.b = (some [ws], b1) →
            ∃ t, exec (.post p) s = .next t ∧ (t.seq p.toNat).pc = (b1.pastIns p.toNat).pc
              ∧ t.berths = (b1.berthWrite none i.a (BerthMsg.mk 0 (BitVec.ofNat 16 idSequencer)
                  (BitVec.ofNat 8 (postClass (b.berth i.a).cfg i.flags)) (b1.part p.toNat).step
                  (ws.flatMap (wordLe 4)))).2.berths
              ∧ SameBut [.events, .clusters, .mem, .berths, .runs] b1 t))))
    ∧ (∀ (total : BitVec 128), s.bodyRuns p.toNat 7 i b →
      (spaceOf (i.c / 2 ^ 62)).any (fun sp => b.rowLocked sp (i.c % 2 ^ 62) 32) = true →
      exec (.loss p total) s = .next b)
    ∧ (∀ (total : BitVec 128) b1, s.bodyRuns p.toNat 7 i b →
      (spaceOf (i.c / 2 ^ 62)).any (fun sp => b.rowLocked sp (i.c % 2 ^ 62) 32) = false →
      (∀ own result, b.lossRecord p.toNat i.c = (some (result, own), b1) →
        ∃ t, exec (.loss p total) s = .next t ∧ (t.seq p.toNat).pc = (b1.pastIns p.toNat).pc
          ∧ (total = longInvalid → (t.det p.toNat).loss = some (f32Code .nan)
              ∧ (t.det p.toNat).count = satAdd (b1.det p.toNat).count 1 ∧ bit (t.det p.toNat).mask 6 = true)
          ∧ (total ≠ longInvalid → total = own → (t.det p.toNat).loss = some result)
          ∧ Sent1 p.toNat (.lossTotal (b1.part p.toNat).step own) b1 t ∧ SameBut [.free, .runs, .jr] b1 t)
      ∧ (b.lossRecord p.toNat i.c = (none, b1) →
        ∃ t, exec (.loss p total) s = .next t ∧ (t.seq p.toNat).pc = (b1.pastIns p.toNat).pc
          ∧ (t.det p.toNat).loss.isSome = true ∧ SameBut [.free, .runs, .jr] b1 t))

/-- R196 (Tables 5.6 and 5.7): the verdict that every device receives takes the stronger of the two actions; a step that
it halts or skips ends with its intakes empty, and a halt has cause 2 in complete mode, also over a pending halt that
would close the step; else BODY goes on. R444: more than rewind_limit rewinds in one step halt the partition with
cause 8; no fewer do, and the partition is REWINDING (R424). -/
def Obligations.VerdictsAct : Prop :=
  ((∀ c : Policy, c.verdict false false = .none
    ∧ (∀ x, c.nonfiniteAction = 0 → c.verdict true x = .halt) ∧ (∀ x, c.spikeAction = 0 → c.verdict x true = .halt)
    ∧ (c.nonfiniteAction = 1 → c.verdict true false = .skip) ∧ (c.spikeAction = 1 → c.verdict false true = .skip)
    ∧ (c.nonfiniteAction = 2 → c.verdict true false = .report))
  ∧ ∀ (s : State) (p : BitVec 6) (nf spike : Bool) (c : PartCfg), (s.seq p.toNat).verdictSent = true →
    (s.seq p.toNat).verdict = none → (s.seq p.toNat).phase = .body → s.cfg? p.toNat = some c →
    ∃ t, exec (.verdictResult p nf spike) s = .next t
      ∧ (t.seq p.toNat).verdict = some (c.policy.verdict nf spike) ∧ (t.seq p.toNat).jobNonfinite = nf
      ∧ (t.seq p.toNat).jobSpike = spike
      ∧ ((c.policy.verdict nf spike).discards = true → (t.seq p.toNat).phase = .ended
        ∧ ∀ n, (s.berth n).front.kindOf ≠ 0 → (s.berth n).front.partition = p.toNat → (s.berth n).front.intake = true →
            n < 16384 → (t.berth n).occupancy = 0)
      ∧ (c.policy.verdict nf spike = .halt → (s.part p.toNat).state.live = true → (s.part p.toNat).state ≠ .halted →
        (∀ h, (s.seq p.toNat).pendingHalt = some h → closesStep h.1.toNat h.2.toNat = true) →
        (t.seq p.toNat).pendingHalt = some (2, 2))
      ∧ ((c.policy.verdict nf spike).discards = false → (t.seq p.toNat).phase = .body)
      ∧ (∀ q, q ≠ p.toNat → t.part q = s.part q)
      ∧ SameBut [.ptDies, .events, .i3c, .mf, .mfAux, .mem, .berths, .kx, .parts, .runs, .jr] s t)
  ∧ (∀ (s : State) (p code : Nat), (s.part p).state.steps = true →
    (s.seq p).phase ≠ .none → (s.seq p).pendingHalt = none →
    ((s.rewind p code).seq p).rewindsInStep = (s.seq p).rewindsInStep + 1
    ∧ ((s.recoveryOf p).rewindLimit < (s.seq p).rewindsInStep + 1 →
      ((s.rewind p code).seq p).pendingHalt = some (8, BitVec.ofNat 8 (s.haltMode p)))
    ∧ ((s.seq p).rewindsInStep + 1 ≤ (s.recoveryOf p).rewindLimit →
      ((s.rewind p code).seq p).pendingHalt = none ∧ ((s.rewind p code).part p).state = .rewinding))

/-- R31, R194, R201, R439, R441: slack water opens when every descriptor of an ended step is done: the detection record is
formed, and where a partner is there both digests go to it and its own are awaited; it opens no sooner, nor while
management restarts. R440: the partner's digest is kept until the own is formed, then compared, and a difference is
marked. -/
def Obligations.SlackWater : Prop :=
  ∀ (s : State) (p : BitVec 6),
    (((s.seq p.toNat).phase ≠ .ended ∨ s.stepBusy p.toNat = true ∨ s.hmAux.restarting = true) →
      exec (.slackWaterOpen p) s = .next s)
    ∧ (∀ c, (s.seq p.toNat).phase = .ended → s.stepBusy p.toNat = false → s.hmAux.restarting = false →
      (s.det p.toNat).applyHalt = false → (s.seq p.toNat).cause = 0 → s.cfg? p.toNat = some c →
      (s.seq p.toNat).verdict ≠ some .skip →
      ∃ t, exec (.slackWaterOpen p) s = .next t
        ∧ (t.part p.toNat).detect = detectionBytes (s.part p.toNat).step (s.seq p.toNat)
            ((s.det p.toNat).takeLoss (max 1 c.policy.spikeWindow))
        ∧ (t.part p.toNat).cadence = BitVec.ofNat 32 (if (s.part p.toNat).sharedFeed then c.recovery.cofeedEvery
            else c.recovery.snapshotEvery)
        ∧ (c.mirror.isSome = true → (s.part p.toNat).partnerLost = false → (s.log p.toNat).partnerDigest = none →
          (t.seq p.toNat).phase = .slack 2 ∧ (t.log p.toNat).ownDigest = some (s.shardDigest p.toNat)
          ∧ Sent1 p.toNat (.digest (s.part p.toNat).step (s.shardDigest p.toNat ++ s.mirrorDigest p.toNat)) s t
          ∧ ((s.det p.toNat).count ≠ 0 → RaisedAt s t 0xB010 gwIndex)
          ∧ SameBut [.events, .parts, .runs, .jr] s t))
    ∧ (∀ d : Bytes, (s.mirror? p.toNat).isSome = true → (s.part p.toNat).state.live = true →
      ((s.seq p.toNat).phase ≠ .slack 2 →
        ∃ t, exec (.partnerDigestReceive p d) s = .next t ∧ (t.log p.toNat).partnerDigest = some (padTo 48 d)
          ∧ (∀ q, q ≠ p.toNat → t.run q = s.run q) ∧ SameBut [.runs] s t)
      ∧ (∀ own, (s.seq p.toNat).phase = .slack 2 → (s.log p.toNat).ownDigest = some own → s.hmAux.restarting = false →
        ∃ t, exec (.partnerDigestReceive p d) s = .next t ∧ (t.part p.toNat).lastEqual = decide (own = padTo 48 d)
          ∧ (own ≠ padTo 48 d → (t.part p.toNat).mismatch = true)))

/-- R414, R427, R430: an entry that every working drive has completed is counted and kept; a step's entry closes its slack
water, and the next step begins, or the partition halts with its cause. R435: a snapshot written out takes its slot,
and raises 0x4006. R433: FORCE_SNAPSHOT asks for one at the next slack water. -/
def Obligations.EntriesAndSnapshots : Prop :=
  ∀ (s : State) (p : BitVec 6),
    (∀ u, (s.log p.toNat).unwritten.find? (fun u => u.cid.isSome) = some u → s.working ≠ [] →
      s.hmAux.restarting = false →
      ∃ t, exec (.logbookEntryWritten p) s = .next t ∧ t.jr.entries = s.jr.entries + 1
        ∧ (t.log p.toNat).entries = (s.log p.toNat).entries ++ [u.bytes]
        ∧ (t.log p.toNat).unwritten = (s.log p.toNat).unwritten.filter (fun x => decide (x ≠ u))
        ∧ (u.step = true → (s.seq p.toNat).phase = .slack 5 →
          (t.part p.toNat).closed = (s.part p.toNat).step
          ∧ ((s.seq p.toNat).pendingHalt = none → (s.part p.toNat).noticeAt = none →
            (t.part p.toNat).step = (s.part p.toNat).step + 1
            ∧ ((s.part p.toNat).state = .running → (s.part p.toNat).fillPending = false →
                (s.run p.toNat).held = false → s.discHeld p.toNat = false → (s.log p.toNat).restoring = none →
                (t.seq p.toNat).phase = .body ∧ (t.part p.toNat).applyPassed = false))
          ∧ (∀ n, (s.seq p.toNat).pendingHalt = none → (s.part p.toNat).noticeAt = some n →
            n ≤ (s.part p.toNat).step + 1 → (t.part p.toNat).state = .halted ∧ (t.part p.toNat).cause = 7
            ∧ (t.part p.toNat).haltMode = 1 ∧ (t.part p.toNat).step = (s.part p.toNat).step + 1)
          ∧ (∀ h, (s.seq p.toNat).pendingHalt = some h → (t.part p.toNat).state = .halted
            ∧ (t.part p.toNat).cause = h.1 ∧ (t.part p.toNat).haltMode = h.2
            ∧ (t.part p.toNat).step = (if closesStep h.1.toNat h.2.toNat ∨ h.1 = 0 then (s.part p.toNat).step + 1
                else (s.part p.toNat).step))))
    ∧ (∀ img c, (s.log p.toNat).snapImage = some (img, c) → s.working ≠ [] → s.hmAux.restarting = false →
      (s.seq p.toNat).phase ≠ .slack 4 →
      ((s.seq p.toNat).phase = .slack 5 → ∀ u ∈ (s.log p.toNat).unwritten, u.cid.isSome = true) →
      (∀ d, ∀ x ∈ (s.drive d).cmds, x.cid = c ∨ x.cid = c + 1 → x.retried = false) →
      ∃ t, exec (.snapshotWriteOutComplete p) s = .next t ∧ (t.log p.toNat).snapImage = none
        ∧ (t.log p.toNat).slots = (s.log p.toNat).slots.filter (fun x => decide (x.slot ≠ img.slot)) ++ [img]
        ∧ (t.part p.toNat).snap = img.step ∧ bit (t.part p.toNat).snapStatus 3 = img.slot
        ∧ bit (t.part p.toNat).snapStatus 1 = false ∧ Reports s t 0x4006
        ∧ SameBut [.events, .i3c, .mem, .berths, .gw, .gwAux, .parts, .runs, .jr] s t)
    ∧ (s.serves readyHm →
      ∃ t, exec (.forceSnapshot p) s = .next t
        ∧ t.part p.toNat = { s.part p.toNat with snapStatus := setBit (s.part p.toNat).snapStatus 4 }
        ∧ (∀ q, q ≠ p.toNat → t.part q = s.part q) ∧ SameBut [.parts] s t)

/-- R518: ISSUE writes the record and its signature under the attestation key to the berth that SEC_P_LADING_CFG names,
keeps its last step and raises 0x1009; a berth that does not suit and an issue that still waits set SEC_ERROR [4] and
[5]. R436: a keeper takes the first guest that fits, keeps its entries and its two newest snapshots, and refuses
another. -/
def Obligations.LadingRecordsAndKeepers : Prop :=
  (∀ (s : State) (p : BitVec 6), s.serves readySecurity →
    ((s.lading p.toNat).kept = true → s.ladingBerthOk p.toNat (bits (s.lading p.toNat).cfg 13 0) = true →
      s.ladingPending p.toNat = false →
      ∃ t, exec (.issue p) s = .next t
        ∧ (t.lading p.toNat).last = BitVec.ofNat 32 (s.ladingLast p.toNat).toNat ∧ Reports s t 0x1009
        ∧ (bit s.events.berth 14 = false →
          ∀ peer s1 body, s.partnerId p.toNat = (peer, s1) → body = s1.ladingBody p.toNat peer →
            t.berths = (s1.berthWrite none (bits (s.lading p.toNat).cfg 13 0) (BerthMsg.mk 0
              (BitVec.ofNat 16 idJournal) 8 (s.part p.toNat).step
              (body ++ ecdsaSign s.signingKey body))).2.berths)
        ∧ SameBut [.free, .events, .i3c, .mem, .berths, .runs] s t)
    ∧ ((s.lading p.toNat).kept = true → s.ladingBerthOk p.toNat (bits (s.lading p.toNat).cfg 13 0) = false →
      exec (.issue p) s = .next { s with sec := { s.sec with error := setBit s.sec.error 4 } })
    ∧ ((s.lading p.toNat).kept = true → s.ladingBerthOk p.toNat (bits (s.lading p.toNat).cfg 13 0) = true →
      s.ladingPending p.toNat = true →
      exec (.issue p) s = .next { s with sec := { s.sec with error := setBit s.sec.error 5 } }))
  ∧ (∀ (s : State) (guest : Half) (size : DWord),
    (s.jr.guest = none → s.layoutFits s.ownImages size.toNat = true →
      ∃ t, exec (.guestSizeReceive guest size) s = .next t ∧ t.jr.guest = some guest ∧ t.jr.guestSize = some size
        ∧ t.jr.label = s.jr.label.map (fun l => { l with guestBlocks := driveBlocks size.toNat l.drives })
        ∧ SameBut [.gw, .jr] s t)
    ∧ (s.jr.guest = some guest → s.fitsGuestSlot size.toNat = true → exec (.guestSizeReceive guest size) s = .next s)
    ∧ ((s.jr.guest = none → s.layoutFits s.ownImages size.toNat = false) →
      (∀ g, s.jr.guest = some g → g ≠ guest ∨ s.fitsGuestSlot size.toNat = false) →
      ∃ t, exec (.guestSizeReceive guest size) s = .next t ∧ Sent1 0 (.keeperRefusal guest) s t ∧ SameBut [.jr] s t
        ∧ t.jr.guest = s.jr.guest ∧ t.jr.guestSize = s.jr.guestSize))
  ∧ (∀ (s : State), s.jr.guest.isSome = true → s.working ≠ [] →
    (∀ b : Bytes, entryBlocks b ≤ guestRing →
      ∃ t, exec (.keeperReceive (.entry b)) s = .next t ∧ t.jr.guestEntries.getLast? = some b
        ∧ t.jr.guestImages = s.jr.guestImages ∧ SameBut [.gwAux, .jr] s t)
    ∧ (∀ (step : DWord) (img : Bytes), s.fitsGuestSlot img.length = true →
      ∃ t, exec (.keeperReceive (.snapshot step img)) s = .next t ∧ t.jr.guestSnap = step
        ∧ t.jr.guestImages.getLast? = some (step, img) ∧ t.jr.guestImages.length ≤ 2
        ∧ t.jr.guestEntries = s.jr.guestEntries ∧ SameBut [.gwAux, .jr] s t))

/-- R423, R424 (Tables 12.5 to 12.7): a job action that its partition's state admits is answered 0 with the state and the
step, and does what the table says, RESTORE with a claim on a spare where it names a lost coordinate (R449); START and
RESTORE are answered 1 from another state, 4 where the keeper refuses the size, START 5 where the partner does not
pair (both answers are free: log entry 36), and a partition of no committed Manifest 2. -/
def Obligations.JobActions : Prop :=
  ∀ (s : State) (sess : Half) (seq : Word) (p : Byte),
    (s.jobTurn sess seq p.toNat →
      (∀ g, s.ready readySnapshot = true → (s.part p.toNat).state = .idle →
        s.layoutFits s.ownImages ((s.jr.guestSize.map BitVec.toNat).getD 0) = true →
        (s.run p.toNat).restored = none → s.program? p.toNat = some g →
        ∃ t r, exec (.start sess seq p) s = .next t ∧ JobDone s t sess seq p.toNat r
          ∧ ((s.recoveryOf p.toNat).keeper = 0xFFFF → s.mirror? p.toNat = none → r = 0)
          ∧ (r = 0 → (t.part p.toNat).state = .running ∧ (t.part p.toNat).step = g.control.firstStep
            ∧ ((s.mirror? p.toNat).isSome = true → (t.part p.toNat).paired = true) ∧ t.jr.logbookReady = true
            ∧ (t.run p.toNat).restored = none ∧ Logged s t 0x4001)
          ∧ (r ≠ 0 → (t.part p.toNat).state = .idle
            ∧ ((r = 4 ∧ (s.recoveryOf p.toNat).keeper ≠ 0xFFFF) ∨ (r = 5 ∧ (s.mirror? p.toNat).isSome = true))))
      ∧ (s.ready readySnapshot = true → (s.part p.toNat).state ≠ .idle →
        ∃ t, exec (.start sess seq p) s = .next t ∧ JobDone s t sess seq p.toNat 1
          ∧ t.part p.toNat = s.part p.toNat ∧ SameBut sendFields s t)
      ∧ ((s.part p.toNat).state = .running → (s.seq p.toNat).pendingHalt = none →
        ∃ t, exec (.stop sess seq p) s = .next t ∧ JobDone s t sess seq p.toNat 0
          ∧ ((s.seq p.toNat).phase ≠ .none → (t.seq p.toNat).pendingHalt = some (1, 2)
            ∧ (t.part p.toNat).state = .running)
          ∧ ((s.seq p.toNat).phase = .none → (t.part p.toNat).state = .halted ∧ (t.part p.toNat).cause = 1))
      ∧ ((s.part p.toNat).state = .halted → [1, 2, 5, 8, 12].contains (s.part p.toNat).restartCause = true →
        (s.log p.toNat).replay = [] →
        ∃ t, exec (.retry sess seq p) s = .next t ∧ JobDone s t sess seq p.toNat 0
          ∧ (t.part p.toNat).state = .running ∧ (t.part p.toNat).cause = 0
          ∧ (t.part p.toNat).step = (s.part p.toNat).step ∧ Logged s t 0x4003)
      ∧ ((s.part p.toNat).state = .halted → [2, 5].contains (s.part p.toNat).restartCause = true →
        (s.log p.toNat).replay = [] → (s.part p.toNat).stepClosed = false →
        ∃ t, exec (.skip sess seq p) s = .next t ∧ JobDone s t sess seq p.toNat 0
          ∧ (t.part p.toNat).state = .running ∧ (t.part p.toNat).skipped = true
          ∧ (t.part p.toNat).step = (s.part p.toNat).step + 1 ∧ Logged s t 0x4003)
      ∧ ((s.part p.toNat).state = .halted → (s.log p.toNat).replay = [] →
        ((s.part p.toNat).cause = 4 →
          ∃ t, exec (.resume sess seq p) s = .next t ∧ JobDone s t sess seq p.toNat 0
            ∧ (t.part p.toNat).state = .running ∧ (t.seq p.toNat).phase = .body
            ∧ (t.seq p.toNat).pc = afterVerdict (s.bodyOf p.toNat)
            ∧ (t.part p.toNat).step = (s.part p.toNat).step ∧ Logged s t 0x4003)
        ∧ ((s.part p.toNat).cause = 6 → s.working ≠ [] →
          ∃ t, exec (.resume sess seq p) s = .next t ∧ JobDone s t sess seq p.toNat 0
            ∧ (t.part p.toNat).state = .running
            ∧ ((s.seq p.toNat).phase ≠ .none → (t.seq p.toNat).phase = (s.seq p.toNat).phase)
            ∧ ((s.seq p.toNat).phase = .none → (s.run p.toNat).held = false → s.discHeld p.toNat = false →
              (s.log p.toNat).restoring = none → (t.seq p.toNat).phase = .body)
            ∧ (t.part p.toNat).step = (s.part p.toNat).step ∧ Logged s t 0x4003))
      ∧ (∀ step arg : DWord, s.ready readySnapshot = true →
        ((s.part p.toNat).state = .idle
          ∨ ((s.part p.toNat).state = .fillWait ∧ s.keeperServes p.toNat arg = true)
          ∨ ((s.part p.toNat).state = .halted
            ∧ ((s.part p.toNat).restartCause ≠ 11 ∨ s.avoidsBad p.toNat = true))) →
        ((s.ownSnapshot p.toNat step).isSome = true ∨ s.keeperServes p.toNat arg = true) →
        ∃ t r, exec (.restore sess seq p step arg) s = .next t ∧ JobDone s t sess seq p.toNat r
          ∧ ((s.recoveryOf p.toNat).keeper = 0xFFFF → r = 0)
          ∧ (r = 0 → (t.log p.toNat).restoring = some (step, !(s.ownSnapshot p.toNat step).isSome)
            ∧ (t.seq p.toNat).phase = .none ∧ t.jr.logbookReady = true
            ∧ (s.restoreClaims p.toNat arg = false → (t.part p.toNat).state = .restoring)
            ∧ (s.restoreClaims p.toNat arg = true →
              ((t.part p.toNat).state = .restoring ∧ t.jr.fill.state = .claim ∧ t.jr.fill.restore = true
                ∧ t.jr.fill.lost = BitVec.ofNat 16 (bits arg 15 0))
              ∨ ((t.part p.toNat).state = .halted ∧ (t.part p.toNat).cause = 13 ∧ Logged s t 0x4012)))
          ∧ (r ≠ 0 → r = 4 ∧ t.part p.toNat = s.part p.toNat))
      ∧ (∀ arg : DWord, (s.part p.toNat).state = .running → s.mirror? p.toNat = none →
        (s.seq p.toNat).phase ≠ .none → (s.seq p.toNat).pendingHalt = none →
        ∃ t, exec (.declareLost sess seq p arg) s = .next t ∧ JobDone s t sess seq p.toNat 0
          ∧ SentAmong p.toNat (.loss (BitVec.ofNat 16 arg.toNat) (s.part p.toNat).step (s.lossMode p.toNat)) t
          ∧ (t.seq p.toNat).pendingHalt = some (13, BitVec.ofNat 8 (s.haltMode p.toNat))))
    ∧ (s.turn sess seq → s.hmAux.restarting = false → s.jobPart p.toNat = false →
      ∃ t, exec (.stop sess seq p) s = .next t ∧ JobDone s t sess seq p.toNat 2 ∧ SameBut sendFields s t)

/-- R426, R442 (Table 12.7): a halt notice takes effect by its mode: a step that the member has not closed is completed or
abandoned, and one that it has closed halts it where it stands, with cause 7; in the slack water before an abandoned
step it halts at the close; a coordinator notes who is ready and excuses one silent member, which it reports with
0x400A. -/
def Obligations.NoticesAndStragglers : Prop :=
  ∀ (s : State) (p : BitVec 6),
    (∀ (step : DWord) (mode cause : Byte), (s.part p.toNat).state.live = true → (s.part p.toNat).state ≠ .halted →
      (s.seq p.toNat).pendingHalt = none →
      (mode = 2 → step < (s.part p.toNat).step →
        ∃ t, exec (.haltNoticeReceive p step mode cause) s = .next t ∧ (t.part p.toNat).state = .halted
          ∧ (t.part p.toNat).cause = 7 ∧ (t.part p.toNat).haltMode = 2 ∧ (t.part p.toNat).noticeCause = cause
          ∧ (t.part p.toNat).step = (s.part p.toNat).step ∧ t.jr.sent = s.jr.sent)
      ∧ (mode = 2 → (s.part p.toNat).step ≤ step → (s.seq p.toNat).phase ≠ .none →
        ∃ t, exec (.haltNoticeReceive p step mode cause) s = .next t
          ∧ OnlySeq p.toNat { s.seq p.toNat with pendingHalt := some (7, 2) } s t
          ∧ (t.part p.toNat).noticeCause = cause ∧ SameBut [.parts, .runs] s t)
      ∧ (mode ≠ 2 → step ≤ (s.part p.toNat).step → (s.seq p.toNat).phase = .body →
        ∃ t, exec (.haltNoticeReceive p step mode cause) s = .next t
          ∧ (t.seq p.toNat).pendingHalt = some (7, 1) ∧ (t.seq p.toNat).phase = .ended
          ∧ (t.seq p.toNat).posted = [] ∧ (t.part p.toNat).noticeCause = cause ∧ t.jr.sent = s.jr.sent)
      ∧ (mode ≠ 2 → (s.part p.toNat).step < step → (s.seq p.toNat).phase ≠ .none →
        ∃ t, exec (.haltNoticeReceive p step mode cause) s = .next t
          ∧ t.part p.toNat = { s.part p.toNat with noticeCause := cause, noticeAt := some step }
          ∧ (∀ q, q ≠ p.toNat → t.part q = s.part q) ∧ SameBut [.parts] s t)
      ∧ (mode ≠ 2 → (s.seq p.toNat).phase = .none →
        ∃ t, exec (.haltNoticeReceive p step mode cause) s = .next t ∧ (t.part p.toNat).state = .halted
          ∧ (t.part p.toNat).cause = 7 ∧ (t.part p.toNat).haltMode = 1 ∧ (t.part p.toNat).noticeCause = cause))
    ∧ (∀ (g : Half) (step : DWord) (m : Half),
      (s.coordinates p.toNat g = true → (s.part p.toNat).step ≤ step →
        (s.group? p.toNat g.toNat).any (fun x => x.has m) = true → (s.seq p.toNat).ready.contains (step, g, m) = false →
        ∃ t, exec (.readyPacketReceive p g step m) s = .next t
          ∧ OnlySeq p.toNat { s.seq p.toNat with ready := (s.seq p.toNat).ready ++ [(step, g, m)] } s t
          ∧ SameBut [.runs] s t)
      ∧ ((s.coordinates p.toNat g = false ∨ step < (s.part p.toNat).step) →
        exec (.readyPacketReceive p g step m) s = .next s))
    ∧ (∀ (g m : Half), (s.recoveryOf p.toNat).stragglerUs ≠ 0 → (s.part p.toNat).state = .running →
      (s.seq p.toNat).pendingHalt = none → s.waitsFor p.toNat g = true → s.silent p.toNat g m = true →
      ∃ t, exec (.stragglerWaitExpiry p g m) s = .next t
        ∧ Sent1 p.toNat (.excusal g (s.part p.toNat).step m (BitVec.ofNat 8 (s.recoveryOf p.toNat).lateAction)) s t
        ∧ (t.seq p.toNat).excused = (s.seq p.toNat).excused ++ [(g, m, BitVec.ofNat 8 (s.recoveryOf p.toNat).lateAction)]
        ∧ (t.part p.toNat).excusals = satAdd (s.part p.toNat).excusals 1 ∧ Reports s t 0x400A
        ∧ SameBut [.events, .i3c, .mem, .berths, .parts, .runs, .jr] s t)

/-- R449: a snapshot that loads gives the detector and the stash what its image holds, its own or the one that the keeper
gives, and the partition replays the steps recorded since; with none of them it runs on at once, with 0x4014 (R450;
log entry 107); a check that fails, of the load or of the restored shard's digest, is a replay mismatch, and halts
with cause 10. A load from the keeper is in place when the command brings it (log entry 51). -/
def Obligations.RestoresLoad : Prop :=
  ∀ (s : State) (p : BitVec 6) (last step : DWord) (keeper : Bool) (guest : Option GuestImage),
    (s.part p.toNat).state = .restoring → (s.log p.toNat).restoring = some (step, keeper) →
    ∀ u, u = s.loaded p.toNat step keeper guest →
    (keeper = true → guest = none → ∀ ok, exec (.restoreLoadComplete p last ok guest) s = .next s)
    ∧ ((keeper = true → guest ≠ none) → u.shardHolds p.toNat step (u.restoreEntries p.toNat keeper guest) = true →
      ∃ t, exec (.restoreLoadComplete p last true guest) s = .next t ∧ (t.part p.toNat).closed = step
      ∧ (∀ img, keeper = false → (s.log p.toNat).slots.find? (fun i => decide (i.step = step)) = some img →
        (t.det p.toNat).mean = img.mean ∧ (t.det p.toNat).seen = img.seen ∧ (t.stash p.toNat).entries = img.stash.map StashEntry.unstaged
        ∧ (t.lading p.toNat).ranges = img.lading.ranges)
      ∧ (∀ g, keeper = true → guest = some g →
        (t.det p.toNat).mean = ((detectedAt g.entries step).getD (g.mean, g.seen)).1
        ∧ (t.det p.toNat).seen = ((detectedAt g.entries step).getD (g.mean, g.seen)).2
        ∧ (t.lading p.toNat).first = (g.lading.map (·.first)).getD (step + 1))
      ∧ ∀ rs, rs = replaySteps (u.restoreEntries p.toNat keeper guest) step last →
        (∀ r more, replayNext rs = r :: more → (t.part p.toNat).state = .replaying ∧ (t.part p.toNat).step = r.step)
        ∧ (replayNext rs = [] → (t.part p.toNat).state = .running
          ∧ (t.part p.toNat).step = (rs.getLast?.map (·.step)).getD step + 1 ∧ Logged s t 0x4014))
    ∧ (∀ ok, (keeper = true → guest ≠ none) →
      (ok = false ∨ u.shardHolds p.toNat step (u.restoreEntries p.toNat keeper guest) = false) →
      ∃ t, exec (.restoreLoadComplete p last ok guest) s = .next t ∧ (t.part p.toNat).state = .halted
        ∧ (t.part p.toNat).cause = 10 ∧ (t.part p.toNat).step = step)

/-- R445, R448: partners exchange heartbeats; a silent partner is declared lost with a loss notice and 0x400D, its place
is claimed at the first spare, and the partition waits for the fill, at once or at the close of a step whose verdict
is in; a member that falls silent, excused or not, without a partner or with one already lost, halts the job with
cause 13. -/
def Obligations.LossesAreDeclared : Prop :=
  ∀ (s : State) (p : BitVec 6),
    ((s.mirror? p.toNat).isSome = true → (s.part p.toNat).state.live = true → s.hmAux.escalated = false →
      s.lostToJob p.toNat = false → (s.part p.toNat).partnerLost = false →
      ∃ t, exec (.heartbeatTick p) s = .next t ∧ Sent1 p.toNat .heartbeat s t ∧ SameBut [.jr] s t)
    ∧ (∀ m, s.mirror? p.toNat = some m → m.partner < 65536 → (s.part p.toNat).state = .running →
      (s.part p.toNat).partnerLost = false →
      (s.part p.toNat).fillPending = false → s.jr.fill.active = false → s.jr.fill.follows = false →
      (s.seq p.toNat).phase ≠ .slack 2 →
      ∃ t, exec (.partnerLossTimeout p) s = .next t ∧ (t.part p.toNat).partnerLost = true
        ∧ SentAmong p.toNat (.loss (BitVec.ofNat 16 m.partner) (s.part p.toNat).step (s.lossMode p.toNat)) t
        ∧ Reports s t 0x400D
        ∧ (∀ r, (s.spareOrder p.toNat)[0]? = some r →
          t.jr.fill.state = .claim ∧ t.jr.fill.lost = BitVec.ofNat 16 m.partner ∧ t.jr.fill.spareRole = false
          ∧ (s.lossMode p.toNat = 1 → (t.part p.toNat).state = .fillWait)
          ∧ (s.lossMode p.toNat = 2 → (t.part p.toNat).fillPending = true ∧ (t.part p.toNat).state = .running))
        ∧ ((s.spareOrder p.toNat)[0]? = none →
          t.jr.fill.active = false ∧ Logged s t 0x4012))
    ∧ (∀ m : Half, (s.part p.toNat).state.live = true → (s.part p.toNat).state ≠ .halted →
      (∃ c g, s.cfg? p.toNat = some c ∧ g ∈ c.groups ∧ s.coordinates p.toNat (BitVec.ofNat 16 g.id) = true
        ∧ (s.seq p.toNat).ownReady.contains (BitVec.ofNat 16 g.id) = true ∧ g.has m = true ∧ m.toNat ≠ s.me p.toNat
        ∧ (s.seq p.toNat).ready.contains ((s.part p.toNat).step, BitVec.ofNat 16 g.id, m) = false) →
      (∀ x, s.mirror? p.toNat = some x → x.partner = m.toNat → (s.part p.toNat).partnerLost = true) →
      (s.seq p.toNat).phase ≠ .none → (s.seq p.toNat).pendingHalt = none →
      ∃ t, exec (.unpartneredLossTimeout p m) s = .next t
        ∧ SentAmong p.toNat (.loss m (s.part p.toNat).step (s.lossMode p.toNat)) t ∧ Reports s t 0x400D
        ∧ (t.seq p.toNat).pendingHalt = some (13, BitVec.ofNat 8 (s.haltMode p.toNat)))
    ∧ (∀ (lost : Half) (step : DWord) (mode : Byte) (m : Mirror), s.mirror? p.toNat = some m →
      m.partner ≠ lost.toNat → (s.part p.toNat).state = .running → (s.seq p.toNat).phase = .none →
      (s.part p.toNat).fillPending = false → s.jr.fill.active = false → s.jr.fill.follows = false →
      ∃ t, exec (.lossNoticeReceive p lost step mode) s = .next t ∧ (t.part p.toNat).state = .fillWait
        ∧ t.jr.fill.lost = lost ∧ t.jr.fill.part = p ∧ t.jr.fill.follows = true ∧ (t.part p.toNat).partnerLost = (s.part p.toNat).partnerLost)

/-- R446 to R448 (Table 12.14): a standby spare takes the first claim and the lost coordinate, and refuses another; the
source goes from CLAIM to ROUTE on an acceptance and to the next spare on a refusal or a timeout, to COPY when every
member knows, to REGEN on equal digests or to one more copy, and to JOIN, which ends the fill; a member that is
neither rewrites its remap entry and acknowledges; a spare at which a copy failed, or what it brought fails a check
(R447), stands by again; with no spare left, and where a second failure waits too long, recovery is escalated. -/
def Obligations.FillsRun : Prop :=
  (∀ (s : State) (c : Claim),
    ((s.part c.part.toNat).state = .standby → s.jr.fill.active = false →
      ∃ t, exec (.claimReceive c) s = .next t ∧ (t.part c.part.toNat).state = .fillWait
        ∧ SentAmong c.part.toNat (.claimAnswer c.claimant true) t
        ∧ SentAmong c.part.toNat (.remapAck c.lostLogical (BitVec.ofNat 16 s.coord)) t
        ∧ t.jr.fill.lostPhys = c.lostPhysical ∧ t.jr.fill.state = .route ∧ t.jr.fill.spareRole = true ∧ t.jr.fill.lost = c.lostLogical
        ∧ t.jr.fill.claimedBy = some c.claimant
        ∧ (t.part c.part.toNat).cfg = (s.part c.part.toNat).cfg.map (fun k =>
            { k with remaps := remapTo k.remaps c.lostLogical.toNat s.coord })
        ∧ SameBut [.events, .i3c, .mem, .berths, .parts, .runs, .jr] s t)
    ∧ (((s.part c.part.toNat).state ≠ .standby ∨ s.jr.fill.active = true) →
      ∃ t, exec (.claimReceive c) s = .next t ∧ Sent1 c.part.toNat (.claimAnswer c.claimant false) s t
        ∧ t.jr.fill = s.jr.fill ∧ SameBut [.jr] s t))
  ∧ (∀ (s : State) (p : BitVec 6),
    (s.fillIn p.toNat .claim = true → s.jr.fill.spareRole = false →
      (∃ t, exec (.claimAnswer p true) s = .next t ∧ t.jr.fill.state = .route
        ∧ SentAmong p.toNat (.remap s.jr.fill.lost (s.spareCoord p.toNat)) t ∧ Logged s t 0x400E
        ∧ (t.part p.toNat).cfg = (s.part p.toNat).cfg.map (fun k =>
            { k with remaps := remapTo k.remaps s.jr.fill.lost.toNat (s.spareCoord p.toNat).toNat })
        ∧ SameBut [.events, .i3c, .mem, .berths, .parts, .runs, .jr] s t)
      ∧ (∀ r, (s.cfg? p.toNat).isSome = true → (s.spareOrder p.toNat)[s.jr.fill.tried + 1]? = some r →
        ∃ t, exec (.claimAnswer p false) s = .next t ∧ t.jr.fill.state = .claim
          ∧ t.jr.fill.tried = s.jr.fill.tried + 1 ∧ t.jr.fill.lost = s.jr.fill.lost)
      ∧ ((s.spareOrder p.toNat)[s.jr.fill.tried + 1]? = none →
        ∃ t, exec (.claimAnswer p false) s = .next t ∧ t.jr.fill.active = false ∧ Logged s t 0x4010
          ∧ Logged s t 0x4012)
      ∧ (∀ r, (s.cfg? p.toNat).isSome = true → (s.spareOrder p.toNat)[s.jr.fill.tried + 1]? = some r →
        ∃ t, exec (.claimTimeout p) s = .next t ∧ t.jr.fill.state = .claim
          ∧ t.jr.fill.tried = s.jr.fill.tried + 1 ∧ t.jr.fill.lost = s.jr.fill.lost)
      ∧ ((s.spareOrder p.toNat)[s.jr.fill.tried + 1]? = none →
        ∃ t, exec (.claimTimeout p) s = .next t ∧ t.jr.fill.active = false ∧ Logged s t 0x4010
          ∧ Logged s t 0x4012))
    ∧ (s.fillIn p.toNat .route = true → s.jr.fill.follows = false →
      (s.jr.fill.restore = false →
        ∃ t, exec (.remapAcknowledged p) s = .next t ∧ t.jr.fill.state = .copy
          ∧ (s.jr.fill.spareRole = false → SentAmong p.toNat (.fillCopy (s.spareCoord p.toNat)) t)
          ∧ SameBut [.events, .i3c, .mem, .berths, .runs, .jr] s t)
      ∧ (s.jr.fill.restore = true →
        exec (.remapAcknowledged p) s = .next { s with jr := { s.jr with fill := Fill.zero } }))
    ∧ (s.followsIn p.toNat = true →
      ∃ t at_, exec (.remapAcknowledged p) s = .next t ∧ SentAmong p.toNat (.remapAck s.jr.fill.lost at_) t
        ∧ (t.part p.toNat).cfg = (s.part p.toNat).cfg.map (fun k =>
            { k with remaps := remapTo k.remaps s.jr.fill.lost.toNat at_.toNat })
        ∧ SameBut [.free, .events, .i3c, .mem, .berths, .parts, .runs, .jr] s t)
    ∧ (s.fillIn p.toNat .copy = true → s.jr.fill.follows = false →
      (∀ guest : Option GuestImage, s.jr.fill.spareRole = false →
        ∃ t, exec (.fillCopyComplete p true guest) s = .next t
          ∧ t.jr.fill.state = .regen ∧ t.jr.fill.progress = BitVec.ofNat 32 (s.copyMib p.toNat)
          ∧ SameBut [.events, .i3c, .mem, .berths, .runs, .jr] s t)
      ∧ (s.jr.fill.spareRole = true → exec (.fillCopyComplete p true none) s = .next s)
      ∧ (∀ (g : GuestImage) (u : State), s.jr.fill.spareRole = true →
        u = (s.modFill (fun f => { f with progress := BitVec.ofNat 32 (s.copyMib p.toNat) })).fillTo p.toNat .verify →
        ((g.active = [] ∨ u.spareChecks p.toNat g = none) →
          ∃ t, exec (.fillCopyComplete p true (some g)) s = .next t
            ∧ t.jr.fill.state = .regen ∧ t.jr.fill.progress = BitVec.ofNat 32 (s.copyMib p.toNat)
            ∧ (t.part p.toNat).closed = g.last ∧ (t.part p.toNat).step = g.last + 1
            ∧ (t.det p.toNat).mean = ((detectedAt g.entries g.last).getD (g.mean, g.seen)).1
            ∧ (t.det p.toNat).seen = ((detectedAt g.entries g.last).getD (g.mean, g.seen)).2)
        ∧ (g.active ≠ [] → u.spareChecks p.toNat g ≠ none →
          ∃ t, exec (.fillCopyComplete p true (some g)) s = .next t ∧ (t.part p.toNat).state = .standby
            ∧ t.jr.fill = Fill.zero ∧ (bit s.events.berth 14 = false → t.mem = s.mem)))
      ∧ (∀ guest : Option GuestImage, s.jr.fill.mismatches ≠ 0 → s.jr.fill.spareRole = true →
        ∃ t, exec (.fillCopyComplete p false guest) s = .next t ∧ (t.part p.toNat).state = .standby
          ∧ t.jr.fill = Fill.zero)
      ∧ (∀ guest : Option GuestImage, s.jr.fill.mismatches = 0 →
        ∃ t, exec (.fillCopyComplete p false guest) s = .next t ∧ t.jr.fill.state = .copy ∧ t.jr.fill.mismatches = 1
          ∧ t.jr.fill.progress = 0 ∧ SameBut [.events, .i3c, .mem, .berths, .runs, .jr] s t)
      ∧ (s.jr.fill.mismatches ≠ 0 → s.jr.fill.spareRole = false → (s.cfg? p.toNat).isSome = true →
        ∀ (guest : Option GuestImage) (r : PoolRec), (s.spareOrder p.toNat)[s.jr.fill.tried + 1]? = some r →
        ∃ t, exec (.fillCopyComplete p false guest) s = .next t ∧ t.jr.fill.state = .claim
          ∧ t.jr.fill.tried = s.jr.fill.tried + 1 ∧ t.jr.fill.mismatches = 0 ∧ Logged s t 0x4010))
    ∧ ((s.part p.toNat).state = .fillWait → s.jr.fill.queued = [] →
      (s.fillIn p.toNat .regen = true → s.jr.fill.spareRole = false →
        ∃ t, exec (.fillRegenComplete p) s = .next t ∧ t.jr.fill = Fill.zero ∧ (t.part p.toNat).state = .running
          ∧ (t.part p.toNat).partnerLost = false ∧ bit t.hm.service 9 = true ∧ Logged s t 0x400F
          ∧ SentAmong p.toNat (.join s.jr.fill.lost (s.spareCoord p.toNat)) t)
      ∧ (s.fillIn p.toNat .regen = true → s.jr.fill.spareRole = true →
        ∃ t, exec (.fillRegenComplete p) s = .next t ∧ t.jr.fill = Fill.zero ∧ (t.part p.toNat).state = .running
          ∧ t.jr.logbookReady = true ∧ (t.lading p.toNat).atFill = true
          ∧ (t.lading p.toNat).first = (s.part p.toNat).step)
      ∧ (s.followsIn p.toNat = true → s.jr.fill.active = false →
        ∃ t, exec (.fillRegenComplete p) s = .next t ∧ t.jr.fill = Fill.zero ∧ (t.part p.toNat).state = .running))
    ∧ (s.jr.fill.queued ≠ [] → s.jr.fill.part = p → (s.part p.toNat).state = .fillWait →
      (s.seq p.toNat).phase = .none → (s.seq p.toNat).pendingHalt = none →
      ∃ t, exec (.fillQueueExpiry p) s = .next t ∧ t.jr.fill = Fill.zero ∧ Reports s t 0x4012
        ∧ (t.part p.toNat).state = .halted ∧ (t.part p.toNat).cause = 13
        ∧ SameBut [.events, .i3c, .mem, .berths, .parts, .runs, .jr] s t))

/-- R455 to R459, R462 to R464, R466, R486, R488: the estimate is formed from the activity, and starts a burst, ends one,
or cuts: every die's clock, then its duty, then the memory; a measurement counts its energy, each partition's by its
share of the estimate; a disagreement that lasts, and a sensor fault, are reported and cleared; each millisecond moves
the ceiling and the coolant limit, and cuts where the mean lies above the ceiling; a die goes to the frequency asked
at its point's voltage. -/
def Obligations.PowerIsControlled : Prop :=
  ∀ (s : State), s.ptUp = true →
    (∀ (e : PowerEstimate) w es, w = inputOf (s.estimateOf e) →
      es = (s.pt.estimates ++ [w]).drop (s.pt.estimates.length + 1 - 1000) →
      (w ≤ s.pt.ceiling →
        ∃ t, exec (.powerEstimateTick e) s = .next t
          ∧ t.pt = { s.pt with estimatedW := w, estimates := es, burst := false }
          ∧ SameBut [.free, .pt, .ptAux, .ptDies] s t)
      ∧ (s.pt.ceiling < w → s.pt.burst = false →
        (∀ u, s.pt.burstSince = some u → u.toNat + burstGap ≤ s.hm.time.toNat) →
        ∃ t, exec (.powerEstimateTick e) s = .next t
          ∧ t.pt = { s.pt with estimatedW := w, estimates := es, burst := true, burstSince := some s.hm.time }
          ∧ t.ptAux.bursts = satAdd s.ptAux.bursts 1
          ∧ (w ≤ min 11500 (240 * s.pt.milliV / 1000) →
            (∀ d, (t.ptDie d).cutFast = (s.ptDie d).cutFast ∧ (t.ptDie d).mhz = (s.ptDie d).mhz)
            ∧ SameBut [.pt, .ptAux, .ptDies] s t)
          ∧ (min 11500 (240 * s.pt.milliV / 1000) < w → PowerCut s t)
          ∧ SameBut [.free, .pt, .ptAux, .ptDies] s t)
      ∧ (∀ u, s.pt.ceiling < w → s.pt.burst = false → s.pt.burstSince = some u →
        s.hm.time.toNat < u.toNat + burstGap →
        ∃ t, exec (.powerEstimateTick e) s = .next t ∧ t.pt = { s.pt with estimatedW := w, estimates := es }
          ∧ PowerCut s t ∧ SameBut [.free, .pt, .ptAux, .ptDies] s t))
    ∧ (∀ peak : Half, s.pt.burst = true →
      ∃ t, exec (.burstLimitExpiry peak) s = .next t ∧ t.pt = { s.pt with burst := false } ∧ Reports s t 0x2011
        ∧ SameBut [.free, .pt, .ptAux, .ptDies, .events, .i3c, .mem, .berths] s t)
    ∧ (∀ m : PowerMeasure,
      ∃ t, exec (.powerMeasurementTick m) s = .next t ∧ t.pt.measuredW = m.meanW ∧ t.pt.milliV = m.milliV
        ∧ t.pt.deciA = m.deciA ∧ t.ptAux.energy = s.ptAux.energy + BitVec.ofNat 64 (20 * t.pt.inputW)
        ∧ (∀ p, s.configured = [p] → (t.run p).energy.running
            = (s.run p).energy.running + BitVec.ofNat 64 (20 * t.pt.inputW))
        ∧ (s.configured.Nodup → s.configured.length ≠ 1 → ∀ p ∈ s.configured, (t.run p).energy.running
            = (s.run p).energy.running + BitVec.ofNat 64 (s.ptAux.interval.share (20 * t.pt.inputW)
                (s.ptAux.interval.parts.get (fun _ => 0) p)))
        ∧ SameBut [.pt, .ptAux, .ptDies, .runs] s t)
    ∧ (s.pt.disagree = false → s.pt.disagrees = true →
      ∃ t, exec .powerDisagreeExpiry s = .next t
        ∧ t.pt = { s.pt with disagree := true, error := setBit s.pt.error 2 }
        ∧ t.ptAux.disagrees = satAdd s.ptAux.disagrees 1 ∧ Reports s t 0x2003
        ∧ SameBut [.pt, .ptAux, .events, .i3c, .mem, .berths] s t)
    ∧ (∀ sensor : Byte, s.pt.disagree = true → s.pt.sensorFault = false → s.pt.disagrees = true →
      ∃ t, exec (.powerSensorFaultExpiry sensor) s = .next t
        ∧ t.pt = { s.pt with sensorFault := true, error := setBit s.pt.error 3 } ∧ bit t.hm.service 7 = true
        ∧ Reports s t 0x2004 ∧ SameBut [.pt, .hm, .events, .i3c, .mem, .berths] s t)
    ∧ (s.serves readyPower → s.pt.sensorFault = true →
      ∃ t, exec .clearSensorFault s = .next t ∧ t.pt = { s.pt with sensorFault := false }
        ∧ bit t.hm.service 7 = false ∧ SameBut [.pt, .hm, .events, .i3c, .mem, .berths] s t)
    ∧ (∀ mean w : Nat, w = s.pt.controlW mean →
      (s.ptAux.coolTarget = none →
        ∃ t, exec (.ceilingUpdate mean) s = .next t
          ∧ t.pt.peaks = (s.pt.peaks ++ [w]).drop (s.pt.peaks.length + 1 - peakWindow)
          ∧ t.pt.ceiling = min (if s.pt.limits.cap.2 < s.pt.ceiling then s.pt.limits.cap.2
              else min s.pt.limits.cap.2 (s.pt.ceiling + 12)) (max (t.pt.peaks.foldl max 0 + 1200) 1500)
          ∧ (w ≤ t.pt.ceiling → SameBut [.pt] s t)
          ∧ (t.pt.ceiling < w → PowerCut s t) ∧ SameBut [.free, .pt, .ptAux, .ptDies] s t)
      ∧ (∀ target, s.ptAux.coolTarget = some target →
        ∃ t, exec (.ceilingUpdate mean) s = .next t
          ∧ t.pt.limits.coolant = some (if target < s.pt.limits.coolant.getD 9600
              then max target (s.pt.limits.coolant.getD 9600 - 12) else target)
          ∧ SameBut [.free, .pt, .ptAux, .ptDies, .events, .i3c, .mem, .berths] s t))
    ∧ (∀ (die : BitVec 3) (mhz : Nat), s.dieUp die.toNat = true → (s.ptDie die.toNat).reaches mhz = true →
      ((s.ptDie die.toNat).pinned = true → mhz = 400) →
      ∃ t, exec (.fvLoopTick die mhz) s = .next t
        ∧ t.ptDie die.toNat = { s.ptDie die.toNat with
            mhz := mhz, milliV := (s.ptDie die.toNat).pointV die.toNat (pointFor die.toNat mhz) }
        ∧ (∀ d, d ≠ die.toNat → t.ptDie d = s.ptDie d) ∧ SameBut [.ptDies] s t)

/-- R471, R472, R476 to R482: a hot spot takes its numbers, sets the thermal limit when its prediction is within 2 °C of
its limit, and at its limit holds its dies at 400 MHz and the floor duty, or halves the request rate of its hold
device; sensors are marked and reported, and R291: a DRAM die whose pair is suspect refreshes one band faster; the
coolant's default aims at 9,600 W; a replica's slack below the guard raises the point by 5 mV, or drops the points
from the one that would pass 750 mV. -/
def Obligations.HeatAndMargins : Prop :=
  ∀ (s : State), s.ptUp = true →
    (∀ u : SpotUpdate,
      ∃ t, exec (.thermalModelUpdate [u]) s = .next t ∧ (t.spot u.spot).r0 = u.r0 ∧ (t.spot u.spot).r1 = u.r1
        ∧ (t.spot u.spot).estimate = u.estimate ∧ (t.spot u.spot).prediction = u.prediction
        ∧ (spotLimit u.spot ≤ u.prediction + 2 → t.pt.limits.thermal = some u.limitW
            ∧ ((s.spot u.spot).limited = none → Logged s t 0x2007))
        ∧ (∀ x, x = { s.spot u.spot with
            r0 := u.r0, r1 := u.r1, estimate := u.estimate, prediction := u.prediction } →
          (x.protective < spotLimit u.spot → t.ptDies = s.ptDies ∧ (t.spot u.spot).atLimit = (s.spot u.spot).atLimit)
          ∧ (spotLimit u.spot ≤ x.protective → x.atLimit = false → (t.spot u.spot).atLimit = true
            ∧ bit t.pt.error 6 = true ∧ Logged s t 0x2008
            ∧ (within 160 177 u.spot = false → ∀ d ∈ s.spotDies u.spot,
                (t.ptDie d).mhz = 400 ∧ (t.ptDie d).cutLadder = floorCut)
            ∧ (within 160 177 u.spot = true → t.ptDies = s.ptDies
              ∧ t.ptAux.holdRate.get (fun _ => 100) u.spot = s.ptAux.holdRate.get (fun _ => 100) u.spot / 2)))
        ∧ (within 128 159 u.spot = true → (t.memDie ((u.spot - 128) / 4)).dramTemp
            = setField (s.memDie ((u.spot - 128) / 4)).dramTemp (8 * (u.spot % 4)) 8 (max u.r0 u.r1))
        ∧ (within 128 159 u.spot = false → t.memDies = s.memDies)
        ∧ SameBut [.pt, .ptAux, .ptDies, .events, .i3c, .mem, .memDies, .berths] s t)
    ∧ (∀ i, spotLimit i + 5 ≤ (s.spot i).protective → s.pt.flowRow = .idle →
      ∃ t, exec (.thermalQuiesceExpiry i) s = .next t ∧ t.pt.flowRow = .running ∧ bit t.pt.error 7 = true
        ∧ Reports s t 0x200A ∧ SameBut [.pt, .events, .i3c, .mem, .berths] s t)
    ∧ (∀ die : BitVec 3,
      (∀ e ∈ s.ptAux.spots, (s.spotDies e.1).contains die.toNat = true → e.2.protective + 3 ≤ spotLimit e.1) →
      ∃ t, exec (.floorDutyRelease die) s = .next t
        ∧ t.ptDie die.toNat = { s.ptDie die.toNat with cutLadder := 0 }
        ∧ (∀ d, d ≠ die.toNat → t.ptDie d = s.ptDie d)
        ∧ (∀ e ∈ s.ptAux.spots, (s.spotDies e.1).contains die.toNat = true → (t.spot e.1).atLimit = false
            ∧ t.ptAux.holdRate.get (fun _ => 100) e.1 = 100)
        ∧ SameBut [.ptAux, .ptDies] s t)
    ∧ (∀ (i : Nat) (r0 r1 : Byte), 6 < max r0.toNat r1.toNat - min r0.toNat r1.toNat →
      ∃ t, exec (.diodePairSuspect i r0 r1) s = .next t ∧ t.spot i = { s.spot i with r0 := r0.toNat, r1 := r1.toNat, suspect := true }
        ∧ t.pt = { s.pt with error := setBit s.pt.error 4 } ∧ Reports s t 0x2005
        ∧ (within 128 159 i = true → (s.spot i).suspect = false →
            (t.memDie ((i - 128) / 4)).band (i % 4) = min 4 ((s.memDie ((i - 128) / 4)).band (i % 4) + 1))
        ∧ (within 128 159 i = false → t.memDies = s.memDies)
        ∧ SameBut [.pt, .ptAux, .events, .i3c, .mem, .memDies, .berths] s t)
    ∧ (∀ (i : Nat) (model : Byte), (apart_ (s.spot i).r0 model.toNat ≤ 10 ∨ apart_ (s.spot i).r1 model.toNat ≤ 10) →
      exec (.hotspotSensorFault i model) s = .next s)
    ∧ (∀ (i : Nat) (model : Byte), 10 < apart_ (s.spot i).r0 model.toNat → 10 < apart_ (s.spot i).r1 model.toNat →
      ∃ t, exec (.hotspotSensorFault i model) s = .next t
        ∧ t.spot i = { s.spot i with fault := true, estimate := model.toNat }
        ∧ t.pt = { s.pt with error := setBit s.pt.error 5 } ∧ bit t.hm.service 8 = true ∧ Reports s t 0x2006
        ∧ SameBut [.pt, .ptAux, .hm, .events, .i3c, .mem, .berths] s t)
    ∧ (∀ i : Nat, 3 < apart_ (s.spot i).r0 (s.spot i).r1 → exec (.diodePairClear i) s = .next s)
    ∧ (∀ i : Nat, apart_ (s.spot i).r0 (s.spot i).r1 ≤ 3 → ∃ t, exec (.diodePairClear i) s = .next t ∧ t.spot i = { s.spot i with suspect := false }
        ∧ (∀ j, j ≠ i → t.spot j = s.spot j) ∧ (within 128 159 i = false → SameBut [.ptAux] s t)
        ∧ SameBut [.ptAux, .events, .memDies] s t)
    ∧ (s.ptAux.trayStale = false → s.ptAux.tray ≠ [] →
      ∃ t, exec .coolantStale s = .next t ∧ t.ptAux = { s.ptAux with trayStale := true }
        ∧ t.pt = { s.pt with error := setBit s.pt.error 10 } ∧ Reports s t 0x2010
        ∧ SameBut [.pt, .ptAux, .events, .i3c, .mem, .berths] s t)
    ∧ (s.ptAux.trayStale = true →
      exec .coolantDefault s
        = .next { s with ptAux := { s.ptAux with trayDefault := true, coolTarget := some 9600 } })
    ∧ (∀ die : BitVec 3, s.dieUp die.toNat = true →
      ∀ x i, x = s.ptDie die.toNat → i = pointFor die.toNat x.mhz →
      (∀ slack, 30 ≤ slack →
        ∃ t, exec (.marginCheck die slack) s = .next t ∧ (t.ptDie die.toNat).milliV = x.milliV
          ∧ (t.ptDie die.toNat).trimMv = x.trimMv ∧ (t.ptDie die.toNat).fmax = x.fmax
          ∧ ((x.trimMv = x.trimSaved ∨ s.calibrated die.toNat = true) → SameBut [.free, .ptDies] s t)
          ∧ SameBut [.free, .ptDies, .hmAux, .events, .i3c, .mem, .berths] s t)
      ∧ (∀ slack, slack < 30 → x.pointV die.toNat i + 5 ≤ 750 →
        ∃ t, exec (.marginCheck die slack) s = .next t ∧ (t.ptDie die.toNat).milliV = x.pointV die.toNat i + 5
          ∧ (t.ptDie die.toNat).mhz = x.mhz ∧ (t.ptDie die.toNat).trimSteps = min (x.trimSteps + 1) 4095
          ∧ SameBut [.free, .ptDies, .hmAux, .events, .i3c, .mem, .berths] s t)
      ∧ (∀ slack, slack < 30 → 750 < x.pointV die.toNat i + 5 →
        ∃ t, exec (.marginCheck die slack) s = .next t ∧ (t.ptDie die.toNat).fmax = pointFreq die.toNat (i - 1)
          ∧ bit t.pt.error 9 = true ∧ Reports s t 0x200E
          ∧ SameBut [.free, .pt, .ptDies, .events, .i3c, .mem, .berths] s t)
      ∧ (505 ≤ x.pointV die.toNat i →
        ∃ t, exec (.marginLower die) s = .next t ∧ (t.ptDie die.toNat).milliV = x.pointV die.toNat i - 5
          ∧ (t.ptDie die.toNat).mhz = x.mhz ∧ SameBut [.ptDies, .hmAux, .events, .i3c, .mem, .berths] s t))

/-- R467, R469, R470, R475, R480, R483, R484 (Tables 13.4, 13.7, 13.9): SUPPLY_WARN_N, the sluice, the droop detector, a
flow stop with its quiesce and the resume, the tide restart and the thermal trip. -/
def Obligations.PinsAndQuiesce : Prop :=
  ∀ (s : State),
    (s.supply.warnLow = false →
      ∃ t, exec .supplyWarnFall s = .next t ∧ t.supply = { s.supply with warnLow := true }
        ∧ (∀ d, d < 8 → t.ptDie d = { s.ptDie d with cutPin := 256 - min 256 (bits s.pt.warn 8 0) })
        ∧ t.pt = { s.pt with warnHold := false, warnSince := s.hm.time }
        ∧ (s.boot.phase ≠ .held → t.ptAux.warnCount = satAdd s.ptAux.warnCount 1)
        ∧ SameBut [.supply, .pt, .ptAux, .ptDies] s t)
    ∧ (s.ptUp = true → s.supply.warnLow = true → s.pt.limits.supply = none →
      ∃ t, exec .supplyWarnHeld s = .next t ∧ t.pt.limits = { s.pt.limits with supply := some s.pt.measuredW }
        ∧ bit t.pt.error 0 = true ∧ Reports s t 0x2001 ∧ SameBut [.pt, .events, .i3c, .mem, .berths] s t)
    ∧ (s.supply.warnLow = true →
      ∃ t, exec .supplyWarnRise s = .next t ∧ t.supply = { s.supply with warnLow := false }
        ∧ t.pt = { s.pt with warnHold := true }
        ∧ t.ptAux.warnTime = satAdd s.ptAux.warnTime (s.hm.time.toNat - s.pt.warnSince.toNat)
        ∧ t.ptDies = s.ptDies ∧ SameBut [.supply, .pt, .ptAux] s t)
    ∧ (s.pt.warnHold = true →
      ∃ t, exec .supplyWarnRelease s = .next t
        ∧ (∀ d, d < 8 → t.ptDie d = { s.ptDie d with cutPin := 0, waves := 0 })
        ∧ t.pt.warnHold = false ∧ t.pt.limits = { s.pt.limits with supply := none } ∧ SameBut [.pt, .ptDies] s t)
    ∧ (∀ die wave : BitVec 3,
      ((s.ptDie die.toNat).waves = wave.toNat → 0 < (s.ptDie die.toNat).duty →
        ∃ t, exec (.sluiceWaveOpen die wave) s = .next t
          ∧ t.ptDie die.toNat = { s.ptDie die.toNat with waves := wave.toNat + 1 }
          ∧ (∀ d, d ≠ die.toNat → t.ptDie d = s.ptDie d) ∧ SameBut [.ptDies] s t)
      ∧ (((s.ptDie die.toNat).waves ≠ wave.toNat ∨ (s.ptDie die.toNat).duty = 0) →
        exec (.sluiceWaveOpen die wave) s = .next s))
    ∧ (∀ die : BitVec 3,
      ((s.ptDie die.toNat).stretched = false →
        ∃ t, exec (.droopStretch die) s = .next t
          ∧ t.ptDie die.toNat = { s.ptDie die.toNat with stretched := true, droop := satAdd (s.ptDie die.toNat).droop 1 }
          ∧ SameBut [.ptDies] s t)
      ∧ ((s.ptDie die.toNat).stretched = true →
        ∃ t n, exec (.droopRecover die) s = .next t
          ∧ t.ptDie die.toNat = { s.ptDie die.toNat with
              stretched := false, stretch := satAdd (s.ptDie die.toNat).stretch n }
          ∧ SameBut [.free, .ptDies] s t))
    ∧ (s.ptUp = true → s.pt.flowRow = .idle →
      ∃ t, exec (.flowStop true) s = .next t ∧ t.supply = { s.supply with flowLow := true } ∧ t.pt.flowRow = .running
        ∧ t.pt.flowSince = some s.hm.time ∧ bit t.pt.error 7 = true
        ∧ (∀ d, d < 8 → t.ptDie d = { s.ptDie d with cutFlow := floorCut }) ∧ Reports s t 0x200A
        ∧ SameBut [.supply, .pt, .ptDies, .events, .i3c, .mem, .berths] s t)
    ∧ (∀ r, s.ptUp = true → s.pt.flowRow = .idle → s.ptAux.tray.getLast? = some r → r.flow < 120 →
      ∃ t, exec (.flowStop false) s = .next t ∧ t.pt.flowRow = .running ∧ t.supply = s.supply ∧ Reports s t 0x200A
        ∧ SameBut [.pt, .ptDies, .events, .i3c, .mem, .berths] s t)
    ∧ (s.ptUp = false →
      ∃ t, exec (.flowStop true) s = .next t ∧ t.supply = { s.supply with flowLow := true }
        ∧ (∀ d, d < 8 → t.ptDie d = { s.ptDie d with cutFlow := floorCut }) ∧ SameBut [.supply, .ptDies] s t)
    ∧ ((s.pt.flowRow ≠ .running ∨ s.mayQuiesce = false) → exec .quiesceComplete s = .next s)
    ∧ (s.pt.flowRow = .running → s.mayQuiesce = true →
      ∃ t, exec .quiesceComplete s = .next t ∧ t.pt = { s.pt with flowRow := .quiesced }
        ∧ (∀ d, d < 8 → (t.ptDie d).mhz = 400 ∧ (t.ptDie d).cutQuiesce = 256) ∧ Reports s t 0x200B
        ∧ SameBut [.pt, .ptAux, .ptDies, .events, .i3c, .mem, .berths] s t)
    ∧ (s.pt.flowRow = .quiesced →
      (s.mayResume = false →
        exec .quiesceEnd s = .next { s with supply := { s.supply with flowLow := false } })
      ∧ (bit s.pt.config 0 = false → s.mayResume = true →
        ∃ t, exec .quiesceEnd s = .next t ∧ t.supply = { s.supply with flowLow := false }
          ∧ t.pt = { s.pt with resumeReady := true } ∧ SameBut [.supply, .pt] s t)
      ∧ (bit s.pt.config 0 = true → s.mayResume = true →
        ∃ t, exec .quiesceEnd s = .next t ∧ t.supply = { s.supply with flowLow := false } ∧ Resumed s t
          ∧ (s.nothingHeld → SameBut [.supply, .pt, .ptDies, .events, .i3c, .mem, .berths] s t)
          ∧ SameBut [.free, .supply, .pt, .ptDies, .events, .i3c, .mem, .berths, .gw, .gwAux, .parts, .runs, .jr] s t)
      ∧ (s.serves readyPower → s.pt.resumeReady = true → s.mayResume = true →
        ∃ t, exec .ptResume s = .next t ∧ Resumed s t
          ∧ (s.nothingHeld → SameBut [.pt, .ptDies, .events, .i3c, .mem, .berths] s t)
          ∧ SameBut [.free, .pt, .ptDies, .events, .i3c, .mem, .berths, .gw, .gwAux, .parts, .runs, .jr] s t)
      ∧ (s.serves readyPower → (s.pt.resumeReady = false ∨ s.mayResume = false) → exec .ptResume s = .next s))
    ∧ (s.serves readyPower → (s.part s.tidePart).state = .fillWait → exec .tideReset s = .next s)
    ∧ (s.serves readyPower → bit s.ptAux.tideCfg 22 = true → (s.part s.tidePart).state ≠ .fillWait →
      ∃ t, exec .tideReset s = .next t ∧ t.ptAux.tideOn = true
        ∧ t.ptAux.tideAlloc = s.ptAux.tidePool.toNat / s.tideMembers
        ∧ t.ptAux.tideAlloc * s.tideMembers + t.ptAux.tideReserve = s.ptAux.tidePool.toNat ∧ SameBut [.ptAux] s t)
    ∧ (∀ c : Byte, ∃ t, exec (.thermTrip c) s = .next t ∧ t.supply = { s.supply with tripLatched := true }
        ∧ (s.ptUp = true → Reports s t 0x200D) ∧ SameBut [.supply, .events, .i3c, .mem, .berths] s t)

/-- R497, R499, R506, R509, R510 (Table 14.7): an owner command that passes every check is carried out: CLAIM installs the
owner key and RELEASE erases it with every slot, DECOMMISSION retires the device, key slots are set, revoked for good,
and a revoked host key closes its sessions. One that fails a check changes nothing but what reports it. R503, R508,
R511, R512 (Table 14.7): INSTALL_SAK gives a peer the unwrapped key and its settings, REMOVE_PEER takes the peer away,
RAISE_MIN_SVN and FORCE_NETWORK_BOOT set what the next boot reads, and CLEAR_MAILBOX empties the mailbox. -/
def Obligations.OwnerCommands : Prop :=
  (∀ (s : State) (i3c : Bool) (device counter : DWord) (sig : Bytes), s.mailServes →
    (∀ key : Bytes,
      (s.mailResult i3c 1 device counter (padTo 96 key) sig = 0 →
        ∃ t, exec (.claim i3c device counter key sig) s = .next t ∧ OwnerDone s t 1 counter
          ∧ t.sec.lifecycle = .owned ∧ t.sec.ownerKey = some (padTo 96 key) ∧ Logged s t 0x100B
          ∧ t.sec.hostKeys = s.sec.hostKeys ∧ t.sec.manifestKeys = s.sec.manifestKeys)
      ∧ (s.mailResult i3c 1 device counter (padTo 96 key) sig ≠ 0 →
        ∃ t, exec (.claim i3c device counter key sig) s = .next t
          ∧ OwnerRefused s t 1 (s.mailResult i3c 1 device counter (padTo 96 key) sig)
              (ownerRecord 1 device counter (padTo 96 key) sig)))
    ∧ (∀ (slot : Byte) (key args : Bytes), args = [slot] ++ zeros 3 ++ padTo 96 key →
      (s.mailResult i3c 2 device counter args sig = 0 →
        ∃ t, exec (.setManifestKey i3c device counter slot key sig) s = .next t ∧ OwnerDone s t 2 counter
          ∧ t.sec.manifestKeys = s.sec.manifestKeys.set slot.toNat (.provisioned (padTo 96 key))
          ∧ t.sec.hostKeys = s.sec.hostKeys ∧ t.sec.ownerKey = s.sec.ownerKey)
      ∧ (s.mailResult i3c 4 device counter args sig = 0 →
        ∃ t, exec (.setHostKey i3c device counter slot key sig) s = .next t ∧ OwnerDone s t 4 counter
          ∧ t.sec.hostKeys = s.sec.hostKeys.set slot.toNat (.provisioned (padTo 96 key))
          ∧ t.sec.hostCounters = s.sec.hostCounters.set slot.toNat none
          ∧ t.sec.manifestKeys = s.sec.manifestKeys ∧ t.sec.ownerKey = s.sec.ownerKey)
      ∧ (s.mailResult i3c 4 device counter args sig ≠ 0 →
        ∃ t, exec (.setHostKey i3c device counter slot key sig) s = .next t
          ∧ OwnerRefused s t 4 (s.mailResult i3c 4 device counter args sig) (ownerRecord 4 device counter args sig)))
    ∧ (∀ (slot : Byte),
      (s.mailResult i3c 3 device counter ([slot] ++ zeros 3) sig = 0 →
        ∃ t, exec (.revokeManifestKey i3c device counter slot sig) s = .next t ∧ OwnerDone s t 3 counter
          ∧ t.sec.manifestKeys = s.sec.manifestKeys.set slot.toNat .revoked ∧ Logged s t 0x1007
          ∧ t.sec.hostKeys = s.sec.hostKeys)
      ∧ (s.mailResult i3c 5 device counter ([slot] ++ zeros 3) sig = 0 →
        ∃ t, exec (.revokeHostKey i3c device counter slot sig) s = .next t ∧ OwnerDone s t 5 counter
          ∧ t.sec.hostKeys = s.sec.hostKeys.set slot.toNat .revoked ∧ Logged s t 0x1007
          ∧ (∀ n, (s.session n).slot = slot → (t.session n).isOpen = false)
          ∧ (∀ n, (∀ e ∈ s.gw.sessions, e.1 = n → e.2.slot ≠ slot) → t.session n = s.session n)))
    ∧ (s.mailResult i3c 10 device counter [] sig = 0 →
      ∃ t, exec (.release i3c device counter sig) s = .next t ∧ OwnerDone s t 10 counter
        ∧ t.sec.lifecycle = .unowned ∧ t.sec.ownerKey = none ∧ t.sec.manifestKeys = List.replicate 4 .empty
        ∧ t.sec.hostKeys = List.replicate 8 .empty ∧ (∀ n, t.peer n = Peer.none) ∧ Logged s t 0x100B)
    ∧ (s.mailResult i3c 11 device counter [] sig = 0 →
      ∃ t, exec (.decommission i3c device counter sig) s = .next t ∧ OwnerDone s t 11 counter
        ∧ t.sec.lifecycle = .retired ∧ t.sec.idKeyHeld = false ∧ t.sec.ownerKey = none
        ∧ t.sec.hostKeys = List.replicate 8 .empty ∧ (∀ n, (t.session n).isOpen = false) ∧ Logged s t 0x100B)
    ∧ (s.mailResult i3c 11 device counter [] sig ≠ 0 →
      ∃ t, exec (.decommission i3c device counter sig) s = .next t
        ∧ OwnerRefused s t 11 (s.mailResult i3c 11 device counter [] sig) (ownerRecord 11 device counter [] sig)))
  ∧ (∀ (s : State) (i3c : Bool) (device counter : DWord) (sig : Bytes), s.mailServes →
    (∀ a args : Bytes, args = padTo 164 a → s.mailResult i3c 6 device counter args sig = 0 →
      ∃ t sak, exec (.installSak i3c device counter a sig) s = .next t ∧ OwnerDone s t 6 counter
        ∧ s.unwrapSak args = some sak
        ∧ (∃ k ∈ (t.peer (leAt args 0 1)).keys, k.sak = sak ∧ k.an = BitVec.ofNat 2 (leAt args 1 1) ∧ k.pn = 0
            ∧ k.xpn = (leAt args 2 1).testBit 1)
        ∧ (t.peer (leAt args 0 1)).keys.length ≤ 2
        ∧ (t.peer (leAt args 0 1)).mac = slice args 4 6
        ∧ (t.peer (leAt args 0 1)).secured = (leAt args 2 1).testBit 0
        ∧ ((leAt args 2 1).testBit 2 = true → (t.peer (leAt args 0 1)).txAn = some (BitVec.ofNat 2 (leAt args 1 1)))
        ∧ (∀ n, n ≠ leAt args 0 1 → t.peer n = s.peer n))
    ∧ (∀ peer : Byte, s.mailResult i3c 7 device counter ([peer] ++ zeros 3) sig = 0 →
      ∃ t, exec (.removePeer i3c device counter peer sig) s = .next t ∧ OwnerDone s t 7 counter
        ∧ t.peer peer.toNat = Peer.none ∧ (∀ n, n ≠ peer.toNat → t.peer n = s.peer n))
    ∧ (∀ svn : Half, s.mailResult i3c 8 device counter (wordLe 2 svn ++ zeros 2) sig = 0 →
      ∃ t, exec (.raiseMinSvn i3c device counter svn sig) s = .next t ∧ OwnerDone s t 8 counter ∧ t.sec.minSvn = svn
        ∧ s.sec.minSvn.toNat ≤ svn.toNat)
    ∧ (s.mailResult i3c 9 device counter [] sig = 0 →
      ∃ t, exec (.forceNetworkBoot i3c device counter sig) s = .next t ∧ OwnerDone s t 9 counter
        ∧ t.sec.forceNetwork = true)
    ∧ exec .clearMailbox s = .next { s with sec := { s.sec with mailbox := [] } })
end

