-- ==== Sys2Proof/Laws/Sparse.lean ====
section
/-!
SUPPORT. Sparse maps: what a read after a write gives, and that every operation keeps the canonical form.
-/

namespace Sys2Proof.Machine

variable {β : Type}

theorem Sparse.get_insert (d : Nat → β) (m : Sparse β) (k q : Nat) (v : β) :
    Sparse.get d (m.insert k v) q = if k = q then v else Sparse.get d m q := by
  induction m with
  | nil => simp [Sparse.insert, Sparse.get]
  | cons e m ih =>
    obtain ⟨j, w⟩ := e
    simp only [Sparse.insert]
    split
    · simp [Sparse.get]
    · split
      · subst_vars; simp only [Sparse.get]; split <;> simp_all
      · simp only [Sparse.get, ih]; split <;> split <;> simp_all

theorem Sparse.get_erase (d : Nat → β) (m : Sparse β) (k q : Nat) :
    Sparse.get d (m.erase k) q = if k = q then d q else Sparse.get d m q := by
  induction m with
  | nil => simp [Sparse.erase, Sparse.get]
  | cons e m ih =>
    obtain ⟨j, w⟩ := e
    by_cases h : j = k
    · subst h
      have : Sparse.erase ((j, w) :: m) j = Sparse.erase m j := by simp [Sparse.erase]
      rw [this, ih]; by_cases hq : j = q <;> simp [Sparse.get, hq]
    · have : Sparse.erase ((j, w) :: m) k = (j, w) :: Sparse.erase m k := by simp [Sparse.erase, h]
      rw [this]; simp only [Sparse.get, ih]
      by_cases hq : j = q <;> by_cases hk : k = q <;> simp_all

/-- A read after a write gives the value written, and every other key keeps its own. -/
theorem Sparse.get_set [DecidableEq β] (d : Nat → β) (m : Sparse β) (k q : Nat) (v : β) :
    Sparse.get d (m.set d k v) q = if k = q then v else Sparse.get d m q := by
  unfold Sparse.set
  split
  · rw [Sparse.get_erase]; split <;> simp_all
  · rw [Sparse.get_insert]

theorem Sparse.get_modify [DecidableEq β] (d : Nat → β) (m : Sparse β) (k q : Nat) (f : β → β) :
    Sparse.get d (m.modify d k f) q = if k = q then f (Sparse.get d m k) else Sparse.get d m q :=
  Sparse.get_set d m k q _

/-! ## The canonical form -/

theorem Sparse.above_insert (lo : Nat) (m : Sparse β) (k : Nat) (v : β) (h : lo < k) (hm : Sparse.above lo m = true) :
    Sparse.above lo (m.insert k v) = true := by
  induction m with
  | nil => simp [Sparse.insert, Sparse.above, h]
  | cons e m ih =>
    obtain ⟨j, w⟩ := e
    simp only [Sparse.above, List.all_cons, Bool.and_eq_true, decide_eq_true_eq] at hm
    simp only [Sparse.insert]
    split
    · simp [Sparse.above, h, hm]
    · split
      · simp [Sparse.above, h, hm]
      · have := ih (by simpa [Sparse.above] using hm.2)
        simpa [Sparse.above, hm.1] using this

theorem Sparse.above_mono {lo hi : Nat} (m : Sparse β) (h : lo ≤ hi) (hm : Sparse.above hi m = true) :
    Sparse.above lo m = true := by
  simp only [Sparse.above, List.all_eq_true, decide_eq_true_eq] at *
  intro e he; have := hm e he; omega

theorem Sparse.sorted_insert (m : Sparse β) (k : Nat) (v : β) (hm : m.sorted = true) : (m.insert k v).sorted = true := by
  induction m with
  | nil => simp [Sparse.insert, Sparse.sorted, Sparse.above]
  | cons e m ih =>
    obtain ⟨j, w⟩ := e
    simp only [Sparse.sorted, Bool.and_eq_true] at hm
    simp only [Sparse.insert]
    split
    · rename_i h
      have := Sparse.above_mono m (Nat.le_of_lt h) hm.1
      have hk : Sparse.above k ((j, w) :: m) = true := by
        simpa [Sparse.above, h] using this
      simp [Sparse.sorted, hm, hk]
    · split
      · subst_vars; simp [Sparse.sorted, hm]
      · have hj := Sparse.above_insert j m k v (by omega) hm.1
        simp [Sparse.sorted, hj, ih hm.2]

theorem Sparse.sorted_filter (m : Sparse β) (p : Nat × β → Bool) (hm : m.sorted = true) :
    Sparse.sorted (m.filter p) = true := by
  induction m with
  | nil => simp [Sparse.sorted]
  | cons e m ih =>
    obtain ⟨j, w⟩ := e
    simp only [Sparse.sorted, Bool.and_eq_true] at hm
    simp only [List.filter_cons]
    split
    · have : Sparse.above j (m.filter p) = true := by
        simp only [Sparse.above, List.all_eq_true, decide_eq_true_eq] at *
        intro e he; exact hm.1 e (List.mem_filter.1 he).1
      simp [Sparse.sorted, this, ih hm.2]
    · exact ih hm.2

/-- A write keeps the canonical form: a default value is not listed. -/
theorem Sparse.wf_set [DecidableEq β] (d : Nat → β) (m : Sparse β) (k : Nat) (v : β) (hm : m.wf d = true) :
    Sparse.wf d (m.set d k v) = true := by
  simp only [Sparse.wf, Bool.and_eq_true, List.all_eq_true] at *
  unfold Sparse.set
  split
  · refine ⟨Sparse.sorted_filter _ _ hm.1, fun e he => hm.2 e (List.mem_filter.1 he).1⟩
  · rename_i hv
    refine ⟨Sparse.sorted_insert _ _ _ hm.1, ?_⟩
    have aux : ∀ (l : Sparse β), (∀ e ∈ l, (!decide (e.2 = d e.1)) = true) →
        ∀ e ∈ Sparse.insert l k v, (!decide (e.2 = d e.1)) = true := by
      intro l
      induction l with
      | nil => intro _ e he; simp [Sparse.insert] at he; subst he; simp [hv]
      | cons x l ih =>
        obtain ⟨j, w⟩ := x
        intro hl e he
        simp only [Sparse.insert] at he
        split at he
        · rcases List.mem_cons.1 he with h | h
          · subst h; simp [hv]
          · exact hl e h
        · split at he
          · rcases List.mem_cons.1 he with h | h
            · subst h; simp [hv]
            · exact hl e (List.mem_cons_of_mem _ h)
          · rcases List.mem_cons.1 he with h | h
            · subst h; exact hl _ (List.mem_cons_self ..)
            · exact ih (fun e he => hl e (List.mem_cons_of_mem _ he)) e h
    exact aux m hm.2

end Sys2Proof.Machine
end

