-- ==== Sys2Proof/Laws/State.lean ====
section
/-!
SUPPORT. The named updates of a part of the state leave every other part alone: one lemma per field and update.
-/

namespace Sys2Proof.Machine

/-! ## modSupply -/

@[simp] theorem State.modSupply_pending (s : State) (f : Supply → Supply) : (s.modSupply f).pending = s.pending := rfl
@[simp] theorem State.modSupply_deferred (s : State) (f : Supply → Supply) : (s.modSupply f).deferred = s.deferred := rfl
@[simp] theorem State.modSupply_free (s : State) (f : Supply → Supply) : (s.modSupply f).free = s.free := rfl
@[simp] theorem State.modSupply_boot (s : State) (f : Supply → Supply) : (s.modSupply f).boot = s.boot := rfl
@[simp] theorem State.modSupply_sec (s : State) (f : Supply → Supply) : (s.modSupply f).sec = s.sec := rfl
@[simp] theorem State.modSupply_pt (s : State) (f : Supply → Supply) : (s.modSupply f).pt = s.pt := rfl
@[simp] theorem State.modSupply_ptAux (s : State) (f : Supply → Supply) : (s.modSupply f).ptAux = s.ptAux := rfl
@[simp] theorem State.modSupply_ptDies (s : State) (f : Supply → Supply) : (s.modSupply f).ptDies = s.ptDies := rfl
@[simp] theorem State.modSupply_hm (s : State) (f : Supply → Supply) : (s.modSupply f).hm = s.hm := rfl
@[simp] theorem State.modSupply_hmAux (s : State) (f : Supply → Supply) : (s.modSupply f).hmAux = s.hmAux := rfl
@[simp] theorem State.modSupply_events (s : State) (f : Supply → Supply) : (s.modSupply f).events = s.events := rfl
@[simp] theorem State.modSupply_i3c (s : State) (f : Supply → Supply) : (s.modSupply f).i3c = s.i3c := rfl
@[simp] theorem State.modSupply_mf (s : State) (f : Supply → Supply) : (s.modSupply f).mf = s.mf := rfl
@[simp] theorem State.modSupply_mfAux (s : State) (f : Supply → Supply) : (s.modSupply f).mfAux = s.mfAux := rfl
@[simp] theorem State.modSupply_clusters (s : State) (f : Supply → Supply) : (s.modSupply f).clusters = s.clusters := rfl
@[simp] theorem State.modSupply_mem (s : State) (f : Supply → Supply) : (s.modSupply f).mem = s.mem := rfl
@[simp] theorem State.modSupply_memDies (s : State) (f : Supply → Supply) : (s.modSupply f).memDies = s.memDies := rfl
@[simp] theorem State.modSupply_memAux (s : State) (f : Supply → Supply) : (s.modSupply f).memAux = s.memAux := rfl
@[simp] theorem State.modSupply_berths (s : State) (f : Supply → Supply) : (s.modSupply f).berths = s.berths := rfl
@[simp] theorem State.modSupply_links (s : State) (f : Supply → Supply) : (s.modSupply f).links = s.links := rfl
@[simp] theorem State.modSupply_linkCtrs (s : State) (f : Supply → Supply) : (s.modSupply f).linkCtrs = s.linkCtrs := rfl
@[simp] theorem State.modSupply_kx (s : State) (f : Supply → Supply) : (s.modSupply f).kx = s.kx := rfl
@[simp] theorem State.modSupply_reds (s : State) (f : Supply → Supply) : (s.modSupply f).reds = s.reds := rfl
@[simp] theorem State.modSupply_gw (s : State) (f : Supply → Supply) : (s.modSupply f).gw = s.gw := rfl
@[simp] theorem State.modSupply_gwAux (s : State) (f : Supply → Supply) : (s.modSupply f).gwAux = s.gwAux := rfl
@[simp] theorem State.modSupply_parts (s : State) (f : Supply → Supply) : (s.modSupply f).parts = s.parts := rfl
@[simp] theorem State.modSupply_runs (s : State) (f : Supply → Supply) : (s.modSupply f).runs = s.runs := rfl
@[simp] theorem State.modSupply_jr (s : State) (f : Supply → Supply) : (s.modSupply f).jr = s.jr := rfl
@[simp] theorem State.modSupply_pkg (s : State) (f : Supply → Supply) : (s.modSupply f).pkg = s.pkg := rfl

/-! ## modBoot -/

@[simp] theorem State.modBoot_pending (s : State) (f : Boot → Boot) : (s.modBoot f).pending = s.pending := rfl
@[simp] theorem State.modBoot_deferred (s : State) (f : Boot → Boot) : (s.modBoot f).deferred = s.deferred := rfl
@[simp] theorem State.modBoot_free (s : State) (f : Boot → Boot) : (s.modBoot f).free = s.free := rfl
@[simp] theorem State.modBoot_supply (s : State) (f : Boot → Boot) : (s.modBoot f).supply = s.supply := rfl
@[simp] theorem State.modBoot_sec (s : State) (f : Boot → Boot) : (s.modBoot f).sec = s.sec := rfl
@[simp] theorem State.modBoot_pt (s : State) (f : Boot → Boot) : (s.modBoot f).pt = s.pt := rfl
@[simp] theorem State.modBoot_ptAux (s : State) (f : Boot → Boot) : (s.modBoot f).ptAux = s.ptAux := rfl
@[simp] theorem State.modBoot_ptDies (s : State) (f : Boot → Boot) : (s.modBoot f).ptDies = s.ptDies := rfl
@[simp] theorem State.modBoot_hm (s : State) (f : Boot → Boot) : (s.modBoot f).hm = s.hm := rfl
@[simp] theorem State.modBoot_hmAux (s : State) (f : Boot → Boot) : (s.modBoot f).hmAux = s.hmAux := rfl
@[simp] theorem State.modBoot_events (s : State) (f : Boot → Boot) : (s.modBoot f).events = s.events := rfl
@[simp] theorem State.modBoot_i3c (s : State) (f : Boot → Boot) : (s.modBoot f).i3c = s.i3c := rfl
@[simp] theorem State.modBoot_mf (s : State) (f : Boot → Boot) : (s.modBoot f).mf = s.mf := rfl
@[simp] theorem State.modBoot_mfAux (s : State) (f : Boot → Boot) : (s.modBoot f).mfAux = s.mfAux := rfl
@[simp] theorem State.modBoot_clusters (s : State) (f : Boot → Boot) : (s.modBoot f).clusters = s.clusters := rfl
@[simp] theorem State.modBoot_mem (s : State) (f : Boot → Boot) : (s.modBoot f).mem = s.mem := rfl
@[simp] theorem State.modBoot_memDies (s : State) (f : Boot → Boot) : (s.modBoot f).memDies = s.memDies := rfl
@[simp] theorem State.modBoot_memAux (s : State) (f : Boot → Boot) : (s.modBoot f).memAux = s.memAux := rfl
@[simp] theorem State.modBoot_berths (s : State) (f : Boot → Boot) : (s.modBoot f).berths = s.berths := rfl
@[simp] theorem State.modBoot_links (s : State) (f : Boot → Boot) : (s.modBoot f).links = s.links := rfl
@[simp] theorem State.modBoot_linkCtrs (s : State) (f : Boot → Boot) : (s.modBoot f).linkCtrs = s.linkCtrs := rfl
@[simp] theorem State.modBoot_kx (s : State) (f : Boot → Boot) : (s.modBoot f).kx = s.kx := rfl
@[simp] theorem State.modBoot_reds (s : State) (f : Boot → Boot) : (s.modBoot f).reds = s.reds := rfl
@[simp] theorem State.modBoot_gw (s : State) (f : Boot → Boot) : (s.modBoot f).gw = s.gw := rfl
@[simp] theorem State.modBoot_gwAux (s : State) (f : Boot → Boot) : (s.modBoot f).gwAux = s.gwAux := rfl
@[simp] theorem State.modBoot_parts (s : State) (f : Boot → Boot) : (s.modBoot f).parts = s.parts := rfl
@[simp] theorem State.modBoot_runs (s : State) (f : Boot → Boot) : (s.modBoot f).runs = s.runs := rfl
@[simp] theorem State.modBoot_jr (s : State) (f : Boot → Boot) : (s.modBoot f).jr = s.jr := rfl
@[simp] theorem State.modBoot_pkg (s : State) (f : Boot → Boot) : (s.modBoot f).pkg = s.pkg := rfl

/-! ## modHm -/

@[simp] theorem State.modHm_pending (s : State) (f : Hm → Hm) : (s.modHm f).pending = s.pending := rfl
@[simp] theorem State.modHm_deferred (s : State) (f : Hm → Hm) : (s.modHm f).deferred = s.deferred := rfl
@[simp] theorem State.modHm_free (s : State) (f : Hm → Hm) : (s.modHm f).free = s.free := rfl
@[simp] theorem State.modHm_supply (s : State) (f : Hm → Hm) : (s.modHm f).supply = s.supply := rfl
@[simp] theorem State.modHm_boot (s : State) (f : Hm → Hm) : (s.modHm f).boot = s.boot := rfl
@[simp] theorem State.modHm_sec (s : State) (f : Hm → Hm) : (s.modHm f).sec = s.sec := rfl
@[simp] theorem State.modHm_pt (s : State) (f : Hm → Hm) : (s.modHm f).pt = s.pt := rfl
@[simp] theorem State.modHm_ptAux (s : State) (f : Hm → Hm) : (s.modHm f).ptAux = s.ptAux := rfl
@[simp] theorem State.modHm_ptDies (s : State) (f : Hm → Hm) : (s.modHm f).ptDies = s.ptDies := rfl
@[simp] theorem State.modHm_hmAux (s : State) (f : Hm → Hm) : (s.modHm f).hmAux = s.hmAux := rfl
@[simp] theorem State.modHm_events (s : State) (f : Hm → Hm) : (s.modHm f).events = s.events := rfl
@[simp] theorem State.modHm_i3c (s : State) (f : Hm → Hm) : (s.modHm f).i3c = s.i3c := rfl
@[simp] theorem State.modHm_mf (s : State) (f : Hm → Hm) : (s.modHm f).mf = s.mf := rfl
@[simp] theorem State.modHm_mfAux (s : State) (f : Hm → Hm) : (s.modHm f).mfAux = s.mfAux := rfl
@[simp] theorem State.modHm_clusters (s : State) (f : Hm → Hm) : (s.modHm f).clusters = s.clusters := rfl
@[simp] theorem State.modHm_mem (s : State) (f : Hm → Hm) : (s.modHm f).mem = s.mem := rfl
@[simp] theorem State.modHm_memDies (s : State) (f : Hm → Hm) : (s.modHm f).memDies = s.memDies := rfl
@[simp] theorem State.modHm_memAux (s : State) (f : Hm → Hm) : (s.modHm f).memAux = s.memAux := rfl
@[simp] theorem State.modHm_berths (s : State) (f : Hm → Hm) : (s.modHm f).berths = s.berths := rfl
@[simp] theorem State.modHm_links (s : State) (f : Hm → Hm) : (s.modHm f).links = s.links := rfl
@[simp] theorem State.modHm_linkCtrs (s : State) (f : Hm → Hm) : (s.modHm f).linkCtrs = s.linkCtrs := rfl
@[simp] theorem State.modHm_kx (s : State) (f : Hm → Hm) : (s.modHm f).kx = s.kx := rfl
@[simp] theorem State.modHm_reds (s : State) (f : Hm → Hm) : (s.modHm f).reds = s.reds := rfl
@[simp] theorem State.modHm_gw (s : State) (f : Hm → Hm) : (s.modHm f).gw = s.gw := rfl
@[simp] theorem State.modHm_gwAux (s : State) (f : Hm → Hm) : (s.modHm f).gwAux = s.gwAux := rfl
@[simp] theorem State.modHm_parts (s : State) (f : Hm → Hm) : (s.modHm f).parts = s.parts := rfl
@[simp] theorem State.modHm_runs (s : State) (f : Hm → Hm) : (s.modHm f).runs = s.runs := rfl
@[simp] theorem State.modHm_jr (s : State) (f : Hm → Hm) : (s.modHm f).jr = s.jr := rfl
@[simp] theorem State.modHm_pkg (s : State) (f : Hm → Hm) : (s.modHm f).pkg = s.pkg := rfl

/-! ## modHmAux -/

@[simp] theorem State.modHmAux_pending (s : State) (f : HmAux → HmAux) : (s.modHmAux f).pending = s.pending := rfl
@[simp] theorem State.modHmAux_deferred (s : State) (f : HmAux → HmAux) : (s.modHmAux f).deferred = s.deferred := rfl
@[simp] theorem State.modHmAux_free (s : State) (f : HmAux → HmAux) : (s.modHmAux f).free = s.free := rfl
@[simp] theorem State.modHmAux_supply (s : State) (f : HmAux → HmAux) : (s.modHmAux f).supply = s.supply := rfl
@[simp] theorem State.modHmAux_boot (s : State) (f : HmAux → HmAux) : (s.modHmAux f).boot = s.boot := rfl
@[simp] theorem State.modHmAux_sec (s : State) (f : HmAux → HmAux) : (s.modHmAux f).sec = s.sec := rfl
@[simp] theorem State.modHmAux_pt (s : State) (f : HmAux → HmAux) : (s.modHmAux f).pt = s.pt := rfl
@[simp] theorem State.modHmAux_ptAux (s : State) (f : HmAux → HmAux) : (s.modHmAux f).ptAux = s.ptAux := rfl
@[simp] theorem State.modHmAux_ptDies (s : State) (f : HmAux → HmAux) : (s.modHmAux f).ptDies = s.ptDies := rfl
@[simp] theorem State.modHmAux_hm (s : State) (f : HmAux → HmAux) : (s.modHmAux f).hm = s.hm := rfl
@[simp] theorem State.modHmAux_events (s : State) (f : HmAux → HmAux) : (s.modHmAux f).events = s.events := rfl
@[simp] theorem State.modHmAux_i3c (s : State) (f : HmAux → HmAux) : (s.modHmAux f).i3c = s.i3c := rfl
@[simp] theorem State.modHmAux_mf (s : State) (f : HmAux → HmAux) : (s.modHmAux f).mf = s.mf := rfl
@[simp] theorem State.modHmAux_mfAux (s : State) (f : HmAux → HmAux) : (s.modHmAux f).mfAux = s.mfAux := rfl
@[simp] theorem State.modHmAux_clusters (s : State) (f : HmAux → HmAux) : (s.modHmAux f).clusters = s.clusters := rfl
@[simp] theorem State.modHmAux_mem (s : State) (f : HmAux → HmAux) : (s.modHmAux f).mem = s.mem := rfl
@[simp] theorem State.modHmAux_memDies (s : State) (f : HmAux → HmAux) : (s.modHmAux f).memDies = s.memDies := rfl
@[simp] theorem State.modHmAux_memAux (s : State) (f : HmAux → HmAux) : (s.modHmAux f).memAux = s.memAux := rfl
@[simp] theorem State.modHmAux_berths (s : State) (f : HmAux → HmAux) : (s.modHmAux f).berths = s.berths := rfl
@[simp] theorem State.modHmAux_links (s : State) (f : HmAux → HmAux) : (s.modHmAux f).links = s.links := rfl
@[simp] theorem State.modHmAux_linkCtrs (s : State) (f : HmAux → HmAux) : (s.modHmAux f).linkCtrs = s.linkCtrs := rfl
@[simp] theorem State.modHmAux_kx (s : State) (f : HmAux → HmAux) : (s.modHmAux f).kx = s.kx := rfl
@[simp] theorem State.modHmAux_reds (s : State) (f : HmAux → HmAux) : (s.modHmAux f).reds = s.reds := rfl
@[simp] theorem State.modHmAux_gw (s : State) (f : HmAux → HmAux) : (s.modHmAux f).gw = s.gw := rfl
@[simp] theorem State.modHmAux_gwAux (s : State) (f : HmAux → HmAux) : (s.modHmAux f).gwAux = s.gwAux := rfl
@[simp] theorem State.modHmAux_parts (s : State) (f : HmAux → HmAux) : (s.modHmAux f).parts = s.parts := rfl
@[simp] theorem State.modHmAux_runs (s : State) (f : HmAux → HmAux) : (s.modHmAux f).runs = s.runs := rfl
@[simp] theorem State.modHmAux_jr (s : State) (f : HmAux → HmAux) : (s.modHmAux f).jr = s.jr := rfl
@[simp] theorem State.modHmAux_pkg (s : State) (f : HmAux → HmAux) : (s.modHmAux f).pkg = s.pkg := rfl

/-! ## modGw -/

@[simp] theorem State.modGw_pending (s : State) (f : Gw → Gw) : (s.modGw f).pending = s.pending := rfl
@[simp] theorem State.modGw_deferred (s : State) (f : Gw → Gw) : (s.modGw f).deferred = s.deferred := rfl
@[simp] theorem State.modGw_free (s : State) (f : Gw → Gw) : (s.modGw f).free = s.free := rfl
@[simp] theorem State.modGw_supply (s : State) (f : Gw → Gw) : (s.modGw f).supply = s.supply := rfl
@[simp] theorem State.modGw_boot (s : State) (f : Gw → Gw) : (s.modGw f).boot = s.boot := rfl
@[simp] theorem State.modGw_sec (s : State) (f : Gw → Gw) : (s.modGw f).sec = s.sec := rfl
@[simp] theorem State.modGw_pt (s : State) (f : Gw → Gw) : (s.modGw f).pt = s.pt := rfl
@[simp] theorem State.modGw_ptAux (s : State) (f : Gw → Gw) : (s.modGw f).ptAux = s.ptAux := rfl
@[simp] theorem State.modGw_ptDies (s : State) (f : Gw → Gw) : (s.modGw f).ptDies = s.ptDies := rfl
@[simp] theorem State.modGw_hm (s : State) (f : Gw → Gw) : (s.modGw f).hm = s.hm := rfl
@[simp] theorem State.modGw_hmAux (s : State) (f : Gw → Gw) : (s.modGw f).hmAux = s.hmAux := rfl
@[simp] theorem State.modGw_events (s : State) (f : Gw → Gw) : (s.modGw f).events = s.events := rfl
@[simp] theorem State.modGw_i3c (s : State) (f : Gw → Gw) : (s.modGw f).i3c = s.i3c := rfl
@[simp] theorem State.modGw_mf (s : State) (f : Gw → Gw) : (s.modGw f).mf = s.mf := rfl
@[simp] theorem State.modGw_mfAux (s : State) (f : Gw → Gw) : (s.modGw f).mfAux = s.mfAux := rfl
@[simp] theorem State.modGw_clusters (s : State) (f : Gw → Gw) : (s.modGw f).clusters = s.clusters := rfl
@[simp] theorem State.modGw_mem (s : State) (f : Gw → Gw) : (s.modGw f).mem = s.mem := rfl
@[simp] theorem State.modGw_memDies (s : State) (f : Gw → Gw) : (s.modGw f).memDies = s.memDies := rfl
@[simp] theorem State.modGw_memAux (s : State) (f : Gw → Gw) : (s.modGw f).memAux = s.memAux := rfl
@[simp] theorem State.modGw_berths (s : State) (f : Gw → Gw) : (s.modGw f).berths = s.berths := rfl
@[simp] theorem State.modGw_links (s : State) (f : Gw → Gw) : (s.modGw f).links = s.links := rfl
@[simp] theorem State.modGw_linkCtrs (s : State) (f : Gw → Gw) : (s.modGw f).linkCtrs = s.linkCtrs := rfl
@[simp] theorem State.modGw_kx (s : State) (f : Gw → Gw) : (s.modGw f).kx = s.kx := rfl
@[simp] theorem State.modGw_reds (s : State) (f : Gw → Gw) : (s.modGw f).reds = s.reds := rfl
@[simp] theorem State.modGw_gwAux (s : State) (f : Gw → Gw) : (s.modGw f).gwAux = s.gwAux := rfl
@[simp] theorem State.modGw_parts (s : State) (f : Gw → Gw) : (s.modGw f).parts = s.parts := rfl
@[simp] theorem State.modGw_runs (s : State) (f : Gw → Gw) : (s.modGw f).runs = s.runs := rfl
@[simp] theorem State.modGw_jr (s : State) (f : Gw → Gw) : (s.modGw f).jr = s.jr := rfl
@[simp] theorem State.modGw_pkg (s : State) (f : Gw → Gw) : (s.modGw f).pkg = s.pkg := rfl

/-! ## modGwAux -/

@[simp] theorem State.modGwAux_pending (s : State) (f : GwAux → GwAux) : (s.modGwAux f).pending = s.pending := rfl
@[simp] theorem State.modGwAux_deferred (s : State) (f : GwAux → GwAux) : (s.modGwAux f).deferred = s.deferred := rfl
@[simp] theorem State.modGwAux_free (s : State) (f : GwAux → GwAux) : (s.modGwAux f).free = s.free := rfl
@[simp] theorem State.modGwAux_supply (s : State) (f : GwAux → GwAux) : (s.modGwAux f).supply = s.supply := rfl
@[simp] theorem State.modGwAux_boot (s : State) (f : GwAux → GwAux) : (s.modGwAux f).boot = s.boot := rfl
@[simp] theorem State.modGwAux_sec (s : State) (f : GwAux → GwAux) : (s.modGwAux f).sec = s.sec := rfl
@[simp] theorem State.modGwAux_pt (s : State) (f : GwAux → GwAux) : (s.modGwAux f).pt = s.pt := rfl
@[simp] theorem State.modGwAux_ptAux (s : State) (f : GwAux → GwAux) : (s.modGwAux f).ptAux = s.ptAux := rfl
@[simp] theorem State.modGwAux_ptDies (s : State) (f : GwAux → GwAux) : (s.modGwAux f).ptDies = s.ptDies := rfl
@[simp] theorem State.modGwAux_hm (s : State) (f : GwAux → GwAux) : (s.modGwAux f).hm = s.hm := rfl
@[simp] theorem State.modGwAux_hmAux (s : State) (f : GwAux → GwAux) : (s.modGwAux f).hmAux = s.hmAux := rfl
@[simp] theorem State.modGwAux_events (s : State) (f : GwAux → GwAux) : (s.modGwAux f).events = s.events := rfl
@[simp] theorem State.modGwAux_i3c (s : State) (f : GwAux → GwAux) : (s.modGwAux f).i3c = s.i3c := rfl
@[simp] theorem State.modGwAux_mf (s : State) (f : GwAux → GwAux) : (s.modGwAux f).mf = s.mf := rfl
@[simp] theorem State.modGwAux_mfAux (s : State) (f : GwAux → GwAux) : (s.modGwAux f).mfAux = s.mfAux := rfl
@[simp] theorem State.modGwAux_clusters (s : State) (f : GwAux → GwAux) : (s.modGwAux f).clusters = s.clusters := rfl
@[simp] theorem State.modGwAux_mem (s : State) (f : GwAux → GwAux) : (s.modGwAux f).mem = s.mem := rfl
@[simp] theorem State.modGwAux_memDies (s : State) (f : GwAux → GwAux) : (s.modGwAux f).memDies = s.memDies := rfl
@[simp] theorem State.modGwAux_memAux (s : State) (f : GwAux → GwAux) : (s.modGwAux f).memAux = s.memAux := rfl
@[simp] theorem State.modGwAux_berths (s : State) (f : GwAux → GwAux) : (s.modGwAux f).berths = s.berths := rfl
@[simp] theorem State.modGwAux_links (s : State) (f : GwAux → GwAux) : (s.modGwAux f).links = s.links := rfl
@[simp] theorem State.modGwAux_linkCtrs (s : State) (f : GwAux → GwAux) : (s.modGwAux f).linkCtrs = s.linkCtrs := rfl
@[simp] theorem State.modGwAux_kx (s : State) (f : GwAux → GwAux) : (s.modGwAux f).kx = s.kx := rfl
@[simp] theorem State.modGwAux_reds (s : State) (f : GwAux → GwAux) : (s.modGwAux f).reds = s.reds := rfl
@[simp] theorem State.modGwAux_gw (s : State) (f : GwAux → GwAux) : (s.modGwAux f).gw = s.gw := rfl
@[simp] theorem State.modGwAux_parts (s : State) (f : GwAux → GwAux) : (s.modGwAux f).parts = s.parts := rfl
@[simp] theorem State.modGwAux_runs (s : State) (f : GwAux → GwAux) : (s.modGwAux f).runs = s.runs := rfl
@[simp] theorem State.modGwAux_jr (s : State) (f : GwAux → GwAux) : (s.modGwAux f).jr = s.jr := rfl
@[simp] theorem State.modGwAux_pkg (s : State) (f : GwAux → GwAux) : (s.modGwAux f).pkg = s.pkg := rfl

/-! ## modFill -/

@[simp] theorem State.modFill_pending (s : State) (f : Fill → Fill) : (s.modFill f).pending = s.pending := rfl
@[simp] theorem State.modFill_deferred (s : State) (f : Fill → Fill) : (s.modFill f).deferred = s.deferred := rfl
@[simp] theorem State.modFill_free (s : State) (f : Fill → Fill) : (s.modFill f).free = s.free := rfl
@[simp] theorem State.modFill_supply (s : State) (f : Fill → Fill) : (s.modFill f).supply = s.supply := rfl
@[simp] theorem State.modFill_boot (s : State) (f : Fill → Fill) : (s.modFill f).boot = s.boot := rfl
@[simp] theorem State.modFill_sec (s : State) (f : Fill → Fill) : (s.modFill f).sec = s.sec := rfl
@[simp] theorem State.modFill_pt (s : State) (f : Fill → Fill) : (s.modFill f).pt = s.pt := rfl
@[simp] theorem State.modFill_ptAux (s : State) (f : Fill → Fill) : (s.modFill f).ptAux = s.ptAux := rfl
@[simp] theorem State.modFill_ptDies (s : State) (f : Fill → Fill) : (s.modFill f).ptDies = s.ptDies := rfl
@[simp] theorem State.modFill_hm (s : State) (f : Fill → Fill) : (s.modFill f).hm = s.hm := rfl
@[simp] theorem State.modFill_hmAux (s : State) (f : Fill → Fill) : (s.modFill f).hmAux = s.hmAux := rfl
@[simp] theorem State.modFill_events (s : State) (f : Fill → Fill) : (s.modFill f).events = s.events := rfl
@[simp] theorem State.modFill_i3c (s : State) (f : Fill → Fill) : (s.modFill f).i3c = s.i3c := rfl
@[simp] theorem State.modFill_mf (s : State) (f : Fill → Fill) : (s.modFill f).mf = s.mf := rfl
@[simp] theorem State.modFill_mfAux (s : State) (f : Fill → Fill) : (s.modFill f).mfAux = s.mfAux := rfl
@[simp] theorem State.modFill_clusters (s : State) (f : Fill → Fill) : (s.modFill f).clusters = s.clusters := rfl
@[simp] theorem State.modFill_mem (s : State) (f : Fill → Fill) : (s.modFill f).mem = s.mem := rfl
@[simp] theorem State.modFill_memDies (s : State) (f : Fill → Fill) : (s.modFill f).memDies = s.memDies := rfl
@[simp] theorem State.modFill_memAux (s : State) (f : Fill → Fill) : (s.modFill f).memAux = s.memAux := rfl
@[simp] theorem State.modFill_berths (s : State) (f : Fill → Fill) : (s.modFill f).berths = s.berths := rfl
@[simp] theorem State.modFill_links (s : State) (f : Fill → Fill) : (s.modFill f).links = s.links := rfl
@[simp] theorem State.modFill_linkCtrs (s : State) (f : Fill → Fill) : (s.modFill f).linkCtrs = s.linkCtrs := rfl
@[simp] theorem State.modFill_kx (s : State) (f : Fill → Fill) : (s.modFill f).kx = s.kx := rfl
@[simp] theorem State.modFill_reds (s : State) (f : Fill → Fill) : (s.modFill f).reds = s.reds := rfl
@[simp] theorem State.modFill_gw (s : State) (f : Fill → Fill) : (s.modFill f).gw = s.gw := rfl
@[simp] theorem State.modFill_gwAux (s : State) (f : Fill → Fill) : (s.modFill f).gwAux = s.gwAux := rfl
@[simp] theorem State.modFill_parts (s : State) (f : Fill → Fill) : (s.modFill f).parts = s.parts := rfl
@[simp] theorem State.modFill_runs (s : State) (f : Fill → Fill) : (s.modFill f).runs = s.runs := rfl
@[simp] theorem State.modFill_pkg (s : State) (f : Fill → Fill) : (s.modFill f).pkg = s.pkg := rfl

/-! ## modI3c -/

@[simp] theorem State.modI3c_pending (s : State) (f : I3c → I3c) : (s.modI3c f).pending = s.pending := rfl
@[simp] theorem State.modI3c_deferred (s : State) (f : I3c → I3c) : (s.modI3c f).deferred = s.deferred := rfl
@[simp] theorem State.modI3c_free (s : State) (f : I3c → I3c) : (s.modI3c f).free = s.free := rfl
@[simp] theorem State.modI3c_supply (s : State) (f : I3c → I3c) : (s.modI3c f).supply = s.supply := rfl
@[simp] theorem State.modI3c_boot (s : State) (f : I3c → I3c) : (s.modI3c f).boot = s.boot := rfl
@[simp] theorem State.modI3c_sec (s : State) (f : I3c → I3c) : (s.modI3c f).sec = s.sec := rfl
@[simp] theorem State.modI3c_pt (s : State) (f : I3c → I3c) : (s.modI3c f).pt = s.pt := rfl
@[simp] theorem State.modI3c_ptAux (s : State) (f : I3c → I3c) : (s.modI3c f).ptAux = s.ptAux := rfl
@[simp] theorem State.modI3c_ptDies (s : State) (f : I3c → I3c) : (s.modI3c f).ptDies = s.ptDies := rfl
@[simp] theorem State.modI3c_hm (s : State) (f : I3c → I3c) : (s.modI3c f).hm = s.hm := rfl
@[simp] theorem State.modI3c_hmAux (s : State) (f : I3c → I3c) : (s.modI3c f).hmAux = s.hmAux := rfl
@[simp] theorem State.modI3c_events (s : State) (f : I3c → I3c) : (s.modI3c f).events = s.events := rfl
@[simp] theorem State.modI3c_mf (s : State) (f : I3c → I3c) : (s.modI3c f).mf = s.mf := rfl
@[simp] theorem State.modI3c_mfAux (s : State) (f : I3c → I3c) : (s.modI3c f).mfAux = s.mfAux := rfl
@[simp] theorem State.modI3c_clusters (s : State) (f : I3c → I3c) : (s.modI3c f).clusters = s.clusters := rfl
@[simp] theorem State.modI3c_mem (s : State) (f : I3c → I3c) : (s.modI3c f).mem = s.mem := rfl
@[simp] theorem State.modI3c_memDies (s : State) (f : I3c → I3c) : (s.modI3c f).memDies = s.memDies := rfl
@[simp] theorem State.modI3c_memAux (s : State) (f : I3c → I3c) : (s.modI3c f).memAux = s.memAux := rfl
@[simp] theorem State.modI3c_berths (s : State) (f : I3c → I3c) : (s.modI3c f).berths = s.berths := rfl
@[simp] theorem State.modI3c_links (s : State) (f : I3c → I3c) : (s.modI3c f).links = s.links := rfl
@[simp] theorem State.modI3c_linkCtrs (s : State) (f : I3c → I3c) : (s.modI3c f).linkCtrs = s.linkCtrs := rfl
@[simp] theorem State.modI3c_kx (s : State) (f : I3c → I3c) : (s.modI3c f).kx = s.kx := rfl
@[simp] theorem State.modI3c_reds (s : State) (f : I3c → I3c) : (s.modI3c f).reds = s.reds := rfl
@[simp] theorem State.modI3c_gw (s : State) (f : I3c → I3c) : (s.modI3c f).gw = s.gw := rfl
@[simp] theorem State.modI3c_gwAux (s : State) (f : I3c → I3c) : (s.modI3c f).gwAux = s.gwAux := rfl
@[simp] theorem State.modI3c_parts (s : State) (f : I3c → I3c) : (s.modI3c f).parts = s.parts := rfl
@[simp] theorem State.modI3c_runs (s : State) (f : I3c → I3c) : (s.modI3c f).runs = s.runs := rfl
@[simp] theorem State.modI3c_jr (s : State) (f : I3c → I3c) : (s.modI3c f).jr = s.jr := rfl
@[simp] theorem State.modI3c_pkg (s : State) (f : I3c → I3c) : (s.modI3c f).pkg = s.pkg := rfl

/-! ## modKx -/

@[simp] theorem State.modKx_pending (s : State) (f : Kx → Kx) : (s.modKx f).pending = s.pending := rfl
@[simp] theorem State.modKx_deferred (s : State) (f : Kx → Kx) : (s.modKx f).deferred = s.deferred := rfl
@[simp] theorem State.modKx_free (s : State) (f : Kx → Kx) : (s.modKx f).free = s.free := rfl
@[simp] theorem State.modKx_supply (s : State) (f : Kx → Kx) : (s.modKx f).supply = s.supply := rfl
@[simp] theorem State.modKx_boot (s : State) (f : Kx → Kx) : (s.modKx f).boot = s.boot := rfl
@[simp] theorem State.modKx_sec (s : State) (f : Kx → Kx) : (s.modKx f).sec = s.sec := rfl
@[simp] theorem State.modKx_pt (s : State) (f : Kx → Kx) : (s.modKx f).pt = s.pt := rfl
@[simp] theorem State.modKx_ptAux (s : State) (f : Kx → Kx) : (s.modKx f).ptAux = s.ptAux := rfl
@[simp] theorem State.modKx_ptDies (s : State) (f : Kx → Kx) : (s.modKx f).ptDies = s.ptDies := rfl
@[simp] theorem State.modKx_hm (s : State) (f : Kx → Kx) : (s.modKx f).hm = s.hm := rfl
@[simp] theorem State.modKx_hmAux (s : State) (f : Kx → Kx) : (s.modKx f).hmAux = s.hmAux := rfl
@[simp] theorem State.modKx_events (s : State) (f : Kx → Kx) : (s.modKx f).events = s.events := rfl
@[simp] theorem State.modKx_i3c (s : State) (f : Kx → Kx) : (s.modKx f).i3c = s.i3c := rfl
@[simp] theorem State.modKx_mf (s : State) (f : Kx → Kx) : (s.modKx f).mf = s.mf := rfl
@[simp] theorem State.modKx_mfAux (s : State) (f : Kx → Kx) : (s.modKx f).mfAux = s.mfAux := rfl
@[simp] theorem State.modKx_clusters (s : State) (f : Kx → Kx) : (s.modKx f).clusters = s.clusters := rfl
@[simp] theorem State.modKx_mem (s : State) (f : Kx → Kx) : (s.modKx f).mem = s.mem := rfl
@[simp] theorem State.modKx_memDies (s : State) (f : Kx → Kx) : (s.modKx f).memDies = s.memDies := rfl
@[simp] theorem State.modKx_memAux (s : State) (f : Kx → Kx) : (s.modKx f).memAux = s.memAux := rfl
@[simp] theorem State.modKx_berths (s : State) (f : Kx → Kx) : (s.modKx f).berths = s.berths := rfl
@[simp] theorem State.modKx_links (s : State) (f : Kx → Kx) : (s.modKx f).links = s.links := rfl
@[simp] theorem State.modKx_linkCtrs (s : State) (f : Kx → Kx) : (s.modKx f).linkCtrs = s.linkCtrs := rfl
@[simp] theorem State.modKx_reds (s : State) (f : Kx → Kx) : (s.modKx f).reds = s.reds := rfl
@[simp] theorem State.modKx_gw (s : State) (f : Kx → Kx) : (s.modKx f).gw = s.gw := rfl
@[simp] theorem State.modKx_gwAux (s : State) (f : Kx → Kx) : (s.modKx f).gwAux = s.gwAux := rfl
@[simp] theorem State.modKx_parts (s : State) (f : Kx → Kx) : (s.modKx f).parts = s.parts := rfl
@[simp] theorem State.modKx_runs (s : State) (f : Kx → Kx) : (s.modKx f).runs = s.runs := rfl
@[simp] theorem State.modKx_jr (s : State) (f : Kx → Kx) : (s.modKx f).jr = s.jr := rfl
@[simp] theorem State.modKx_pkg (s : State) (f : Kx → Kx) : (s.modKx f).pkg = s.pkg := rfl

/-! ## modMf -/

@[simp] theorem State.modMf_pending (s : State) (f : Mf → Mf) : (s.modMf f).pending = s.pending := rfl
@[simp] theorem State.modMf_deferred (s : State) (f : Mf → Mf) : (s.modMf f).deferred = s.deferred := rfl
@[simp] theorem State.modMf_free (s : State) (f : Mf → Mf) : (s.modMf f).free = s.free := rfl
@[simp] theorem State.modMf_supply (s : State) (f : Mf → Mf) : (s.modMf f).supply = s.supply := rfl
@[simp] theorem State.modMf_boot (s : State) (f : Mf → Mf) : (s.modMf f).boot = s.boot := rfl
@[simp] theorem State.modMf_sec (s : State) (f : Mf → Mf) : (s.modMf f).sec = s.sec := rfl
@[simp] theorem State.modMf_pt (s : State) (f : Mf → Mf) : (s.modMf f).pt = s.pt := rfl
@[simp] theorem State.modMf_ptAux (s : State) (f : Mf → Mf) : (s.modMf f).ptAux = s.ptAux := rfl
@[simp] theorem State.modMf_ptDies (s : State) (f : Mf → Mf) : (s.modMf f).ptDies = s.ptDies := rfl
@[simp] theorem State.modMf_hm (s : State) (f : Mf → Mf) : (s.modMf f).hm = s.hm := rfl
@[simp] theorem State.modMf_hmAux (s : State) (f : Mf → Mf) : (s.modMf f).hmAux = s.hmAux := rfl
@[simp] theorem State.modMf_events (s : State) (f : Mf → Mf) : (s.modMf f).events = s.events := rfl
@[simp] theorem State.modMf_i3c (s : State) (f : Mf → Mf) : (s.modMf f).i3c = s.i3c := rfl
@[simp] theorem State.modMf_mfAux (s : State) (f : Mf → Mf) : (s.modMf f).mfAux = s.mfAux := rfl
@[simp] theorem State.modMf_clusters (s : State) (f : Mf → Mf) : (s.modMf f).clusters = s.clusters := rfl
@[simp] theorem State.modMf_mem (s : State) (f : Mf → Mf) : (s.modMf f).mem = s.mem := rfl
@[simp] theorem State.modMf_memDies (s : State) (f : Mf → Mf) : (s.modMf f).memDies = s.memDies := rfl
@[simp] theorem State.modMf_memAux (s : State) (f : Mf → Mf) : (s.modMf f).memAux = s.memAux := rfl
@[simp] theorem State.modMf_berths (s : State) (f : Mf → Mf) : (s.modMf f).berths = s.berths := rfl
@[simp] theorem State.modMf_links (s : State) (f : Mf → Mf) : (s.modMf f).links = s.links := rfl
@[simp] theorem State.modMf_linkCtrs (s : State) (f : Mf → Mf) : (s.modMf f).linkCtrs = s.linkCtrs := rfl
@[simp] theorem State.modMf_kx (s : State) (f : Mf → Mf) : (s.modMf f).kx = s.kx := rfl
@[simp] theorem State.modMf_reds (s : State) (f : Mf → Mf) : (s.modMf f).reds = s.reds := rfl
@[simp] theorem State.modMf_gw (s : State) (f : Mf → Mf) : (s.modMf f).gw = s.gw := rfl
@[simp] theorem State.modMf_gwAux (s : State) (f : Mf → Mf) : (s.modMf f).gwAux = s.gwAux := rfl
@[simp] theorem State.modMf_parts (s : State) (f : Mf → Mf) : (s.modMf f).parts = s.parts := rfl
@[simp] theorem State.modMf_runs (s : State) (f : Mf → Mf) : (s.modMf f).runs = s.runs := rfl
@[simp] theorem State.modMf_jr (s : State) (f : Mf → Mf) : (s.modMf f).jr = s.jr := rfl
@[simp] theorem State.modMf_pkg (s : State) (f : Mf → Mf) : (s.modMf f).pkg = s.pkg := rfl

/-! ## modMfAux -/

@[simp] theorem State.modMfAux_pending (s : State) (f : MfAux → MfAux) : (s.modMfAux f).pending = s.pending := rfl
@[simp] theorem State.modMfAux_deferred (s : State) (f : MfAux → MfAux) : (s.modMfAux f).deferred = s.deferred := rfl
@[simp] theorem State.modMfAux_free (s : State) (f : MfAux → MfAux) : (s.modMfAux f).free = s.free := rfl
@[simp] theorem State.modMfAux_supply (s : State) (f : MfAux → MfAux) : (s.modMfAux f).supply = s.supply := rfl
@[simp] theorem State.modMfAux_boot (s : State) (f : MfAux → MfAux) : (s.modMfAux f).boot = s.boot := rfl
@[simp] theorem State.modMfAux_sec (s : State) (f : MfAux → MfAux) : (s.modMfAux f).sec = s.sec := rfl
@[simp] theorem State.modMfAux_pt (s : State) (f : MfAux → MfAux) : (s.modMfAux f).pt = s.pt := rfl
@[simp] theorem State.modMfAux_ptAux (s : State) (f : MfAux → MfAux) : (s.modMfAux f).ptAux = s.ptAux := rfl
@[simp] theorem State.modMfAux_ptDies (s : State) (f : MfAux → MfAux) : (s.modMfAux f).ptDies = s.ptDies := rfl
@[simp] theorem State.modMfAux_hm (s : State) (f : MfAux → MfAux) : (s.modMfAux f).hm = s.hm := rfl
@[simp] theorem State.modMfAux_hmAux (s : State) (f : MfAux → MfAux) : (s.modMfAux f).hmAux = s.hmAux := rfl
@[simp] theorem State.modMfAux_events (s : State) (f : MfAux → MfAux) : (s.modMfAux f).events = s.events := rfl
@[simp] theorem State.modMfAux_i3c (s : State) (f : MfAux → MfAux) : (s.modMfAux f).i3c = s.i3c := rfl
@[simp] theorem State.modMfAux_mf (s : State) (f : MfAux → MfAux) : (s.modMfAux f).mf = s.mf := rfl
@[simp] theorem State.modMfAux_clusters (s : State) (f : MfAux → MfAux) : (s.modMfAux f).clusters = s.clusters := rfl
@[simp] theorem State.modMfAux_mem (s : State) (f : MfAux → MfAux) : (s.modMfAux f).mem = s.mem := rfl
@[simp] theorem State.modMfAux_memDies (s : State) (f : MfAux → MfAux) : (s.modMfAux f).memDies = s.memDies := rfl
@[simp] theorem State.modMfAux_memAux (s : State) (f : MfAux → MfAux) : (s.modMfAux f).memAux = s.memAux := rfl
@[simp] theorem State.modMfAux_berths (s : State) (f : MfAux → MfAux) : (s.modMfAux f).berths = s.berths := rfl
@[simp] theorem State.modMfAux_links (s : State) (f : MfAux → MfAux) : (s.modMfAux f).links = s.links := rfl
@[simp] theorem State.modMfAux_linkCtrs (s : State) (f : MfAux → MfAux) : (s.modMfAux f).linkCtrs = s.linkCtrs := rfl
@[simp] theorem State.modMfAux_kx (s : State) (f : MfAux → MfAux) : (s.modMfAux f).kx = s.kx := rfl
@[simp] theorem State.modMfAux_reds (s : State) (f : MfAux → MfAux) : (s.modMfAux f).reds = s.reds := rfl
@[simp] theorem State.modMfAux_gw (s : State) (f : MfAux → MfAux) : (s.modMfAux f).gw = s.gw := rfl
@[simp] theorem State.modMfAux_gwAux (s : State) (f : MfAux → MfAux) : (s.modMfAux f).gwAux = s.gwAux := rfl
@[simp] theorem State.modMfAux_parts (s : State) (f : MfAux → MfAux) : (s.modMfAux f).parts = s.parts := rfl
@[simp] theorem State.modMfAux_runs (s : State) (f : MfAux → MfAux) : (s.modMfAux f).runs = s.runs := rfl
@[simp] theorem State.modMfAux_jr (s : State) (f : MfAux → MfAux) : (s.modMfAux f).jr = s.jr := rfl
@[simp] theorem State.modMfAux_pkg (s : State) (f : MfAux → MfAux) : (s.modMfAux f).pkg = s.pkg := rfl

/-! ## modPrio -/

@[simp] theorem State.modPrio_pending (s : State) (n : Nat) (f : Prio → Prio) : (s.modPrio n f).pending = s.pending := rfl
@[simp] theorem State.modPrio_deferred (s : State) (n : Nat) (f : Prio → Prio) : (s.modPrio n f).deferred = s.deferred := rfl
@[simp] theorem State.modPrio_free (s : State) (n : Nat) (f : Prio → Prio) : (s.modPrio n f).free = s.free := rfl
@[simp] theorem State.modPrio_supply (s : State) (n : Nat) (f : Prio → Prio) : (s.modPrio n f).supply = s.supply := rfl
@[simp] theorem State.modPrio_boot (s : State) (n : Nat) (f : Prio → Prio) : (s.modPrio n f).boot = s.boot := rfl
@[simp] theorem State.modPrio_sec (s : State) (n : Nat) (f : Prio → Prio) : (s.modPrio n f).sec = s.sec := rfl
@[simp] theorem State.modPrio_pt (s : State) (n : Nat) (f : Prio → Prio) : (s.modPrio n f).pt = s.pt := rfl
@[simp] theorem State.modPrio_ptAux (s : State) (n : Nat) (f : Prio → Prio) : (s.modPrio n f).ptAux = s.ptAux := rfl
@[simp] theorem State.modPrio_ptDies (s : State) (n : Nat) (f : Prio → Prio) : (s.modPrio n f).ptDies = s.ptDies := rfl
@[simp] theorem State.modPrio_hm (s : State) (n : Nat) (f : Prio → Prio) : (s.modPrio n f).hm = s.hm := rfl
@[simp] theorem State.modPrio_hmAux (s : State) (n : Nat) (f : Prio → Prio) : (s.modPrio n f).hmAux = s.hmAux := rfl
@[simp] theorem State.modPrio_events (s : State) (n : Nat) (f : Prio → Prio) : (s.modPrio n f).events = s.events := rfl
@[simp] theorem State.modPrio_i3c (s : State) (n : Nat) (f : Prio → Prio) : (s.modPrio n f).i3c = s.i3c := rfl
@[simp] theorem State.modPrio_mf (s : State) (n : Nat) (f : Prio → Prio) : (s.modPrio n f).mf = s.mf := rfl
@[simp] theorem State.modPrio_mfAux (s : State) (n : Nat) (f : Prio → Prio) : (s.modPrio n f).mfAux = s.mfAux := rfl
@[simp] theorem State.modPrio_clusters (s : State) (n : Nat) (f : Prio → Prio) : (s.modPrio n f).clusters = s.clusters := rfl
@[simp] theorem State.modPrio_mem (s : State) (n : Nat) (f : Prio → Prio) : (s.modPrio n f).mem = s.mem := rfl
@[simp] theorem State.modPrio_memDies (s : State) (n : Nat) (f : Prio → Prio) : (s.modPrio n f).memDies = s.memDies := rfl
@[simp] theorem State.modPrio_memAux (s : State) (n : Nat) (f : Prio → Prio) : (s.modPrio n f).memAux = s.memAux := rfl
@[simp] theorem State.modPrio_berths (s : State) (n : Nat) (f : Prio → Prio) : (s.modPrio n f).berths = s.berths := rfl
@[simp] theorem State.modPrio_links (s : State) (n : Nat) (f : Prio → Prio) : (s.modPrio n f).links = s.links := rfl
@[simp] theorem State.modPrio_linkCtrs (s : State) (n : Nat) (f : Prio → Prio) : (s.modPrio n f).linkCtrs = s.linkCtrs := rfl
@[simp] theorem State.modPrio_kx (s : State) (n : Nat) (f : Prio → Prio) : (s.modPrio n f).kx = s.kx := rfl
@[simp] theorem State.modPrio_reds (s : State) (n : Nat) (f : Prio → Prio) : (s.modPrio n f).reds = s.reds := rfl
@[simp] theorem State.modPrio_gwAux (s : State) (n : Nat) (f : Prio → Prio) : (s.modPrio n f).gwAux = s.gwAux := rfl
@[simp] theorem State.modPrio_parts (s : State) (n : Nat) (f : Prio → Prio) : (s.modPrio n f).parts = s.parts := rfl
@[simp] theorem State.modPrio_runs (s : State) (n : Nat) (f : Prio → Prio) : (s.modPrio n f).runs = s.runs := rfl
@[simp] theorem State.modPrio_jr (s : State) (n : Nat) (f : Prio → Prio) : (s.modPrio n f).jr = s.jr := rfl
@[simp] theorem State.modPrio_pkg (s : State) (n : Nat) (f : Prio → Prio) : (s.modPrio n f).pkg = s.pkg := rfl

/-! ## setCluster -/

@[simp] theorem State.setCluster_pending (s : State) (d p : Nat) (c : Cluster) : (s.setCluster d p c).pending = s.pending := rfl
@[simp] theorem State.setCluster_deferred (s : State) (d p : Nat) (c : Cluster) : (s.setCluster d p c).deferred = s.deferred := rfl
@[simp] theorem State.setCluster_free (s : State) (d p : Nat) (c : Cluster) : (s.setCluster d p c).free = s.free := rfl
@[simp] theorem State.setCluster_supply (s : State) (d p : Nat) (c : Cluster) : (s.setCluster d p c).supply = s.supply := rfl
@[simp] theorem State.setCluster_boot (s : State) (d p : Nat) (c : Cluster) : (s.setCluster d p c).boot = s.boot := rfl
@[simp] theorem State.setCluster_sec (s : State) (d p : Nat) (c : Cluster) : (s.setCluster d p c).sec = s.sec := rfl
@[simp] theorem State.setCluster_pt (s : State) (d p : Nat) (c : Cluster) : (s.setCluster d p c).pt = s.pt := rfl
@[simp] theorem State.setCluster_ptAux (s : State) (d p : Nat) (c : Cluster) : (s.setCluster d p c).ptAux = s.ptAux := rfl
@[simp] theorem State.setCluster_ptDies (s : State) (d p : Nat) (c : Cluster) : (s.setCluster d p c).ptDies = s.ptDies := rfl
@[simp] theorem State.setCluster_hm (s : State) (d p : Nat) (c : Cluster) : (s.setCluster d p c).hm = s.hm := rfl
@[simp] theorem State.setCluster_hmAux (s : State) (d p : Nat) (c : Cluster) : (s.setCluster d p c).hmAux = s.hmAux := rfl
@[simp] theorem State.setCluster_events (s : State) (d p : Nat) (c : Cluster) : (s.setCluster d p c).events = s.events := rfl
@[simp] theorem State.setCluster_i3c (s : State) (d p : Nat) (c : Cluster) : (s.setCluster d p c).i3c = s.i3c := rfl
@[simp] theorem State.setCluster_mf (s : State) (d p : Nat) (c : Cluster) : (s.setCluster d p c).mf = s.mf := rfl
@[simp] theorem State.setCluster_mfAux (s : State) (d p : Nat) (c : Cluster) : (s.setCluster d p c).mfAux = s.mfAux := rfl
@[simp] theorem State.setCluster_mem (s : State) (d p : Nat) (c : Cluster) : (s.setCluster d p c).mem = s.mem := rfl
@[simp] theorem State.setCluster_memDies (s : State) (d p : Nat) (c : Cluster) : (s.setCluster d p c).memDies = s.memDies := rfl
@[simp] theorem State.setCluster_memAux (s : State) (d p : Nat) (c : Cluster) : (s.setCluster d p c).memAux = s.memAux := rfl
@[simp] theorem State.setCluster_berths (s : State) (d p : Nat) (c : Cluster) : (s.setCluster d p c).berths = s.berths := rfl
@[simp] theorem State.setCluster_links (s : State) (d p : Nat) (c : Cluster) : (s.setCluster d p c).links = s.links := rfl
@[simp] theorem State.setCluster_linkCtrs (s : State) (d p : Nat) (c : Cluster) : (s.setCluster d p c).linkCtrs = s.linkCtrs := rfl
@[simp] theorem State.setCluster_kx (s : State) (d p : Nat) (c : Cluster) : (s.setCluster d p c).kx = s.kx := rfl
@[simp] theorem State.setCluster_reds (s : State) (d p : Nat) (c : Cluster) : (s.setCluster d p c).reds = s.reds := rfl
@[simp] theorem State.setCluster_gw (s : State) (d p : Nat) (c : Cluster) : (s.setCluster d p c).gw = s.gw := rfl
@[simp] theorem State.setCluster_gwAux (s : State) (d p : Nat) (c : Cluster) : (s.setCluster d p c).gwAux = s.gwAux := rfl
@[simp] theorem State.setCluster_parts (s : State) (d p : Nat) (c : Cluster) : (s.setCluster d p c).parts = s.parts := rfl
@[simp] theorem State.setCluster_runs (s : State) (d p : Nat) (c : Cluster) : (s.setCluster d p c).runs = s.runs := rfl
@[simp] theorem State.setCluster_jr (s : State) (d p : Nat) (c : Cluster) : (s.setCluster d p c).jr = s.jr := rfl
@[simp] theorem State.setCluster_pkg (s : State) (d p : Nat) (c : Cluster) : (s.setCluster d p c).pkg = s.pkg := rfl

/-! ## setClusterAt -/

@[simp] theorem State.setClusterAt_pending (s : State) (k : Nat) (c : Cluster) : (s.setClusterAt k c).pending = s.pending := rfl
@[simp] theorem State.setClusterAt_deferred (s : State) (k : Nat) (c : Cluster) : (s.setClusterAt k c).deferred = s.deferred := rfl
@[simp] theorem State.setClusterAt_free (s : State) (k : Nat) (c : Cluster) : (s.setClusterAt k c).free = s.free := rfl
@[simp] theorem State.setClusterAt_supply (s : State) (k : Nat) (c : Cluster) : (s.setClusterAt k c).supply = s.supply := rfl
@[simp] theorem State.setClusterAt_boot (s : State) (k : Nat) (c : Cluster) : (s.setClusterAt k c).boot = s.boot := rfl
@[simp] theorem State.setClusterAt_sec (s : State) (k : Nat) (c : Cluster) : (s.setClusterAt k c).sec = s.sec := rfl
@[simp] theorem State.setClusterAt_pt (s : State) (k : Nat) (c : Cluster) : (s.setClusterAt k c).pt = s.pt := rfl
@[simp] theorem State.setClusterAt_ptAux (s : State) (k : Nat) (c : Cluster) : (s.setClusterAt k c).ptAux = s.ptAux := rfl
@[simp] theorem State.setClusterAt_ptDies (s : State) (k : Nat) (c : Cluster) : (s.setClusterAt k c).ptDies = s.ptDies := rfl
@[simp] theorem State.setClusterAt_hm (s : State) (k : Nat) (c : Cluster) : (s.setClusterAt k c).hm = s.hm := rfl
@[simp] theorem State.setClusterAt_hmAux (s : State) (k : Nat) (c : Cluster) : (s.setClusterAt k c).hmAux = s.hmAux := rfl
@[simp] theorem State.setClusterAt_events (s : State) (k : Nat) (c : Cluster) : (s.setClusterAt k c).events = s.events := rfl
@[simp] theorem State.setClusterAt_i3c (s : State) (k : Nat) (c : Cluster) : (s.setClusterAt k c).i3c = s.i3c := rfl
@[simp] theorem State.setClusterAt_mf (s : State) (k : Nat) (c : Cluster) : (s.setClusterAt k c).mf = s.mf := rfl
@[simp] theorem State.setClusterAt_mfAux (s : State) (k : Nat) (c : Cluster) : (s.setClusterAt k c).mfAux = s.mfAux := rfl
@[simp] theorem State.setClusterAt_mem (s : State) (k : Nat) (c : Cluster) : (s.setClusterAt k c).mem = s.mem := rfl
@[simp] theorem State.setClusterAt_memDies (s : State) (k : Nat) (c : Cluster) : (s.setClusterAt k c).memDies = s.memDies := rfl
@[simp] theorem State.setClusterAt_memAux (s : State) (k : Nat) (c : Cluster) : (s.setClusterAt k c).memAux = s.memAux := rfl
@[simp] theorem State.setClusterAt_berths (s : State) (k : Nat) (c : Cluster) : (s.setClusterAt k c).berths = s.berths := rfl
@[simp] theorem State.setClusterAt_links (s : State) (k : Nat) (c : Cluster) : (s.setClusterAt k c).links = s.links := rfl
@[simp] theorem State.setClusterAt_linkCtrs (s : State) (k : Nat) (c : Cluster) : (s.setClusterAt k c).linkCtrs = s.linkCtrs := rfl
@[simp] theorem State.setClusterAt_kx (s : State) (k : Nat) (c : Cluster) : (s.setClusterAt k c).kx = s.kx := rfl
@[simp] theorem State.setClusterAt_reds (s : State) (k : Nat) (c : Cluster) : (s.setClusterAt k c).reds = s.reds := rfl
@[simp] theorem State.setClusterAt_gw (s : State) (k : Nat) (c : Cluster) : (s.setClusterAt k c).gw = s.gw := rfl
@[simp] theorem State.setClusterAt_gwAux (s : State) (k : Nat) (c : Cluster) : (s.setClusterAt k c).gwAux = s.gwAux := rfl
@[simp] theorem State.setClusterAt_parts (s : State) (k : Nat) (c : Cluster) : (s.setClusterAt k c).parts = s.parts := rfl
@[simp] theorem State.setClusterAt_runs (s : State) (k : Nat) (c : Cluster) : (s.setClusterAt k c).runs = s.runs := rfl
@[simp] theorem State.setClusterAt_jr (s : State) (k : Nat) (c : Cluster) : (s.setClusterAt k c).jr = s.jr := rfl
@[simp] theorem State.setClusterAt_pkg (s : State) (k : Nat) (c : Cluster) : (s.setClusterAt k c).pkg = s.pkg := rfl

/-! ## modCluster -/

@[simp] theorem State.modCluster_pending (s : State) (d p : Nat) (f : Cluster → Cluster) : (s.modCluster d p f).pending = s.pending := rfl
@[simp] theorem State.modCluster_deferred (s : State) (d p : Nat) (f : Cluster → Cluster) : (s.modCluster d p f).deferred = s.deferred := rfl
@[simp] theorem State.modCluster_free (s : State) (d p : Nat) (f : Cluster → Cluster) : (s.modCluster d p f).free = s.free := rfl
@[simp] theorem State.modCluster_supply (s : State) (d p : Nat) (f : Cluster → Cluster) : (s.modCluster d p f).supply = s.supply := rfl
@[simp] theorem State.modCluster_boot (s : State) (d p : Nat) (f : Cluster → Cluster) : (s.modCluster d p f).boot = s.boot := rfl
@[simp] theorem State.modCluster_sec (s : State) (d p : Nat) (f : Cluster → Cluster) : (s.modCluster d p f).sec = s.sec := rfl
@[simp] theorem State.modCluster_pt (s : State) (d p : Nat) (f : Cluster → Cluster) : (s.modCluster d p f).pt = s.pt := rfl
@[simp] theorem State.modCluster_ptAux (s : State) (d p : Nat) (f : Cluster → Cluster) : (s.modCluster d p f).ptAux = s.ptAux := rfl
@[simp] theorem State.modCluster_ptDies (s : State) (d p : Nat) (f : Cluster → Cluster) : (s.modCluster d p f).ptDies = s.ptDies := rfl
@[simp] theorem State.modCluster_hm (s : State) (d p : Nat) (f : Cluster → Cluster) : (s.modCluster d p f).hm = s.hm := rfl
@[simp] theorem State.modCluster_hmAux (s : State) (d p : Nat) (f : Cluster → Cluster) : (s.modCluster d p f).hmAux = s.hmAux := rfl
@[simp] theorem State.modCluster_events (s : State) (d p : Nat) (f : Cluster → Cluster) : (s.modCluster d p f).events = s.events := rfl
@[simp] theorem State.modCluster_i3c (s : State) (d p : Nat) (f : Cluster → Cluster) : (s.modCluster d p f).i3c = s.i3c := rfl
@[simp] theorem State.modCluster_mf (s : State) (d p : Nat) (f : Cluster → Cluster) : (s.modCluster d p f).mf = s.mf := rfl
@[simp] theorem State.modCluster_mfAux (s : State) (d p : Nat) (f : Cluster → Cluster) : (s.modCluster d p f).mfAux = s.mfAux := rfl
@[simp] theorem State.modCluster_mem (s : State) (d p : Nat) (f : Cluster → Cluster) : (s.modCluster d p f).mem = s.mem := rfl
@[simp] theorem State.modCluster_memDies (s : State) (d p : Nat) (f : Cluster → Cluster) : (s.modCluster d p f).memDies = s.memDies := rfl
@[simp] theorem State.modCluster_memAux (s : State) (d p : Nat) (f : Cluster → Cluster) : (s.modCluster d p f).memAux = s.memAux := rfl
@[simp] theorem State.modCluster_berths (s : State) (d p : Nat) (f : Cluster → Cluster) : (s.modCluster d p f).berths = s.berths := rfl
@[simp] theorem State.modCluster_links (s : State) (d p : Nat) (f : Cluster → Cluster) : (s.modCluster d p f).links = s.links := rfl
@[simp] theorem State.modCluster_linkCtrs (s : State) (d p : Nat) (f : Cluster → Cluster) : (s.modCluster d p f).linkCtrs = s.linkCtrs := rfl
@[simp] theorem State.modCluster_kx (s : State) (d p : Nat) (f : Cluster → Cluster) : (s.modCluster d p f).kx = s.kx := rfl
@[simp] theorem State.modCluster_reds (s : State) (d p : Nat) (f : Cluster → Cluster) : (s.modCluster d p f).reds = s.reds := rfl
@[simp] theorem State.modCluster_gw (s : State) (d p : Nat) (f : Cluster → Cluster) : (s.modCluster d p f).gw = s.gw := rfl
@[simp] theorem State.modCluster_gwAux (s : State) (d p : Nat) (f : Cluster → Cluster) : (s.modCluster d p f).gwAux = s.gwAux := rfl
@[simp] theorem State.modCluster_parts (s : State) (d p : Nat) (f : Cluster → Cluster) : (s.modCluster d p f).parts = s.parts := rfl
@[simp] theorem State.modCluster_runs (s : State) (d p : Nat) (f : Cluster → Cluster) : (s.modCluster d p f).runs = s.runs := rfl
@[simp] theorem State.modCluster_jr (s : State) (d p : Nat) (f : Cluster → Cluster) : (s.modCluster d p f).jr = s.jr := rfl
@[simp] theorem State.modCluster_pkg (s : State) (d p : Nat) (f : Cluster → Cluster) : (s.modCluster d p f).pkg = s.pkg := rfl

/-! ## setBerth -/

@[simp] theorem State.setBerth_pending (s : State) (n : Nat) (b : Berth) : (s.setBerth n b).pending = s.pending := rfl
@[simp] theorem State.setBerth_deferred (s : State) (n : Nat) (b : Berth) : (s.setBerth n b).deferred = s.deferred := rfl
@[simp] theorem State.setBerth_free (s : State) (n : Nat) (b : Berth) : (s.setBerth n b).free = s.free := rfl
@[simp] theorem State.setBerth_supply (s : State) (n : Nat) (b : Berth) : (s.setBerth n b).supply = s.supply := rfl
@[simp] theorem State.setBerth_boot (s : State) (n : Nat) (b : Berth) : (s.setBerth n b).boot = s.boot := rfl
@[simp] theorem State.setBerth_sec (s : State) (n : Nat) (b : Berth) : (s.setBerth n b).sec = s.sec := rfl
@[simp] theorem State.setBerth_pt (s : State) (n : Nat) (b : Berth) : (s.setBerth n b).pt = s.pt := rfl
@[simp] theorem State.setBerth_ptAux (s : State) (n : Nat) (b : Berth) : (s.setBerth n b).ptAux = s.ptAux := rfl
@[simp] theorem State.setBerth_ptDies (s : State) (n : Nat) (b : Berth) : (s.setBerth n b).ptDies = s.ptDies := rfl
@[simp] theorem State.setBerth_hm (s : State) (n : Nat) (b : Berth) : (s.setBerth n b).hm = s.hm := rfl
@[simp] theorem State.setBerth_hmAux (s : State) (n : Nat) (b : Berth) : (s.setBerth n b).hmAux = s.hmAux := rfl
@[simp] theorem State.setBerth_events (s : State) (n : Nat) (b : Berth) : (s.setBerth n b).events = s.events := rfl
@[simp] theorem State.setBerth_i3c (s : State) (n : Nat) (b : Berth) : (s.setBerth n b).i3c = s.i3c := rfl
@[simp] theorem State.setBerth_mf (s : State) (n : Nat) (b : Berth) : (s.setBerth n b).mf = s.mf := rfl
@[simp] theorem State.setBerth_mfAux (s : State) (n : Nat) (b : Berth) : (s.setBerth n b).mfAux = s.mfAux := rfl
@[simp] theorem State.setBerth_clusters (s : State) (n : Nat) (b : Berth) : (s.setBerth n b).clusters = s.clusters := rfl
@[simp] theorem State.setBerth_mem (s : State) (n : Nat) (b : Berth) : (s.setBerth n b).mem = s.mem := rfl
@[simp] theorem State.setBerth_memDies (s : State) (n : Nat) (b : Berth) : (s.setBerth n b).memDies = s.memDies := rfl
@[simp] theorem State.setBerth_memAux (s : State) (n : Nat) (b : Berth) : (s.setBerth n b).memAux = s.memAux := rfl
@[simp] theorem State.setBerth_links (s : State) (n : Nat) (b : Berth) : (s.setBerth n b).links = s.links := rfl
@[simp] theorem State.setBerth_linkCtrs (s : State) (n : Nat) (b : Berth) : (s.setBerth n b).linkCtrs = s.linkCtrs := rfl
@[simp] theorem State.setBerth_kx (s : State) (n : Nat) (b : Berth) : (s.setBerth n b).kx = s.kx := rfl
@[simp] theorem State.setBerth_reds (s : State) (n : Nat) (b : Berth) : (s.setBerth n b).reds = s.reds := rfl
@[simp] theorem State.setBerth_gw (s : State) (n : Nat) (b : Berth) : (s.setBerth n b).gw = s.gw := rfl
@[simp] theorem State.setBerth_gwAux (s : State) (n : Nat) (b : Berth) : (s.setBerth n b).gwAux = s.gwAux := rfl
@[simp] theorem State.setBerth_parts (s : State) (n : Nat) (b : Berth) : (s.setBerth n b).parts = s.parts := rfl
@[simp] theorem State.setBerth_runs (s : State) (n : Nat) (b : Berth) : (s.setBerth n b).runs = s.runs := rfl
@[simp] theorem State.setBerth_jr (s : State) (n : Nat) (b : Berth) : (s.setBerth n b).jr = s.jr := rfl
@[simp] theorem State.setBerth_pkg (s : State) (n : Nat) (b : Berth) : (s.setBerth n b).pkg = s.pkg := rfl

/-! ## modBerth -/

@[simp] theorem State.modBerth_pending (s : State) (n : Nat) (f : Berth → Berth) : (s.modBerth n f).pending = s.pending := rfl
@[simp] theorem State.modBerth_deferred (s : State) (n : Nat) (f : Berth → Berth) : (s.modBerth n f).deferred = s.deferred := rfl
@[simp] theorem State.modBerth_free (s : State) (n : Nat) (f : Berth → Berth) : (s.modBerth n f).free = s.free := rfl
@[simp] theorem State.modBerth_supply (s : State) (n : Nat) (f : Berth → Berth) : (s.modBerth n f).supply = s.supply := rfl
@[simp] theorem State.modBerth_boot (s : State) (n : Nat) (f : Berth → Berth) : (s.modBerth n f).boot = s.boot := rfl
@[simp] theorem State.modBerth_sec (s : State) (n : Nat) (f : Berth → Berth) : (s.modBerth n f).sec = s.sec := rfl
@[simp] theorem State.modBerth_pt (s : State) (n : Nat) (f : Berth → Berth) : (s.modBerth n f).pt = s.pt := rfl
@[simp] theorem State.modBerth_ptAux (s : State) (n : Nat) (f : Berth → Berth) : (s.modBerth n f).ptAux = s.ptAux := rfl
@[simp] theorem State.modBerth_ptDies (s : State) (n : Nat) (f : Berth → Berth) : (s.modBerth n f).ptDies = s.ptDies := rfl
@[simp] theorem State.modBerth_hm (s : State) (n : Nat) (f : Berth → Berth) : (s.modBerth n f).hm = s.hm := rfl
@[simp] theorem State.modBerth_hmAux (s : State) (n : Nat) (f : Berth → Berth) : (s.modBerth n f).hmAux = s.hmAux := rfl
@[simp] theorem State.modBerth_events (s : State) (n : Nat) (f : Berth → Berth) : (s.modBerth n f).events = s.events := rfl
@[simp] theorem State.modBerth_i3c (s : State) (n : Nat) (f : Berth → Berth) : (s.modBerth n f).i3c = s.i3c := rfl
@[simp] theorem State.modBerth_mf (s : State) (n : Nat) (f : Berth → Berth) : (s.modBerth n f).mf = s.mf := rfl
@[simp] theorem State.modBerth_mfAux (s : State) (n : Nat) (f : Berth → Berth) : (s.modBerth n f).mfAux = s.mfAux := rfl
@[simp] theorem State.modBerth_clusters (s : State) (n : Nat) (f : Berth → Berth) : (s.modBerth n f).clusters = s.clusters := rfl
@[simp] theorem State.modBerth_mem (s : State) (n : Nat) (f : Berth → Berth) : (s.modBerth n f).mem = s.mem := rfl
@[simp] theorem State.modBerth_memDies (s : State) (n : Nat) (f : Berth → Berth) : (s.modBerth n f).memDies = s.memDies := rfl
@[simp] theorem State.modBerth_memAux (s : State) (n : Nat) (f : Berth → Berth) : (s.modBerth n f).memAux = s.memAux := rfl
@[simp] theorem State.modBerth_links (s : State) (n : Nat) (f : Berth → Berth) : (s.modBerth n f).links = s.links := rfl
@[simp] theorem State.modBerth_linkCtrs (s : State) (n : Nat) (f : Berth → Berth) : (s.modBerth n f).linkCtrs = s.linkCtrs := rfl
@[simp] theorem State.modBerth_kx (s : State) (n : Nat) (f : Berth → Berth) : (s.modBerth n f).kx = s.kx := rfl
@[simp] theorem State.modBerth_reds (s : State) (n : Nat) (f : Berth → Berth) : (s.modBerth n f).reds = s.reds := rfl
@[simp] theorem State.modBerth_gw (s : State) (n : Nat) (f : Berth → Berth) : (s.modBerth n f).gw = s.gw := rfl
@[simp] theorem State.modBerth_gwAux (s : State) (n : Nat) (f : Berth → Berth) : (s.modBerth n f).gwAux = s.gwAux := rfl
@[simp] theorem State.modBerth_parts (s : State) (n : Nat) (f : Berth → Berth) : (s.modBerth n f).parts = s.parts := rfl
@[simp] theorem State.modBerth_runs (s : State) (n : Nat) (f : Berth → Berth) : (s.modBerth n f).runs = s.runs := rfl
@[simp] theorem State.modBerth_jr (s : State) (n : Nat) (f : Berth → Berth) : (s.modBerth n f).jr = s.jr := rfl
@[simp] theorem State.modBerth_pkg (s : State) (n : Nat) (f : Berth → Berth) : (s.modBerth n f).pkg = s.pkg := rfl

/-! ## setPart -/

@[simp] theorem State.setPart_pending (s : State) (p : Nat) (x : Part) : (s.setPart p x).pending = s.pending := rfl
@[simp] theorem State.setPart_deferred (s : State) (p : Nat) (x : Part) : (s.setPart p x).deferred = s.deferred := rfl
@[simp] theorem State.setPart_free (s : State) (p : Nat) (x : Part) : (s.setPart p x).free = s.free := rfl
@[simp] theorem State.setPart_supply (s : State) (p : Nat) (x : Part) : (s.setPart p x).supply = s.supply := rfl
@[simp] theorem State.setPart_boot (s : State) (p : Nat) (x : Part) : (s.setPart p x).boot = s.boot := rfl
@[simp] theorem State.setPart_sec (s : State) (p : Nat) (x : Part) : (s.setPart p x).sec = s.sec := rfl
@[simp] theorem State.setPart_pt (s : State) (p : Nat) (x : Part) : (s.setPart p x).pt = s.pt := rfl
@[simp] theorem State.setPart_ptAux (s : State) (p : Nat) (x : Part) : (s.setPart p x).ptAux = s.ptAux := rfl
@[simp] theorem State.setPart_ptDies (s : State) (p : Nat) (x : Part) : (s.setPart p x).ptDies = s.ptDies := rfl
@[simp] theorem State.setPart_hm (s : State) (p : Nat) (x : Part) : (s.setPart p x).hm = s.hm := rfl
@[simp] theorem State.setPart_hmAux (s : State) (p : Nat) (x : Part) : (s.setPart p x).hmAux = s.hmAux := rfl
@[simp] theorem State.setPart_events (s : State) (p : Nat) (x : Part) : (s.setPart p x).events = s.events := rfl
@[simp] theorem State.setPart_i3c (s : State) (p : Nat) (x : Part) : (s.setPart p x).i3c = s.i3c := rfl
@[simp] theorem State.setPart_mf (s : State) (p : Nat) (x : Part) : (s.setPart p x).mf = s.mf := rfl
@[simp] theorem State.setPart_mfAux (s : State) (p : Nat) (x : Part) : (s.setPart p x).mfAux = s.mfAux := rfl
@[simp] theorem State.setPart_clusters (s : State) (p : Nat) (x : Part) : (s.setPart p x).clusters = s.clusters := rfl
@[simp] theorem State.setPart_mem (s : State) (p : Nat) (x : Part) : (s.setPart p x).mem = s.mem := rfl
@[simp] theorem State.setPart_memDies (s : State) (p : Nat) (x : Part) : (s.setPart p x).memDies = s.memDies := rfl
@[simp] theorem State.setPart_memAux (s : State) (p : Nat) (x : Part) : (s.setPart p x).memAux = s.memAux := rfl
@[simp] theorem State.setPart_berths (s : State) (p : Nat) (x : Part) : (s.setPart p x).berths = s.berths := rfl
@[simp] theorem State.setPart_links (s : State) (p : Nat) (x : Part) : (s.setPart p x).links = s.links := rfl
@[simp] theorem State.setPart_linkCtrs (s : State) (p : Nat) (x : Part) : (s.setPart p x).linkCtrs = s.linkCtrs := rfl
@[simp] theorem State.setPart_kx (s : State) (p : Nat) (x : Part) : (s.setPart p x).kx = s.kx := rfl
@[simp] theorem State.setPart_reds (s : State) (p : Nat) (x : Part) : (s.setPart p x).reds = s.reds := rfl
@[simp] theorem State.setPart_gw (s : State) (p : Nat) (x : Part) : (s.setPart p x).gw = s.gw := rfl
@[simp] theorem State.setPart_gwAux (s : State) (p : Nat) (x : Part) : (s.setPart p x).gwAux = s.gwAux := rfl
@[simp] theorem State.setPart_runs (s : State) (p : Nat) (x : Part) : (s.setPart p x).runs = s.runs := rfl
@[simp] theorem State.setPart_jr (s : State) (p : Nat) (x : Part) : (s.setPart p x).jr = s.jr := rfl
@[simp] theorem State.setPart_pkg (s : State) (p : Nat) (x : Part) : (s.setPart p x).pkg = s.pkg := rfl

/-! ## modPart -/

@[simp] theorem State.modPart_pending (s : State) (p : Nat) (f : Part → Part) : (s.modPart p f).pending = s.pending := rfl
@[simp] theorem State.modPart_deferred (s : State) (p : Nat) (f : Part → Part) : (s.modPart p f).deferred = s.deferred := rfl
@[simp] theorem State.modPart_free (s : State) (p : Nat) (f : Part → Part) : (s.modPart p f).free = s.free := rfl
@[simp] theorem State.modPart_supply (s : State) (p : Nat) (f : Part → Part) : (s.modPart p f).supply = s.supply := rfl
@[simp] theorem State.modPart_boot (s : State) (p : Nat) (f : Part → Part) : (s.modPart p f).boot = s.boot := rfl
@[simp] theorem State.modPart_sec (s : State) (p : Nat) (f : Part → Part) : (s.modPart p f).sec = s.sec := rfl
@[simp] theorem State.modPart_pt (s : State) (p : Nat) (f : Part → Part) : (s.modPart p f).pt = s.pt := rfl
@[simp] theorem State.modPart_ptAux (s : State) (p : Nat) (f : Part → Part) : (s.modPart p f).ptAux = s.ptAux := rfl
@[simp] theorem State.modPart_ptDies (s : State) (p : Nat) (f : Part → Part) : (s.modPart p f).ptDies = s.ptDies := rfl
@[simp] theorem State.modPart_hm (s : State) (p : Nat) (f : Part → Part) : (s.modPart p f).hm = s.hm := rfl
@[simp] theorem State.modPart_hmAux (s : State) (p : Nat) (f : Part → Part) : (s.modPart p f).hmAux = s.hmAux := rfl
@[simp] theorem State.modPart_events (s : State) (p : Nat) (f : Part → Part) : (s.modPart p f).events = s.events := rfl
@[simp] theorem State.modPart_i3c (s : State) (p : Nat) (f : Part → Part) : (s.modPart p f).i3c = s.i3c := rfl
@[simp] theorem State.modPart_mf (s : State) (p : Nat) (f : Part → Part) : (s.modPart p f).mf = s.mf := rfl
@[simp] theorem State.modPart_mfAux (s : State) (p : Nat) (f : Part → Part) : (s.modPart p f).mfAux = s.mfAux := rfl
@[simp] theorem State.modPart_clusters (s : State) (p : Nat) (f : Part → Part) : (s.modPart p f).clusters = s.clusters := rfl
@[simp] theorem State.modPart_mem (s : State) (p : Nat) (f : Part → Part) : (s.modPart p f).mem = s.mem := rfl
@[simp] theorem State.modPart_memDies (s : State) (p : Nat) (f : Part → Part) : (s.modPart p f).memDies = s.memDies := rfl
@[simp] theorem State.modPart_memAux (s : State) (p : Nat) (f : Part → Part) : (s.modPart p f).memAux = s.memAux := rfl
@[simp] theorem State.modPart_berths (s : State) (p : Nat) (f : Part → Part) : (s.modPart p f).berths = s.berths := rfl
@[simp] theorem State.modPart_links (s : State) (p : Nat) (f : Part → Part) : (s.modPart p f).links = s.links := rfl
@[simp] theorem State.modPart_linkCtrs (s : State) (p : Nat) (f : Part → Part) : (s.modPart p f).linkCtrs = s.linkCtrs := rfl
@[simp] theorem State.modPart_kx (s : State) (p : Nat) (f : Part → Part) : (s.modPart p f).kx = s.kx := rfl
@[simp] theorem State.modPart_reds (s : State) (p : Nat) (f : Part → Part) : (s.modPart p f).reds = s.reds := rfl
@[simp] theorem State.modPart_gw (s : State) (p : Nat) (f : Part → Part) : (s.modPart p f).gw = s.gw := rfl
@[simp] theorem State.modPart_gwAux (s : State) (p : Nat) (f : Part → Part) : (s.modPart p f).gwAux = s.gwAux := rfl
@[simp] theorem State.modPart_runs (s : State) (p : Nat) (f : Part → Part) : (s.modPart p f).runs = s.runs := rfl
@[simp] theorem State.modPart_jr (s : State) (p : Nat) (f : Part → Part) : (s.modPart p f).jr = s.jr := rfl
@[simp] theorem State.modPart_pkg (s : State) (p : Nat) (f : Part → Part) : (s.modPart p f).pkg = s.pkg := rfl

/-! ## setRun -/

@[simp] theorem State.setRun_pending (s : State) (p : Nat) (x : PartRun) : (s.setRun p x).pending = s.pending := rfl
@[simp] theorem State.setRun_deferred (s : State) (p : Nat) (x : PartRun) : (s.setRun p x).deferred = s.deferred := rfl
@[simp] theorem State.setRun_free (s : State) (p : Nat) (x : PartRun) : (s.setRun p x).free = s.free := rfl
@[simp] theorem State.setRun_supply (s : State) (p : Nat) (x : PartRun) : (s.setRun p x).supply = s.supply := rfl
@[simp] theorem State.setRun_boot (s : State) (p : Nat) (x : PartRun) : (s.setRun p x).boot = s.boot := rfl
@[simp] theorem State.setRun_sec (s : State) (p : Nat) (x : PartRun) : (s.setRun p x).sec = s.sec := rfl
@[simp] theorem State.setRun_pt (s : State) (p : Nat) (x : PartRun) : (s.setRun p x).pt = s.pt := rfl
@[simp] theorem State.setRun_ptAux (s : State) (p : Nat) (x : PartRun) : (s.setRun p x).ptAux = s.ptAux := rfl
@[simp] theorem State.setRun_ptDies (s : State) (p : Nat) (x : PartRun) : (s.setRun p x).ptDies = s.ptDies := rfl
@[simp] theorem State.setRun_hm (s : State) (p : Nat) (x : PartRun) : (s.setRun p x).hm = s.hm := rfl
@[simp] theorem State.setRun_hmAux (s : State) (p : Nat) (x : PartRun) : (s.setRun p x).hmAux = s.hmAux := rfl
@[simp] theorem State.setRun_events (s : State) (p : Nat) (x : PartRun) : (s.setRun p x).events = s.events := rfl
@[simp] theorem State.setRun_i3c (s : State) (p : Nat) (x : PartRun) : (s.setRun p x).i3c = s.i3c := rfl
@[simp] theorem State.setRun_mf (s : State) (p : Nat) (x : PartRun) : (s.setRun p x).mf = s.mf := rfl
@[simp] theorem State.setRun_mfAux (s : State) (p : Nat) (x : PartRun) : (s.setRun p x).mfAux = s.mfAux := rfl
@[simp] theorem State.setRun_clusters (s : State) (p : Nat) (x : PartRun) : (s.setRun p x).clusters = s.clusters := rfl
@[simp] theorem State.setRun_mem (s : State) (p : Nat) (x : PartRun) : (s.setRun p x).mem = s.mem := rfl
@[simp] theorem State.setRun_memDies (s : State) (p : Nat) (x : PartRun) : (s.setRun p x).memDies = s.memDies := rfl
@[simp] theorem State.setRun_memAux (s : State) (p : Nat) (x : PartRun) : (s.setRun p x).memAux = s.memAux := rfl
@[simp] theorem State.setRun_berths (s : State) (p : Nat) (x : PartRun) : (s.setRun p x).berths = s.berths := rfl
@[simp] theorem State.setRun_links (s : State) (p : Nat) (x : PartRun) : (s.setRun p x).links = s.links := rfl
@[simp] theorem State.setRun_linkCtrs (s : State) (p : Nat) (x : PartRun) : (s.setRun p x).linkCtrs = s.linkCtrs := rfl
@[simp] theorem State.setRun_kx (s : State) (p : Nat) (x : PartRun) : (s.setRun p x).kx = s.kx := rfl
@[simp] theorem State.setRun_reds (s : State) (p : Nat) (x : PartRun) : (s.setRun p x).reds = s.reds := rfl
@[simp] theorem State.setRun_gw (s : State) (p : Nat) (x : PartRun) : (s.setRun p x).gw = s.gw := rfl
@[simp] theorem State.setRun_gwAux (s : State) (p : Nat) (x : PartRun) : (s.setRun p x).gwAux = s.gwAux := rfl
@[simp] theorem State.setRun_parts (s : State) (p : Nat) (x : PartRun) : (s.setRun p x).parts = s.parts := rfl
@[simp] theorem State.setRun_jr (s : State) (p : Nat) (x : PartRun) : (s.setRun p x).jr = s.jr := rfl
@[simp] theorem State.setRun_pkg (s : State) (p : Nat) (x : PartRun) : (s.setRun p x).pkg = s.pkg := rfl

/-! ## modRun -/

@[simp] theorem State.modRun_pending (s : State) (p : Nat) (f : PartRun → PartRun) : (s.modRun p f).pending = s.pending := rfl
@[simp] theorem State.modRun_deferred (s : State) (p : Nat) (f : PartRun → PartRun) : (s.modRun p f).deferred = s.deferred := rfl
@[simp] theorem State.modRun_free (s : State) (p : Nat) (f : PartRun → PartRun) : (s.modRun p f).free = s.free := rfl
@[simp] theorem State.modRun_supply (s : State) (p : Nat) (f : PartRun → PartRun) : (s.modRun p f).supply = s.supply := rfl
@[simp] theorem State.modRun_boot (s : State) (p : Nat) (f : PartRun → PartRun) : (s.modRun p f).boot = s.boot := rfl
@[simp] theorem State.modRun_sec (s : State) (p : Nat) (f : PartRun → PartRun) : (s.modRun p f).sec = s.sec := rfl
@[simp] theorem State.modRun_pt (s : State) (p : Nat) (f : PartRun → PartRun) : (s.modRun p f).pt = s.pt := rfl
@[simp] theorem State.modRun_ptAux (s : State) (p : Nat) (f : PartRun → PartRun) : (s.modRun p f).ptAux = s.ptAux := rfl
@[simp] theorem State.modRun_ptDies (s : State) (p : Nat) (f : PartRun → PartRun) : (s.modRun p f).ptDies = s.ptDies := rfl
@[simp] theorem State.modRun_hm (s : State) (p : Nat) (f : PartRun → PartRun) : (s.modRun p f).hm = s.hm := rfl
@[simp] theorem State.modRun_hmAux (s : State) (p : Nat) (f : PartRun → PartRun) : (s.modRun p f).hmAux = s.hmAux := rfl
@[simp] theorem State.modRun_events (s : State) (p : Nat) (f : PartRun → PartRun) : (s.modRun p f).events = s.events := rfl
@[simp] theorem State.modRun_i3c (s : State) (p : Nat) (f : PartRun → PartRun) : (s.modRun p f).i3c = s.i3c := rfl
@[simp] theorem State.modRun_mf (s : State) (p : Nat) (f : PartRun → PartRun) : (s.modRun p f).mf = s.mf := rfl
@[simp] theorem State.modRun_mfAux (s : State) (p : Nat) (f : PartRun → PartRun) : (s.modRun p f).mfAux = s.mfAux := rfl
@[simp] theorem State.modRun_clusters (s : State) (p : Nat) (f : PartRun → PartRun) : (s.modRun p f).clusters = s.clusters := rfl
@[simp] theorem State.modRun_mem (s : State) (p : Nat) (f : PartRun → PartRun) : (s.modRun p f).mem = s.mem := rfl
@[simp] theorem State.modRun_memDies (s : State) (p : Nat) (f : PartRun → PartRun) : (s.modRun p f).memDies = s.memDies := rfl
@[simp] theorem State.modRun_memAux (s : State) (p : Nat) (f : PartRun → PartRun) : (s.modRun p f).memAux = s.memAux := rfl
@[simp] theorem State.modRun_berths (s : State) (p : Nat) (f : PartRun → PartRun) : (s.modRun p f).berths = s.berths := rfl
@[simp] theorem State.modRun_links (s : State) (p : Nat) (f : PartRun → PartRun) : (s.modRun p f).links = s.links := rfl
@[simp] theorem State.modRun_linkCtrs (s : State) (p : Nat) (f : PartRun → PartRun) : (s.modRun p f).linkCtrs = s.linkCtrs := rfl
@[simp] theorem State.modRun_kx (s : State) (p : Nat) (f : PartRun → PartRun) : (s.modRun p f).kx = s.kx := rfl
@[simp] theorem State.modRun_reds (s : State) (p : Nat) (f : PartRun → PartRun) : (s.modRun p f).reds = s.reds := rfl
@[simp] theorem State.modRun_gw (s : State) (p : Nat) (f : PartRun → PartRun) : (s.modRun p f).gw = s.gw := rfl
@[simp] theorem State.modRun_gwAux (s : State) (p : Nat) (f : PartRun → PartRun) : (s.modRun p f).gwAux = s.gwAux := rfl
@[simp] theorem State.modRun_parts (s : State) (p : Nat) (f : PartRun → PartRun) : (s.modRun p f).parts = s.parts := rfl
@[simp] theorem State.modRun_jr (s : State) (p : Nat) (f : PartRun → PartRun) : (s.modRun p f).jr = s.jr := rfl
@[simp] theorem State.modRun_pkg (s : State) (p : Nat) (f : PartRun → PartRun) : (s.modRun p f).pkg = s.pkg := rfl

/-! ## modSeq -/

@[simp] theorem State.modSeq_pending (s : State) (p : Nat) (f : Sequencer → Sequencer) : (s.modSeq p f).pending = s.pending := rfl
@[simp] theorem State.modSeq_deferred (s : State) (p : Nat) (f : Sequencer → Sequencer) : (s.modSeq p f).deferred = s.deferred := rfl
@[simp] theorem State.modSeq_free (s : State) (p : Nat) (f : Sequencer → Sequencer) : (s.modSeq p f).free = s.free := rfl
@[simp] theorem State.modSeq_supply (s : State) (p : Nat) (f : Sequencer → Sequencer) : (s.modSeq p f).supply = s.supply := rfl
@[simp] theorem State.modSeq_boot (s : State) (p : Nat) (f : Sequencer → Sequencer) : (s.modSeq p f).boot = s.boot := rfl
@[simp] theorem State.modSeq_sec (s : State) (p : Nat) (f : Sequencer → Sequencer) : (s.modSeq p f).sec = s.sec := rfl
@[simp] theorem State.modSeq_pt (s : State) (p : Nat) (f : Sequencer → Sequencer) : (s.modSeq p f).pt = s.pt := rfl
@[simp] theorem State.modSeq_ptAux (s : State) (p : Nat) (f : Sequencer → Sequencer) : (s.modSeq p f).ptAux = s.ptAux := rfl
@[simp] theorem State.modSeq_ptDies (s : State) (p : Nat) (f : Sequencer → Sequencer) : (s.modSeq p f).ptDies = s.ptDies := rfl
@[simp] theorem State.modSeq_hm (s : State) (p : Nat) (f : Sequencer → Sequencer) : (s.modSeq p f).hm = s.hm := rfl
@[simp] theorem State.modSeq_hmAux (s : State) (p : Nat) (f : Sequencer → Sequencer) : (s.modSeq p f).hmAux = s.hmAux := rfl
@[simp] theorem State.modSeq_events (s : State) (p : Nat) (f : Sequencer → Sequencer) : (s.modSeq p f).events = s.events := rfl
@[simp] theorem State.modSeq_i3c (s : State) (p : Nat) (f : Sequencer → Sequencer) : (s.modSeq p f).i3c = s.i3c := rfl
@[simp] theorem State.modSeq_mf (s : State) (p : Nat) (f : Sequencer → Sequencer) : (s.modSeq p f).mf = s.mf := rfl
@[simp] theorem State.modSeq_mfAux (s : State) (p : Nat) (f : Sequencer → Sequencer) : (s.modSeq p f).mfAux = s.mfAux := rfl
@[simp] theorem State.modSeq_clusters (s : State) (p : Nat) (f : Sequencer → Sequencer) : (s.modSeq p f).clusters = s.clusters := rfl
@[simp] theorem State.modSeq_mem (s : State) (p : Nat) (f : Sequencer → Sequencer) : (s.modSeq p f).mem = s.mem := rfl
@[simp] theorem State.modSeq_memDies (s : State) (p : Nat) (f : Sequencer → Sequencer) : (s.modSeq p f).memDies = s.memDies := rfl
@[simp] theorem State.modSeq_memAux (s : State) (p : Nat) (f : Sequencer → Sequencer) : (s.modSeq p f).memAux = s.memAux := rfl
@[simp] theorem State.modSeq_berths (s : State) (p : Nat) (f : Sequencer → Sequencer) : (s.modSeq p f).berths = s.berths := rfl
@[simp] theorem State.modSeq_links (s : State) (p : Nat) (f : Sequencer → Sequencer) : (s.modSeq p f).links = s.links := rfl
@[simp] theorem State.modSeq_linkCtrs (s : State) (p : Nat) (f : Sequencer → Sequencer) : (s.modSeq p f).linkCtrs = s.linkCtrs := rfl
@[simp] theorem State.modSeq_kx (s : State) (p : Nat) (f : Sequencer → Sequencer) : (s.modSeq p f).kx = s.kx := rfl
@[simp] theorem State.modSeq_reds (s : State) (p : Nat) (f : Sequencer → Sequencer) : (s.modSeq p f).reds = s.reds := rfl
@[simp] theorem State.modSeq_gw (s : State) (p : Nat) (f : Sequencer → Sequencer) : (s.modSeq p f).gw = s.gw := rfl
@[simp] theorem State.modSeq_gwAux (s : State) (p : Nat) (f : Sequencer → Sequencer) : (s.modSeq p f).gwAux = s.gwAux := rfl
@[simp] theorem State.modSeq_parts (s : State) (p : Nat) (f : Sequencer → Sequencer) : (s.modSeq p f).parts = s.parts := rfl
@[simp] theorem State.modSeq_jr (s : State) (p : Nat) (f : Sequencer → Sequencer) : (s.modSeq p f).jr = s.jr := rfl
@[simp] theorem State.modSeq_pkg (s : State) (p : Nat) (f : Sequencer → Sequencer) : (s.modSeq p f).pkg = s.pkg := rfl

/-! ## modLog -/

@[simp] theorem State.modLog_pending (s : State) (p : Nat) (f : StepLog → StepLog) : (s.modLog p f).pending = s.pending := rfl
@[simp] theorem State.modLog_deferred (s : State) (p : Nat) (f : StepLog → StepLog) : (s.modLog p f).deferred = s.deferred := rfl
@[simp] theorem State.modLog_free (s : State) (p : Nat) (f : StepLog → StepLog) : (s.modLog p f).free = s.free := rfl
@[simp] theorem State.modLog_supply (s : State) (p : Nat) (f : StepLog → StepLog) : (s.modLog p f).supply = s.supply := rfl
@[simp] theorem State.modLog_boot (s : State) (p : Nat) (f : StepLog → StepLog) : (s.modLog p f).boot = s.boot := rfl
@[simp] theorem State.modLog_sec (s : State) (p : Nat) (f : StepLog → StepLog) : (s.modLog p f).sec = s.sec := rfl
@[simp] theorem State.modLog_pt (s : State) (p : Nat) (f : StepLog → StepLog) : (s.modLog p f).pt = s.pt := rfl
@[simp] theorem State.modLog_ptAux (s : State) (p : Nat) (f : StepLog → StepLog) : (s.modLog p f).ptAux = s.ptAux := rfl
@[simp] theorem State.modLog_ptDies (s : State) (p : Nat) (f : StepLog → StepLog) : (s.modLog p f).ptDies = s.ptDies := rfl
@[simp] theorem State.modLog_hm (s : State) (p : Nat) (f : StepLog → StepLog) : (s.modLog p f).hm = s.hm := rfl
@[simp] theorem State.modLog_hmAux (s : State) (p : Nat) (f : StepLog → StepLog) : (s.modLog p f).hmAux = s.hmAux := rfl
@[simp] theorem State.modLog_events (s : State) (p : Nat) (f : StepLog → StepLog) : (s.modLog p f).events = s.events := rfl
@[simp] theorem State.modLog_i3c (s : State) (p : Nat) (f : StepLog → StepLog) : (s.modLog p f).i3c = s.i3c := rfl
@[simp] theorem State.modLog_mf (s : State) (p : Nat) (f : StepLog → StepLog) : (s.modLog p f).mf = s.mf := rfl
@[simp] theorem State.modLog_mfAux (s : State) (p : Nat) (f : StepLog → StepLog) : (s.modLog p f).mfAux = s.mfAux := rfl
@[simp] theorem State.modLog_clusters (s : State) (p : Nat) (f : StepLog → StepLog) : (s.modLog p f).clusters = s.clusters := rfl
@[simp] theorem State.modLog_mem (s : State) (p : Nat) (f : StepLog → StepLog) : (s.modLog p f).mem = s.mem := rfl
@[simp] theorem State.modLog_memDies (s : State) (p : Nat) (f : StepLog → StepLog) : (s.modLog p f).memDies = s.memDies := rfl
@[simp] theorem State.modLog_memAux (s : State) (p : Nat) (f : StepLog → StepLog) : (s.modLog p f).memAux = s.memAux := rfl
@[simp] theorem State.modLog_berths (s : State) (p : Nat) (f : StepLog → StepLog) : (s.modLog p f).berths = s.berths := rfl
@[simp] theorem State.modLog_links (s : State) (p : Nat) (f : StepLog → StepLog) : (s.modLog p f).links = s.links := rfl
@[simp] theorem State.modLog_linkCtrs (s : State) (p : Nat) (f : StepLog → StepLog) : (s.modLog p f).linkCtrs = s.linkCtrs := rfl
@[simp] theorem State.modLog_kx (s : State) (p : Nat) (f : StepLog → StepLog) : (s.modLog p f).kx = s.kx := rfl
@[simp] theorem State.modLog_reds (s : State) (p : Nat) (f : StepLog → StepLog) : (s.modLog p f).reds = s.reds := rfl
@[simp] theorem State.modLog_gw (s : State) (p : Nat) (f : StepLog → StepLog) : (s.modLog p f).gw = s.gw := rfl
@[simp] theorem State.modLog_gwAux (s : State) (p : Nat) (f : StepLog → StepLog) : (s.modLog p f).gwAux = s.gwAux := rfl
@[simp] theorem State.modLog_parts (s : State) (p : Nat) (f : StepLog → StepLog) : (s.modLog p f).parts = s.parts := rfl
@[simp] theorem State.modLog_jr (s : State) (p : Nat) (f : StepLog → StepLog) : (s.modLog p f).jr = s.jr := rfl
@[simp] theorem State.modLog_pkg (s : State) (p : Nat) (f : StepLog → StepLog) : (s.modLog p f).pkg = s.pkg := rfl

/-! ## modDet -/

@[simp] theorem State.modDet_pending (s : State) (p : Nat) (f : Detector → Detector) : (s.modDet p f).pending = s.pending := rfl
@[simp] theorem State.modDet_deferred (s : State) (p : Nat) (f : Detector → Detector) : (s.modDet p f).deferred = s.deferred := rfl
@[simp] theorem State.modDet_free (s : State) (p : Nat) (f : Detector → Detector) : (s.modDet p f).free = s.free := rfl
@[simp] theorem State.modDet_supply (s : State) (p : Nat) (f : Detector → Detector) : (s.modDet p f).supply = s.supply := rfl
@[simp] theorem State.modDet_boot (s : State) (p : Nat) (f : Detector → Detector) : (s.modDet p f).boot = s.boot := rfl
@[simp] theorem State.modDet_sec (s : State) (p : Nat) (f : Detector → Detector) : (s.modDet p f).sec = s.sec := rfl
@[simp] theorem State.modDet_pt (s : State) (p : Nat) (f : Detector → Detector) : (s.modDet p f).pt = s.pt := rfl
@[simp] theorem State.modDet_ptAux (s : State) (p : Nat) (f : Detector → Detector) : (s.modDet p f).ptAux = s.ptAux := rfl
@[simp] theorem State.modDet_ptDies (s : State) (p : Nat) (f : Detector → Detector) : (s.modDet p f).ptDies = s.ptDies := rfl
@[simp] theorem State.modDet_hm (s : State) (p : Nat) (f : Detector → Detector) : (s.modDet p f).hm = s.hm := rfl
@[simp] theorem State.modDet_hmAux (s : State) (p : Nat) (f : Detector → Detector) : (s.modDet p f).hmAux = s.hmAux := rfl
@[simp] theorem State.modDet_events (s : State) (p : Nat) (f : Detector → Detector) : (s.modDet p f).events = s.events := rfl
@[simp] theorem State.modDet_i3c (s : State) (p : Nat) (f : Detector → Detector) : (s.modDet p f).i3c = s.i3c := rfl
@[simp] theorem State.modDet_mf (s : State) (p : Nat) (f : Detector → Detector) : (s.modDet p f).mf = s.mf := rfl
@[simp] theorem State.modDet_mfAux (s : State) (p : Nat) (f : Detector → Detector) : (s.modDet p f).mfAux = s.mfAux := rfl
@[simp] theorem State.modDet_clusters (s : State) (p : Nat) (f : Detector → Detector) : (s.modDet p f).clusters = s.clusters := rfl
@[simp] theorem State.modDet_mem (s : State) (p : Nat) (f : Detector → Detector) : (s.modDet p f).mem = s.mem := rfl
@[simp] theorem State.modDet_memDies (s : State) (p : Nat) (f : Detector → Detector) : (s.modDet p f).memDies = s.memDies := rfl
@[simp] theorem State.modDet_memAux (s : State) (p : Nat) (f : Detector → Detector) : (s.modDet p f).memAux = s.memAux := rfl
@[simp] theorem State.modDet_berths (s : State) (p : Nat) (f : Detector → Detector) : (s.modDet p f).berths = s.berths := rfl
@[simp] theorem State.modDet_links (s : State) (p : Nat) (f : Detector → Detector) : (s.modDet p f).links = s.links := rfl
@[simp] theorem State.modDet_linkCtrs (s : State) (p : Nat) (f : Detector → Detector) : (s.modDet p f).linkCtrs = s.linkCtrs := rfl
@[simp] theorem State.modDet_kx (s : State) (p : Nat) (f : Detector → Detector) : (s.modDet p f).kx = s.kx := rfl
@[simp] theorem State.modDet_reds (s : State) (p : Nat) (f : Detector → Detector) : (s.modDet p f).reds = s.reds := rfl
@[simp] theorem State.modDet_gw (s : State) (p : Nat) (f : Detector → Detector) : (s.modDet p f).gw = s.gw := rfl
@[simp] theorem State.modDet_gwAux (s : State) (p : Nat) (f : Detector → Detector) : (s.modDet p f).gwAux = s.gwAux := rfl
@[simp] theorem State.modDet_parts (s : State) (p : Nat) (f : Detector → Detector) : (s.modDet p f).parts = s.parts := rfl
@[simp] theorem State.modDet_jr (s : State) (p : Nat) (f : Detector → Detector) : (s.modDet p f).jr = s.jr := rfl
@[simp] theorem State.modDet_pkg (s : State) (p : Nat) (f : Detector → Detector) : (s.modDet p f).pkg = s.pkg := rfl

/-! ## modStash -/

@[simp] theorem State.modStash_pending (s : State) (p : Nat) (f : Stash → Stash) : (s.modStash p f).pending = s.pending := rfl
@[simp] theorem State.modStash_deferred (s : State) (p : Nat) (f : Stash → Stash) : (s.modStash p f).deferred = s.deferred := rfl
@[simp] theorem State.modStash_free (s : State) (p : Nat) (f : Stash → Stash) : (s.modStash p f).free = s.free := rfl
@[simp] theorem State.modStash_supply (s : State) (p : Nat) (f : Stash → Stash) : (s.modStash p f).supply = s.supply := rfl
@[simp] theorem State.modStash_boot (s : State) (p : Nat) (f : Stash → Stash) : (s.modStash p f).boot = s.boot := rfl
@[simp] theorem State.modStash_sec (s : State) (p : Nat) (f : Stash → Stash) : (s.modStash p f).sec = s.sec := rfl
@[simp] theorem State.modStash_pt (s : State) (p : Nat) (f : Stash → Stash) : (s.modStash p f).pt = s.pt := rfl
@[simp] theorem State.modStash_ptAux (s : State) (p : Nat) (f : Stash → Stash) : (s.modStash p f).ptAux = s.ptAux := rfl
@[simp] theorem State.modStash_ptDies (s : State) (p : Nat) (f : Stash → Stash) : (s.modStash p f).ptDies = s.ptDies := rfl
@[simp] theorem State.modStash_hm (s : State) (p : Nat) (f : Stash → Stash) : (s.modStash p f).hm = s.hm := rfl
@[simp] theorem State.modStash_hmAux (s : State) (p : Nat) (f : Stash → Stash) : (s.modStash p f).hmAux = s.hmAux := rfl
@[simp] theorem State.modStash_events (s : State) (p : Nat) (f : Stash → Stash) : (s.modStash p f).events = s.events := rfl
@[simp] theorem State.modStash_i3c (s : State) (p : Nat) (f : Stash → Stash) : (s.modStash p f).i3c = s.i3c := rfl
@[simp] theorem State.modStash_mf (s : State) (p : Nat) (f : Stash → Stash) : (s.modStash p f).mf = s.mf := rfl
@[simp] theorem State.modStash_mfAux (s : State) (p : Nat) (f : Stash → Stash) : (s.modStash p f).mfAux = s.mfAux := rfl
@[simp] theorem State.modStash_clusters (s : State) (p : Nat) (f : Stash → Stash) : (s.modStash p f).clusters = s.clusters := rfl
@[simp] theorem State.modStash_mem (s : State) (p : Nat) (f : Stash → Stash) : (s.modStash p f).mem = s.mem := rfl
@[simp] theorem State.modStash_memDies (s : State) (p : Nat) (f : Stash → Stash) : (s.modStash p f).memDies = s.memDies := rfl
@[simp] theorem State.modStash_memAux (s : State) (p : Nat) (f : Stash → Stash) : (s.modStash p f).memAux = s.memAux := rfl
@[simp] theorem State.modStash_berths (s : State) (p : Nat) (f : Stash → Stash) : (s.modStash p f).berths = s.berths := rfl
@[simp] theorem State.modStash_links (s : State) (p : Nat) (f : Stash → Stash) : (s.modStash p f).links = s.links := rfl
@[simp] theorem State.modStash_linkCtrs (s : State) (p : Nat) (f : Stash → Stash) : (s.modStash p f).linkCtrs = s.linkCtrs := rfl
@[simp] theorem State.modStash_kx (s : State) (p : Nat) (f : Stash → Stash) : (s.modStash p f).kx = s.kx := rfl
@[simp] theorem State.modStash_reds (s : State) (p : Nat) (f : Stash → Stash) : (s.modStash p f).reds = s.reds := rfl
@[simp] theorem State.modStash_gw (s : State) (p : Nat) (f : Stash → Stash) : (s.modStash p f).gw = s.gw := rfl
@[simp] theorem State.modStash_gwAux (s : State) (p : Nat) (f : Stash → Stash) : (s.modStash p f).gwAux = s.gwAux := rfl
@[simp] theorem State.modStash_parts (s : State) (p : Nat) (f : Stash → Stash) : (s.modStash p f).parts = s.parts := rfl
@[simp] theorem State.modStash_jr (s : State) (p : Nat) (f : Stash → Stash) : (s.modStash p f).jr = s.jr := rfl
@[simp] theorem State.modStash_pkg (s : State) (p : Nat) (f : Stash → Stash) : (s.modStash p f).pkg = s.pkg := rfl

/-! ## modLading -/

@[simp] theorem State.modLading_pending (s : State) (p : Nat) (f : Lading → Lading) : (s.modLading p f).pending = s.pending := rfl
@[simp] theorem State.modLading_deferred (s : State) (p : Nat) (f : Lading → Lading) : (s.modLading p f).deferred = s.deferred := rfl
@[simp] theorem State.modLading_free (s : State) (p : Nat) (f : Lading → Lading) : (s.modLading p f).free = s.free := rfl
@[simp] theorem State.modLading_supply (s : State) (p : Nat) (f : Lading → Lading) : (s.modLading p f).supply = s.supply := rfl
@[simp] theorem State.modLading_boot (s : State) (p : Nat) (f : Lading → Lading) : (s.modLading p f).boot = s.boot := rfl
@[simp] theorem State.modLading_sec (s : State) (p : Nat) (f : Lading → Lading) : (s.modLading p f).sec = s.sec := rfl
@[simp] theorem State.modLading_pt (s : State) (p : Nat) (f : Lading → Lading) : (s.modLading p f).pt = s.pt := rfl
@[simp] theorem State.modLading_ptAux (s : State) (p : Nat) (f : Lading → Lading) : (s.modLading p f).ptAux = s.ptAux := rfl
@[simp] theorem State.modLading_ptDies (s : State) (p : Nat) (f : Lading → Lading) : (s.modLading p f).ptDies = s.ptDies := rfl
@[simp] theorem State.modLading_hm (s : State) (p : Nat) (f : Lading → Lading) : (s.modLading p f).hm = s.hm := rfl
@[simp] theorem State.modLading_hmAux (s : State) (p : Nat) (f : Lading → Lading) : (s.modLading p f).hmAux = s.hmAux := rfl
@[simp] theorem State.modLading_events (s : State) (p : Nat) (f : Lading → Lading) : (s.modLading p f).events = s.events := rfl
@[simp] theorem State.modLading_i3c (s : State) (p : Nat) (f : Lading → Lading) : (s.modLading p f).i3c = s.i3c := rfl
@[simp] theorem State.modLading_mf (s : State) (p : Nat) (f : Lading → Lading) : (s.modLading p f).mf = s.mf := rfl
@[simp] theorem State.modLading_mfAux (s : State) (p : Nat) (f : Lading → Lading) : (s.modLading p f).mfAux = s.mfAux := rfl
@[simp] theorem State.modLading_clusters (s : State) (p : Nat) (f : Lading → Lading) : (s.modLading p f).clusters = s.clusters := rfl
@[simp] theorem State.modLading_mem (s : State) (p : Nat) (f : Lading → Lading) : (s.modLading p f).mem = s.mem := rfl
@[simp] theorem State.modLading_memDies (s : State) (p : Nat) (f : Lading → Lading) : (s.modLading p f).memDies = s.memDies := rfl
@[simp] theorem State.modLading_memAux (s : State) (p : Nat) (f : Lading → Lading) : (s.modLading p f).memAux = s.memAux := rfl
@[simp] theorem State.modLading_berths (s : State) (p : Nat) (f : Lading → Lading) : (s.modLading p f).berths = s.berths := rfl
@[simp] theorem State.modLading_links (s : State) (p : Nat) (f : Lading → Lading) : (s.modLading p f).links = s.links := rfl
@[simp] theorem State.modLading_linkCtrs (s : State) (p : Nat) (f : Lading → Lading) : (s.modLading p f).linkCtrs = s.linkCtrs := rfl
@[simp] theorem State.modLading_kx (s : State) (p : Nat) (f : Lading → Lading) : (s.modLading p f).kx = s.kx := rfl
@[simp] theorem State.modLading_reds (s : State) (p : Nat) (f : Lading → Lading) : (s.modLading p f).reds = s.reds := rfl
@[simp] theorem State.modLading_gw (s : State) (p : Nat) (f : Lading → Lading) : (s.modLading p f).gw = s.gw := rfl
@[simp] theorem State.modLading_gwAux (s : State) (p : Nat) (f : Lading → Lading) : (s.modLading p f).gwAux = s.gwAux := rfl
@[simp] theorem State.modLading_parts (s : State) (p : Nat) (f : Lading → Lading) : (s.modLading p f).parts = s.parts := rfl
@[simp] theorem State.modLading_jr (s : State) (p : Nat) (f : Lading → Lading) : (s.modLading p f).jr = s.jr := rfl
@[simp] theorem State.modLading_pkg (s : State) (p : Nat) (f : Lading → Lading) : (s.modLading p f).pkg = s.pkg := rfl

/-! ## setLink -/

@[simp] theorem State.setLink_pending (s : State) (k : Nat) (x : Link) : (s.setLink k x).pending = s.pending := rfl
@[simp] theorem State.setLink_deferred (s : State) (k : Nat) (x : Link) : (s.setLink k x).deferred = s.deferred := rfl
@[simp] theorem State.setLink_free (s : State) (k : Nat) (x : Link) : (s.setLink k x).free = s.free := rfl
@[simp] theorem State.setLink_supply (s : State) (k : Nat) (x : Link) : (s.setLink k x).supply = s.supply := rfl
@[simp] theorem State.setLink_boot (s : State) (k : Nat) (x : Link) : (s.setLink k x).boot = s.boot := rfl
@[simp] theorem State.setLink_sec (s : State) (k : Nat) (x : Link) : (s.setLink k x).sec = s.sec := rfl
@[simp] theorem State.setLink_pt (s : State) (k : Nat) (x : Link) : (s.setLink k x).pt = s.pt := rfl
@[simp] theorem State.setLink_ptAux (s : State) (k : Nat) (x : Link) : (s.setLink k x).ptAux = s.ptAux := rfl
@[simp] theorem State.setLink_ptDies (s : State) (k : Nat) (x : Link) : (s.setLink k x).ptDies = s.ptDies := rfl
@[simp] theorem State.setLink_hm (s : State) (k : Nat) (x : Link) : (s.setLink k x).hm = s.hm := rfl
@[simp] theorem State.setLink_hmAux (s : State) (k : Nat) (x : Link) : (s.setLink k x).hmAux = s.hmAux := rfl
@[simp] theorem State.setLink_events (s : State) (k : Nat) (x : Link) : (s.setLink k x).events = s.events := rfl
@[simp] theorem State.setLink_i3c (s : State) (k : Nat) (x : Link) : (s.setLink k x).i3c = s.i3c := rfl
@[simp] theorem State.setLink_mf (s : State) (k : Nat) (x : Link) : (s.setLink k x).mf = s.mf := rfl
@[simp] theorem State.setLink_mfAux (s : State) (k : Nat) (x : Link) : (s.setLink k x).mfAux = s.mfAux := rfl
@[simp] theorem State.setLink_clusters (s : State) (k : Nat) (x : Link) : (s.setLink k x).clusters = s.clusters := rfl
@[simp] theorem State.setLink_mem (s : State) (k : Nat) (x : Link) : (s.setLink k x).mem = s.mem := rfl
@[simp] theorem State.setLink_memDies (s : State) (k : Nat) (x : Link) : (s.setLink k x).memDies = s.memDies := rfl
@[simp] theorem State.setLink_memAux (s : State) (k : Nat) (x : Link) : (s.setLink k x).memAux = s.memAux := rfl
@[simp] theorem State.setLink_berths (s : State) (k : Nat) (x : Link) : (s.setLink k x).berths = s.berths := rfl
@[simp] theorem State.setLink_linkCtrs (s : State) (k : Nat) (x : Link) : (s.setLink k x).linkCtrs = s.linkCtrs := rfl
@[simp] theorem State.setLink_kx (s : State) (k : Nat) (x : Link) : (s.setLink k x).kx = s.kx := rfl
@[simp] theorem State.setLink_reds (s : State) (k : Nat) (x : Link) : (s.setLink k x).reds = s.reds := rfl
@[simp] theorem State.setLink_gw (s : State) (k : Nat) (x : Link) : (s.setLink k x).gw = s.gw := rfl
@[simp] theorem State.setLink_gwAux (s : State) (k : Nat) (x : Link) : (s.setLink k x).gwAux = s.gwAux := rfl
@[simp] theorem State.setLink_parts (s : State) (k : Nat) (x : Link) : (s.setLink k x).parts = s.parts := rfl
@[simp] theorem State.setLink_runs (s : State) (k : Nat) (x : Link) : (s.setLink k x).runs = s.runs := rfl
@[simp] theorem State.setLink_jr (s : State) (k : Nat) (x : Link) : (s.setLink k x).jr = s.jr := rfl
@[simp] theorem State.setLink_pkg (s : State) (k : Nat) (x : Link) : (s.setLink k x).pkg = s.pkg := rfl

/-! ## modLink -/

@[simp] theorem State.modLink_pending (s : State) (k : Nat) (f : Link → Link) : (s.modLink k f).pending = s.pending := rfl
@[simp] theorem State.modLink_deferred (s : State) (k : Nat) (f : Link → Link) : (s.modLink k f).deferred = s.deferred := rfl
@[simp] theorem State.modLink_free (s : State) (k : Nat) (f : Link → Link) : (s.modLink k f).free = s.free := rfl
@[simp] theorem State.modLink_supply (s : State) (k : Nat) (f : Link → Link) : (s.modLink k f).supply = s.supply := rfl
@[simp] theorem State.modLink_boot (s : State) (k : Nat) (f : Link → Link) : (s.modLink k f).boot = s.boot := rfl
@[simp] theorem State.modLink_sec (s : State) (k : Nat) (f : Link → Link) : (s.modLink k f).sec = s.sec := rfl
@[simp] theorem State.modLink_pt (s : State) (k : Nat) (f : Link → Link) : (s.modLink k f).pt = s.pt := rfl
@[simp] theorem State.modLink_ptAux (s : State) (k : Nat) (f : Link → Link) : (s.modLink k f).ptAux = s.ptAux := rfl
@[simp] theorem State.modLink_ptDies (s : State) (k : Nat) (f : Link → Link) : (s.modLink k f).ptDies = s.ptDies := rfl
@[simp] theorem State.modLink_hm (s : State) (k : Nat) (f : Link → Link) : (s.modLink k f).hm = s.hm := rfl
@[simp] theorem State.modLink_hmAux (s : State) (k : Nat) (f : Link → Link) : (s.modLink k f).hmAux = s.hmAux := rfl
@[simp] theorem State.modLink_events (s : State) (k : Nat) (f : Link → Link) : (s.modLink k f).events = s.events := rfl
@[simp] theorem State.modLink_i3c (s : State) (k : Nat) (f : Link → Link) : (s.modLink k f).i3c = s.i3c := rfl
@[simp] theorem State.modLink_mf (s : State) (k : Nat) (f : Link → Link) : (s.modLink k f).mf = s.mf := rfl
@[simp] theorem State.modLink_mfAux (s : State) (k : Nat) (f : Link → Link) : (s.modLink k f).mfAux = s.mfAux := rfl
@[simp] theorem State.modLink_clusters (s : State) (k : Nat) (f : Link → Link) : (s.modLink k f).clusters = s.clusters := rfl
@[simp] theorem State.modLink_mem (s : State) (k : Nat) (f : Link → Link) : (s.modLink k f).mem = s.mem := rfl
@[simp] theorem State.modLink_memDies (s : State) (k : Nat) (f : Link → Link) : (s.modLink k f).memDies = s.memDies := rfl
@[simp] theorem State.modLink_memAux (s : State) (k : Nat) (f : Link → Link) : (s.modLink k f).memAux = s.memAux := rfl
@[simp] theorem State.modLink_berths (s : State) (k : Nat) (f : Link → Link) : (s.modLink k f).berths = s.berths := rfl
@[simp] theorem State.modLink_linkCtrs (s : State) (k : Nat) (f : Link → Link) : (s.modLink k f).linkCtrs = s.linkCtrs := rfl
@[simp] theorem State.modLink_kx (s : State) (k : Nat) (f : Link → Link) : (s.modLink k f).kx = s.kx := rfl
@[simp] theorem State.modLink_reds (s : State) (k : Nat) (f : Link → Link) : (s.modLink k f).reds = s.reds := rfl
@[simp] theorem State.modLink_gw (s : State) (k : Nat) (f : Link → Link) : (s.modLink k f).gw = s.gw := rfl
@[simp] theorem State.modLink_gwAux (s : State) (k : Nat) (f : Link → Link) : (s.modLink k f).gwAux = s.gwAux := rfl
@[simp] theorem State.modLink_parts (s : State) (k : Nat) (f : Link → Link) : (s.modLink k f).parts = s.parts := rfl
@[simp] theorem State.modLink_runs (s : State) (k : Nat) (f : Link → Link) : (s.modLink k f).runs = s.runs := rfl
@[simp] theorem State.modLink_jr (s : State) (k : Nat) (f : Link → Link) : (s.modLink k f).jr = s.jr := rfl
@[simp] theorem State.modLink_pkg (s : State) (k : Nat) (f : Link → Link) : (s.modLink k f).pkg = s.pkg := rfl

/-! ## modLinkCtr -/

@[simp] theorem State.modLinkCtr_pending (s : State) (k : Nat) (f : LinkCounters → LinkCounters) : (s.modLinkCtr k f).pending = s.pending := rfl
@[simp] theorem State.modLinkCtr_deferred (s : State) (k : Nat) (f : LinkCounters → LinkCounters) : (s.modLinkCtr k f).deferred = s.deferred := rfl
@[simp] theorem State.modLinkCtr_free (s : State) (k : Nat) (f : LinkCounters → LinkCounters) : (s.modLinkCtr k f).free = s.free := rfl
@[simp] theorem State.modLinkCtr_supply (s : State) (k : Nat) (f : LinkCounters → LinkCounters) : (s.modLinkCtr k f).supply = s.supply := rfl
@[simp] theorem State.modLinkCtr_boot (s : State) (k : Nat) (f : LinkCounters → LinkCounters) : (s.modLinkCtr k f).boot = s.boot := rfl
@[simp] theorem State.modLinkCtr_sec (s : State) (k : Nat) (f : LinkCounters → LinkCounters) : (s.modLinkCtr k f).sec = s.sec := rfl
@[simp] theorem State.modLinkCtr_pt (s : State) (k : Nat) (f : LinkCounters → LinkCounters) : (s.modLinkCtr k f).pt = s.pt := rfl
@[simp] theorem State.modLinkCtr_ptAux (s : State) (k : Nat) (f : LinkCounters → LinkCounters) : (s.modLinkCtr k f).ptAux = s.ptAux := rfl
@[simp] theorem State.modLinkCtr_ptDies (s : State) (k : Nat) (f : LinkCounters → LinkCounters) : (s.modLinkCtr k f).ptDies = s.ptDies := rfl
@[simp] theorem State.modLinkCtr_hm (s : State) (k : Nat) (f : LinkCounters → LinkCounters) : (s.modLinkCtr k f).hm = s.hm := rfl
@[simp] theorem State.modLinkCtr_hmAux (s : State) (k : Nat) (f : LinkCounters → LinkCounters) : (s.modLinkCtr k f).hmAux = s.hmAux := rfl
@[simp] theorem State.modLinkCtr_events (s : State) (k : Nat) (f : LinkCounters → LinkCounters) : (s.modLinkCtr k f).events = s.events := rfl
@[simp] theorem State.modLinkCtr_i3c (s : State) (k : Nat) (f : LinkCounters → LinkCounters) : (s.modLinkCtr k f).i3c = s.i3c := rfl
@[simp] theorem State.modLinkCtr_mf (s : State) (k : Nat) (f : LinkCounters → LinkCounters) : (s.modLinkCtr k f).mf = s.mf := rfl
@[simp] theorem State.modLinkCtr_mfAux (s : State) (k : Nat) (f : LinkCounters → LinkCounters) : (s.modLinkCtr k f).mfAux = s.mfAux := rfl
@[simp] theorem State.modLinkCtr_clusters (s : State) (k : Nat) (f : LinkCounters → LinkCounters) : (s.modLinkCtr k f).clusters = s.clusters := rfl
@[simp] theorem State.modLinkCtr_mem (s : State) (k : Nat) (f : LinkCounters → LinkCounters) : (s.modLinkCtr k f).mem = s.mem := rfl
@[simp] theorem State.modLinkCtr_memDies (s : State) (k : Nat) (f : LinkCounters → LinkCounters) : (s.modLinkCtr k f).memDies = s.memDies := rfl
@[simp] theorem State.modLinkCtr_memAux (s : State) (k : Nat) (f : LinkCounters → LinkCounters) : (s.modLinkCtr k f).memAux = s.memAux := rfl
@[simp] theorem State.modLinkCtr_berths (s : State) (k : Nat) (f : LinkCounters → LinkCounters) : (s.modLinkCtr k f).berths = s.berths := rfl
@[simp] theorem State.modLinkCtr_links (s : State) (k : Nat) (f : LinkCounters → LinkCounters) : (s.modLinkCtr k f).links = s.links := rfl
@[simp] theorem State.modLinkCtr_kx (s : State) (k : Nat) (f : LinkCounters → LinkCounters) : (s.modLinkCtr k f).kx = s.kx := rfl
@[simp] theorem State.modLinkCtr_reds (s : State) (k : Nat) (f : LinkCounters → LinkCounters) : (s.modLinkCtr k f).reds = s.reds := rfl
@[simp] theorem State.modLinkCtr_gw (s : State) (k : Nat) (f : LinkCounters → LinkCounters) : (s.modLinkCtr k f).gw = s.gw := rfl
@[simp] theorem State.modLinkCtr_gwAux (s : State) (k : Nat) (f : LinkCounters → LinkCounters) : (s.modLinkCtr k f).gwAux = s.gwAux := rfl
@[simp] theorem State.modLinkCtr_parts (s : State) (k : Nat) (f : LinkCounters → LinkCounters) : (s.modLinkCtr k f).parts = s.parts := rfl
@[simp] theorem State.modLinkCtr_runs (s : State) (k : Nat) (f : LinkCounters → LinkCounters) : (s.modLinkCtr k f).runs = s.runs := rfl
@[simp] theorem State.modLinkCtr_jr (s : State) (k : Nat) (f : LinkCounters → LinkCounters) : (s.modLinkCtr k f).jr = s.jr := rfl
@[simp] theorem State.modLinkCtr_pkg (s : State) (k : Nat) (f : LinkCounters → LinkCounters) : (s.modLinkCtr k f).pkg = s.pkg := rfl

/-! ## modPtDie -/

@[simp] theorem State.modPtDie_pending (s : State) (d : Nat) (f : PtDie → PtDie) : (s.modPtDie d f).pending = s.pending := rfl
@[simp] theorem State.modPtDie_deferred (s : State) (d : Nat) (f : PtDie → PtDie) : (s.modPtDie d f).deferred = s.deferred := rfl
@[simp] theorem State.modPtDie_free (s : State) (d : Nat) (f : PtDie → PtDie) : (s.modPtDie d f).free = s.free := rfl
@[simp] theorem State.modPtDie_supply (s : State) (d : Nat) (f : PtDie → PtDie) : (s.modPtDie d f).supply = s.supply := rfl
@[simp] theorem State.modPtDie_boot (s : State) (d : Nat) (f : PtDie → PtDie) : (s.modPtDie d f).boot = s.boot := rfl
@[simp] theorem State.modPtDie_sec (s : State) (d : Nat) (f : PtDie → PtDie) : (s.modPtDie d f).sec = s.sec := rfl
@[simp] theorem State.modPtDie_pt (s : State) (d : Nat) (f : PtDie → PtDie) : (s.modPtDie d f).pt = s.pt := rfl
@[simp] theorem State.modPtDie_ptAux (s : State) (d : Nat) (f : PtDie → PtDie) : (s.modPtDie d f).ptAux = s.ptAux := rfl
@[simp] theorem State.modPtDie_hm (s : State) (d : Nat) (f : PtDie → PtDie) : (s.modPtDie d f).hm = s.hm := rfl
@[simp] theorem State.modPtDie_hmAux (s : State) (d : Nat) (f : PtDie → PtDie) : (s.modPtDie d f).hmAux = s.hmAux := rfl
@[simp] theorem State.modPtDie_events (s : State) (d : Nat) (f : PtDie → PtDie) : (s.modPtDie d f).events = s.events := rfl
@[simp] theorem State.modPtDie_i3c (s : State) (d : Nat) (f : PtDie → PtDie) : (s.modPtDie d f).i3c = s.i3c := rfl
@[simp] theorem State.modPtDie_mf (s : State) (d : Nat) (f : PtDie → PtDie) : (s.modPtDie d f).mf = s.mf := rfl
@[simp] theorem State.modPtDie_mfAux (s : State) (d : Nat) (f : PtDie → PtDie) : (s.modPtDie d f).mfAux = s.mfAux := rfl
@[simp] theorem State.modPtDie_clusters (s : State) (d : Nat) (f : PtDie → PtDie) : (s.modPtDie d f).clusters = s.clusters := rfl
@[simp] theorem State.modPtDie_mem (s : State) (d : Nat) (f : PtDie → PtDie) : (s.modPtDie d f).mem = s.mem := rfl
@[simp] theorem State.modPtDie_memDies (s : State) (d : Nat) (f : PtDie → PtDie) : (s.modPtDie d f).memDies = s.memDies := rfl
@[simp] theorem State.modPtDie_memAux (s : State) (d : Nat) (f : PtDie → PtDie) : (s.modPtDie d f).memAux = s.memAux := rfl
@[simp] theorem State.modPtDie_berths (s : State) (d : Nat) (f : PtDie → PtDie) : (s.modPtDie d f).berths = s.berths := rfl
@[simp] theorem State.modPtDie_links (s : State) (d : Nat) (f : PtDie → PtDie) : (s.modPtDie d f).links = s.links := rfl
@[simp] theorem State.modPtDie_linkCtrs (s : State) (d : Nat) (f : PtDie → PtDie) : (s.modPtDie d f).linkCtrs = s.linkCtrs := rfl
@[simp] theorem State.modPtDie_kx (s : State) (d : Nat) (f : PtDie → PtDie) : (s.modPtDie d f).kx = s.kx := rfl
@[simp] theorem State.modPtDie_reds (s : State) (d : Nat) (f : PtDie → PtDie) : (s.modPtDie d f).reds = s.reds := rfl
@[simp] theorem State.modPtDie_gw (s : State) (d : Nat) (f : PtDie → PtDie) : (s.modPtDie d f).gw = s.gw := rfl
@[simp] theorem State.modPtDie_gwAux (s : State) (d : Nat) (f : PtDie → PtDie) : (s.modPtDie d f).gwAux = s.gwAux := rfl
@[simp] theorem State.modPtDie_parts (s : State) (d : Nat) (f : PtDie → PtDie) : (s.modPtDie d f).parts = s.parts := rfl
@[simp] theorem State.modPtDie_runs (s : State) (d : Nat) (f : PtDie → PtDie) : (s.modPtDie d f).runs = s.runs := rfl
@[simp] theorem State.modPtDie_jr (s : State) (d : Nat) (f : PtDie → PtDie) : (s.modPtDie d f).jr = s.jr := rfl
@[simp] theorem State.modPtDie_pkg (s : State) (d : Nat) (f : PtDie → PtDie) : (s.modPtDie d f).pkg = s.pkg := rfl

/-! ## modMem -/

@[simp] theorem State.modMem_pending (s : State) (f : Mem → Mem) : (s.modMem f).pending = s.pending := rfl
@[simp] theorem State.modMem_deferred (s : State) (f : Mem → Mem) : (s.modMem f).deferred = s.deferred := rfl
@[simp] theorem State.modMem_free (s : State) (f : Mem → Mem) : (s.modMem f).free = s.free := rfl
@[simp] theorem State.modMem_supply (s : State) (f : Mem → Mem) : (s.modMem f).supply = s.supply := rfl
@[simp] theorem State.modMem_boot (s : State) (f : Mem → Mem) : (s.modMem f).boot = s.boot := rfl
@[simp] theorem State.modMem_sec (s : State) (f : Mem → Mem) : (s.modMem f).sec = s.sec := rfl
@[simp] theorem State.modMem_pt (s : State) (f : Mem → Mem) : (s.modMem f).pt = s.pt := rfl
@[simp] theorem State.modMem_ptAux (s : State) (f : Mem → Mem) : (s.modMem f).ptAux = s.ptAux := rfl
@[simp] theorem State.modMem_ptDies (s : State) (f : Mem → Mem) : (s.modMem f).ptDies = s.ptDies := rfl
@[simp] theorem State.modMem_hm (s : State) (f : Mem → Mem) : (s.modMem f).hm = s.hm := rfl
@[simp] theorem State.modMem_hmAux (s : State) (f : Mem → Mem) : (s.modMem f).hmAux = s.hmAux := rfl
@[simp] theorem State.modMem_events (s : State) (f : Mem → Mem) : (s.modMem f).events = s.events := rfl
@[simp] theorem State.modMem_i3c (s : State) (f : Mem → Mem) : (s.modMem f).i3c = s.i3c := rfl
@[simp] theorem State.modMem_mf (s : State) (f : Mem → Mem) : (s.modMem f).mf = s.mf := rfl
@[simp] theorem State.modMem_mfAux (s : State) (f : Mem → Mem) : (s.modMem f).mfAux = s.mfAux := rfl
@[simp] theorem State.modMem_clusters (s : State) (f : Mem → Mem) : (s.modMem f).clusters = s.clusters := rfl
@[simp] theorem State.modMem_memDies (s : State) (f : Mem → Mem) : (s.modMem f).memDies = s.memDies := rfl
@[simp] theorem State.modMem_memAux (s : State) (f : Mem → Mem) : (s.modMem f).memAux = s.memAux := rfl
@[simp] theorem State.modMem_berths (s : State) (f : Mem → Mem) : (s.modMem f).berths = s.berths := rfl
@[simp] theorem State.modMem_links (s : State) (f : Mem → Mem) : (s.modMem f).links = s.links := rfl
@[simp] theorem State.modMem_linkCtrs (s : State) (f : Mem → Mem) : (s.modMem f).linkCtrs = s.linkCtrs := rfl
@[simp] theorem State.modMem_kx (s : State) (f : Mem → Mem) : (s.modMem f).kx = s.kx := rfl
@[simp] theorem State.modMem_reds (s : State) (f : Mem → Mem) : (s.modMem f).reds = s.reds := rfl
@[simp] theorem State.modMem_gw (s : State) (f : Mem → Mem) : (s.modMem f).gw = s.gw := rfl
@[simp] theorem State.modMem_gwAux (s : State) (f : Mem → Mem) : (s.modMem f).gwAux = s.gwAux := rfl
@[simp] theorem State.modMem_parts (s : State) (f : Mem → Mem) : (s.modMem f).parts = s.parts := rfl
@[simp] theorem State.modMem_runs (s : State) (f : Mem → Mem) : (s.modMem f).runs = s.runs := rfl
@[simp] theorem State.modMem_jr (s : State) (f : Mem → Mem) : (s.modMem f).jr = s.jr := rfl
@[simp] theorem State.modMem_pkg (s : State) (f : Mem → Mem) : (s.modMem f).pkg = s.pkg := rfl

/-! ## modMemDie -/

@[simp] theorem State.modMemDie_pending (s : State) (d : Nat) (f : MemDie → MemDie) : (s.modMemDie d f).pending = s.pending := rfl
@[simp] theorem State.modMemDie_deferred (s : State) (d : Nat) (f : MemDie → MemDie) : (s.modMemDie d f).deferred = s.deferred := rfl
@[simp] theorem State.modMemDie_free (s : State) (d : Nat) (f : MemDie → MemDie) : (s.modMemDie d f).free = s.free := rfl
@[simp] theorem State.modMemDie_supply (s : State) (d : Nat) (f : MemDie → MemDie) : (s.modMemDie d f).supply = s.supply := rfl
@[simp] theorem State.modMemDie_boot (s : State) (d : Nat) (f : MemDie → MemDie) : (s.modMemDie d f).boot = s.boot := rfl
@[simp] theorem State.modMemDie_sec (s : State) (d : Nat) (f : MemDie → MemDie) : (s.modMemDie d f).sec = s.sec := rfl
@[simp] theorem State.modMemDie_pt (s : State) (d : Nat) (f : MemDie → MemDie) : (s.modMemDie d f).pt = s.pt := rfl
@[simp] theorem State.modMemDie_ptAux (s : State) (d : Nat) (f : MemDie → MemDie) : (s.modMemDie d f).ptAux = s.ptAux := rfl
@[simp] theorem State.modMemDie_ptDies (s : State) (d : Nat) (f : MemDie → MemDie) : (s.modMemDie d f).ptDies = s.ptDies := rfl
@[simp] theorem State.modMemDie_hm (s : State) (d : Nat) (f : MemDie → MemDie) : (s.modMemDie d f).hm = s.hm := rfl
@[simp] theorem State.modMemDie_hmAux (s : State) (d : Nat) (f : MemDie → MemDie) : (s.modMemDie d f).hmAux = s.hmAux := rfl
@[simp] theorem State.modMemDie_events (s : State) (d : Nat) (f : MemDie → MemDie) : (s.modMemDie d f).events = s.events := rfl
@[simp] theorem State.modMemDie_i3c (s : State) (d : Nat) (f : MemDie → MemDie) : (s.modMemDie d f).i3c = s.i3c := rfl
@[simp] theorem State.modMemDie_mf (s : State) (d : Nat) (f : MemDie → MemDie) : (s.modMemDie d f).mf = s.mf := rfl
@[simp] theorem State.modMemDie_mfAux (s : State) (d : Nat) (f : MemDie → MemDie) : (s.modMemDie d f).mfAux = s.mfAux := rfl
@[simp] theorem State.modMemDie_clusters (s : State) (d : Nat) (f : MemDie → MemDie) : (s.modMemDie d f).clusters = s.clusters := rfl
@[simp] theorem State.modMemDie_mem (s : State) (d : Nat) (f : MemDie → MemDie) : (s.modMemDie d f).mem = s.mem := rfl
@[simp] theorem State.modMemDie_memAux (s : State) (d : Nat) (f : MemDie → MemDie) : (s.modMemDie d f).memAux = s.memAux := rfl
@[simp] theorem State.modMemDie_berths (s : State) (d : Nat) (f : MemDie → MemDie) : (s.modMemDie d f).berths = s.berths := rfl
@[simp] theorem State.modMemDie_links (s : State) (d : Nat) (f : MemDie → MemDie) : (s.modMemDie d f).links = s.links := rfl
@[simp] theorem State.modMemDie_linkCtrs (s : State) (d : Nat) (f : MemDie → MemDie) : (s.modMemDie d f).linkCtrs = s.linkCtrs := rfl
@[simp] theorem State.modMemDie_kx (s : State) (d : Nat) (f : MemDie → MemDie) : (s.modMemDie d f).kx = s.kx := rfl
@[simp] theorem State.modMemDie_reds (s : State) (d : Nat) (f : MemDie → MemDie) : (s.modMemDie d f).reds = s.reds := rfl
@[simp] theorem State.modMemDie_gw (s : State) (d : Nat) (f : MemDie → MemDie) : (s.modMemDie d f).gw = s.gw := rfl
@[simp] theorem State.modMemDie_gwAux (s : State) (d : Nat) (f : MemDie → MemDie) : (s.modMemDie d f).gwAux = s.gwAux := rfl
@[simp] theorem State.modMemDie_parts (s : State) (d : Nat) (f : MemDie → MemDie) : (s.modMemDie d f).parts = s.parts := rfl
@[simp] theorem State.modMemDie_runs (s : State) (d : Nat) (f : MemDie → MemDie) : (s.modMemDie d f).runs = s.runs := rfl
@[simp] theorem State.modMemDie_jr (s : State) (d : Nat) (f : MemDie → MemDie) : (s.modMemDie d f).jr = s.jr := rfl
@[simp] theorem State.modMemDie_pkg (s : State) (d : Nat) (f : MemDie → MemDie) : (s.modMemDie d f).pkg = s.pkg := rfl

/-! ## modMemDieAux -/

@[simp] theorem State.modMemDieAux_pending (s : State) (d : Nat) (f : MemDieAux → MemDieAux) : (s.modMemDieAux d f).pending = s.pending := rfl
@[simp] theorem State.modMemDieAux_deferred (s : State) (d : Nat) (f : MemDieAux → MemDieAux) : (s.modMemDieAux d f).deferred = s.deferred := rfl
@[simp] theorem State.modMemDieAux_free (s : State) (d : Nat) (f : MemDieAux → MemDieAux) : (s.modMemDieAux d f).free = s.free := rfl
@[simp] theorem State.modMemDieAux_supply (s : State) (d : Nat) (f : MemDieAux → MemDieAux) : (s.modMemDieAux d f).supply = s.supply := rfl
@[simp] theorem State.modMemDieAux_boot (s : State) (d : Nat) (f : MemDieAux → MemDieAux) : (s.modMemDieAux d f).boot = s.boot := rfl
@[simp] theorem State.modMemDieAux_sec (s : State) (d : Nat) (f : MemDieAux → MemDieAux) : (s.modMemDieAux d f).sec = s.sec := rfl
@[simp] theorem State.modMemDieAux_pt (s : State) (d : Nat) (f : MemDieAux → MemDieAux) : (s.modMemDieAux d f).pt = s.pt := rfl
@[simp] theorem State.modMemDieAux_ptAux (s : State) (d : Nat) (f : MemDieAux → MemDieAux) : (s.modMemDieAux d f).ptAux = s.ptAux := rfl
@[simp] theorem State.modMemDieAux_ptDies (s : State) (d : Nat) (f : MemDieAux → MemDieAux) : (s.modMemDieAux d f).ptDies = s.ptDies := rfl
@[simp] theorem State.modMemDieAux_hm (s : State) (d : Nat) (f : MemDieAux → MemDieAux) : (s.modMemDieAux d f).hm = s.hm := rfl
@[simp] theorem State.modMemDieAux_hmAux (s : State) (d : Nat) (f : MemDieAux → MemDieAux) : (s.modMemDieAux d f).hmAux = s.hmAux := rfl
@[simp] theorem State.modMemDieAux_events (s : State) (d : Nat) (f : MemDieAux → MemDieAux) : (s.modMemDieAux d f).events = s.events := rfl
@[simp] theorem State.modMemDieAux_i3c (s : State) (d : Nat) (f : MemDieAux → MemDieAux) : (s.modMemDieAux d f).i3c = s.i3c := rfl
@[simp] theorem State.modMemDieAux_mf (s : State) (d : Nat) (f : MemDieAux → MemDieAux) : (s.modMemDieAux d f).mf = s.mf := rfl
@[simp] theorem State.modMemDieAux_mfAux (s : State) (d : Nat) (f : MemDieAux → MemDieAux) : (s.modMemDieAux d f).mfAux = s.mfAux := rfl
@[simp] theorem State.modMemDieAux_clusters (s : State) (d : Nat) (f : MemDieAux → MemDieAux) : (s.modMemDieAux d f).clusters = s.clusters := rfl
@[simp] theorem State.modMemDieAux_mem (s : State) (d : Nat) (f : MemDieAux → MemDieAux) : (s.modMemDieAux d f).mem = s.mem := rfl
@[simp] theorem State.modMemDieAux_memDies (s : State) (d : Nat) (f : MemDieAux → MemDieAux) : (s.modMemDieAux d f).memDies = s.memDies := rfl
@[simp] theorem State.modMemDieAux_berths (s : State) (d : Nat) (f : MemDieAux → MemDieAux) : (s.modMemDieAux d f).berths = s.berths := rfl
@[simp] theorem State.modMemDieAux_links (s : State) (d : Nat) (f : MemDieAux → MemDieAux) : (s.modMemDieAux d f).links = s.links := rfl
@[simp] theorem State.modMemDieAux_linkCtrs (s : State) (d : Nat) (f : MemDieAux → MemDieAux) : (s.modMemDieAux d f).linkCtrs = s.linkCtrs := rfl
@[simp] theorem State.modMemDieAux_kx (s : State) (d : Nat) (f : MemDieAux → MemDieAux) : (s.modMemDieAux d f).kx = s.kx := rfl
@[simp] theorem State.modMemDieAux_reds (s : State) (d : Nat) (f : MemDieAux → MemDieAux) : (s.modMemDieAux d f).reds = s.reds := rfl
@[simp] theorem State.modMemDieAux_gw (s : State) (d : Nat) (f : MemDieAux → MemDieAux) : (s.modMemDieAux d f).gw = s.gw := rfl
@[simp] theorem State.modMemDieAux_gwAux (s : State) (d : Nat) (f : MemDieAux → MemDieAux) : (s.modMemDieAux d f).gwAux = s.gwAux := rfl
@[simp] theorem State.modMemDieAux_parts (s : State) (d : Nat) (f : MemDieAux → MemDieAux) : (s.modMemDieAux d f).parts = s.parts := rfl
@[simp] theorem State.modMemDieAux_runs (s : State) (d : Nat) (f : MemDieAux → MemDieAux) : (s.modMemDieAux d f).runs = s.runs := rfl
@[simp] theorem State.modMemDieAux_jr (s : State) (d : Nat) (f : MemDieAux → MemDieAux) : (s.modMemDieAux d f).jr = s.jr := rfl
@[simp] theorem State.modMemDieAux_pkg (s : State) (d : Nat) (f : MemDieAux → MemDieAux) : (s.modMemDieAux d f).pkg = s.pkg := rfl

/-! ## modLighter -/

@[simp] theorem State.modLighter_pending (s : State) (d n : Nat) (f : Lighter → Lighter) : (s.modLighter d n f).pending = s.pending := rfl
@[simp] theorem State.modLighter_deferred (s : State) (d n : Nat) (f : Lighter → Lighter) : (s.modLighter d n f).deferred = s.deferred := rfl
@[simp] theorem State.modLighter_free (s : State) (d n : Nat) (f : Lighter → Lighter) : (s.modLighter d n f).free = s.free := rfl
@[simp] theorem State.modLighter_supply (s : State) (d n : Nat) (f : Lighter → Lighter) : (s.modLighter d n f).supply = s.supply := rfl
@[simp] theorem State.modLighter_boot (s : State) (d n : Nat) (f : Lighter → Lighter) : (s.modLighter d n f).boot = s.boot := rfl
@[simp] theorem State.modLighter_sec (s : State) (d n : Nat) (f : Lighter → Lighter) : (s.modLighter d n f).sec = s.sec := rfl
@[simp] theorem State.modLighter_pt (s : State) (d n : Nat) (f : Lighter → Lighter) : (s.modLighter d n f).pt = s.pt := rfl
@[simp] theorem State.modLighter_ptAux (s : State) (d n : Nat) (f : Lighter → Lighter) : (s.modLighter d n f).ptAux = s.ptAux := rfl
@[simp] theorem State.modLighter_ptDies (s : State) (d n : Nat) (f : Lighter → Lighter) : (s.modLighter d n f).ptDies = s.ptDies := rfl
@[simp] theorem State.modLighter_hm (s : State) (d n : Nat) (f : Lighter → Lighter) : (s.modLighter d n f).hm = s.hm := rfl
@[simp] theorem State.modLighter_hmAux (s : State) (d n : Nat) (f : Lighter → Lighter) : (s.modLighter d n f).hmAux = s.hmAux := rfl
@[simp] theorem State.modLighter_events (s : State) (d n : Nat) (f : Lighter → Lighter) : (s.modLighter d n f).events = s.events := rfl
@[simp] theorem State.modLighter_i3c (s : State) (d n : Nat) (f : Lighter → Lighter) : (s.modLighter d n f).i3c = s.i3c := rfl
@[simp] theorem State.modLighter_mf (s : State) (d n : Nat) (f : Lighter → Lighter) : (s.modLighter d n f).mf = s.mf := rfl
@[simp] theorem State.modLighter_mfAux (s : State) (d n : Nat) (f : Lighter → Lighter) : (s.modLighter d n f).mfAux = s.mfAux := rfl
@[simp] theorem State.modLighter_clusters (s : State) (d n : Nat) (f : Lighter → Lighter) : (s.modLighter d n f).clusters = s.clusters := rfl
@[simp] theorem State.modLighter_mem (s : State) (d n : Nat) (f : Lighter → Lighter) : (s.modLighter d n f).mem = s.mem := rfl
@[simp] theorem State.modLighter_memDies (s : State) (d n : Nat) (f : Lighter → Lighter) : (s.modLighter d n f).memDies = s.memDies := rfl
@[simp] theorem State.modLighter_berths (s : State) (d n : Nat) (f : Lighter → Lighter) : (s.modLighter d n f).berths = s.berths := rfl
@[simp] theorem State.modLighter_links (s : State) (d n : Nat) (f : Lighter → Lighter) : (s.modLighter d n f).links = s.links := rfl
@[simp] theorem State.modLighter_linkCtrs (s : State) (d n : Nat) (f : Lighter → Lighter) : (s.modLighter d n f).linkCtrs = s.linkCtrs := rfl
@[simp] theorem State.modLighter_kx (s : State) (d n : Nat) (f : Lighter → Lighter) : (s.modLighter d n f).kx = s.kx := rfl
@[simp] theorem State.modLighter_reds (s : State) (d n : Nat) (f : Lighter → Lighter) : (s.modLighter d n f).reds = s.reds := rfl
@[simp] theorem State.modLighter_gw (s : State) (d n : Nat) (f : Lighter → Lighter) : (s.modLighter d n f).gw = s.gw := rfl
@[simp] theorem State.modLighter_gwAux (s : State) (d n : Nat) (f : Lighter → Lighter) : (s.modLighter d n f).gwAux = s.gwAux := rfl
@[simp] theorem State.modLighter_parts (s : State) (d n : Nat) (f : Lighter → Lighter) : (s.modLighter d n f).parts = s.parts := rfl
@[simp] theorem State.modLighter_runs (s : State) (d n : Nat) (f : Lighter → Lighter) : (s.modLighter d n f).runs = s.runs := rfl
@[simp] theorem State.modLighter_jr (s : State) (d n : Nat) (f : Lighter → Lighter) : (s.modLighter d n f).jr = s.jr := rfl
@[simp] theorem State.modLighter_pkg (s : State) (d n : Nat) (f : Lighter → Lighter) : (s.modLighter d n f).pkg = s.pkg := rfl

/-! ## modSession -/

@[simp] theorem State.modSession_pending (s : State) (n : Nat) (f : Session → Session) : (s.modSession n f).pending = s.pending := rfl
@[simp] theorem State.modSession_deferred (s : State) (n : Nat) (f : Session → Session) : (s.modSession n f).deferred = s.deferred := rfl
@[simp] theorem State.modSession_free (s : State) (n : Nat) (f : Session → Session) : (s.modSession n f).free = s.free := rfl
@[simp] theorem State.modSession_supply (s : State) (n : Nat) (f : Session → Session) : (s.modSession n f).supply = s.supply := rfl
@[simp] theorem State.modSession_boot (s : State) (n : Nat) (f : Session → Session) : (s.modSession n f).boot = s.boot := rfl
@[simp] theorem State.modSession_sec (s : State) (n : Nat) (f : Session → Session) : (s.modSession n f).sec = s.sec := rfl
@[simp] theorem State.modSession_pt (s : State) (n : Nat) (f : Session → Session) : (s.modSession n f).pt = s.pt := rfl
@[simp] theorem State.modSession_ptAux (s : State) (n : Nat) (f : Session → Session) : (s.modSession n f).ptAux = s.ptAux := rfl
@[simp] theorem State.modSession_ptDies (s : State) (n : Nat) (f : Session → Session) : (s.modSession n f).ptDies = s.ptDies := rfl
@[simp] theorem State.modSession_hm (s : State) (n : Nat) (f : Session → Session) : (s.modSession n f).hm = s.hm := rfl
@[simp] theorem State.modSession_hmAux (s : State) (n : Nat) (f : Session → Session) : (s.modSession n f).hmAux = s.hmAux := rfl
@[simp] theorem State.modSession_events (s : State) (n : Nat) (f : Session → Session) : (s.modSession n f).events = s.events := rfl
@[simp] theorem State.modSession_i3c (s : State) (n : Nat) (f : Session → Session) : (s.modSession n f).i3c = s.i3c := rfl
@[simp] theorem State.modSession_mf (s : State) (n : Nat) (f : Session → Session) : (s.modSession n f).mf = s.mf := rfl
@[simp] theorem State.modSession_mfAux (s : State) (n : Nat) (f : Session → Session) : (s.modSession n f).mfAux = s.mfAux := rfl
@[simp] theorem State.modSession_clusters (s : State) (n : Nat) (f : Session → Session) : (s.modSession n f).clusters = s.clusters := rfl
@[simp] theorem State.modSession_mem (s : State) (n : Nat) (f : Session → Session) : (s.modSession n f).mem = s.mem := rfl
@[simp] theorem State.modSession_memDies (s : State) (n : Nat) (f : Session → Session) : (s.modSession n f).memDies = s.memDies := rfl
@[simp] theorem State.modSession_memAux (s : State) (n : Nat) (f : Session → Session) : (s.modSession n f).memAux = s.memAux := rfl
@[simp] theorem State.modSession_berths (s : State) (n : Nat) (f : Session → Session) : (s.modSession n f).berths = s.berths := rfl
@[simp] theorem State.modSession_links (s : State) (n : Nat) (f : Session → Session) : (s.modSession n f).links = s.links := rfl
@[simp] theorem State.modSession_linkCtrs (s : State) (n : Nat) (f : Session → Session) : (s.modSession n f).linkCtrs = s.linkCtrs := rfl
@[simp] theorem State.modSession_kx (s : State) (n : Nat) (f : Session → Session) : (s.modSession n f).kx = s.kx := rfl
@[simp] theorem State.modSession_reds (s : State) (n : Nat) (f : Session → Session) : (s.modSession n f).reds = s.reds := rfl
@[simp] theorem State.modSession_gwAux (s : State) (n : Nat) (f : Session → Session) : (s.modSession n f).gwAux = s.gwAux := rfl
@[simp] theorem State.modSession_parts (s : State) (n : Nat) (f : Session → Session) : (s.modSession n f).parts = s.parts := rfl
@[simp] theorem State.modSession_runs (s : State) (n : Nat) (f : Session → Session) : (s.modSession n f).runs = s.runs := rfl
@[simp] theorem State.modSession_jr (s : State) (n : Nat) (f : Session → Session) : (s.modSession n f).jr = s.jr := rfl
@[simp] theorem State.modSession_pkg (s : State) (n : Nat) (f : Session → Session) : (s.modSession n f).pkg = s.pkg := rfl

/-! ## modQp -/

@[simp] theorem State.modQp_pending (s : State) (n : Nat) (f : Qp → Qp) : (s.modQp n f).pending = s.pending := rfl
@[simp] theorem State.modQp_deferred (s : State) (n : Nat) (f : Qp → Qp) : (s.modQp n f).deferred = s.deferred := rfl
@[simp] theorem State.modQp_free (s : State) (n : Nat) (f : Qp → Qp) : (s.modQp n f).free = s.free := rfl
@[simp] theorem State.modQp_supply (s : State) (n : Nat) (f : Qp → Qp) : (s.modQp n f).supply = s.supply := rfl
@[simp] theorem State.modQp_boot (s : State) (n : Nat) (f : Qp → Qp) : (s.modQp n f).boot = s.boot := rfl
@[simp] theorem State.modQp_sec (s : State) (n : Nat) (f : Qp → Qp) : (s.modQp n f).sec = s.sec := rfl
@[simp] theorem State.modQp_pt (s : State) (n : Nat) (f : Qp → Qp) : (s.modQp n f).pt = s.pt := rfl
@[simp] theorem State.modQp_ptAux (s : State) (n : Nat) (f : Qp → Qp) : (s.modQp n f).ptAux = s.ptAux := rfl
@[simp] theorem State.modQp_ptDies (s : State) (n : Nat) (f : Qp → Qp) : (s.modQp n f).ptDies = s.ptDies := rfl
@[simp] theorem State.modQp_hm (s : State) (n : Nat) (f : Qp → Qp) : (s.modQp n f).hm = s.hm := rfl
@[simp] theorem State.modQp_hmAux (s : State) (n : Nat) (f : Qp → Qp) : (s.modQp n f).hmAux = s.hmAux := rfl
@[simp] theorem State.modQp_events (s : State) (n : Nat) (f : Qp → Qp) : (s.modQp n f).events = s.events := rfl
@[simp] theorem State.modQp_i3c (s : State) (n : Nat) (f : Qp → Qp) : (s.modQp n f).i3c = s.i3c := rfl
@[simp] theorem State.modQp_mf (s : State) (n : Nat) (f : Qp → Qp) : (s.modQp n f).mf = s.mf := rfl
@[simp] theorem State.modQp_mfAux (s : State) (n : Nat) (f : Qp → Qp) : (s.modQp n f).mfAux = s.mfAux := rfl
@[simp] theorem State.modQp_clusters (s : State) (n : Nat) (f : Qp → Qp) : (s.modQp n f).clusters = s.clusters := rfl
@[simp] theorem State.modQp_mem (s : State) (n : Nat) (f : Qp → Qp) : (s.modQp n f).mem = s.mem := rfl
@[simp] theorem State.modQp_memDies (s : State) (n : Nat) (f : Qp → Qp) : (s.modQp n f).memDies = s.memDies := rfl
@[simp] theorem State.modQp_memAux (s : State) (n : Nat) (f : Qp → Qp) : (s.modQp n f).memAux = s.memAux := rfl
@[simp] theorem State.modQp_berths (s : State) (n : Nat) (f : Qp → Qp) : (s.modQp n f).berths = s.berths := rfl
@[simp] theorem State.modQp_links (s : State) (n : Nat) (f : Qp → Qp) : (s.modQp n f).links = s.links := rfl
@[simp] theorem State.modQp_linkCtrs (s : State) (n : Nat) (f : Qp → Qp) : (s.modQp n f).linkCtrs = s.linkCtrs := rfl
@[simp] theorem State.modQp_kx (s : State) (n : Nat) (f : Qp → Qp) : (s.modQp n f).kx = s.kx := rfl
@[simp] theorem State.modQp_reds (s : State) (n : Nat) (f : Qp → Qp) : (s.modQp n f).reds = s.reds := rfl
@[simp] theorem State.modQp_gwAux (s : State) (n : Nat) (f : Qp → Qp) : (s.modQp n f).gwAux = s.gwAux := rfl
@[simp] theorem State.modQp_parts (s : State) (n : Nat) (f : Qp → Qp) : (s.modQp n f).parts = s.parts := rfl
@[simp] theorem State.modQp_runs (s : State) (n : Nat) (f : Qp → Qp) : (s.modQp n f).runs = s.runs := rfl
@[simp] theorem State.modQp_jr (s : State) (n : Nat) (f : Qp → Qp) : (s.modQp n f).jr = s.jr := rfl
@[simp] theorem State.modQp_pkg (s : State) (n : Nat) (f : Qp → Qp) : (s.modQp n f).pkg = s.pkg := rfl

/-! ## modTimer -/

@[simp] theorem State.modTimer_pending (s : State) (t : Nat) (f : Timer → Timer) : (s.modTimer t f).pending = s.pending := rfl
@[simp] theorem State.modTimer_deferred (s : State) (t : Nat) (f : Timer → Timer) : (s.modTimer t f).deferred = s.deferred := rfl
@[simp] theorem State.modTimer_free (s : State) (t : Nat) (f : Timer → Timer) : (s.modTimer t f).free = s.free := rfl
@[simp] theorem State.modTimer_supply (s : State) (t : Nat) (f : Timer → Timer) : (s.modTimer t f).supply = s.supply := rfl
@[simp] theorem State.modTimer_boot (s : State) (t : Nat) (f : Timer → Timer) : (s.modTimer t f).boot = s.boot := rfl
@[simp] theorem State.modTimer_sec (s : State) (t : Nat) (f : Timer → Timer) : (s.modTimer t f).sec = s.sec := rfl
@[simp] theorem State.modTimer_pt (s : State) (t : Nat) (f : Timer → Timer) : (s.modTimer t f).pt = s.pt := rfl
@[simp] theorem State.modTimer_ptAux (s : State) (t : Nat) (f : Timer → Timer) : (s.modTimer t f).ptAux = s.ptAux := rfl
@[simp] theorem State.modTimer_ptDies (s : State) (t : Nat) (f : Timer → Timer) : (s.modTimer t f).ptDies = s.ptDies := rfl
@[simp] theorem State.modTimer_hm (s : State) (t : Nat) (f : Timer → Timer) : (s.modTimer t f).hm = s.hm := rfl
@[simp] theorem State.modTimer_events (s : State) (t : Nat) (f : Timer → Timer) : (s.modTimer t f).events = s.events := rfl
@[simp] theorem State.modTimer_i3c (s : State) (t : Nat) (f : Timer → Timer) : (s.modTimer t f).i3c = s.i3c := rfl
@[simp] theorem State.modTimer_mf (s : State) (t : Nat) (f : Timer → Timer) : (s.modTimer t f).mf = s.mf := rfl
@[simp] theorem State.modTimer_mfAux (s : State) (t : Nat) (f : Timer → Timer) : (s.modTimer t f).mfAux = s.mfAux := rfl
@[simp] theorem State.modTimer_clusters (s : State) (t : Nat) (f : Timer → Timer) : (s.modTimer t f).clusters = s.clusters := rfl
@[simp] theorem State.modTimer_mem (s : State) (t : Nat) (f : Timer → Timer) : (s.modTimer t f).mem = s.mem := rfl
@[simp] theorem State.modTimer_memDies (s : State) (t : Nat) (f : Timer → Timer) : (s.modTimer t f).memDies = s.memDies := rfl
@[simp] theorem State.modTimer_memAux (s : State) (t : Nat) (f : Timer → Timer) : (s.modTimer t f).memAux = s.memAux := rfl
@[simp] theorem State.modTimer_berths (s : State) (t : Nat) (f : Timer → Timer) : (s.modTimer t f).berths = s.berths := rfl
@[simp] theorem State.modTimer_links (s : State) (t : Nat) (f : Timer → Timer) : (s.modTimer t f).links = s.links := rfl
@[simp] theorem State.modTimer_linkCtrs (s : State) (t : Nat) (f : Timer → Timer) : (s.modTimer t f).linkCtrs = s.linkCtrs := rfl
@[simp] theorem State.modTimer_kx (s : State) (t : Nat) (f : Timer → Timer) : (s.modTimer t f).kx = s.kx := rfl
@[simp] theorem State.modTimer_reds (s : State) (t : Nat) (f : Timer → Timer) : (s.modTimer t f).reds = s.reds := rfl
@[simp] theorem State.modTimer_gw (s : State) (t : Nat) (f : Timer → Timer) : (s.modTimer t f).gw = s.gw := rfl
@[simp] theorem State.modTimer_gwAux (s : State) (t : Nat) (f : Timer → Timer) : (s.modTimer t f).gwAux = s.gwAux := rfl
@[simp] theorem State.modTimer_parts (s : State) (t : Nat) (f : Timer → Timer) : (s.modTimer t f).parts = s.parts := rfl
@[simp] theorem State.modTimer_runs (s : State) (t : Nat) (f : Timer → Timer) : (s.modTimer t f).runs = s.runs := rfl
@[simp] theorem State.modTimer_jr (s : State) (t : Nat) (f : Timer → Timer) : (s.modTimer t f).jr = s.jr := rfl
@[simp] theorem State.modTimer_pkg (s : State) (t : Nat) (f : Timer → Timer) : (s.modTimer t f).pkg = s.pkg := rfl

/-! ## modSide -/

@[simp] theorem State.modSide_pending (s : State) (n : Nat) (f : Word → Word) : (s.modSide n f).pending = s.pending := rfl
@[simp] theorem State.modSide_deferred (s : State) (n : Nat) (f : Word → Word) : (s.modSide n f).deferred = s.deferred := rfl
@[simp] theorem State.modSide_free (s : State) (n : Nat) (f : Word → Word) : (s.modSide n f).free = s.free := rfl
@[simp] theorem State.modSide_supply (s : State) (n : Nat) (f : Word → Word) : (s.modSide n f).supply = s.supply := rfl
@[simp] theorem State.modSide_boot (s : State) (n : Nat) (f : Word → Word) : (s.modSide n f).boot = s.boot := rfl
@[simp] theorem State.modSide_sec (s : State) (n : Nat) (f : Word → Word) : (s.modSide n f).sec = s.sec := rfl
@[simp] theorem State.modSide_pt (s : State) (n : Nat) (f : Word → Word) : (s.modSide n f).pt = s.pt := rfl
@[simp] theorem State.modSide_ptAux (s : State) (n : Nat) (f : Word → Word) : (s.modSide n f).ptAux = s.ptAux := rfl
@[simp] theorem State.modSide_ptDies (s : State) (n : Nat) (f : Word → Word) : (s.modSide n f).ptDies = s.ptDies := rfl
@[simp] theorem State.modSide_hm (s : State) (n : Nat) (f : Word → Word) : (s.modSide n f).hm = s.hm := rfl
@[simp] theorem State.modSide_events (s : State) (n : Nat) (f : Word → Word) : (s.modSide n f).events = s.events := rfl
@[simp] theorem State.modSide_i3c (s : State) (n : Nat) (f : Word → Word) : (s.modSide n f).i3c = s.i3c := rfl
@[simp] theorem State.modSide_mf (s : State) (n : Nat) (f : Word → Word) : (s.modSide n f).mf = s.mf := rfl
@[simp] theorem State.modSide_mfAux (s : State) (n : Nat) (f : Word → Word) : (s.modSide n f).mfAux = s.mfAux := rfl
@[simp] theorem State.modSide_clusters (s : State) (n : Nat) (f : Word → Word) : (s.modSide n f).clusters = s.clusters := rfl
@[simp] theorem State.modSide_mem (s : State) (n : Nat) (f : Word → Word) : (s.modSide n f).mem = s.mem := rfl
@[simp] theorem State.modSide_memDies (s : State) (n : Nat) (f : Word → Word) : (s.modSide n f).memDies = s.memDies := rfl
@[simp] theorem State.modSide_memAux (s : State) (n : Nat) (f : Word → Word) : (s.modSide n f).memAux = s.memAux := rfl
@[simp] theorem State.modSide_berths (s : State) (n : Nat) (f : Word → Word) : (s.modSide n f).berths = s.berths := rfl
@[simp] theorem State.modSide_links (s : State) (n : Nat) (f : Word → Word) : (s.modSide n f).links = s.links := rfl
@[simp] theorem State.modSide_linkCtrs (s : State) (n : Nat) (f : Word → Word) : (s.modSide n f).linkCtrs = s.linkCtrs := rfl
@[simp] theorem State.modSide_kx (s : State) (n : Nat) (f : Word → Word) : (s.modSide n f).kx = s.kx := rfl
@[simp] theorem State.modSide_reds (s : State) (n : Nat) (f : Word → Word) : (s.modSide n f).reds = s.reds := rfl
@[simp] theorem State.modSide_gw (s : State) (n : Nat) (f : Word → Word) : (s.modSide n f).gw = s.gw := rfl
@[simp] theorem State.modSide_gwAux (s : State) (n : Nat) (f : Word → Word) : (s.modSide n f).gwAux = s.gwAux := rfl
@[simp] theorem State.modSide_parts (s : State) (n : Nat) (f : Word → Word) : (s.modSide n f).parts = s.parts := rfl
@[simp] theorem State.modSide_runs (s : State) (n : Nat) (f : Word → Word) : (s.modSide n f).runs = s.runs := rfl
@[simp] theorem State.modSide_jr (s : State) (n : Nat) (f : Word → Word) : (s.modSide n f).jr = s.jr := rfl
@[simp] theorem State.modSide_pkg (s : State) (n : Nat) (f : Word → Word) : (s.modSide n f).pkg = s.pkg := rfl

/-! ## modPeer -/

@[simp] theorem State.modPeer_pending (s : State) (n : Nat) (f : Peer → Peer) : (s.modPeer n f).pending = s.pending := rfl
@[simp] theorem State.modPeer_deferred (s : State) (n : Nat) (f : Peer → Peer) : (s.modPeer n f).deferred = s.deferred := rfl
@[simp] theorem State.modPeer_free (s : State) (n : Nat) (f : Peer → Peer) : (s.modPeer n f).free = s.free := rfl
@[simp] theorem State.modPeer_supply (s : State) (n : Nat) (f : Peer → Peer) : (s.modPeer n f).supply = s.supply := rfl
@[simp] theorem State.modPeer_boot (s : State) (n : Nat) (f : Peer → Peer) : (s.modPeer n f).boot = s.boot := rfl
@[simp] theorem State.modPeer_pt (s : State) (n : Nat) (f : Peer → Peer) : (s.modPeer n f).pt = s.pt := rfl
@[simp] theorem State.modPeer_ptAux (s : State) (n : Nat) (f : Peer → Peer) : (s.modPeer n f).ptAux = s.ptAux := rfl
@[simp] theorem State.modPeer_ptDies (s : State) (n : Nat) (f : Peer → Peer) : (s.modPeer n f).ptDies = s.ptDies := rfl
@[simp] theorem State.modPeer_hm (s : State) (n : Nat) (f : Peer → Peer) : (s.modPeer n f).hm = s.hm := rfl
@[simp] theorem State.modPeer_hmAux (s : State) (n : Nat) (f : Peer → Peer) : (s.modPeer n f).hmAux = s.hmAux := rfl
@[simp] theorem State.modPeer_events (s : State) (n : Nat) (f : Peer → Peer) : (s.modPeer n f).events = s.events := rfl
@[simp] theorem State.modPeer_i3c (s : State) (n : Nat) (f : Peer → Peer) : (s.modPeer n f).i3c = s.i3c := rfl
@[simp] theorem State.modPeer_mf (s : State) (n : Nat) (f : Peer → Peer) : (s.modPeer n f).mf = s.mf := rfl
@[simp] theorem State.modPeer_mfAux (s : State) (n : Nat) (f : Peer → Peer) : (s.modPeer n f).mfAux = s.mfAux := rfl
@[simp] theorem State.modPeer_clusters (s : State) (n : Nat) (f : Peer → Peer) : (s.modPeer n f).clusters = s.clusters := rfl
@[simp] theorem State.modPeer_mem (s : State) (n : Nat) (f : Peer → Peer) : (s.modPeer n f).mem = s.mem := rfl
@[simp] theorem State.modPeer_memDies (s : State) (n : Nat) (f : Peer → Peer) : (s.modPeer n f).memDies = s.memDies := rfl
@[simp] theorem State.modPeer_memAux (s : State) (n : Nat) (f : Peer → Peer) : (s.modPeer n f).memAux = s.memAux := rfl
@[simp] theorem State.modPeer_berths (s : State) (n : Nat) (f : Peer → Peer) : (s.modPeer n f).berths = s.berths := rfl
@[simp] theorem State.modPeer_links (s : State) (n : Nat) (f : Peer → Peer) : (s.modPeer n f).links = s.links := rfl
@[simp] theorem State.modPeer_linkCtrs (s : State) (n : Nat) (f : Peer → Peer) : (s.modPeer n f).linkCtrs = s.linkCtrs := rfl
@[simp] theorem State.modPeer_kx (s : State) (n : Nat) (f : Peer → Peer) : (s.modPeer n f).kx = s.kx := rfl
@[simp] theorem State.modPeer_reds (s : State) (n : Nat) (f : Peer → Peer) : (s.modPeer n f).reds = s.reds := rfl
@[simp] theorem State.modPeer_gw (s : State) (n : Nat) (f : Peer → Peer) : (s.modPeer n f).gw = s.gw := rfl
@[simp] theorem State.modPeer_gwAux (s : State) (n : Nat) (f : Peer → Peer) : (s.modPeer n f).gwAux = s.gwAux := rfl
@[simp] theorem State.modPeer_parts (s : State) (n : Nat) (f : Peer → Peer) : (s.modPeer n f).parts = s.parts := rfl
@[simp] theorem State.modPeer_runs (s : State) (n : Nat) (f : Peer → Peer) : (s.modPeer n f).runs = s.runs := rfl
@[simp] theorem State.modPeer_jr (s : State) (n : Nat) (f : Peer → Peer) : (s.modPeer n f).jr = s.jr := rfl
@[simp] theorem State.modPeer_pkg (s : State) (n : Nat) (f : Peer → Peer) : (s.modPeer n f).pkg = s.pkg := rfl

/-! ## modPt -/

@[simp] theorem State.modPt_pending (s : State) (f : Pt → Pt) : (s.modPt f).pending = s.pending := rfl
@[simp] theorem State.modPt_deferred (s : State) (f : Pt → Pt) : (s.modPt f).deferred = s.deferred := rfl
@[simp] theorem State.modPt_free (s : State) (f : Pt → Pt) : (s.modPt f).free = s.free := rfl
@[simp] theorem State.modPt_supply (s : State) (f : Pt → Pt) : (s.modPt f).supply = s.supply := rfl
@[simp] theorem State.modPt_boot (s : State) (f : Pt → Pt) : (s.modPt f).boot = s.boot := rfl
@[simp] theorem State.modPt_sec (s : State) (f : Pt → Pt) : (s.modPt f).sec = s.sec := rfl
@[simp] theorem State.modPt_ptAux (s : State) (f : Pt → Pt) : (s.modPt f).ptAux = s.ptAux := rfl
@[simp] theorem State.modPt_ptDies (s : State) (f : Pt → Pt) : (s.modPt f).ptDies = s.ptDies := rfl
@[simp] theorem State.modPt_hm (s : State) (f : Pt → Pt) : (s.modPt f).hm = s.hm := rfl
@[simp] theorem State.modPt_hmAux (s : State) (f : Pt → Pt) : (s.modPt f).hmAux = s.hmAux := rfl
@[simp] theorem State.modPt_events (s : State) (f : Pt → Pt) : (s.modPt f).events = s.events := rfl
@[simp] theorem State.modPt_i3c (s : State) (f : Pt → Pt) : (s.modPt f).i3c = s.i3c := rfl
@[simp] theorem State.modPt_mf (s : State) (f : Pt → Pt) : (s.modPt f).mf = s.mf := rfl
@[simp] theorem State.modPt_mfAux (s : State) (f : Pt → Pt) : (s.modPt f).mfAux = s.mfAux := rfl
@[simp] theorem State.modPt_clusters (s : State) (f : Pt → Pt) : (s.modPt f).clusters = s.clusters := rfl
@[simp] theorem State.modPt_mem (s : State) (f : Pt → Pt) : (s.modPt f).mem = s.mem := rfl
@[simp] theorem State.modPt_memDies (s : State) (f : Pt → Pt) : (s.modPt f).memDies = s.memDies := rfl
@[simp] theorem State.modPt_memAux (s : State) (f : Pt → Pt) : (s.modPt f).memAux = s.memAux := rfl
@[simp] theorem State.modPt_berths (s : State) (f : Pt → Pt) : (s.modPt f).berths = s.berths := rfl
@[simp] theorem State.modPt_links (s : State) (f : Pt → Pt) : (s.modPt f).links = s.links := rfl
@[simp] theorem State.modPt_linkCtrs (s : State) (f : Pt → Pt) : (s.modPt f).linkCtrs = s.linkCtrs := rfl
@[simp] theorem State.modPt_kx (s : State) (f : Pt → Pt) : (s.modPt f).kx = s.kx := rfl
@[simp] theorem State.modPt_reds (s : State) (f : Pt → Pt) : (s.modPt f).reds = s.reds := rfl
@[simp] theorem State.modPt_gw (s : State) (f : Pt → Pt) : (s.modPt f).gw = s.gw := rfl
@[simp] theorem State.modPt_gwAux (s : State) (f : Pt → Pt) : (s.modPt f).gwAux = s.gwAux := rfl
@[simp] theorem State.modPt_parts (s : State) (f : Pt → Pt) : (s.modPt f).parts = s.parts := rfl
@[simp] theorem State.modPt_runs (s : State) (f : Pt → Pt) : (s.modPt f).runs = s.runs := rfl
@[simp] theorem State.modPt_jr (s : State) (f : Pt → Pt) : (s.modPt f).jr = s.jr := rfl
@[simp] theorem State.modPt_pkg (s : State) (f : Pt → Pt) : (s.modPt f).pkg = s.pkg := rfl

/-! ## modPtAux -/

@[simp] theorem State.modPtAux_pending (s : State) (f : PtAux → PtAux) : (s.modPtAux f).pending = s.pending := rfl
@[simp] theorem State.modPtAux_deferred (s : State) (f : PtAux → PtAux) : (s.modPtAux f).deferred = s.deferred := rfl
@[simp] theorem State.modPtAux_free (s : State) (f : PtAux → PtAux) : (s.modPtAux f).free = s.free := rfl
@[simp] theorem State.modPtAux_supply (s : State) (f : PtAux → PtAux) : (s.modPtAux f).supply = s.supply := rfl
@[simp] theorem State.modPtAux_boot (s : State) (f : PtAux → PtAux) : (s.modPtAux f).boot = s.boot := rfl
@[simp] theorem State.modPtAux_sec (s : State) (f : PtAux → PtAux) : (s.modPtAux f).sec = s.sec := rfl
@[simp] theorem State.modPtAux_pt (s : State) (f : PtAux → PtAux) : (s.modPtAux f).pt = s.pt := rfl
@[simp] theorem State.modPtAux_ptDies (s : State) (f : PtAux → PtAux) : (s.modPtAux f).ptDies = s.ptDies := rfl
@[simp] theorem State.modPtAux_hm (s : State) (f : PtAux → PtAux) : (s.modPtAux f).hm = s.hm := rfl
@[simp] theorem State.modPtAux_hmAux (s : State) (f : PtAux → PtAux) : (s.modPtAux f).hmAux = s.hmAux := rfl
@[simp] theorem State.modPtAux_events (s : State) (f : PtAux → PtAux) : (s.modPtAux f).events = s.events := rfl
@[simp] theorem State.modPtAux_i3c (s : State) (f : PtAux → PtAux) : (s.modPtAux f).i3c = s.i3c := rfl
@[simp] theorem State.modPtAux_mf (s : State) (f : PtAux → PtAux) : (s.modPtAux f).mf = s.mf := rfl
@[simp] theorem State.modPtAux_mfAux (s : State) (f : PtAux → PtAux) : (s.modPtAux f).mfAux = s.mfAux := rfl
@[simp] theorem State.modPtAux_clusters (s : State) (f : PtAux → PtAux) : (s.modPtAux f).clusters = s.clusters := rfl
@[simp] theorem State.modPtAux_mem (s : State) (f : PtAux → PtAux) : (s.modPtAux f).mem = s.mem := rfl
@[simp] theorem State.modPtAux_memDies (s : State) (f : PtAux → PtAux) : (s.modPtAux f).memDies = s.memDies := rfl
@[simp] theorem State.modPtAux_memAux (s : State) (f : PtAux → PtAux) : (s.modPtAux f).memAux = s.memAux := rfl
@[simp] theorem State.modPtAux_berths (s : State) (f : PtAux → PtAux) : (s.modPtAux f).berths = s.berths := rfl
@[simp] theorem State.modPtAux_links (s : State) (f : PtAux → PtAux) : (s.modPtAux f).links = s.links := rfl
@[simp] theorem State.modPtAux_linkCtrs (s : State) (f : PtAux → PtAux) : (s.modPtAux f).linkCtrs = s.linkCtrs := rfl
@[simp] theorem State.modPtAux_kx (s : State) (f : PtAux → PtAux) : (s.modPtAux f).kx = s.kx := rfl
@[simp] theorem State.modPtAux_reds (s : State) (f : PtAux → PtAux) : (s.modPtAux f).reds = s.reds := rfl
@[simp] theorem State.modPtAux_gw (s : State) (f : PtAux → PtAux) : (s.modPtAux f).gw = s.gw := rfl
@[simp] theorem State.modPtAux_gwAux (s : State) (f : PtAux → PtAux) : (s.modPtAux f).gwAux = s.gwAux := rfl
@[simp] theorem State.modPtAux_parts (s : State) (f : PtAux → PtAux) : (s.modPtAux f).parts = s.parts := rfl
@[simp] theorem State.modPtAux_runs (s : State) (f : PtAux → PtAux) : (s.modPtAux f).runs = s.runs := rfl
@[simp] theorem State.modPtAux_jr (s : State) (f : PtAux → PtAux) : (s.modPtAux f).jr = s.jr := rfl
@[simp] theorem State.modPtAux_pkg (s : State) (f : PtAux → PtAux) : (s.modPtAux f).pkg = s.pkg := rfl

/-! ## modSpot -/

@[simp] theorem State.modSpot_pending (s : State) (i : Nat) (f : Spot → Spot) : (s.modSpot i f).pending = s.pending := rfl
@[simp] theorem State.modSpot_deferred (s : State) (i : Nat) (f : Spot → Spot) : (s.modSpot i f).deferred = s.deferred := rfl
@[simp] theorem State.modSpot_free (s : State) (i : Nat) (f : Spot → Spot) : (s.modSpot i f).free = s.free := rfl
@[simp] theorem State.modSpot_supply (s : State) (i : Nat) (f : Spot → Spot) : (s.modSpot i f).supply = s.supply := rfl
@[simp] theorem State.modSpot_boot (s : State) (i : Nat) (f : Spot → Spot) : (s.modSpot i f).boot = s.boot := rfl
@[simp] theorem State.modSpot_sec (s : State) (i : Nat) (f : Spot → Spot) : (s.modSpot i f).sec = s.sec := rfl
@[simp] theorem State.modSpot_pt (s : State) (i : Nat) (f : Spot → Spot) : (s.modSpot i f).pt = s.pt := rfl
@[simp] theorem State.modSpot_ptDies (s : State) (i : Nat) (f : Spot → Spot) : (s.modSpot i f).ptDies = s.ptDies := rfl
@[simp] theorem State.modSpot_hm (s : State) (i : Nat) (f : Spot → Spot) : (s.modSpot i f).hm = s.hm := rfl
@[simp] theorem State.modSpot_hmAux (s : State) (i : Nat) (f : Spot → Spot) : (s.modSpot i f).hmAux = s.hmAux := rfl
@[simp] theorem State.modSpot_events (s : State) (i : Nat) (f : Spot → Spot) : (s.modSpot i f).events = s.events := rfl
@[simp] theorem State.modSpot_i3c (s : State) (i : Nat) (f : Spot → Spot) : (s.modSpot i f).i3c = s.i3c := rfl
@[simp] theorem State.modSpot_mf (s : State) (i : Nat) (f : Spot → Spot) : (s.modSpot i f).mf = s.mf := rfl
@[simp] theorem State.modSpot_mfAux (s : State) (i : Nat) (f : Spot → Spot) : (s.modSpot i f).mfAux = s.mfAux := rfl
@[simp] theorem State.modSpot_clusters (s : State) (i : Nat) (f : Spot → Spot) : (s.modSpot i f).clusters = s.clusters := rfl
@[simp] theorem State.modSpot_mem (s : State) (i : Nat) (f : Spot → Spot) : (s.modSpot i f).mem = s.mem := rfl
@[simp] theorem State.modSpot_memDies (s : State) (i : Nat) (f : Spot → Spot) : (s.modSpot i f).memDies = s.memDies := rfl
@[simp] theorem State.modSpot_memAux (s : State) (i : Nat) (f : Spot → Spot) : (s.modSpot i f).memAux = s.memAux := rfl
@[simp] theorem State.modSpot_berths (s : State) (i : Nat) (f : Spot → Spot) : (s.modSpot i f).berths = s.berths := rfl
@[simp] theorem State.modSpot_links (s : State) (i : Nat) (f : Spot → Spot) : (s.modSpot i f).links = s.links := rfl
@[simp] theorem State.modSpot_linkCtrs (s : State) (i : Nat) (f : Spot → Spot) : (s.modSpot i f).linkCtrs = s.linkCtrs := rfl
@[simp] theorem State.modSpot_kx (s : State) (i : Nat) (f : Spot → Spot) : (s.modSpot i f).kx = s.kx := rfl
@[simp] theorem State.modSpot_reds (s : State) (i : Nat) (f : Spot → Spot) : (s.modSpot i f).reds = s.reds := rfl
@[simp] theorem State.modSpot_gw (s : State) (i : Nat) (f : Spot → Spot) : (s.modSpot i f).gw = s.gw := rfl
@[simp] theorem State.modSpot_gwAux (s : State) (i : Nat) (f : Spot → Spot) : (s.modSpot i f).gwAux = s.gwAux := rfl
@[simp] theorem State.modSpot_parts (s : State) (i : Nat) (f : Spot → Spot) : (s.modSpot i f).parts = s.parts := rfl
@[simp] theorem State.modSpot_runs (s : State) (i : Nat) (f : Spot → Spot) : (s.modSpot i f).runs = s.runs := rfl
@[simp] theorem State.modSpot_jr (s : State) (i : Nat) (f : Spot → Spot) : (s.modSpot i f).jr = s.jr := rfl
@[simp] theorem State.modSpot_pkg (s : State) (i : Nat) (f : Spot → Spot) : (s.modSpot i f).pkg = s.pkg := rfl

/-! ## modEvents -/

@[simp] theorem State.modEvents_pending (s : State) (f : Events → Events) : (s.modEvents f).pending = s.pending := rfl
@[simp] theorem State.modEvents_deferred (s : State) (f : Events → Events) : (s.modEvents f).deferred = s.deferred := rfl
@[simp] theorem State.modEvents_free (s : State) (f : Events → Events) : (s.modEvents f).free = s.free := rfl
@[simp] theorem State.modEvents_supply (s : State) (f : Events → Events) : (s.modEvents f).supply = s.supply := rfl
@[simp] theorem State.modEvents_boot (s : State) (f : Events → Events) : (s.modEvents f).boot = s.boot := rfl
@[simp] theorem State.modEvents_sec (s : State) (f : Events → Events) : (s.modEvents f).sec = s.sec := rfl
@[simp] theorem State.modEvents_pt (s : State) (f : Events → Events) : (s.modEvents f).pt = s.pt := rfl
@[simp] theorem State.modEvents_ptAux (s : State) (f : Events → Events) : (s.modEvents f).ptAux = s.ptAux := rfl
@[simp] theorem State.modEvents_ptDies (s : State) (f : Events → Events) : (s.modEvents f).ptDies = s.ptDies := rfl
@[simp] theorem State.modEvents_hm (s : State) (f : Events → Events) : (s.modEvents f).hm = s.hm := rfl
@[simp] theorem State.modEvents_hmAux (s : State) (f : Events → Events) : (s.modEvents f).hmAux = s.hmAux := rfl
@[simp] theorem State.modEvents_i3c (s : State) (f : Events → Events) : (s.modEvents f).i3c = s.i3c := rfl
@[simp] theorem State.modEvents_mf (s : State) (f : Events → Events) : (s.modEvents f).mf = s.mf := rfl
@[simp] theorem State.modEvents_mfAux (s : State) (f : Events → Events) : (s.modEvents f).mfAux = s.mfAux := rfl
@[simp] theorem State.modEvents_clusters (s : State) (f : Events → Events) : (s.modEvents f).clusters = s.clusters := rfl
@[simp] theorem State.modEvents_mem (s : State) (f : Events → Events) : (s.modEvents f).mem = s.mem := rfl
@[simp] theorem State.modEvents_memDies (s : State) (f : Events → Events) : (s.modEvents f).memDies = s.memDies := rfl
@[simp] theorem State.modEvents_memAux (s : State) (f : Events → Events) : (s.modEvents f).memAux = s.memAux := rfl
@[simp] theorem State.modEvents_berths (s : State) (f : Events → Events) : (s.modEvents f).berths = s.berths := rfl
@[simp] theorem State.modEvents_links (s : State) (f : Events → Events) : (s.modEvents f).links = s.links := rfl
@[simp] theorem State.modEvents_linkCtrs (s : State) (f : Events → Events) : (s.modEvents f).linkCtrs = s.linkCtrs := rfl
@[simp] theorem State.modEvents_kx (s : State) (f : Events → Events) : (s.modEvents f).kx = s.kx := rfl
@[simp] theorem State.modEvents_reds (s : State) (f : Events → Events) : (s.modEvents f).reds = s.reds := rfl
@[simp] theorem State.modEvents_gw (s : State) (f : Events → Events) : (s.modEvents f).gw = s.gw := rfl
@[simp] theorem State.modEvents_gwAux (s : State) (f : Events → Events) : (s.modEvents f).gwAux = s.gwAux := rfl
@[simp] theorem State.modEvents_parts (s : State) (f : Events → Events) : (s.modEvents f).parts = s.parts := rfl
@[simp] theorem State.modEvents_runs (s : State) (f : Events → Events) : (s.modEvents f).runs = s.runs := rfl
@[simp] theorem State.modEvents_jr (s : State) (f : Events → Events) : (s.modEvents f).jr = s.jr := rfl
@[simp] theorem State.modEvents_pkg (s : State) (f : Events → Events) : (s.modEvents f).pkg = s.pkg := rfl

/-! ## modSec -/

@[simp] theorem State.modSec_pending (s : State) (f : Sec → Sec) : (s.modSec f).pending = s.pending := rfl
@[simp] theorem State.modSec_deferred (s : State) (f : Sec → Sec) : (s.modSec f).deferred = s.deferred := rfl
@[simp] theorem State.modSec_free (s : State) (f : Sec → Sec) : (s.modSec f).free = s.free := rfl
@[simp] theorem State.modSec_supply (s : State) (f : Sec → Sec) : (s.modSec f).supply = s.supply := rfl
@[simp] theorem State.modSec_boot (s : State) (f : Sec → Sec) : (s.modSec f).boot = s.boot := rfl
@[simp] theorem State.modSec_pt (s : State) (f : Sec → Sec) : (s.modSec f).pt = s.pt := rfl
@[simp] theorem State.modSec_ptAux (s : State) (f : Sec → Sec) : (s.modSec f).ptAux = s.ptAux := rfl
@[simp] theorem State.modSec_ptDies (s : State) (f : Sec → Sec) : (s.modSec f).ptDies = s.ptDies := rfl
@[simp] theorem State.modSec_hm (s : State) (f : Sec → Sec) : (s.modSec f).hm = s.hm := rfl
@[simp] theorem State.modSec_hmAux (s : State) (f : Sec → Sec) : (s.modSec f).hmAux = s.hmAux := rfl
@[simp] theorem State.modSec_events (s : State) (f : Sec → Sec) : (s.modSec f).events = s.events := rfl
@[simp] theorem State.modSec_i3c (s : State) (f : Sec → Sec) : (s.modSec f).i3c = s.i3c := rfl
@[simp] theorem State.modSec_mf (s : State) (f : Sec → Sec) : (s.modSec f).mf = s.mf := rfl
@[simp] theorem State.modSec_mfAux (s : State) (f : Sec → Sec) : (s.modSec f).mfAux = s.mfAux := rfl
@[simp] theorem State.modSec_clusters (s : State) (f : Sec → Sec) : (s.modSec f).clusters = s.clusters := rfl
@[simp] theorem State.modSec_mem (s : State) (f : Sec → Sec) : (s.modSec f).mem = s.mem := rfl
@[simp] theorem State.modSec_memDies (s : State) (f : Sec → Sec) : (s.modSec f).memDies = s.memDies := rfl
@[simp] theorem State.modSec_memAux (s : State) (f : Sec → Sec) : (s.modSec f).memAux = s.memAux := rfl
@[simp] theorem State.modSec_berths (s : State) (f : Sec → Sec) : (s.modSec f).berths = s.berths := rfl
@[simp] theorem State.modSec_links (s : State) (f : Sec → Sec) : (s.modSec f).links = s.links := rfl
@[simp] theorem State.modSec_linkCtrs (s : State) (f : Sec → Sec) : (s.modSec f).linkCtrs = s.linkCtrs := rfl
@[simp] theorem State.modSec_kx (s : State) (f : Sec → Sec) : (s.modSec f).kx = s.kx := rfl
@[simp] theorem State.modSec_reds (s : State) (f : Sec → Sec) : (s.modSec f).reds = s.reds := rfl
@[simp] theorem State.modSec_gw (s : State) (f : Sec → Sec) : (s.modSec f).gw = s.gw := rfl
@[simp] theorem State.modSec_gwAux (s : State) (f : Sec → Sec) : (s.modSec f).gwAux = s.gwAux := rfl
@[simp] theorem State.modSec_parts (s : State) (f : Sec → Sec) : (s.modSec f).parts = s.parts := rfl
@[simp] theorem State.modSec_runs (s : State) (f : Sec → Sec) : (s.modSec f).runs = s.runs := rfl
@[simp] theorem State.modSec_jr (s : State) (f : Sec → Sec) : (s.modSec f).jr = s.jr := rfl
@[simp] theorem State.modSec_pkg (s : State) (f : Sec → Sec) : (s.modSec f).pkg = s.pkg := rfl

/-! ## modCache -/

@[simp] theorem State.modCache_pending (s : State) (die : Nat) (f : YardCache → YardCache) : (s.modCache die f).pending = s.pending := rfl
@[simp] theorem State.modCache_deferred (s : State) (die : Nat) (f : YardCache → YardCache) : (s.modCache die f).deferred = s.deferred := rfl
@[simp] theorem State.modCache_free (s : State) (die : Nat) (f : YardCache → YardCache) : (s.modCache die f).free = s.free := rfl
@[simp] theorem State.modCache_supply (s : State) (die : Nat) (f : YardCache → YardCache) : (s.modCache die f).supply = s.supply := rfl
@[simp] theorem State.modCache_boot (s : State) (die : Nat) (f : YardCache → YardCache) : (s.modCache die f).boot = s.boot := rfl
@[simp] theorem State.modCache_sec (s : State) (die : Nat) (f : YardCache → YardCache) : (s.modCache die f).sec = s.sec := rfl
@[simp] theorem State.modCache_pt (s : State) (die : Nat) (f : YardCache → YardCache) : (s.modCache die f).pt = s.pt := rfl
@[simp] theorem State.modCache_ptAux (s : State) (die : Nat) (f : YardCache → YardCache) : (s.modCache die f).ptAux = s.ptAux := rfl
@[simp] theorem State.modCache_ptDies (s : State) (die : Nat) (f : YardCache → YardCache) : (s.modCache die f).ptDies = s.ptDies := rfl
@[simp] theorem State.modCache_hm (s : State) (die : Nat) (f : YardCache → YardCache) : (s.modCache die f).hm = s.hm := rfl
@[simp] theorem State.modCache_hmAux (s : State) (die : Nat) (f : YardCache → YardCache) : (s.modCache die f).hmAux = s.hmAux := rfl
@[simp] theorem State.modCache_events (s : State) (die : Nat) (f : YardCache → YardCache) : (s.modCache die f).events = s.events := rfl
@[simp] theorem State.modCache_i3c (s : State) (die : Nat) (f : YardCache → YardCache) : (s.modCache die f).i3c = s.i3c := rfl
@[simp] theorem State.modCache_mf (s : State) (die : Nat) (f : YardCache → YardCache) : (s.modCache die f).mf = s.mf := rfl
@[simp] theorem State.modCache_mfAux (s : State) (die : Nat) (f : YardCache → YardCache) : (s.modCache die f).mfAux = s.mfAux := rfl
@[simp] theorem State.modCache_clusters (s : State) (die : Nat) (f : YardCache → YardCache) : (s.modCache die f).clusters = s.clusters := rfl
@[simp] theorem State.modCache_memDies (s : State) (die : Nat) (f : YardCache → YardCache) : (s.modCache die f).memDies = s.memDies := rfl
@[simp] theorem State.modCache_memAux (s : State) (die : Nat) (f : YardCache → YardCache) : (s.modCache die f).memAux = s.memAux := rfl
@[simp] theorem State.modCache_berths (s : State) (die : Nat) (f : YardCache → YardCache) : (s.modCache die f).berths = s.berths := rfl
@[simp] theorem State.modCache_links (s : State) (die : Nat) (f : YardCache → YardCache) : (s.modCache die f).links = s.links := rfl
@[simp] theorem State.modCache_linkCtrs (s : State) (die : Nat) (f : YardCache → YardCache) : (s.modCache die f).linkCtrs = s.linkCtrs := rfl
@[simp] theorem State.modCache_kx (s : State) (die : Nat) (f : YardCache → YardCache) : (s.modCache die f).kx = s.kx := rfl
@[simp] theorem State.modCache_reds (s : State) (die : Nat) (f : YardCache → YardCache) : (s.modCache die f).reds = s.reds := rfl
@[simp] theorem State.modCache_gw (s : State) (die : Nat) (f : YardCache → YardCache) : (s.modCache die f).gw = s.gw := rfl
@[simp] theorem State.modCache_gwAux (s : State) (die : Nat) (f : YardCache → YardCache) : (s.modCache die f).gwAux = s.gwAux := rfl
@[simp] theorem State.modCache_parts (s : State) (die : Nat) (f : YardCache → YardCache) : (s.modCache die f).parts = s.parts := rfl
@[simp] theorem State.modCache_runs (s : State) (die : Nat) (f : YardCache → YardCache) : (s.modCache die f).runs = s.runs := rfl
@[simp] theorem State.modCache_jr (s : State) (die : Nat) (f : YardCache → YardCache) : (s.modCache die f).jr = s.jr := rfl
@[simp] theorem State.modCache_pkg (s : State) (die : Nat) (f : YardCache → YardCache) : (s.modCache die f).pkg = s.pkg := rfl

/-! ## modEgress -/

@[simp] theorem State.modEgress_pending (s : State) (n : Nat) (f : PortEgress → PortEgress) : (s.modEgress n f).pending = s.pending := rfl
@[simp] theorem State.modEgress_deferred (s : State) (n : Nat) (f : PortEgress → PortEgress) : (s.modEgress n f).deferred = s.deferred := rfl
@[simp] theorem State.modEgress_free (s : State) (n : Nat) (f : PortEgress → PortEgress) : (s.modEgress n f).free = s.free := rfl
@[simp] theorem State.modEgress_supply (s : State) (n : Nat) (f : PortEgress → PortEgress) : (s.modEgress n f).supply = s.supply := rfl
@[simp] theorem State.modEgress_boot (s : State) (n : Nat) (f : PortEgress → PortEgress) : (s.modEgress n f).boot = s.boot := rfl
@[simp] theorem State.modEgress_sec (s : State) (n : Nat) (f : PortEgress → PortEgress) : (s.modEgress n f).sec = s.sec := rfl
@[simp] theorem State.modEgress_pt (s : State) (n : Nat) (f : PortEgress → PortEgress) : (s.modEgress n f).pt = s.pt := rfl
@[simp] theorem State.modEgress_ptAux (s : State) (n : Nat) (f : PortEgress → PortEgress) : (s.modEgress n f).ptAux = s.ptAux := rfl
@[simp] theorem State.modEgress_ptDies (s : State) (n : Nat) (f : PortEgress → PortEgress) : (s.modEgress n f).ptDies = s.ptDies := rfl
@[simp] theorem State.modEgress_hm (s : State) (n : Nat) (f : PortEgress → PortEgress) : (s.modEgress n f).hm = s.hm := rfl
@[simp] theorem State.modEgress_hmAux (s : State) (n : Nat) (f : PortEgress → PortEgress) : (s.modEgress n f).hmAux = s.hmAux := rfl
@[simp] theorem State.modEgress_events (s : State) (n : Nat) (f : PortEgress → PortEgress) : (s.modEgress n f).events = s.events := rfl
@[simp] theorem State.modEgress_i3c (s : State) (n : Nat) (f : PortEgress → PortEgress) : (s.modEgress n f).i3c = s.i3c := rfl
@[simp] theorem State.modEgress_mf (s : State) (n : Nat) (f : PortEgress → PortEgress) : (s.modEgress n f).mf = s.mf := rfl
@[simp] theorem State.modEgress_mfAux (s : State) (n : Nat) (f : PortEgress → PortEgress) : (s.modEgress n f).mfAux = s.mfAux := rfl
@[simp] theorem State.modEgress_clusters (s : State) (n : Nat) (f : PortEgress → PortEgress) : (s.modEgress n f).clusters = s.clusters := rfl
@[simp] theorem State.modEgress_mem (s : State) (n : Nat) (f : PortEgress → PortEgress) : (s.modEgress n f).mem = s.mem := rfl
@[simp] theorem State.modEgress_memDies (s : State) (n : Nat) (f : PortEgress → PortEgress) : (s.modEgress n f).memDies = s.memDies := rfl
@[simp] theorem State.modEgress_memAux (s : State) (n : Nat) (f : PortEgress → PortEgress) : (s.modEgress n f).memAux = s.memAux := rfl
@[simp] theorem State.modEgress_berths (s : State) (n : Nat) (f : PortEgress → PortEgress) : (s.modEgress n f).berths = s.berths := rfl
@[simp] theorem State.modEgress_links (s : State) (n : Nat) (f : PortEgress → PortEgress) : (s.modEgress n f).links = s.links := rfl
@[simp] theorem State.modEgress_linkCtrs (s : State) (n : Nat) (f : PortEgress → PortEgress) : (s.modEgress n f).linkCtrs = s.linkCtrs := rfl
@[simp] theorem State.modEgress_reds (s : State) (n : Nat) (f : PortEgress → PortEgress) : (s.modEgress n f).reds = s.reds := rfl
@[simp] theorem State.modEgress_gw (s : State) (n : Nat) (f : PortEgress → PortEgress) : (s.modEgress n f).gw = s.gw := rfl
@[simp] theorem State.modEgress_gwAux (s : State) (n : Nat) (f : PortEgress → PortEgress) : (s.modEgress n f).gwAux = s.gwAux := rfl
@[simp] theorem State.modEgress_parts (s : State) (n : Nat) (f : PortEgress → PortEgress) : (s.modEgress n f).parts = s.parts := rfl
@[simp] theorem State.modEgress_runs (s : State) (n : Nat) (f : PortEgress → PortEgress) : (s.modEgress n f).runs = s.runs := rfl
@[simp] theorem State.modEgress_jr (s : State) (n : Nat) (f : PortEgress → PortEgress) : (s.modEgress n f).jr = s.jr := rfl
@[simp] theorem State.modEgress_pkg (s : State) (n : Nat) (f : PortEgress → PortEgress) : (s.modEgress n f).pkg = s.pkg := rfl

/-! ## modFetch -/

@[simp] theorem State.modFetch_pending (s : State) (p : Nat) (step : DWord) (mb : Nat) (f : MbFetch → MbFetch) : (s.modFetch p step mb f).pending = s.pending := rfl
@[simp] theorem State.modFetch_deferred (s : State) (p : Nat) (step : DWord) (mb : Nat) (f : MbFetch → MbFetch) : (s.modFetch p step mb f).deferred = s.deferred := rfl
@[simp] theorem State.modFetch_free (s : State) (p : Nat) (step : DWord) (mb : Nat) (f : MbFetch → MbFetch) : (s.modFetch p step mb f).free = s.free := rfl
@[simp] theorem State.modFetch_supply (s : State) (p : Nat) (step : DWord) (mb : Nat) (f : MbFetch → MbFetch) : (s.modFetch p step mb f).supply = s.supply := rfl
@[simp] theorem State.modFetch_boot (s : State) (p : Nat) (step : DWord) (mb : Nat) (f : MbFetch → MbFetch) : (s.modFetch p step mb f).boot = s.boot := rfl
@[simp] theorem State.modFetch_sec (s : State) (p : Nat) (step : DWord) (mb : Nat) (f : MbFetch → MbFetch) : (s.modFetch p step mb f).sec = s.sec := rfl
@[simp] theorem State.modFetch_pt (s : State) (p : Nat) (step : DWord) (mb : Nat) (f : MbFetch → MbFetch) : (s.modFetch p step mb f).pt = s.pt := rfl
@[simp] theorem State.modFetch_ptAux (s : State) (p : Nat) (step : DWord) (mb : Nat) (f : MbFetch → MbFetch) : (s.modFetch p step mb f).ptAux = s.ptAux := rfl
@[simp] theorem State.modFetch_ptDies (s : State) (p : Nat) (step : DWord) (mb : Nat) (f : MbFetch → MbFetch) : (s.modFetch p step mb f).ptDies = s.ptDies := rfl
@[simp] theorem State.modFetch_hm (s : State) (p : Nat) (step : DWord) (mb : Nat) (f : MbFetch → MbFetch) : (s.modFetch p step mb f).hm = s.hm := rfl
@[simp] theorem State.modFetch_hmAux (s : State) (p : Nat) (step : DWord) (mb : Nat) (f : MbFetch → MbFetch) : (s.modFetch p step mb f).hmAux = s.hmAux := rfl
@[simp] theorem State.modFetch_events (s : State) (p : Nat) (step : DWord) (mb : Nat) (f : MbFetch → MbFetch) : (s.modFetch p step mb f).events = s.events := rfl
@[simp] theorem State.modFetch_i3c (s : State) (p : Nat) (step : DWord) (mb : Nat) (f : MbFetch → MbFetch) : (s.modFetch p step mb f).i3c = s.i3c := rfl
@[simp] theorem State.modFetch_mf (s : State) (p : Nat) (step : DWord) (mb : Nat) (f : MbFetch → MbFetch) : (s.modFetch p step mb f).mf = s.mf := rfl
@[simp] theorem State.modFetch_mfAux (s : State) (p : Nat) (step : DWord) (mb : Nat) (f : MbFetch → MbFetch) : (s.modFetch p step mb f).mfAux = s.mfAux := rfl
@[simp] theorem State.modFetch_clusters (s : State) (p : Nat) (step : DWord) (mb : Nat) (f : MbFetch → MbFetch) : (s.modFetch p step mb f).clusters = s.clusters := rfl
@[simp] theorem State.modFetch_mem (s : State) (p : Nat) (step : DWord) (mb : Nat) (f : MbFetch → MbFetch) : (s.modFetch p step mb f).mem = s.mem := rfl
@[simp] theorem State.modFetch_memDies (s : State) (p : Nat) (step : DWord) (mb : Nat) (f : MbFetch → MbFetch) : (s.modFetch p step mb f).memDies = s.memDies := rfl
@[simp] theorem State.modFetch_memAux (s : State) (p : Nat) (step : DWord) (mb : Nat) (f : MbFetch → MbFetch) : (s.modFetch p step mb f).memAux = s.memAux := rfl
@[simp] theorem State.modFetch_berths (s : State) (p : Nat) (step : DWord) (mb : Nat) (f : MbFetch → MbFetch) : (s.modFetch p step mb f).berths = s.berths := rfl
@[simp] theorem State.modFetch_links (s : State) (p : Nat) (step : DWord) (mb : Nat) (f : MbFetch → MbFetch) : (s.modFetch p step mb f).links = s.links := rfl
@[simp] theorem State.modFetch_linkCtrs (s : State) (p : Nat) (step : DWord) (mb : Nat) (f : MbFetch → MbFetch) : (s.modFetch p step mb f).linkCtrs = s.linkCtrs := rfl
@[simp] theorem State.modFetch_kx (s : State) (p : Nat) (step : DWord) (mb : Nat) (f : MbFetch → MbFetch) : (s.modFetch p step mb f).kx = s.kx := rfl
@[simp] theorem State.modFetch_reds (s : State) (p : Nat) (step : DWord) (mb : Nat) (f : MbFetch → MbFetch) : (s.modFetch p step mb f).reds = s.reds := rfl
@[simp] theorem State.modFetch_gw (s : State) (p : Nat) (step : DWord) (mb : Nat) (f : MbFetch → MbFetch) : (s.modFetch p step mb f).gw = s.gw := rfl
@[simp] theorem State.modFetch_gwAux (s : State) (p : Nat) (step : DWord) (mb : Nat) (f : MbFetch → MbFetch) : (s.modFetch p step mb f).gwAux = s.gwAux := rfl
@[simp] theorem State.modFetch_parts (s : State) (p : Nat) (step : DWord) (mb : Nat) (f : MbFetch → MbFetch) : (s.modFetch p step mb f).parts = s.parts := rfl
@[simp] theorem State.modFetch_jr (s : State) (p : Nat) (step : DWord) (mb : Nat) (f : MbFetch → MbFetch) : (s.modFetch p step mb f).jr = s.jr := rfl
@[simp] theorem State.modFetch_pkg (s : State) (p : Nat) (step : DWord) (mb : Nat) (f : MbFetch → MbFetch) : (s.modFetch p step mb f).pkg = s.pkg := rfl

/-! ## modClusterOf -/

@[simp] theorem State.modClusterOf_pending (s : State) (a : At) (f : Cluster → Cluster) : (s.modClusterOf a f).pending = s.pending := rfl
@[simp] theorem State.modClusterOf_deferred (s : State) (a : At) (f : Cluster → Cluster) : (s.modClusterOf a f).deferred = s.deferred := rfl
@[simp] theorem State.modClusterOf_free (s : State) (a : At) (f : Cluster → Cluster) : (s.modClusterOf a f).free = s.free := rfl
@[simp] theorem State.modClusterOf_supply (s : State) (a : At) (f : Cluster → Cluster) : (s.modClusterOf a f).supply = s.supply := rfl
@[simp] theorem State.modClusterOf_boot (s : State) (a : At) (f : Cluster → Cluster) : (s.modClusterOf a f).boot = s.boot := rfl
@[simp] theorem State.modClusterOf_sec (s : State) (a : At) (f : Cluster → Cluster) : (s.modClusterOf a f).sec = s.sec := rfl
@[simp] theorem State.modClusterOf_pt (s : State) (a : At) (f : Cluster → Cluster) : (s.modClusterOf a f).pt = s.pt := rfl
@[simp] theorem State.modClusterOf_ptAux (s : State) (a : At) (f : Cluster → Cluster) : (s.modClusterOf a f).ptAux = s.ptAux := rfl
@[simp] theorem State.modClusterOf_ptDies (s : State) (a : At) (f : Cluster → Cluster) : (s.modClusterOf a f).ptDies = s.ptDies := rfl
@[simp] theorem State.modClusterOf_hm (s : State) (a : At) (f : Cluster → Cluster) : (s.modClusterOf a f).hm = s.hm := rfl
@[simp] theorem State.modClusterOf_hmAux (s : State) (a : At) (f : Cluster → Cluster) : (s.modClusterOf a f).hmAux = s.hmAux := rfl
@[simp] theorem State.modClusterOf_events (s : State) (a : At) (f : Cluster → Cluster) : (s.modClusterOf a f).events = s.events := rfl
@[simp] theorem State.modClusterOf_i3c (s : State) (a : At) (f : Cluster → Cluster) : (s.modClusterOf a f).i3c = s.i3c := rfl
@[simp] theorem State.modClusterOf_mf (s : State) (a : At) (f : Cluster → Cluster) : (s.modClusterOf a f).mf = s.mf := rfl
@[simp] theorem State.modClusterOf_mfAux (s : State) (a : At) (f : Cluster → Cluster) : (s.modClusterOf a f).mfAux = s.mfAux := rfl
@[simp] theorem State.modClusterOf_mem (s : State) (a : At) (f : Cluster → Cluster) : (s.modClusterOf a f).mem = s.mem := rfl
@[simp] theorem State.modClusterOf_memDies (s : State) (a : At) (f : Cluster → Cluster) : (s.modClusterOf a f).memDies = s.memDies := rfl
@[simp] theorem State.modClusterOf_memAux (s : State) (a : At) (f : Cluster → Cluster) : (s.modClusterOf a f).memAux = s.memAux := rfl
@[simp] theorem State.modClusterOf_berths (s : State) (a : At) (f : Cluster → Cluster) : (s.modClusterOf a f).berths = s.berths := rfl
@[simp] theorem State.modClusterOf_links (s : State) (a : At) (f : Cluster → Cluster) : (s.modClusterOf a f).links = s.links := rfl
@[simp] theorem State.modClusterOf_linkCtrs (s : State) (a : At) (f : Cluster → Cluster) : (s.modClusterOf a f).linkCtrs = s.linkCtrs := rfl
@[simp] theorem State.modClusterOf_kx (s : State) (a : At) (f : Cluster → Cluster) : (s.modClusterOf a f).kx = s.kx := rfl
@[simp] theorem State.modClusterOf_reds (s : State) (a : At) (f : Cluster → Cluster) : (s.modClusterOf a f).reds = s.reds := rfl
@[simp] theorem State.modClusterOf_gw (s : State) (a : At) (f : Cluster → Cluster) : (s.modClusterOf a f).gw = s.gw := rfl
@[simp] theorem State.modClusterOf_gwAux (s : State) (a : At) (f : Cluster → Cluster) : (s.modClusterOf a f).gwAux = s.gwAux := rfl
@[simp] theorem State.modClusterOf_parts (s : State) (a : At) (f : Cluster → Cluster) : (s.modClusterOf a f).parts = s.parts := rfl
@[simp] theorem State.modClusterOf_runs (s : State) (a : At) (f : Cluster → Cluster) : (s.modClusterOf a f).runs = s.runs := rfl
@[simp] theorem State.modClusterOf_jr (s : State) (a : At) (f : Cluster → Cluster) : (s.modClusterOf a f).jr = s.jr := rfl
@[simp] theorem State.modClusterOf_pkg (s : State) (a : At) (f : Cluster → Cluster) : (s.modClusterOf a f).pkg = s.pkg := rfl

/-! ## modCtx -/

@[simp] theorem State.modCtx_pending (s : State) (a : At) (f : Ctx → Ctx) : (s.modCtx a f).pending = s.pending := rfl
@[simp] theorem State.modCtx_deferred (s : State) (a : At) (f : Ctx → Ctx) : (s.modCtx a f).deferred = s.deferred := rfl
@[simp] theorem State.modCtx_free (s : State) (a : At) (f : Ctx → Ctx) : (s.modCtx a f).free = s.free := rfl
@[simp] theorem State.modCtx_supply (s : State) (a : At) (f : Ctx → Ctx) : (s.modCtx a f).supply = s.supply := rfl
@[simp] theorem State.modCtx_boot (s : State) (a : At) (f : Ctx → Ctx) : (s.modCtx a f).boot = s.boot := rfl
@[simp] theorem State.modCtx_sec (s : State) (a : At) (f : Ctx → Ctx) : (s.modCtx a f).sec = s.sec := rfl
@[simp] theorem State.modCtx_pt (s : State) (a : At) (f : Ctx → Ctx) : (s.modCtx a f).pt = s.pt := rfl
@[simp] theorem State.modCtx_ptAux (s : State) (a : At) (f : Ctx → Ctx) : (s.modCtx a f).ptAux = s.ptAux := rfl
@[simp] theorem State.modCtx_ptDies (s : State) (a : At) (f : Ctx → Ctx) : (s.modCtx a f).ptDies = s.ptDies := rfl
@[simp] theorem State.modCtx_hm (s : State) (a : At) (f : Ctx → Ctx) : (s.modCtx a f).hm = s.hm := rfl
@[simp] theorem State.modCtx_hmAux (s : State) (a : At) (f : Ctx → Ctx) : (s.modCtx a f).hmAux = s.hmAux := rfl
@[simp] theorem State.modCtx_events (s : State) (a : At) (f : Ctx → Ctx) : (s.modCtx a f).events = s.events := rfl
@[simp] theorem State.modCtx_i3c (s : State) (a : At) (f : Ctx → Ctx) : (s.modCtx a f).i3c = s.i3c := rfl
@[simp] theorem State.modCtx_mf (s : State) (a : At) (f : Ctx → Ctx) : (s.modCtx a f).mf = s.mf := rfl
@[simp] theorem State.modCtx_mfAux (s : State) (a : At) (f : Ctx → Ctx) : (s.modCtx a f).mfAux = s.mfAux := rfl
@[simp] theorem State.modCtx_mem (s : State) (a : At) (f : Ctx → Ctx) : (s.modCtx a f).mem = s.mem := rfl
@[simp] theorem State.modCtx_memDies (s : State) (a : At) (f : Ctx → Ctx) : (s.modCtx a f).memDies = s.memDies := rfl
@[simp] theorem State.modCtx_memAux (s : State) (a : At) (f : Ctx → Ctx) : (s.modCtx a f).memAux = s.memAux := rfl
@[simp] theorem State.modCtx_berths (s : State) (a : At) (f : Ctx → Ctx) : (s.modCtx a f).berths = s.berths := rfl
@[simp] theorem State.modCtx_links (s : State) (a : At) (f : Ctx → Ctx) : (s.modCtx a f).links = s.links := rfl
@[simp] theorem State.modCtx_linkCtrs (s : State) (a : At) (f : Ctx → Ctx) : (s.modCtx a f).linkCtrs = s.linkCtrs := rfl
@[simp] theorem State.modCtx_kx (s : State) (a : At) (f : Ctx → Ctx) : (s.modCtx a f).kx = s.kx := rfl
@[simp] theorem State.modCtx_reds (s : State) (a : At) (f : Ctx → Ctx) : (s.modCtx a f).reds = s.reds := rfl
@[simp] theorem State.modCtx_gw (s : State) (a : At) (f : Ctx → Ctx) : (s.modCtx a f).gw = s.gw := rfl
@[simp] theorem State.modCtx_gwAux (s : State) (a : At) (f : Ctx → Ctx) : (s.modCtx a f).gwAux = s.gwAux := rfl
@[simp] theorem State.modCtx_parts (s : State) (a : At) (f : Ctx → Ctx) : (s.modCtx a f).parts = s.parts := rfl
@[simp] theorem State.modCtx_runs (s : State) (a : At) (f : Ctx → Ctx) : (s.modCtx a f).runs = s.runs := rfl
@[simp] theorem State.modCtx_jr (s : State) (a : At) (f : Ctx → Ctx) : (s.modCtx a f).jr = s.jr := rfl
@[simp] theorem State.modCtx_pkg (s : State) (a : At) (f : Ctx → Ctx) : (s.modCtx a f).pkg = s.pkg := rfl

/-! ## modEntry -/

@[simp] theorem State.modEntry_pending (s : State) (a : At) (i : Nat) (f : Entry → Entry) : (s.modEntry a i f).pending = s.pending := rfl
@[simp] theorem State.modEntry_deferred (s : State) (a : At) (i : Nat) (f : Entry → Entry) : (s.modEntry a i f).deferred = s.deferred := rfl
@[simp] theorem State.modEntry_free (s : State) (a : At) (i : Nat) (f : Entry → Entry) : (s.modEntry a i f).free = s.free := rfl
@[simp] theorem State.modEntry_supply (s : State) (a : At) (i : Nat) (f : Entry → Entry) : (s.modEntry a i f).supply = s.supply := rfl
@[simp] theorem State.modEntry_boot (s : State) (a : At) (i : Nat) (f : Entry → Entry) : (s.modEntry a i f).boot = s.boot := rfl
@[simp] theorem State.modEntry_sec (s : State) (a : At) (i : Nat) (f : Entry → Entry) : (s.modEntry a i f).sec = s.sec := rfl
@[simp] theorem State.modEntry_pt (s : State) (a : At) (i : Nat) (f : Entry → Entry) : (s.modEntry a i f).pt = s.pt := rfl
@[simp] theorem State.modEntry_ptAux (s : State) (a : At) (i : Nat) (f : Entry → Entry) : (s.modEntry a i f).ptAux = s.ptAux := rfl
@[simp] theorem State.modEntry_ptDies (s : State) (a : At) (i : Nat) (f : Entry → Entry) : (s.modEntry a i f).ptDies = s.ptDies := rfl
@[simp] theorem State.modEntry_hm (s : State) (a : At) (i : Nat) (f : Entry → Entry) : (s.modEntry a i f).hm = s.hm := rfl
@[simp] theorem State.modEntry_hmAux (s : State) (a : At) (i : Nat) (f : Entry → Entry) : (s.modEntry a i f).hmAux = s.hmAux := rfl
@[simp] theorem State.modEntry_events (s : State) (a : At) (i : Nat) (f : Entry → Entry) : (s.modEntry a i f).events = s.events := rfl
@[simp] theorem State.modEntry_i3c (s : State) (a : At) (i : Nat) (f : Entry → Entry) : (s.modEntry a i f).i3c = s.i3c := rfl
@[simp] theorem State.modEntry_mf (s : State) (a : At) (i : Nat) (f : Entry → Entry) : (s.modEntry a i f).mf = s.mf := rfl
@[simp] theorem State.modEntry_mfAux (s : State) (a : At) (i : Nat) (f : Entry → Entry) : (s.modEntry a i f).mfAux = s.mfAux := rfl
@[simp] theorem State.modEntry_mem (s : State) (a : At) (i : Nat) (f : Entry → Entry) : (s.modEntry a i f).mem = s.mem := rfl
@[simp] theorem State.modEntry_memDies (s : State) (a : At) (i : Nat) (f : Entry → Entry) : (s.modEntry a i f).memDies = s.memDies := rfl
@[simp] theorem State.modEntry_memAux (s : State) (a : At) (i : Nat) (f : Entry → Entry) : (s.modEntry a i f).memAux = s.memAux := rfl
@[simp] theorem State.modEntry_berths (s : State) (a : At) (i : Nat) (f : Entry → Entry) : (s.modEntry a i f).berths = s.berths := rfl
@[simp] theorem State.modEntry_links (s : State) (a : At) (i : Nat) (f : Entry → Entry) : (s.modEntry a i f).links = s.links := rfl
@[simp] theorem State.modEntry_linkCtrs (s : State) (a : At) (i : Nat) (f : Entry → Entry) : (s.modEntry a i f).linkCtrs = s.linkCtrs := rfl
@[simp] theorem State.modEntry_kx (s : State) (a : At) (i : Nat) (f : Entry → Entry) : (s.modEntry a i f).kx = s.kx := rfl
@[simp] theorem State.modEntry_reds (s : State) (a : At) (i : Nat) (f : Entry → Entry) : (s.modEntry a i f).reds = s.reds := rfl
@[simp] theorem State.modEntry_gw (s : State) (a : At) (i : Nat) (f : Entry → Entry) : (s.modEntry a i f).gw = s.gw := rfl
@[simp] theorem State.modEntry_gwAux (s : State) (a : At) (i : Nat) (f : Entry → Entry) : (s.modEntry a i f).gwAux = s.gwAux := rfl
@[simp] theorem State.modEntry_parts (s : State) (a : At) (i : Nat) (f : Entry → Entry) : (s.modEntry a i f).parts = s.parts := rfl
@[simp] theorem State.modEntry_runs (s : State) (a : At) (i : Nat) (f : Entry → Entry) : (s.modEntry a i f).runs = s.runs := rfl
@[simp] theorem State.modEntry_jr (s : State) (a : At) (i : Nat) (f : Entry → Entry) : (s.modEntry a i f).jr = s.jr := rfl
@[simp] theorem State.modEntry_pkg (s : State) (a : At) (i : Nat) (f : Entry → Entry) : (s.modEntry a i f).pkg = s.pkg := rfl

/-! ## setStore -/

@[simp] theorem State.setStore_pending (s : State) (a : At) (m : Cells) : (s.setStore a m).pending = s.pending := rfl
@[simp] theorem State.setStore_deferred (s : State) (a : At) (m : Cells) : (s.setStore a m).deferred = s.deferred := rfl
@[simp] theorem State.setStore_free (s : State) (a : At) (m : Cells) : (s.setStore a m).free = s.free := rfl
@[simp] theorem State.setStore_supply (s : State) (a : At) (m : Cells) : (s.setStore a m).supply = s.supply := rfl
@[simp] theorem State.setStore_boot (s : State) (a : At) (m : Cells) : (s.setStore a m).boot = s.boot := rfl
@[simp] theorem State.setStore_sec (s : State) (a : At) (m : Cells) : (s.setStore a m).sec = s.sec := rfl
@[simp] theorem State.setStore_pt (s : State) (a : At) (m : Cells) : (s.setStore a m).pt = s.pt := rfl
@[simp] theorem State.setStore_ptAux (s : State) (a : At) (m : Cells) : (s.setStore a m).ptAux = s.ptAux := rfl
@[simp] theorem State.setStore_ptDies (s : State) (a : At) (m : Cells) : (s.setStore a m).ptDies = s.ptDies := rfl
@[simp] theorem State.setStore_hm (s : State) (a : At) (m : Cells) : (s.setStore a m).hm = s.hm := rfl
@[simp] theorem State.setStore_hmAux (s : State) (a : At) (m : Cells) : (s.setStore a m).hmAux = s.hmAux := rfl
@[simp] theorem State.setStore_events (s : State) (a : At) (m : Cells) : (s.setStore a m).events = s.events := rfl
@[simp] theorem State.setStore_i3c (s : State) (a : At) (m : Cells) : (s.setStore a m).i3c = s.i3c := rfl
@[simp] theorem State.setStore_mf (s : State) (a : At) (m : Cells) : (s.setStore a m).mf = s.mf := rfl
@[simp] theorem State.setStore_mfAux (s : State) (a : At) (m : Cells) : (s.setStore a m).mfAux = s.mfAux := rfl
@[simp] theorem State.setStore_mem (s : State) (a : At) (m : Cells) : (s.setStore a m).mem = s.mem := rfl
@[simp] theorem State.setStore_memDies (s : State) (a : At) (m : Cells) : (s.setStore a m).memDies = s.memDies := rfl
@[simp] theorem State.setStore_memAux (s : State) (a : At) (m : Cells) : (s.setStore a m).memAux = s.memAux := rfl
@[simp] theorem State.setStore_berths (s : State) (a : At) (m : Cells) : (s.setStore a m).berths = s.berths := rfl
@[simp] theorem State.setStore_links (s : State) (a : At) (m : Cells) : (s.setStore a m).links = s.links := rfl
@[simp] theorem State.setStore_linkCtrs (s : State) (a : At) (m : Cells) : (s.setStore a m).linkCtrs = s.linkCtrs := rfl
@[simp] theorem State.setStore_kx (s : State) (a : At) (m : Cells) : (s.setStore a m).kx = s.kx := rfl
@[simp] theorem State.setStore_reds (s : State) (a : At) (m : Cells) : (s.setStore a m).reds = s.reds := rfl
@[simp] theorem State.setStore_gw (s : State) (a : At) (m : Cells) : (s.setStore a m).gw = s.gw := rfl
@[simp] theorem State.setStore_gwAux (s : State) (a : At) (m : Cells) : (s.setStore a m).gwAux = s.gwAux := rfl
@[simp] theorem State.setStore_parts (s : State) (a : At) (m : Cells) : (s.setStore a m).parts = s.parts := rfl
@[simp] theorem State.setStore_runs (s : State) (a : At) (m : Cells) : (s.setStore a m).runs = s.runs := rfl
@[simp] theorem State.setStore_jr (s : State) (a : At) (m : Cells) : (s.setStore a m).jr = s.jr := rfl
@[simp] theorem State.setStore_pkg (s : State) (a : At) (m : Cells) : (s.setStore a m).pkg = s.pkg := rfl

/-! ## defer -/

@[simp] theorem State.defer_pending (s : State) (d : Deferred) : (s.defer d).pending = s.pending := by unfold State.defer; split <;> rfl
@[simp] theorem State.defer_free (s : State) (d : Deferred) : (s.defer d).free = s.free := by unfold State.defer; split <;> rfl
@[simp] theorem State.defer_supply (s : State) (d : Deferred) : (s.defer d).supply = s.supply := by unfold State.defer; split <;> rfl
@[simp] theorem State.defer_boot (s : State) (d : Deferred) : (s.defer d).boot = s.boot := by unfold State.defer; split <;> rfl
@[simp] theorem State.defer_sec (s : State) (d : Deferred) : (s.defer d).sec = s.sec := by unfold State.defer; split <;> rfl
@[simp] theorem State.defer_pt (s : State) (d : Deferred) : (s.defer d).pt = s.pt := by unfold State.defer; split <;> rfl
@[simp] theorem State.defer_ptAux (s : State) (d : Deferred) : (s.defer d).ptAux = s.ptAux := by unfold State.defer; split <;> rfl
@[simp] theorem State.defer_ptDies (s : State) (d : Deferred) : (s.defer d).ptDies = s.ptDies := by unfold State.defer; split <;> rfl
@[simp] theorem State.defer_hm (s : State) (d : Deferred) : (s.defer d).hm = s.hm := by unfold State.defer; split <;> rfl
@[simp] theorem State.defer_hmAux (s : State) (d : Deferred) : (s.defer d).hmAux = s.hmAux := by unfold State.defer; split <;> rfl
@[simp] theorem State.defer_events (s : State) (d : Deferred) : (s.defer d).events = s.events := by unfold State.defer; split <;> rfl
@[simp] theorem State.defer_i3c (s : State) (d : Deferred) : (s.defer d).i3c = s.i3c := by unfold State.defer; split <;> rfl
@[simp] theorem State.defer_mf (s : State) (d : Deferred) : (s.defer d).mf = s.mf := by unfold State.defer; split <;> rfl
@[simp] theorem State.defer_mfAux (s : State) (d : Deferred) : (s.defer d).mfAux = s.mfAux := by unfold State.defer; split <;> rfl
@[simp] theorem State.defer_clusters (s : State) (d : Deferred) : (s.defer d).clusters = s.clusters := by unfold State.defer; split <;> rfl
@[simp] theorem State.defer_mem (s : State) (d : Deferred) : (s.defer d).mem = s.mem := by unfold State.defer; split <;> rfl
@[simp] theorem State.defer_memDies (s : State) (d : Deferred) : (s.defer d).memDies = s.memDies := by unfold State.defer; split <;> rfl
@[simp] theorem State.defer_memAux (s : State) (d : Deferred) : (s.defer d).memAux = s.memAux := by unfold State.defer; split <;> rfl
@[simp] theorem State.defer_berths (s : State) (d : Deferred) : (s.defer d).berths = s.berths := by unfold State.defer; split <;> rfl
@[simp] theorem State.defer_links (s : State) (d : Deferred) : (s.defer d).links = s.links := by unfold State.defer; split <;> rfl
@[simp] theorem State.defer_linkCtrs (s : State) (d : Deferred) : (s.defer d).linkCtrs = s.linkCtrs := by unfold State.defer; split <;> rfl
@[simp] theorem State.defer_kx (s : State) (d : Deferred) : (s.defer d).kx = s.kx := by unfold State.defer; split <;> rfl
@[simp] theorem State.defer_reds (s : State) (d : Deferred) : (s.defer d).reds = s.reds := by unfold State.defer; split <;> rfl
@[simp] theorem State.defer_gw (s : State) (d : Deferred) : (s.defer d).gw = s.gw := by unfold State.defer; split <;> rfl
@[simp] theorem State.defer_gwAux (s : State) (d : Deferred) : (s.defer d).gwAux = s.gwAux := by unfold State.defer; split <;> rfl
@[simp] theorem State.defer_parts (s : State) (d : Deferred) : (s.defer d).parts = s.parts := by unfold State.defer; split <;> rfl
@[simp] theorem State.defer_runs (s : State) (d : Deferred) : (s.defer d).runs = s.runs := by unfold State.defer; split <;> rfl
@[simp] theorem State.defer_jr (s : State) (d : Deferred) : (s.defer d).jr = s.jr := by unfold State.defer; split <;> rfl
@[simp] theorem State.defer_pkg (s : State) (d : Deferred) : (s.defer d).pkg = s.pkg := by unfold State.defer; split <;> rfl

/-! ## The part updated -/

@[simp] theorem State.modSupply_supply (s : State) (f : Supply → Supply) : (s.modSupply f).supply = f s.supply := rfl
@[simp] theorem State.modBoot_boot (s : State) (f : Boot → Boot) : (s.modBoot f).boot = f s.boot := rfl
@[simp] theorem State.modHm_hm (s : State) (f : Hm → Hm) : (s.modHm f).hm = f s.hm := rfl
@[simp] theorem State.modHmAux_hmAux (s : State) (f : HmAux → HmAux) : (s.modHmAux f).hmAux = f s.hmAux := rfl
@[simp] theorem State.modGw_gw (s : State) (f : Gw → Gw) : (s.modGw f).gw = f s.gw := rfl
@[simp] theorem State.modGwAux_gwAux (s : State) (f : GwAux → GwAux) : (s.modGwAux f).gwAux = f s.gwAux := rfl
@[simp] theorem State.modI3c_i3c (s : State) (f : I3c → I3c) : (s.modI3c f).i3c = f s.i3c := rfl
@[simp] theorem State.modKx_kx (s : State) (f : Kx → Kx) : (s.modKx f).kx = f s.kx := rfl
@[simp] theorem State.modMf_mf (s : State) (f : Mf → Mf) : (s.modMf f).mf = f s.mf := rfl
@[simp] theorem State.modMfAux_mfAux (s : State) (f : MfAux → MfAux) : (s.modMfAux f).mfAux = f s.mfAux := rfl
@[simp] theorem State.modMem_mem (s : State) (f : Mem → Mem) : (s.modMem f).mem = f s.mem := rfl
@[simp] theorem State.modPt_pt (s : State) (f : Pt → Pt) : (s.modPt f).pt = f s.pt := rfl
@[simp] theorem State.modPtAux_ptAux (s : State) (f : PtAux → PtAux) : (s.modPtAux f).ptAux = f s.ptAux := rfl
@[simp] theorem State.modEvents_events (s : State) (f : Events → Events) : (s.modEvents f).events = f s.events := rfl
@[simp] theorem State.modSec_sec (s : State) (f : Sec → Sec) : (s.modSec f).sec = f s.sec := rfl
@[simp] theorem State.modFill_fill (s : State) (f : Fill → Fill) : (s.modFill f).jr.fill = f s.jr.fill := rfl

end Sys2Proof.Machine
end

