-- ==== Sys2Proof/Laws/Units.lean ====
section
/-!
SUPPORT. The units of the state: what reading a unit after an update of one gives.
-/

namespace Sys2Proof.Machine

theorem State.berth_setBerth (s : State) (n q : Nat) (b : Berth) :
    (s.setBerth n b).berth q = if n = q then b else s.berth q := Sparse.get_set _ _ _ _ _
theorem State.berth_modBerth (s : State) (n q : Nat) (f : Berth → Berth) :
    (s.modBerth n f).berth q = if n = q then f (s.berth n) else s.berth q := Sparse.get_set _ _ _ _ _
theorem State.part_setPart (s : State) (p q : Nat) (x : Part) :
    (s.setPart p x).part q = if p = q then x else s.part q := Sparse.get_set _ _ _ _ _
theorem State.part_modPart (s : State) (p q : Nat) (f : Part → Part) :
    (s.modPart p f).part q = if p = q then f (s.part p) else s.part q := Sparse.get_set _ _ _ _ _
theorem State.run_setRun (s : State) (p q : Nat) (x : PartRun) :
    (s.setRun p x).run q = if p = q then x else s.run q := Sparse.get_set _ _ _ _ _
theorem State.run_modRun (s : State) (p q : Nat) (f : PartRun → PartRun) :
    (s.modRun p f).run q = if p = q then f (s.run p) else s.run q := Sparse.get_set _ _ _ _ _
theorem State.clusterAt_setClusterAt (s : State) (k q : Nat) (c : Cluster) :
    (s.setClusterAt k c).clusterAt q = if k = q then c else s.clusterAt q := Sparse.get_set _ _ _ _ _
theorem State.link_setLink (s : State) (k q : Nat) (x : Link) :
    (s.setLink k x).link q = if k = q then x else s.link q := Sparse.get_set _ _ _ _ _
theorem State.link_modLink (s : State) (k q : Nat) (f : Link → Link) :
    (s.modLink k f).link q = if k = q then f (s.link k) else s.link q := Sparse.get_set _ _ _ _ _
theorem State.linkCtr_modLinkCtr (s : State) (k q : Nat) (f : LinkCounters → LinkCounters) :
    (s.modLinkCtr k f).linkCtr q = if k = q then f (s.linkCtr k) else s.linkCtr q := Sparse.get_set _ _ _ _ _
theorem State.ptDie_modPtDie (s : State) (d q : Nat) (f : PtDie → PtDie) :
    (s.modPtDie d f).ptDie q = if d = q then f (s.ptDie d) else s.ptDie q := Sparse.get_set _ _ _ _ _
theorem State.memDie_modMemDie (s : State) (d q : Nat) (f : MemDie → MemDie) :
    (s.modMemDie d f).memDie q = if d = q then f (s.memDie d) else s.memDie q := Sparse.get_set _ _ _ _ _
theorem State.memDieAux_modMemDieAux (s : State) (d q : Nat) (f : MemDieAux → MemDieAux) :
    (s.modMemDieAux d f).memDieAux q = if d = q then f (s.memDieAux d) else s.memDieAux q := Sparse.get_set _ _ _ _ _
theorem State.session_modSession (s : State) (n q : Nat) (f : Session → Session) :
    (s.modSession n f).session q = if n = q then f (s.session n) else s.session q := Sparse.get_set _ _ _ _ _
theorem State.qp_modQp (s : State) (n q : Nat) (f : Qp → Qp) :
    (s.modQp n f).qp q = if n = q then f (s.qp n) else s.qp q := Sparse.get_set _ _ _ _ _
theorem State.timer_modTimer (s : State) (n q : Nat) (f : Timer → Timer) :
    (s.modTimer n f).timer q = if n = q then f (s.timer n) else s.timer q := Sparse.get_set _ _ _ _ _
theorem State.side_modSide (s : State) (n q : Nat) (f : Word → Word) :
    (s.modSide n f).side q = if n = q then f (s.side n) else s.side q := Sparse.get_set _ _ _ _ _
theorem State.peer_modPeer (s : State) (n q : Nat) (f : Peer → Peer) :
    (s.modPeer n f).peer q = if n = q then f (s.peer n) else s.peer q := Sparse.get_set _ _ _ _ _
theorem State.prio_modPrio (s : State) (n q : Nat) (f : Prio → Prio) :
    (s.modPrio n f).prio q = if n = q then f (s.prio n) else s.prio q := Sparse.get_set _ _ _ _ _
theorem State.spot_modSpot (s : State) (n q : Nat) (f : Spot → Spot) :
    (s.modSpot n f).spot q = if n = q then f (s.spot n) else s.spot q := Sparse.get_set _ _ _ _ _

/-! The step sequencer and the other parts of a partition's run. -/

theorem State.seq_modSeq (s : State) (p q : Nat) (f : Sequencer → Sequencer) :
    (s.modSeq p f).seq q = if p = q then f (s.seq p) else s.seq q := by
  unfold State.seq State.modSeq; rw [State.run_modRun]; split <;> simp_all
theorem State.log_modLog (s : State) (p q : Nat) (f : StepLog → StepLog) :
    (s.modLog p f).log q = if p = q then f (s.log p) else s.log q := by
  unfold State.log State.modLog; rw [State.run_modRun]; split <;> simp_all
theorem State.log_modSeq (s : State) (p q : Nat) (f : Sequencer → Sequencer) : (s.modSeq p f).log q = s.log q := by
  unfold State.log State.modSeq; rw [State.run_modRun]; split <;> simp_all
theorem State.seq_modLog (s : State) (p q : Nat) (f : StepLog → StepLog) : (s.modLog p f).seq q = s.seq q := by
  unfold State.seq State.modLog; rw [State.run_modRun]; split <;> simp_all
theorem State.det_modDet (s : State) (p q : Nat) (f : Detector → Detector) :
    (s.modDet p f).det q = if p = q then f (s.det p) else s.det q := by
  unfold State.det State.modDet; rw [State.run_modRun]; split <;> simp_all
theorem State.stash_modStash (s : State) (p q : Nat) (f : Stash → Stash) :
    (s.modStash p f).stash q = if p = q then f (s.stash p) else s.stash q := by
  unfold State.stash State.modStash; rw [State.run_modRun]; split <;> simp_all
theorem State.lading_modLading (s : State) (p q : Nat) (f : Lading → Lading) :
    (s.modLading p f).lading q = if p = q then f (s.lading p) else s.lading q := by
  unfold State.lading State.modLading; rw [State.run_modRun]; split <;> simp_all

/-! Reading a unit takes no notice of an update of another part. -/

theorem State.berth_congr {s t : State} (h : t.berths = s.berths) (n : Nat) : t.berth n = s.berth n := by simp only [State.berth, h]
theorem State.part_congr {s t : State} (h : t.parts = s.parts) (n : Nat) : t.part n = s.part n := by simp only [State.part, h]
theorem State.run_congr {s t : State} (h : t.runs = s.runs) (n : Nat) : t.run n = s.run n := by simp only [State.run, h]
theorem State.clusterAt_congr {s t : State} (h : t.clusters = s.clusters) (n : Nat) : t.clusterAt n = s.clusterAt n := by simp only [State.clusterAt, h]
theorem State.link_congr {s t : State} (h : t.links = s.links) (n : Nat) : t.link n = s.link n := by simp only [State.link, h]
theorem State.linkCtr_congr {s t : State} (h : t.linkCtrs = s.linkCtrs) (n : Nat) : t.linkCtr n = s.linkCtr n := by simp only [State.linkCtr, h]
theorem State.ptDie_congr {s t : State} (h : t.ptDies = s.ptDies) (n : Nat) : t.ptDie n = s.ptDie n := by simp only [State.ptDie, h]
theorem State.memDie_congr {s t : State} (h : t.memDies = s.memDies) (n : Nat) : t.memDie n = s.memDie n := by simp only [State.memDie, h]
theorem State.memDieAux_congr {s t : State} (h : t.memAux = s.memAux) (n : Nat) : t.memDieAux n = s.memDieAux n := by simp only [State.memDieAux, h]
theorem State.session_congr {s t : State} (h : t.gw = s.gw) (n : Nat) : t.session n = s.session n := by simp only [State.session, h]
theorem State.qp_congr {s t : State} (h : t.gw = s.gw) (n : Nat) : t.qp n = s.qp n := by simp only [State.qp, h]
theorem State.timer_congr {s t : State} (h : t.hmAux = s.hmAux) (n : Nat) : t.timer n = s.timer n := by simp only [State.timer, h]
theorem State.side_congr {s t : State} (h : t.hmAux = s.hmAux) (n : Nat) : t.side n = s.side n := by simp only [State.side, h]
theorem State.peer_congr {s t : State} (h : t.sec = s.sec) (n : Nat) : t.peer n = s.peer n := by simp only [State.peer, h]
theorem State.prio_congr {s t : State} (h : t.gw = s.gw) (n : Nat) : t.prio n = s.prio n := by simp only [State.prio, h]
theorem State.spot_congr {s t : State} (h : t.ptAux = s.ptAux) (n : Nat) : t.spot n = s.spot n := by simp only [State.spot, h]
theorem State.ready_congr {s t : State} (h : t.hm = s.hm) (n : Nat) : t.ready n = s.ready n := by simp only [State.ready, h]
theorem State.dead_congr {s t : State} (h : t.pkg = s.pkg) (n : Nat) : t.dead n = s.dead n := by simp only [State.dead, h]

end Sys2Proof.Machine
end

