-- ==== Sys2Proof/Laws/Frame.lean ====
section
/-!
SUPPORT. Frames: how they compose, and what the operations that every family uses leave alone (events, berth writes,
the replace request, the draw of a free value).
-/

namespace Sys2Proof.Machine

theorem SameBut.refl (fs : List Field) (s : State) : SameBut fs s s := by
  constructor; intro f _; cases f <;> rfl

theorem SameBut.trans {fs : List Field} {s t u : State} (h : SameBut fs s t) (g : SameBut fs t u) : SameBut fs s u := by
  constructor
  intro f hf
  have a := h.same f hf
  have b := g.same f hf
  cases f <;> exact b.trans a

theorem SameBut.mono {fs gs : List Field} {s t : State} (h : SameBut fs s t) (hs : ∀ f, f ∈ fs → f ∈ gs) :
    SameBut gs s t := ⟨fun f hf => h.same f (fun hm => hf (hs f hm))⟩

theorem SameBut.then {fs gs : List Field} {s t u : State} (h : SameBut gs s t) (g : SameBut fs t u)
    (hs : ∀ f, f ∈ fs → f ∈ gs) : SameBut gs s u := h.trans (g.mono hs)

theorem SameBut.ite {c : Prop} [Decidable c] {fs : List Field} {s t u : State} (h : SameBut fs s t)
    (g : SameBut fs s u) : SameBut fs s (if c then t else u) := by split <;> assumption

theorem SameBut.foldl {α : Type} {fs : List Field} (f : State → α → State) (h : ∀ s a, SameBut fs s (f s a)) :
    ∀ (l : List α) (s : State), SameBut fs s (l.foldl f s)
  | [], s => SameBut.refl fs s
  | a :: l, s => (h s a).trans (SameBut.foldl f h l (f s a))

/-! ## Events of the dies -/

theorem State.hold_same (s : State) (r : EventRec) : SameBut [.events] s (s.hold r) := by
  unfold State.hold; split
  · split <;> (constructor; intro f hf; cases f <;> first | rfl | simp at hf)
  · constructor; intro f hf; cases f <;> first | rfl | simp at hf

theorem State.raiseDie_same (s : State) (code die : Nat) (part : Option Nat) (b : Bytes) (q : Bool) :
    SameBut [.events] s (s.raiseDie code die part b q) := by
  unfold State.raiseDie; simp only []; split
  · constructor; intro f hf; cases f <;> first | rfl | simp at hf
  · exact State.hold_same _ _

theorem State.raiseBerth_same (s : State) (quiet : Option Nat) (n code : Nat) (b : Bytes) :
    SameBut [.events] s (s.raiseBerth quiet n code b) := State.raiseDie_same ..

theorem State.draw_same (s : State) : SameBut [.free] s s.draw.2 := by
  constructor; intro f hf; cases f <;> first | rfl | simp at hf

/-! ## Berth writes (R336 to R343) -/

theorem State.store_same (s : State) (sp : Space) (a : Nat) (b : Bytes) : SameBut [.mem] s (s.store sp a b) := by
  constructor; intro f hf; cases f <;> first | rfl | simp at hf

theorem State.touch_same (s : State) (v : Via) (w : Bool) (sp : Space) (a n : Nat) : SameBut [.mem] s (s.touch v w sp a n) := by
  unfold State.touch; simp only []
  split
  · exact SameBut.refl _ _
  · constructor; intro f hf; cases f <;> first | rfl | simp at hf

theorem State.ringStore_same (s : State) (c : BerthCfg) (a : Nat) (b : Bytes) : SameBut [.mem] s (s.ringStore c a b) :=
  (State.touch_same ..).trans (State.store_same ..)

theorem State.setBerth_same (s : State) (n : Nat) (b : Berth) : SameBut [.berths] s (s.setBerth n b) := by
  constructor; intro f hf; cases f <;> first | rfl | simp at hf

theorem State.modBerth_same (s : State) (n : Nat) (g : Berth → Berth) : SameBut [.berths] s (s.modBerth n g) :=
  State.setBerth_same _ _ _

/-- What a berth write may change: the berth, the memory of its ring, and the events it raises. -/
abbrev berthFields : List Field := [.events, .mem, .berths]

theorem State.putSlot_same (s : State) (n cls flags valid producer : Nat) (step : DWord) (drops : Nat) (b : Bytes) :
    SameBut berthFields s (s.putSlot n cls flags valid producer step drops b) := by
  unfold State.putSlot
  exact SameBut.then ((State.ringStore_same _ _ _ _).mono (by decide)) (State.setBerth_same _ _ _) (by decide)

theorem State.dropSlots_same (s : State) (quiet : Option Nat) (n k : Nat) (step : DWord) :
    SameBut berthFields s (s.dropSlots quiet n k step) := by
  have hb := fun u b => (State.setBerth_same u n b).mono (gs := berthFields) (by decide)
  have hr := fun u c => (State.raiseBerth_same u quiet n 0x7002 c).mono (gs := berthFields) (by decide)
  have hs := fun u c a b => (State.ringStore_same u c a b).mono (gs := berthFields) (by decide)
  have key : ∀ u, SameBut berthFields s u → SameBut berthFields s
      (if (s.berth n).openMarker then
        let c := (s.berth n).cfg
        let at_ := c.slotAddr (((s.berth n).tail + c.capacity - 1) % c.capacity)
        let old := leNat (u.bytes c.ringSpace (at_ + 24) 4)
        let new := min (old + k) 0xFFFFFFFF
        let u := u.ringStore c (at_ + 24) (natLe 4 new)
        if new = 0xFFFFFFFF then u.ringStore c (at_ + 1) [2] else u
      else u.putSlot n 6 (if 0xFFFFFFFF ≤ k then 2 else 0) 0 idBerthEngine step (min k 0xFFFFFFFF) []) :=
    fun u hu => SameBut.ite (SameBut.ite ((hu.trans (hs ..)).trans (hs ..)) (hu.trans (hs ..)))
      (hu.trans (State.putSlot_same ..))
  unfold State.dropSlots
  exact key _ (SameBut.ite ((hb ..).trans (hr ..)) (hb ..))

theorem State.levelAfter_same (quiet : Option Nat) : ∀ (fuel n before : Nat) (step : DWord) (s : State),
    SameBut berthFields s (State.levelAfter fuel quiet n before step s)
  | 0, _, _, _, s => SameBut.refl _ s
  | fuel + 1, n, before, step, s => by
    have hb := fun u n b => (State.setBerth_same u n b).mono (gs := berthFields) (by decide)
    have he := fun u n c => (State.raiseBerth_same u quiet n 0x7001 c).mono (gs := berthFields) (by decide)
    unfold State.levelAfter; simp only []
    split
    · exact SameBut.refl _ _
    · split
      · split
        · exact (hb _ _ _).trans (he _ _ _)
        · split
          · exact hb _ _ _
          · refine SameBut.trans ?_ (State.levelAfter_same quiet fuel _ _ _ _)
            split
            · exact (hb _ _ _).trans (State.putSlot_same ..)
            · exact (hb _ _ _).trans (State.dropSlots_same ..)
      · split
        · exact hb _ _ _
        · exact SameBut.refl _ _

theorem State.level_same (s : State) (quiet : Option Nat) (n before : Nat) (step : DWord) :
    SameBut berthFields s (s.level quiet n before step) := State.levelAfter_same ..

theorem State.enqueueSlot_same (s : State) (quiet : Option Nat) (n : Nat) (m : BerthMsg) (i : Nat) :
    SameBut berthFields s (s.enqueueSlot quiet n m i) :=
  (State.putSlot_same ..).trans (State.level_same ..)

theorem State.feed_same (quiet : Option Nat) (n : Nat) (m : BerthMsg) : ∀ (fuel i : Nat) (s : State),
    SameBut berthFields s (State.feed quiet n m fuel i s).2
  | 0, _, s => SameBut.refl _ s
  | fuel + 1, i, s => by
    unfold State.feed; simp only []
    split
    · refine SameBut.trans ?_ (State.feed_same quiet n m fuel _ _)
      split
      · exact ((State.setBerth_same ..).mono (by decide)).trans (State.enqueueSlot_same ..)
      · exact State.enqueueSlot_same ..
    · exact SameBut.refl _ _

theorem State.fillFree_same (s : State) (n : Nat) (b : Bytes) : SameBut berthFields s (s.fillFree n b) :=
  SameBut.foldl _ (fun u _ => (State.ringStore_same u ..).mono (by decide)) _ _

theorem State.acceptMessage_same (s : State) (quiet : Option Nat) (n : Nat) (m : BerthMsg) :
    SameBut berthFields s (s.acceptMessage quiet n m) := by
  unfold State.acceptMessage; simp only []
  split
  · split
    · exact SameBut.foldl _ (fun u i => State.enqueueSlot_same u quiet n m _) _ _
    · exact ((State.fillFree_same ..).trans (State.dropSlots_same ..)).trans (State.level_same ..)
  · split
    · have h := State.feed_same quiet n m (slotsNeeded (s.berth n).cfg m.bytes) 0 s
      split
      · exact h.trans ((State.modBerth_same ..).mono (by decide))
      · exact h
    · exact (State.setBerth_same ..).mono (by decide)

theorem State.berthWrite_same (s : State) (quiet : Option Nat) (n : Nat) (m : BerthMsg) :
    SameBut berthFields s (s.berthWrite quiet n m).2 := by
  have hb := fun u n b => (State.setBerth_same u n b).mono (gs := berthFields) (by decide)
  have he := fun u q n k c => (State.raiseBerth_same u q n k c).mono (gs := berthFields) (by decide)
  unfold State.berthWrite; simp only []
  split
  · exact SameBut.refl _ _
  · split
    · exact (hb _ _ _).trans (he _ _ _ _ _)
    · split
      · exact (hb _ _ _).trans (he _ _ _ _ _)
      · exact State.acceptMessage_same ..

/-! ## The Harbourmaster's events (R40, R538) -/

/-- What an event of the Harbourmaster may change: the event path, the in-band interrupts, and the event berth. -/
abbrev eventFields : List Field := [.events, .i3c, .mem, .berths]

theorem State.toBerth_same (s : State) (r : EventRec) : SameBut eventFields s (s.toBerth r) := by
  unfold State.toBerth; split
  · exact (State.berthWrite_same ..).mono (by decide)
  · exact SameBut.refl _ _

theorem State.withEvents_same (s : State) (e : Events) : SameBut eventFields s { s with events := e } := by
  constructor; intro f hf; cases f <;> first | rfl | simp at hf

theorem State.withI3c_same (s : State) (x : I3c) : SameBut eventFields s { s with i3c := x } := by
  constructor; intro f hf; cases f <;> first | rfl | simp at hf

theorem State.signal_same (s : State) (r : EventRec) : SameBut eventFields s (s.signal r) :=
  SameBut.ite (SameBut.ite ((State.withEvents_same s _).trans (State.withI3c_same ..)) (State.withEvents_same s _))
    (SameBut.refl _ _)

theorem State.acceptOne_same (s : State) (r : EventRec) : SameBut eventFields s (s.acceptOne r).2 :=
  ((State.withEvents_same s _).trans (State.toBerth_same ..)).trans (State.signal_same ..)

theorem State.accept_same (s : State) (r : EventRec) : SameBut eventFields s (s.accept r) := by
  unfold State.accept; simp only []
  split
  · exact ((State.acceptOne_same s r).trans (State.withEvents_same _ _)).trans (State.acceptOne_same ..)
  · exact State.acceptOne_same s r

theorem State.raise_same (s : State) (code die : Nat) (part : Option Nat) (b : Bytes) :
    SameBut eventFields s (s.raise code die part b) := by
  unfold State.raise; simp only []
  split
  · split
    · exact State.accept_same ..
    · exact (State.hold_same ..).mono (by decide)
  · exact (State.raiseDie_same ..).mono (by decide)

theorem State.raiseHm_same (s : State) (code : Nat) (part : Option Nat) (b : Bytes) :
    SameBut eventFields s (s.raiseHm code part b) := State.raise_same ..

theorem State.deliverHeld_same (s : State) : SameBut eventFields s s.deliverHeld :=
  (State.withEvents_same s _).trans (SameBut.foldl _ (fun u r => State.accept_same u r) _ _)

theorem State.acceptAll_same (s : State) : SameBut eventFields s s.acceptAll :=
  (State.withEvents_same s _).trans (SameBut.foldl _ (fun u r => State.accept_same u r) _ _)

theorem State.acceptFrom_same (s : State) (d : BitVec 4) : SameBut eventFields s (s.acceptFrom d) := by
  unfold State.acceptFrom; split
  · exact SameBut.refl _ _
  · exact (State.withEvents_same s _).trans (State.accept_same ..)

/-! ## The replace request and transient faults (R534, R539) -/

theorem State.withHm_same (fs : List Field) (s : State) (h : Hm) (hf : Field.hm ∈ fs) : SameBut fs s { s with hm := h } := by
  constructor; intro f hn; cases f <;> first | rfl | exact absurd hf hn

theorem State.reportService_same (s : State) (old : Word) : SameBut (.hm :: eventFields) s (s.reportService old) := by
  unfold State.reportService; simp only []
  split
  · exact SameBut.refl _ _
  · split
    · exact (State.withHm_same _ s _ (by decide)).then (State.raiseHm_same ..) (by decide)
    · split
      · exact SameBut.refl _ _
      · exact (State.withHm_same _ s _ (by decide)).then (State.raiseHm_same ..) (by decide)

theorem State.service_same (s : State) (b : Nat) (v : Bool) : SameBut (.hm :: eventFields) s (s.service b v) :=
  (State.withHm_same _ s _ (by decide)).trans (State.reportService_same ..)

theorem State.transientFault_same (s : State) (r : Resource) :
    SameBut (.hmAux :: eventFields) s (s.transientFault r).2 := by
  have h : ∀ a : HmAux, SameBut (.hmAux :: eventFields) s { s with hmAux := a } := by
    intro a; constructor; intro f hf; cases f <;> first | rfl | simp at hf
  unfold State.transientFault; simp only []
  split
  · exact (h _).then (State.raiseHm_same ..) (by decide)
  · exact h _

/-! ## Register writes (R530) -/

theorem State.defer_same (s : State) (d : Deferred) : SameBut [.deferred] s (s.defer d) := by
  unfold State.defer; split
  · constructor; intro f hf; cases f <;> first | rfl | simp at hf
  · exact SameBut.refl _ _

theorem State.writeNotReady_same (s : State) (a : Nat) : SameBut (.hm :: eventFields) s (s.writeNotReady a) :=
  (State.withHm_same _ s _ (by decide)).then (State.raiseHm_same ..) (by decide)

/-- A guarded write changes what its effect changes, and what the not-ready report and the wait for a management restart
change. -/
theorem State.guardWrite_same {fs : List Field} (s : State) (c : Instr) (b a : Nat) (k : State → State)
    (hk : ∀ u, SameBut fs u (k u)) (hf : ∀ f, f ∈ (Field.deferred :: .hm :: eventFields) → f ∈ fs) :
    SameBut fs s (s.guardWrite c b a k) := by
  unfold State.guardWrite
  split
  · exact SameBut.refl _ _
  · split
    · exact (State.defer_same ..).mono (fun f h => hf f (by simp_all))
    · split
      · exact hk s
      · split
        · exact SameBut.refl _ _
        · exact (State.writeNotReady_same ..).mono (fun f h => hf f (by simp_all))

/-- A guarded write has its effect when its block is ready and the management cores run. -/
theorem State.guardWrite_ready (s : State) (c : Instr) (b a : Nat) (k : State → State) (h0 : s.ready readySideband = true)
    (hr : s.hmAux.restarting = false) (hb : s.ready b = true) : s.guardWrite c b a k = k s := by
  simp [State.guardWrite, h0, hr, hb]

end Sys2Proof.Machine
end

