-- ==== Sys2Proof/Laws/FrameFields.lean ====
section
/-!
SUPPORT. The frames of the shared operations, one lemma per part: raising an event, the replace request, a berth write.
-/

namespace Sys2Proof.Machine

/-! ## hold -/

@[simp] theorem State.hold_pending (s : State) (r : EventRec) : (s.hold r).pending = s.pending :=
  SameBut.same (State.hold_same ..) .pending (by decide)
@[simp] theorem State.hold_deferred (s : State) (r : EventRec) : (s.hold r).deferred = s.deferred :=
  SameBut.same (State.hold_same ..) .deferred (by decide)
@[simp] theorem State.hold_free (s : State) (r : EventRec) : (s.hold r).free = s.free :=
  SameBut.same (State.hold_same ..) .free (by decide)
@[simp] theorem State.hold_supply (s : State) (r : EventRec) : (s.hold r).supply = s.supply :=
  SameBut.same (State.hold_same ..) .supply (by decide)
@[simp] theorem State.hold_boot (s : State) (r : EventRec) : (s.hold r).boot = s.boot :=
  SameBut.same (State.hold_same ..) .boot (by decide)
@[simp] theorem State.hold_sec (s : State) (r : EventRec) : (s.hold r).sec = s.sec :=
  SameBut.same (State.hold_same ..) .sec (by decide)
@[simp] theorem State.hold_pt (s : State) (r : EventRec) : (s.hold r).pt = s.pt :=
  SameBut.same (State.hold_same ..) .pt (by decide)
@[simp] theorem State.hold_ptAux (s : State) (r : EventRec) : (s.hold r).ptAux = s.ptAux :=
  SameBut.same (State.hold_same ..) .ptAux (by decide)
@[simp] theorem State.hold_ptDies (s : State) (r : EventRec) : (s.hold r).ptDies = s.ptDies :=
  SameBut.same (State.hold_same ..) .ptDies (by decide)
@[simp] theorem State.hold_hm (s : State) (r : EventRec) : (s.hold r).hm = s.hm :=
  SameBut.same (State.hold_same ..) .hm (by decide)
@[simp] theorem State.hold_hmAux (s : State) (r : EventRec) : (s.hold r).hmAux = s.hmAux :=
  SameBut.same (State.hold_same ..) .hmAux (by decide)
@[simp] theorem State.hold_i3c (s : State) (r : EventRec) : (s.hold r).i3c = s.i3c :=
  SameBut.same (State.hold_same ..) .i3c (by decide)
@[simp] theorem State.hold_mf (s : State) (r : EventRec) : (s.hold r).mf = s.mf :=
  SameBut.same (State.hold_same ..) .mf (by decide)
@[simp] theorem State.hold_mfAux (s : State) (r : EventRec) : (s.hold r).mfAux = s.mfAux :=
  SameBut.same (State.hold_same ..) .mfAux (by decide)
@[simp] theorem State.hold_clusters (s : State) (r : EventRec) : (s.hold r).clusters = s.clusters :=
  SameBut.same (State.hold_same ..) .clusters (by decide)
@[simp] theorem State.hold_mem (s : State) (r : EventRec) : (s.hold r).mem = s.mem :=
  SameBut.same (State.hold_same ..) .mem (by decide)
@[simp] theorem State.hold_memDies (s : State) (r : EventRec) : (s.hold r).memDies = s.memDies :=
  SameBut.same (State.hold_same ..) .memDies (by decide)
@[simp] theorem State.hold_memAux (s : State) (r : EventRec) : (s.hold r).memAux = s.memAux :=
  SameBut.same (State.hold_same ..) .memAux (by decide)
@[simp] theorem State.hold_berths (s : State) (r : EventRec) : (s.hold r).berths = s.berths :=
  SameBut.same (State.hold_same ..) .berths (by decide)
@[simp] theorem State.hold_links (s : State) (r : EventRec) : (s.hold r).links = s.links :=
  SameBut.same (State.hold_same ..) .links (by decide)
@[simp] theorem State.hold_linkCtrs (s : State) (r : EventRec) : (s.hold r).linkCtrs = s.linkCtrs :=
  SameBut.same (State.hold_same ..) .linkCtrs (by decide)
@[simp] theorem State.hold_kx (s : State) (r : EventRec) : (s.hold r).kx = s.kx :=
  SameBut.same (State.hold_same ..) .kx (by decide)
@[simp] theorem State.hold_reds (s : State) (r : EventRec) : (s.hold r).reds = s.reds :=
  SameBut.same (State.hold_same ..) .reds (by decide)
@[simp] theorem State.hold_gw (s : State) (r : EventRec) : (s.hold r).gw = s.gw :=
  SameBut.same (State.hold_same ..) .gw (by decide)
@[simp] theorem State.hold_gwAux (s : State) (r : EventRec) : (s.hold r).gwAux = s.gwAux :=
  SameBut.same (State.hold_same ..) .gwAux (by decide)
@[simp] theorem State.hold_parts (s : State) (r : EventRec) : (s.hold r).parts = s.parts :=
  SameBut.same (State.hold_same ..) .parts (by decide)
@[simp] theorem State.hold_runs (s : State) (r : EventRec) : (s.hold r).runs = s.runs :=
  SameBut.same (State.hold_same ..) .runs (by decide)
@[simp] theorem State.hold_jr (s : State) (r : EventRec) : (s.hold r).jr = s.jr :=
  SameBut.same (State.hold_same ..) .jr (by decide)
@[simp] theorem State.hold_pkg (s : State) (r : EventRec) : (s.hold r).pkg = s.pkg :=
  SameBut.same (State.hold_same ..) .pkg (by decide)

/-! ## raiseDie -/

@[simp] theorem State.raiseDie_pending (s : State) (c d : Nat) (p : Option Nat) (b : Bytes) (q : Bool) : (s.raiseDie c d p b q).pending = s.pending :=
  SameBut.same (State.raiseDie_same ..) .pending (by decide)
@[simp] theorem State.raiseDie_deferred (s : State) (c d : Nat) (p : Option Nat) (b : Bytes) (q : Bool) : (s.raiseDie c d p b q).deferred = s.deferred :=
  SameBut.same (State.raiseDie_same ..) .deferred (by decide)
@[simp] theorem State.raiseDie_free (s : State) (c d : Nat) (p : Option Nat) (b : Bytes) (q : Bool) : (s.raiseDie c d p b q).free = s.free :=
  SameBut.same (State.raiseDie_same ..) .free (by decide)
@[simp] theorem State.raiseDie_supply (s : State) (c d : Nat) (p : Option Nat) (b : Bytes) (q : Bool) : (s.raiseDie c d p b q).supply = s.supply :=
  SameBut.same (State.raiseDie_same ..) .supply (by decide)
@[simp] theorem State.raiseDie_boot (s : State) (c d : Nat) (p : Option Nat) (b : Bytes) (q : Bool) : (s.raiseDie c d p b q).boot = s.boot :=
  SameBut.same (State.raiseDie_same ..) .boot (by decide)
@[simp] theorem State.raiseDie_sec (s : State) (c d : Nat) (p : Option Nat) (b : Bytes) (q : Bool) : (s.raiseDie c d p b q).sec = s.sec :=
  SameBut.same (State.raiseDie_same ..) .sec (by decide)
@[simp] theorem State.raiseDie_pt (s : State) (c d : Nat) (p : Option Nat) (b : Bytes) (q : Bool) : (s.raiseDie c d p b q).pt = s.pt :=
  SameBut.same (State.raiseDie_same ..) .pt (by decide)
@[simp] theorem State.raiseDie_ptAux (s : State) (c d : Nat) (p : Option Nat) (b : Bytes) (q : Bool) : (s.raiseDie c d p b q).ptAux = s.ptAux :=
  SameBut.same (State.raiseDie_same ..) .ptAux (by decide)
@[simp] theorem State.raiseDie_ptDies (s : State) (c d : Nat) (p : Option Nat) (b : Bytes) (q : Bool) : (s.raiseDie c d p b q).ptDies = s.ptDies :=
  SameBut.same (State.raiseDie_same ..) .ptDies (by decide)
@[simp] theorem State.raiseDie_hm (s : State) (c d : Nat) (p : Option Nat) (b : Bytes) (q : Bool) : (s.raiseDie c d p b q).hm = s.hm :=
  SameBut.same (State.raiseDie_same ..) .hm (by decide)
@[simp] theorem State.raiseDie_hmAux (s : State) (c d : Nat) (p : Option Nat) (b : Bytes) (q : Bool) : (s.raiseDie c d p b q).hmAux = s.hmAux :=
  SameBut.same (State.raiseDie_same ..) .hmAux (by decide)
@[simp] theorem State.raiseDie_i3c (s : State) (c d : Nat) (p : Option Nat) (b : Bytes) (q : Bool) : (s.raiseDie c d p b q).i3c = s.i3c :=
  SameBut.same (State.raiseDie_same ..) .i3c (by decide)
@[simp] theorem State.raiseDie_mf (s : State) (c d : Nat) (p : Option Nat) (b : Bytes) (q : Bool) : (s.raiseDie c d p b q).mf = s.mf :=
  SameBut.same (State.raiseDie_same ..) .mf (by decide)
@[simp] theorem State.raiseDie_mfAux (s : State) (c d : Nat) (p : Option Nat) (b : Bytes) (q : Bool) : (s.raiseDie c d p b q).mfAux = s.mfAux :=
  SameBut.same (State.raiseDie_same ..) .mfAux (by decide)
@[simp] theorem State.raiseDie_clusters (s : State) (c d : Nat) (p : Option Nat) (b : Bytes) (q : Bool) : (s.raiseDie c d p b q).clusters = s.clusters :=
  SameBut.same (State.raiseDie_same ..) .clusters (by decide)
@[simp] theorem State.raiseDie_mem (s : State) (c d : Nat) (p : Option Nat) (b : Bytes) (q : Bool) : (s.raiseDie c d p b q).mem = s.mem :=
  SameBut.same (State.raiseDie_same ..) .mem (by decide)
@[simp] theorem State.raiseDie_memDies (s : State) (c d : Nat) (p : Option Nat) (b : Bytes) (q : Bool) : (s.raiseDie c d p b q).memDies = s.memDies :=
  SameBut.same (State.raiseDie_same ..) .memDies (by decide)
@[simp] theorem State.raiseDie_memAux (s : State) (c d : Nat) (p : Option Nat) (b : Bytes) (q : Bool) : (s.raiseDie c d p b q).memAux = s.memAux :=
  SameBut.same (State.raiseDie_same ..) .memAux (by decide)
@[simp] theorem State.raiseDie_berths (s : State) (c d : Nat) (p : Option Nat) (b : Bytes) (q : Bool) : (s.raiseDie c d p b q).berths = s.berths :=
  SameBut.same (State.raiseDie_same ..) .berths (by decide)
@[simp] theorem State.raiseDie_links (s : State) (c d : Nat) (p : Option Nat) (b : Bytes) (q : Bool) : (s.raiseDie c d p b q).links = s.links :=
  SameBut.same (State.raiseDie_same ..) .links (by decide)
@[simp] theorem State.raiseDie_linkCtrs (s : State) (c d : Nat) (p : Option Nat) (b : Bytes) (q : Bool) : (s.raiseDie c d p b q).linkCtrs = s.linkCtrs :=
  SameBut.same (State.raiseDie_same ..) .linkCtrs (by decide)
@[simp] theorem State.raiseDie_kx (s : State) (c d : Nat) (p : Option Nat) (b : Bytes) (q : Bool) : (s.raiseDie c d p b q).kx = s.kx :=
  SameBut.same (State.raiseDie_same ..) .kx (by decide)
@[simp] theorem State.raiseDie_reds (s : State) (c d : Nat) (p : Option Nat) (b : Bytes) (q : Bool) : (s.raiseDie c d p b q).reds = s.reds :=
  SameBut.same (State.raiseDie_same ..) .reds (by decide)
@[simp] theorem State.raiseDie_gw (s : State) (c d : Nat) (p : Option Nat) (b : Bytes) (q : Bool) : (s.raiseDie c d p b q).gw = s.gw :=
  SameBut.same (State.raiseDie_same ..) .gw (by decide)
@[simp] theorem State.raiseDie_gwAux (s : State) (c d : Nat) (p : Option Nat) (b : Bytes) (q : Bool) : (s.raiseDie c d p b q).gwAux = s.gwAux :=
  SameBut.same (State.raiseDie_same ..) .gwAux (by decide)
@[simp] theorem State.raiseDie_parts (s : State) (c d : Nat) (p : Option Nat) (b : Bytes) (q : Bool) : (s.raiseDie c d p b q).parts = s.parts :=
  SameBut.same (State.raiseDie_same ..) .parts (by decide)
@[simp] theorem State.raiseDie_runs (s : State) (c d : Nat) (p : Option Nat) (b : Bytes) (q : Bool) : (s.raiseDie c d p b q).runs = s.runs :=
  SameBut.same (State.raiseDie_same ..) .runs (by decide)
@[simp] theorem State.raiseDie_jr (s : State) (c d : Nat) (p : Option Nat) (b : Bytes) (q : Bool) : (s.raiseDie c d p b q).jr = s.jr :=
  SameBut.same (State.raiseDie_same ..) .jr (by decide)
@[simp] theorem State.raiseDie_pkg (s : State) (c d : Nat) (p : Option Nat) (b : Bytes) (q : Bool) : (s.raiseDie c d p b q).pkg = s.pkg :=
  SameBut.same (State.raiseDie_same ..) .pkg (by decide)

/-! ## raiseBerth -/

@[simp] theorem State.raiseBerth_pending (s : State) (q : Option Nat) (n c : Nat) (b : Bytes) : (s.raiseBerth q n c b).pending = s.pending :=
  SameBut.same (State.raiseBerth_same ..) .pending (by decide)
@[simp] theorem State.raiseBerth_deferred (s : State) (q : Option Nat) (n c : Nat) (b : Bytes) : (s.raiseBerth q n c b).deferred = s.deferred :=
  SameBut.same (State.raiseBerth_same ..) .deferred (by decide)
@[simp] theorem State.raiseBerth_free (s : State) (q : Option Nat) (n c : Nat) (b : Bytes) : (s.raiseBerth q n c b).free = s.free :=
  SameBut.same (State.raiseBerth_same ..) .free (by decide)
@[simp] theorem State.raiseBerth_supply (s : State) (q : Option Nat) (n c : Nat) (b : Bytes) : (s.raiseBerth q n c b).supply = s.supply :=
  SameBut.same (State.raiseBerth_same ..) .supply (by decide)
@[simp] theorem State.raiseBerth_boot (s : State) (q : Option Nat) (n c : Nat) (b : Bytes) : (s.raiseBerth q n c b).boot = s.boot :=
  SameBut.same (State.raiseBerth_same ..) .boot (by decide)
@[simp] theorem State.raiseBerth_sec (s : State) (q : Option Nat) (n c : Nat) (b : Bytes) : (s.raiseBerth q n c b).sec = s.sec :=
  SameBut.same (State.raiseBerth_same ..) .sec (by decide)
@[simp] theorem State.raiseBerth_pt (s : State) (q : Option Nat) (n c : Nat) (b : Bytes) : (s.raiseBerth q n c b).pt = s.pt :=
  SameBut.same (State.raiseBerth_same ..) .pt (by decide)
@[simp] theorem State.raiseBerth_ptAux (s : State) (q : Option Nat) (n c : Nat) (b : Bytes) : (s.raiseBerth q n c b).ptAux = s.ptAux :=
  SameBut.same (State.raiseBerth_same ..) .ptAux (by decide)
@[simp] theorem State.raiseBerth_ptDies (s : State) (q : Option Nat) (n c : Nat) (b : Bytes) : (s.raiseBerth q n c b).ptDies = s.ptDies :=
  SameBut.same (State.raiseBerth_same ..) .ptDies (by decide)
@[simp] theorem State.raiseBerth_hm (s : State) (q : Option Nat) (n c : Nat) (b : Bytes) : (s.raiseBerth q n c b).hm = s.hm :=
  SameBut.same (State.raiseBerth_same ..) .hm (by decide)
@[simp] theorem State.raiseBerth_hmAux (s : State) (q : Option Nat) (n c : Nat) (b : Bytes) : (s.raiseBerth q n c b).hmAux = s.hmAux :=
  SameBut.same (State.raiseBerth_same ..) .hmAux (by decide)
@[simp] theorem State.raiseBerth_i3c (s : State) (q : Option Nat) (n c : Nat) (b : Bytes) : (s.raiseBerth q n c b).i3c = s.i3c :=
  SameBut.same (State.raiseBerth_same ..) .i3c (by decide)
@[simp] theorem State.raiseBerth_mf (s : State) (q : Option Nat) (n c : Nat) (b : Bytes) : (s.raiseBerth q n c b).mf = s.mf :=
  SameBut.same (State.raiseBerth_same ..) .mf (by decide)
@[simp] theorem State.raiseBerth_mfAux (s : State) (q : Option Nat) (n c : Nat) (b : Bytes) : (s.raiseBerth q n c b).mfAux = s.mfAux :=
  SameBut.same (State.raiseBerth_same ..) .mfAux (by decide)
@[simp] theorem State.raiseBerth_clusters (s : State) (q : Option Nat) (n c : Nat) (b : Bytes) : (s.raiseBerth q n c b).clusters = s.clusters :=
  SameBut.same (State.raiseBerth_same ..) .clusters (by decide)
@[simp] theorem State.raiseBerth_mem (s : State) (q : Option Nat) (n c : Nat) (b : Bytes) : (s.raiseBerth q n c b).mem = s.mem :=
  SameBut.same (State.raiseBerth_same ..) .mem (by decide)
@[simp] theorem State.raiseBerth_memDies (s : State) (q : Option Nat) (n c : Nat) (b : Bytes) : (s.raiseBerth q n c b).memDies = s.memDies :=
  SameBut.same (State.raiseBerth_same ..) .memDies (by decide)
@[simp] theorem State.raiseBerth_memAux (s : State) (q : Option Nat) (n c : Nat) (b : Bytes) : (s.raiseBerth q n c b).memAux = s.memAux :=
  SameBut.same (State.raiseBerth_same ..) .memAux (by decide)
@[simp] theorem State.raiseBerth_berths (s : State) (q : Option Nat) (n c : Nat) (b : Bytes) : (s.raiseBerth q n c b).berths = s.berths :=
  SameBut.same (State.raiseBerth_same ..) .berths (by decide)
@[simp] theorem State.raiseBerth_links (s : State) (q : Option Nat) (n c : Nat) (b : Bytes) : (s.raiseBerth q n c b).links = s.links :=
  SameBut.same (State.raiseBerth_same ..) .links (by decide)
@[simp] theorem State.raiseBerth_linkCtrs (s : State) (q : Option Nat) (n c : Nat) (b : Bytes) : (s.raiseBerth q n c b).linkCtrs = s.linkCtrs :=
  SameBut.same (State.raiseBerth_same ..) .linkCtrs (by decide)
@[simp] theorem State.raiseBerth_kx (s : State) (q : Option Nat) (n c : Nat) (b : Bytes) : (s.raiseBerth q n c b).kx = s.kx :=
  SameBut.same (State.raiseBerth_same ..) .kx (by decide)
@[simp] theorem State.raiseBerth_reds (s : State) (q : Option Nat) (n c : Nat) (b : Bytes) : (s.raiseBerth q n c b).reds = s.reds :=
  SameBut.same (State.raiseBerth_same ..) .reds (by decide)
@[simp] theorem State.raiseBerth_gw (s : State) (q : Option Nat) (n c : Nat) (b : Bytes) : (s.raiseBerth q n c b).gw = s.gw :=
  SameBut.same (State.raiseBerth_same ..) .gw (by decide)
@[simp] theorem State.raiseBerth_gwAux (s : State) (q : Option Nat) (n c : Nat) (b : Bytes) : (s.raiseBerth q n c b).gwAux = s.gwAux :=
  SameBut.same (State.raiseBerth_same ..) .gwAux (by decide)
@[simp] theorem State.raiseBerth_parts (s : State) (q : Option Nat) (n c : Nat) (b : Bytes) : (s.raiseBerth q n c b).parts = s.parts :=
  SameBut.same (State.raiseBerth_same ..) .parts (by decide)
@[simp] theorem State.raiseBerth_runs (s : State) (q : Option Nat) (n c : Nat) (b : Bytes) : (s.raiseBerth q n c b).runs = s.runs :=
  SameBut.same (State.raiseBerth_same ..) .runs (by decide)
@[simp] theorem State.raiseBerth_jr (s : State) (q : Option Nat) (n c : Nat) (b : Bytes) : (s.raiseBerth q n c b).jr = s.jr :=
  SameBut.same (State.raiseBerth_same ..) .jr (by decide)
@[simp] theorem State.raiseBerth_pkg (s : State) (q : Option Nat) (n c : Nat) (b : Bytes) : (s.raiseBerth q n c b).pkg = s.pkg :=
  SameBut.same (State.raiseBerth_same ..) .pkg (by decide)

/-! ## raiseGw -/

@[simp] theorem State.raiseGw_pending (s : State) (c : Nat) (p : Option Nat) (b : Bytes) : (s.raiseGw c p b).pending = s.pending :=
  SameBut.same (State.raiseDie_same ..) .pending (by decide)
@[simp] theorem State.raiseGw_deferred (s : State) (c : Nat) (p : Option Nat) (b : Bytes) : (s.raiseGw c p b).deferred = s.deferred :=
  SameBut.same (State.raiseDie_same ..) .deferred (by decide)
@[simp] theorem State.raiseGw_free (s : State) (c : Nat) (p : Option Nat) (b : Bytes) : (s.raiseGw c p b).free = s.free :=
  SameBut.same (State.raiseDie_same ..) .free (by decide)
@[simp] theorem State.raiseGw_supply (s : State) (c : Nat) (p : Option Nat) (b : Bytes) : (s.raiseGw c p b).supply = s.supply :=
  SameBut.same (State.raiseDie_same ..) .supply (by decide)
@[simp] theorem State.raiseGw_boot (s : State) (c : Nat) (p : Option Nat) (b : Bytes) : (s.raiseGw c p b).boot = s.boot :=
  SameBut.same (State.raiseDie_same ..) .boot (by decide)
@[simp] theorem State.raiseGw_sec (s : State) (c : Nat) (p : Option Nat) (b : Bytes) : (s.raiseGw c p b).sec = s.sec :=
  SameBut.same (State.raiseDie_same ..) .sec (by decide)
@[simp] theorem State.raiseGw_pt (s : State) (c : Nat) (p : Option Nat) (b : Bytes) : (s.raiseGw c p b).pt = s.pt :=
  SameBut.same (State.raiseDie_same ..) .pt (by decide)
@[simp] theorem State.raiseGw_ptAux (s : State) (c : Nat) (p : Option Nat) (b : Bytes) : (s.raiseGw c p b).ptAux = s.ptAux :=
  SameBut.same (State.raiseDie_same ..) .ptAux (by decide)
@[simp] theorem State.raiseGw_ptDies (s : State) (c : Nat) (p : Option Nat) (b : Bytes) : (s.raiseGw c p b).ptDies = s.ptDies :=
  SameBut.same (State.raiseDie_same ..) .ptDies (by decide)
@[simp] theorem State.raiseGw_hm (s : State) (c : Nat) (p : Option Nat) (b : Bytes) : (s.raiseGw c p b).hm = s.hm :=
  SameBut.same (State.raiseDie_same ..) .hm (by decide)
@[simp] theorem State.raiseGw_hmAux (s : State) (c : Nat) (p : Option Nat) (b : Bytes) : (s.raiseGw c p b).hmAux = s.hmAux :=
  SameBut.same (State.raiseDie_same ..) .hmAux (by decide)
@[simp] theorem State.raiseGw_i3c (s : State) (c : Nat) (p : Option Nat) (b : Bytes) : (s.raiseGw c p b).i3c = s.i3c :=
  SameBut.same (State.raiseDie_same ..) .i3c (by decide)
@[simp] theorem State.raiseGw_mf (s : State) (c : Nat) (p : Option Nat) (b : Bytes) : (s.raiseGw c p b).mf = s.mf :=
  SameBut.same (State.raiseDie_same ..) .mf (by decide)
@[simp] theorem State.raiseGw_mfAux (s : State) (c : Nat) (p : Option Nat) (b : Bytes) : (s.raiseGw c p b).mfAux = s.mfAux :=
  SameBut.same (State.raiseDie_same ..) .mfAux (by decide)
@[simp] theorem State.raiseGw_clusters (s : State) (c : Nat) (p : Option Nat) (b : Bytes) : (s.raiseGw c p b).clusters = s.clusters :=
  SameBut.same (State.raiseDie_same ..) .clusters (by decide)
@[simp] theorem State.raiseGw_mem (s : State) (c : Nat) (p : Option Nat) (b : Bytes) : (s.raiseGw c p b).mem = s.mem :=
  SameBut.same (State.raiseDie_same ..) .mem (by decide)
@[simp] theorem State.raiseGw_memDies (s : State) (c : Nat) (p : Option Nat) (b : Bytes) : (s.raiseGw c p b).memDies = s.memDies :=
  SameBut.same (State.raiseDie_same ..) .memDies (by decide)
@[simp] theorem State.raiseGw_memAux (s : State) (c : Nat) (p : Option Nat) (b : Bytes) : (s.raiseGw c p b).memAux = s.memAux :=
  SameBut.same (State.raiseDie_same ..) .memAux (by decide)
@[simp] theorem State.raiseGw_berths (s : State) (c : Nat) (p : Option Nat) (b : Bytes) : (s.raiseGw c p b).berths = s.berths :=
  SameBut.same (State.raiseDie_same ..) .berths (by decide)
@[simp] theorem State.raiseGw_links (s : State) (c : Nat) (p : Option Nat) (b : Bytes) : (s.raiseGw c p b).links = s.links :=
  SameBut.same (State.raiseDie_same ..) .links (by decide)
@[simp] theorem State.raiseGw_linkCtrs (s : State) (c : Nat) (p : Option Nat) (b : Bytes) : (s.raiseGw c p b).linkCtrs = s.linkCtrs :=
  SameBut.same (State.raiseDie_same ..) .linkCtrs (by decide)
@[simp] theorem State.raiseGw_kx (s : State) (c : Nat) (p : Option Nat) (b : Bytes) : (s.raiseGw c p b).kx = s.kx :=
  SameBut.same (State.raiseDie_same ..) .kx (by decide)
@[simp] theorem State.raiseGw_reds (s : State) (c : Nat) (p : Option Nat) (b : Bytes) : (s.raiseGw c p b).reds = s.reds :=
  SameBut.same (State.raiseDie_same ..) .reds (by decide)
@[simp] theorem State.raiseGw_gw (s : State) (c : Nat) (p : Option Nat) (b : Bytes) : (s.raiseGw c p b).gw = s.gw :=
  SameBut.same (State.raiseDie_same ..) .gw (by decide)
@[simp] theorem State.raiseGw_gwAux (s : State) (c : Nat) (p : Option Nat) (b : Bytes) : (s.raiseGw c p b).gwAux = s.gwAux :=
  SameBut.same (State.raiseDie_same ..) .gwAux (by decide)
@[simp] theorem State.raiseGw_parts (s : State) (c : Nat) (p : Option Nat) (b : Bytes) : (s.raiseGw c p b).parts = s.parts :=
  SameBut.same (State.raiseDie_same ..) .parts (by decide)
@[simp] theorem State.raiseGw_runs (s : State) (c : Nat) (p : Option Nat) (b : Bytes) : (s.raiseGw c p b).runs = s.runs :=
  SameBut.same (State.raiseDie_same ..) .runs (by decide)
@[simp] theorem State.raiseGw_jr (s : State) (c : Nat) (p : Option Nat) (b : Bytes) : (s.raiseGw c p b).jr = s.jr :=
  SameBut.same (State.raiseDie_same ..) .jr (by decide)
@[simp] theorem State.raiseGw_pkg (s : State) (c : Nat) (p : Option Nat) (b : Bytes) : (s.raiseGw c p b).pkg = s.pkg :=
  SameBut.same (State.raiseDie_same ..) .pkg (by decide)

/-! ## raiseStep -/

@[simp] theorem State.raiseStep_pending (s : State) (c p : Nat) (b : Bytes) : (s.raiseStep c p b).pending = s.pending :=
  SameBut.same (State.raiseDie_same ..) .pending (by decide)
@[simp] theorem State.raiseStep_deferred (s : State) (c p : Nat) (b : Bytes) : (s.raiseStep c p b).deferred = s.deferred :=
  SameBut.same (State.raiseDie_same ..) .deferred (by decide)
@[simp] theorem State.raiseStep_free (s : State) (c p : Nat) (b : Bytes) : (s.raiseStep c p b).free = s.free :=
  SameBut.same (State.raiseDie_same ..) .free (by decide)
@[simp] theorem State.raiseStep_supply (s : State) (c p : Nat) (b : Bytes) : (s.raiseStep c p b).supply = s.supply :=
  SameBut.same (State.raiseDie_same ..) .supply (by decide)
@[simp] theorem State.raiseStep_boot (s : State) (c p : Nat) (b : Bytes) : (s.raiseStep c p b).boot = s.boot :=
  SameBut.same (State.raiseDie_same ..) .boot (by decide)
@[simp] theorem State.raiseStep_sec (s : State) (c p : Nat) (b : Bytes) : (s.raiseStep c p b).sec = s.sec :=
  SameBut.same (State.raiseDie_same ..) .sec (by decide)
@[simp] theorem State.raiseStep_pt (s : State) (c p : Nat) (b : Bytes) : (s.raiseStep c p b).pt = s.pt :=
  SameBut.same (State.raiseDie_same ..) .pt (by decide)
@[simp] theorem State.raiseStep_ptAux (s : State) (c p : Nat) (b : Bytes) : (s.raiseStep c p b).ptAux = s.ptAux :=
  SameBut.same (State.raiseDie_same ..) .ptAux (by decide)
@[simp] theorem State.raiseStep_ptDies (s : State) (c p : Nat) (b : Bytes) : (s.raiseStep c p b).ptDies = s.ptDies :=
  SameBut.same (State.raiseDie_same ..) .ptDies (by decide)
@[simp] theorem State.raiseStep_hm (s : State) (c p : Nat) (b : Bytes) : (s.raiseStep c p b).hm = s.hm :=
  SameBut.same (State.raiseDie_same ..) .hm (by decide)
@[simp] theorem State.raiseStep_hmAux (s : State) (c p : Nat) (b : Bytes) : (s.raiseStep c p b).hmAux = s.hmAux :=
  SameBut.same (State.raiseDie_same ..) .hmAux (by decide)
@[simp] theorem State.raiseStep_i3c (s : State) (c p : Nat) (b : Bytes) : (s.raiseStep c p b).i3c = s.i3c :=
  SameBut.same (State.raiseDie_same ..) .i3c (by decide)
@[simp] theorem State.raiseStep_mf (s : State) (c p : Nat) (b : Bytes) : (s.raiseStep c p b).mf = s.mf :=
  SameBut.same (State.raiseDie_same ..) .mf (by decide)
@[simp] theorem State.raiseStep_mfAux (s : State) (c p : Nat) (b : Bytes) : (s.raiseStep c p b).mfAux = s.mfAux :=
  SameBut.same (State.raiseDie_same ..) .mfAux (by decide)
@[simp] theorem State.raiseStep_clusters (s : State) (c p : Nat) (b : Bytes) : (s.raiseStep c p b).clusters = s.clusters :=
  SameBut.same (State.raiseDie_same ..) .clusters (by decide)
@[simp] theorem State.raiseStep_mem (s : State) (c p : Nat) (b : Bytes) : (s.raiseStep c p b).mem = s.mem :=
  SameBut.same (State.raiseDie_same ..) .mem (by decide)
@[simp] theorem State.raiseStep_memDies (s : State) (c p : Nat) (b : Bytes) : (s.raiseStep c p b).memDies = s.memDies :=
  SameBut.same (State.raiseDie_same ..) .memDies (by decide)
@[simp] theorem State.raiseStep_memAux (s : State) (c p : Nat) (b : Bytes) : (s.raiseStep c p b).memAux = s.memAux :=
  SameBut.same (State.raiseDie_same ..) .memAux (by decide)
@[simp] theorem State.raiseStep_berths (s : State) (c p : Nat) (b : Bytes) : (s.raiseStep c p b).berths = s.berths :=
  SameBut.same (State.raiseDie_same ..) .berths (by decide)
@[simp] theorem State.raiseStep_links (s : State) (c p : Nat) (b : Bytes) : (s.raiseStep c p b).links = s.links :=
  SameBut.same (State.raiseDie_same ..) .links (by decide)
@[simp] theorem State.raiseStep_linkCtrs (s : State) (c p : Nat) (b : Bytes) : (s.raiseStep c p b).linkCtrs = s.linkCtrs :=
  SameBut.same (State.raiseDie_same ..) .linkCtrs (by decide)
@[simp] theorem State.raiseStep_kx (s : State) (c p : Nat) (b : Bytes) : (s.raiseStep c p b).kx = s.kx :=
  SameBut.same (State.raiseDie_same ..) .kx (by decide)
@[simp] theorem State.raiseStep_reds (s : State) (c p : Nat) (b : Bytes) : (s.raiseStep c p b).reds = s.reds :=
  SameBut.same (State.raiseDie_same ..) .reds (by decide)
@[simp] theorem State.raiseStep_gw (s : State) (c p : Nat) (b : Bytes) : (s.raiseStep c p b).gw = s.gw :=
  SameBut.same (State.raiseDie_same ..) .gw (by decide)
@[simp] theorem State.raiseStep_gwAux (s : State) (c p : Nat) (b : Bytes) : (s.raiseStep c p b).gwAux = s.gwAux :=
  SameBut.same (State.raiseDie_same ..) .gwAux (by decide)
@[simp] theorem State.raiseStep_parts (s : State) (c p : Nat) (b : Bytes) : (s.raiseStep c p b).parts = s.parts :=
  SameBut.same (State.raiseDie_same ..) .parts (by decide)
@[simp] theorem State.raiseStep_runs (s : State) (c p : Nat) (b : Bytes) : (s.raiseStep c p b).runs = s.runs :=
  SameBut.same (State.raiseDie_same ..) .runs (by decide)
@[simp] theorem State.raiseStep_jr (s : State) (c p : Nat) (b : Bytes) : (s.raiseStep c p b).jr = s.jr :=
  SameBut.same (State.raiseDie_same ..) .jr (by decide)
@[simp] theorem State.raiseStep_pkg (s : State) (c p : Nat) (b : Bytes) : (s.raiseStep c p b).pkg = s.pkg :=
  SameBut.same (State.raiseDie_same ..) .pkg (by decide)

/-! ## raiseStash -/

@[simp] theorem State.raiseStash_pending (s : State) (c p : Nat) (b : Bytes) : (s.raiseStash c p b).pending = s.pending :=
  SameBut.same (State.raiseDie_same ..) .pending (by decide)
@[simp] theorem State.raiseStash_deferred (s : State) (c p : Nat) (b : Bytes) : (s.raiseStash c p b).deferred = s.deferred :=
  SameBut.same (State.raiseDie_same ..) .deferred (by decide)
@[simp] theorem State.raiseStash_free (s : State) (c p : Nat) (b : Bytes) : (s.raiseStash c p b).free = s.free :=
  SameBut.same (State.raiseDie_same ..) .free (by decide)
@[simp] theorem State.raiseStash_supply (s : State) (c p : Nat) (b : Bytes) : (s.raiseStash c p b).supply = s.supply :=
  SameBut.same (State.raiseDie_same ..) .supply (by decide)
@[simp] theorem State.raiseStash_boot (s : State) (c p : Nat) (b : Bytes) : (s.raiseStash c p b).boot = s.boot :=
  SameBut.same (State.raiseDie_same ..) .boot (by decide)
@[simp] theorem State.raiseStash_sec (s : State) (c p : Nat) (b : Bytes) : (s.raiseStash c p b).sec = s.sec :=
  SameBut.same (State.raiseDie_same ..) .sec (by decide)
@[simp] theorem State.raiseStash_pt (s : State) (c p : Nat) (b : Bytes) : (s.raiseStash c p b).pt = s.pt :=
  SameBut.same (State.raiseDie_same ..) .pt (by decide)
@[simp] theorem State.raiseStash_ptAux (s : State) (c p : Nat) (b : Bytes) : (s.raiseStash c p b).ptAux = s.ptAux :=
  SameBut.same (State.raiseDie_same ..) .ptAux (by decide)
@[simp] theorem State.raiseStash_ptDies (s : State) (c p : Nat) (b : Bytes) : (s.raiseStash c p b).ptDies = s.ptDies :=
  SameBut.same (State.raiseDie_same ..) .ptDies (by decide)
@[simp] theorem State.raiseStash_hm (s : State) (c p : Nat) (b : Bytes) : (s.raiseStash c p b).hm = s.hm :=
  SameBut.same (State.raiseDie_same ..) .hm (by decide)
@[simp] theorem State.raiseStash_hmAux (s : State) (c p : Nat) (b : Bytes) : (s.raiseStash c p b).hmAux = s.hmAux :=
  SameBut.same (State.raiseDie_same ..) .hmAux (by decide)
@[simp] theorem State.raiseStash_i3c (s : State) (c p : Nat) (b : Bytes) : (s.raiseStash c p b).i3c = s.i3c :=
  SameBut.same (State.raiseDie_same ..) .i3c (by decide)
@[simp] theorem State.raiseStash_mf (s : State) (c p : Nat) (b : Bytes) : (s.raiseStash c p b).mf = s.mf :=
  SameBut.same (State.raiseDie_same ..) .mf (by decide)
@[simp] theorem State.raiseStash_mfAux (s : State) (c p : Nat) (b : Bytes) : (s.raiseStash c p b).mfAux = s.mfAux :=
  SameBut.same (State.raiseDie_same ..) .mfAux (by decide)
@[simp] theorem State.raiseStash_clusters (s : State) (c p : Nat) (b : Bytes) : (s.raiseStash c p b).clusters = s.clusters :=
  SameBut.same (State.raiseDie_same ..) .clusters (by decide)
@[simp] theorem State.raiseStash_mem (s : State) (c p : Nat) (b : Bytes) : (s.raiseStash c p b).mem = s.mem :=
  SameBut.same (State.raiseDie_same ..) .mem (by decide)
@[simp] theorem State.raiseStash_memDies (s : State) (c p : Nat) (b : Bytes) : (s.raiseStash c p b).memDies = s.memDies :=
  SameBut.same (State.raiseDie_same ..) .memDies (by decide)
@[simp] theorem State.raiseStash_memAux (s : State) (c p : Nat) (b : Bytes) : (s.raiseStash c p b).memAux = s.memAux :=
  SameBut.same (State.raiseDie_same ..) .memAux (by decide)
@[simp] theorem State.raiseStash_berths (s : State) (c p : Nat) (b : Bytes) : (s.raiseStash c p b).berths = s.berths :=
  SameBut.same (State.raiseDie_same ..) .berths (by decide)
@[simp] theorem State.raiseStash_links (s : State) (c p : Nat) (b : Bytes) : (s.raiseStash c p b).links = s.links :=
  SameBut.same (State.raiseDie_same ..) .links (by decide)
@[simp] theorem State.raiseStash_linkCtrs (s : State) (c p : Nat) (b : Bytes) : (s.raiseStash c p b).linkCtrs = s.linkCtrs :=
  SameBut.same (State.raiseDie_same ..) .linkCtrs (by decide)
@[simp] theorem State.raiseStash_kx (s : State) (c p : Nat) (b : Bytes) : (s.raiseStash c p b).kx = s.kx :=
  SameBut.same (State.raiseDie_same ..) .kx (by decide)
@[simp] theorem State.raiseStash_reds (s : State) (c p : Nat) (b : Bytes) : (s.raiseStash c p b).reds = s.reds :=
  SameBut.same (State.raiseDie_same ..) .reds (by decide)
@[simp] theorem State.raiseStash_gw (s : State) (c p : Nat) (b : Bytes) : (s.raiseStash c p b).gw = s.gw :=
  SameBut.same (State.raiseDie_same ..) .gw (by decide)
@[simp] theorem State.raiseStash_gwAux (s : State) (c p : Nat) (b : Bytes) : (s.raiseStash c p b).gwAux = s.gwAux :=
  SameBut.same (State.raiseDie_same ..) .gwAux (by decide)
@[simp] theorem State.raiseStash_parts (s : State) (c p : Nat) (b : Bytes) : (s.raiseStash c p b).parts = s.parts :=
  SameBut.same (State.raiseDie_same ..) .parts (by decide)
@[simp] theorem State.raiseStash_runs (s : State) (c p : Nat) (b : Bytes) : (s.raiseStash c p b).runs = s.runs :=
  SameBut.same (State.raiseDie_same ..) .runs (by decide)
@[simp] theorem State.raiseStash_jr (s : State) (c p : Nat) (b : Bytes) : (s.raiseStash c p b).jr = s.jr :=
  SameBut.same (State.raiseDie_same ..) .jr (by decide)
@[simp] theorem State.raiseStash_pkg (s : State) (c p : Nat) (b : Bytes) : (s.raiseStash c p b).pkg = s.pkg :=
  SameBut.same (State.raiseDie_same ..) .pkg (by decide)

/-! ## raiseKx -/

@[simp] theorem State.raiseKx_pending (s : State) (c k : Nat) (b : Bytes) : (s.raiseKx c k b).pending = s.pending :=
  SameBut.same (State.raiseDie_same ..) .pending (by decide)
@[simp] theorem State.raiseKx_deferred (s : State) (c k : Nat) (b : Bytes) : (s.raiseKx c k b).deferred = s.deferred :=
  SameBut.same (State.raiseDie_same ..) .deferred (by decide)
@[simp] theorem State.raiseKx_free (s : State) (c k : Nat) (b : Bytes) : (s.raiseKx c k b).free = s.free :=
  SameBut.same (State.raiseDie_same ..) .free (by decide)
@[simp] theorem State.raiseKx_supply (s : State) (c k : Nat) (b : Bytes) : (s.raiseKx c k b).supply = s.supply :=
  SameBut.same (State.raiseDie_same ..) .supply (by decide)
@[simp] theorem State.raiseKx_boot (s : State) (c k : Nat) (b : Bytes) : (s.raiseKx c k b).boot = s.boot :=
  SameBut.same (State.raiseDie_same ..) .boot (by decide)
@[simp] theorem State.raiseKx_sec (s : State) (c k : Nat) (b : Bytes) : (s.raiseKx c k b).sec = s.sec :=
  SameBut.same (State.raiseDie_same ..) .sec (by decide)
@[simp] theorem State.raiseKx_pt (s : State) (c k : Nat) (b : Bytes) : (s.raiseKx c k b).pt = s.pt :=
  SameBut.same (State.raiseDie_same ..) .pt (by decide)
@[simp] theorem State.raiseKx_ptAux (s : State) (c k : Nat) (b : Bytes) : (s.raiseKx c k b).ptAux = s.ptAux :=
  SameBut.same (State.raiseDie_same ..) .ptAux (by decide)
@[simp] theorem State.raiseKx_ptDies (s : State) (c k : Nat) (b : Bytes) : (s.raiseKx c k b).ptDies = s.ptDies :=
  SameBut.same (State.raiseDie_same ..) .ptDies (by decide)
@[simp] theorem State.raiseKx_hm (s : State) (c k : Nat) (b : Bytes) : (s.raiseKx c k b).hm = s.hm :=
  SameBut.same (State.raiseDie_same ..) .hm (by decide)
@[simp] theorem State.raiseKx_hmAux (s : State) (c k : Nat) (b : Bytes) : (s.raiseKx c k b).hmAux = s.hmAux :=
  SameBut.same (State.raiseDie_same ..) .hmAux (by decide)
@[simp] theorem State.raiseKx_i3c (s : State) (c k : Nat) (b : Bytes) : (s.raiseKx c k b).i3c = s.i3c :=
  SameBut.same (State.raiseDie_same ..) .i3c (by decide)
@[simp] theorem State.raiseKx_mf (s : State) (c k : Nat) (b : Bytes) : (s.raiseKx c k b).mf = s.mf :=
  SameBut.same (State.raiseDie_same ..) .mf (by decide)
@[simp] theorem State.raiseKx_mfAux (s : State) (c k : Nat) (b : Bytes) : (s.raiseKx c k b).mfAux = s.mfAux :=
  SameBut.same (State.raiseDie_same ..) .mfAux (by decide)
@[simp] theorem State.raiseKx_clusters (s : State) (c k : Nat) (b : Bytes) : (s.raiseKx c k b).clusters = s.clusters :=
  SameBut.same (State.raiseDie_same ..) .clusters (by decide)
@[simp] theorem State.raiseKx_mem (s : State) (c k : Nat) (b : Bytes) : (s.raiseKx c k b).mem = s.mem :=
  SameBut.same (State.raiseDie_same ..) .mem (by decide)
@[simp] theorem State.raiseKx_memDies (s : State) (c k : Nat) (b : Bytes) : (s.raiseKx c k b).memDies = s.memDies :=
  SameBut.same (State.raiseDie_same ..) .memDies (by decide)
@[simp] theorem State.raiseKx_memAux (s : State) (c k : Nat) (b : Bytes) : (s.raiseKx c k b).memAux = s.memAux :=
  SameBut.same (State.raiseDie_same ..) .memAux (by decide)
@[simp] theorem State.raiseKx_berths (s : State) (c k : Nat) (b : Bytes) : (s.raiseKx c k b).berths = s.berths :=
  SameBut.same (State.raiseDie_same ..) .berths (by decide)
@[simp] theorem State.raiseKx_links (s : State) (c k : Nat) (b : Bytes) : (s.raiseKx c k b).links = s.links :=
  SameBut.same (State.raiseDie_same ..) .links (by decide)
@[simp] theorem State.raiseKx_linkCtrs (s : State) (c k : Nat) (b : Bytes) : (s.raiseKx c k b).linkCtrs = s.linkCtrs :=
  SameBut.same (State.raiseDie_same ..) .linkCtrs (by decide)
@[simp] theorem State.raiseKx_kx (s : State) (c k : Nat) (b : Bytes) : (s.raiseKx c k b).kx = s.kx :=
  SameBut.same (State.raiseDie_same ..) .kx (by decide)
@[simp] theorem State.raiseKx_reds (s : State) (c k : Nat) (b : Bytes) : (s.raiseKx c k b).reds = s.reds :=
  SameBut.same (State.raiseDie_same ..) .reds (by decide)
@[simp] theorem State.raiseKx_gw (s : State) (c k : Nat) (b : Bytes) : (s.raiseKx c k b).gw = s.gw :=
  SameBut.same (State.raiseDie_same ..) .gw (by decide)
@[simp] theorem State.raiseKx_gwAux (s : State) (c k : Nat) (b : Bytes) : (s.raiseKx c k b).gwAux = s.gwAux :=
  SameBut.same (State.raiseDie_same ..) .gwAux (by decide)
@[simp] theorem State.raiseKx_parts (s : State) (c k : Nat) (b : Bytes) : (s.raiseKx c k b).parts = s.parts :=
  SameBut.same (State.raiseDie_same ..) .parts (by decide)
@[simp] theorem State.raiseKx_runs (s : State) (c k : Nat) (b : Bytes) : (s.raiseKx c k b).runs = s.runs :=
  SameBut.same (State.raiseDie_same ..) .runs (by decide)
@[simp] theorem State.raiseKx_jr (s : State) (c k : Nat) (b : Bytes) : (s.raiseKx c k b).jr = s.jr :=
  SameBut.same (State.raiseDie_same ..) .jr (by decide)
@[simp] theorem State.raiseKx_pkg (s : State) (c k : Nat) (b : Bytes) : (s.raiseKx c k b).pkg = s.pkg :=
  SameBut.same (State.raiseDie_same ..) .pkg (by decide)

/-! ## raiseFabric -/

@[simp] theorem State.raiseFabric_pending (s : State) (c : Nat) (p : Option Nat) (b : Bytes) : (s.raiseFabric c p b).pending = s.pending :=
  SameBut.same (State.raiseDie_same ..) .pending (by decide)
@[simp] theorem State.raiseFabric_deferred (s : State) (c : Nat) (p : Option Nat) (b : Bytes) : (s.raiseFabric c p b).deferred = s.deferred :=
  SameBut.same (State.raiseDie_same ..) .deferred (by decide)
@[simp] theorem State.raiseFabric_free (s : State) (c : Nat) (p : Option Nat) (b : Bytes) : (s.raiseFabric c p b).free = s.free :=
  SameBut.same (State.raiseDie_same ..) .free (by decide)
@[simp] theorem State.raiseFabric_supply (s : State) (c : Nat) (p : Option Nat) (b : Bytes) : (s.raiseFabric c p b).supply = s.supply :=
  SameBut.same (State.raiseDie_same ..) .supply (by decide)
@[simp] theorem State.raiseFabric_boot (s : State) (c : Nat) (p : Option Nat) (b : Bytes) : (s.raiseFabric c p b).boot = s.boot :=
  SameBut.same (State.raiseDie_same ..) .boot (by decide)
@[simp] theorem State.raiseFabric_sec (s : State) (c : Nat) (p : Option Nat) (b : Bytes) : (s.raiseFabric c p b).sec = s.sec :=
  SameBut.same (State.raiseDie_same ..) .sec (by decide)
@[simp] theorem State.raiseFabric_pt (s : State) (c : Nat) (p : Option Nat) (b : Bytes) : (s.raiseFabric c p b).pt = s.pt :=
  SameBut.same (State.raiseDie_same ..) .pt (by decide)
@[simp] theorem State.raiseFabric_ptAux (s : State) (c : Nat) (p : Option Nat) (b : Bytes) : (s.raiseFabric c p b).ptAux = s.ptAux :=
  SameBut.same (State.raiseDie_same ..) .ptAux (by decide)
@[simp] theorem State.raiseFabric_ptDies (s : State) (c : Nat) (p : Option Nat) (b : Bytes) : (s.raiseFabric c p b).ptDies = s.ptDies :=
  SameBut.same (State.raiseDie_same ..) .ptDies (by decide)
@[simp] theorem State.raiseFabric_hm (s : State) (c : Nat) (p : Option Nat) (b : Bytes) : (s.raiseFabric c p b).hm = s.hm :=
  SameBut.same (State.raiseDie_same ..) .hm (by decide)
@[simp] theorem State.raiseFabric_hmAux (s : State) (c : Nat) (p : Option Nat) (b : Bytes) : (s.raiseFabric c p b).hmAux = s.hmAux :=
  SameBut.same (State.raiseDie_same ..) .hmAux (by decide)
@[simp] theorem State.raiseFabric_i3c (s : State) (c : Nat) (p : Option Nat) (b : Bytes) : (s.raiseFabric c p b).i3c = s.i3c :=
  SameBut.same (State.raiseDie_same ..) .i3c (by decide)
@[simp] theorem State.raiseFabric_mf (s : State) (c : Nat) (p : Option Nat) (b : Bytes) : (s.raiseFabric c p b).mf = s.mf :=
  SameBut.same (State.raiseDie_same ..) .mf (by decide)
@[simp] theorem State.raiseFabric_mfAux (s : State) (c : Nat) (p : Option Nat) (b : Bytes) : (s.raiseFabric c p b).mfAux = s.mfAux :=
  SameBut.same (State.raiseDie_same ..) .mfAux (by decide)
@[simp] theorem State.raiseFabric_clusters (s : State) (c : Nat) (p : Option Nat) (b : Bytes) : (s.raiseFabric c p b).clusters = s.clusters :=
  SameBut.same (State.raiseDie_same ..) .clusters (by decide)
@[simp] theorem State.raiseFabric_mem (s : State) (c : Nat) (p : Option Nat) (b : Bytes) : (s.raiseFabric c p b).mem = s.mem :=
  SameBut.same (State.raiseDie_same ..) .mem (by decide)
@[simp] theorem State.raiseFabric_memDies (s : State) (c : Nat) (p : Option Nat) (b : Bytes) : (s.raiseFabric c p b).memDies = s.memDies :=
  SameBut.same (State.raiseDie_same ..) .memDies (by decide)
@[simp] theorem State.raiseFabric_memAux (s : State) (c : Nat) (p : Option Nat) (b : Bytes) : (s.raiseFabric c p b).memAux = s.memAux :=
  SameBut.same (State.raiseDie_same ..) .memAux (by decide)
@[simp] theorem State.raiseFabric_berths (s : State) (c : Nat) (p : Option Nat) (b : Bytes) : (s.raiseFabric c p b).berths = s.berths :=
  SameBut.same (State.raiseDie_same ..) .berths (by decide)
@[simp] theorem State.raiseFabric_links (s : State) (c : Nat) (p : Option Nat) (b : Bytes) : (s.raiseFabric c p b).links = s.links :=
  SameBut.same (State.raiseDie_same ..) .links (by decide)
@[simp] theorem State.raiseFabric_linkCtrs (s : State) (c : Nat) (p : Option Nat) (b : Bytes) : (s.raiseFabric c p b).linkCtrs = s.linkCtrs :=
  SameBut.same (State.raiseDie_same ..) .linkCtrs (by decide)
@[simp] theorem State.raiseFabric_kx (s : State) (c : Nat) (p : Option Nat) (b : Bytes) : (s.raiseFabric c p b).kx = s.kx :=
  SameBut.same (State.raiseDie_same ..) .kx (by decide)
@[simp] theorem State.raiseFabric_reds (s : State) (c : Nat) (p : Option Nat) (b : Bytes) : (s.raiseFabric c p b).reds = s.reds :=
  SameBut.same (State.raiseDie_same ..) .reds (by decide)
@[simp] theorem State.raiseFabric_gw (s : State) (c : Nat) (p : Option Nat) (b : Bytes) : (s.raiseFabric c p b).gw = s.gw :=
  SameBut.same (State.raiseDie_same ..) .gw (by decide)
@[simp] theorem State.raiseFabric_gwAux (s : State) (c : Nat) (p : Option Nat) (b : Bytes) : (s.raiseFabric c p b).gwAux = s.gwAux :=
  SameBut.same (State.raiseDie_same ..) .gwAux (by decide)
@[simp] theorem State.raiseFabric_parts (s : State) (c : Nat) (p : Option Nat) (b : Bytes) : (s.raiseFabric c p b).parts = s.parts :=
  SameBut.same (State.raiseDie_same ..) .parts (by decide)
@[simp] theorem State.raiseFabric_runs (s : State) (c : Nat) (p : Option Nat) (b : Bytes) : (s.raiseFabric c p b).runs = s.runs :=
  SameBut.same (State.raiseDie_same ..) .runs (by decide)
@[simp] theorem State.raiseFabric_jr (s : State) (c : Nat) (p : Option Nat) (b : Bytes) : (s.raiseFabric c p b).jr = s.jr :=
  SameBut.same (State.raiseDie_same ..) .jr (by decide)
@[simp] theorem State.raiseFabric_pkg (s : State) (c : Nat) (p : Option Nat) (b : Bytes) : (s.raiseFabric c p b).pkg = s.pkg :=
  SameBut.same (State.raiseDie_same ..) .pkg (by decide)

/-! ## raiseCl -/

@[simp] theorem State.raiseCl_pending (s : State) (c d p : Nat) (b : Bytes) : (s.raiseCl c d p b).pending = s.pending :=
  SameBut.same (State.raiseDie_same ..) .pending (by decide)
@[simp] theorem State.raiseCl_deferred (s : State) (c d p : Nat) (b : Bytes) : (s.raiseCl c d p b).deferred = s.deferred :=
  SameBut.same (State.raiseDie_same ..) .deferred (by decide)
@[simp] theorem State.raiseCl_free (s : State) (c d p : Nat) (b : Bytes) : (s.raiseCl c d p b).free = s.free :=
  SameBut.same (State.raiseDie_same ..) .free (by decide)
@[simp] theorem State.raiseCl_supply (s : State) (c d p : Nat) (b : Bytes) : (s.raiseCl c d p b).supply = s.supply :=
  SameBut.same (State.raiseDie_same ..) .supply (by decide)
@[simp] theorem State.raiseCl_boot (s : State) (c d p : Nat) (b : Bytes) : (s.raiseCl c d p b).boot = s.boot :=
  SameBut.same (State.raiseDie_same ..) .boot (by decide)
@[simp] theorem State.raiseCl_sec (s : State) (c d p : Nat) (b : Bytes) : (s.raiseCl c d p b).sec = s.sec :=
  SameBut.same (State.raiseDie_same ..) .sec (by decide)
@[simp] theorem State.raiseCl_pt (s : State) (c d p : Nat) (b : Bytes) : (s.raiseCl c d p b).pt = s.pt :=
  SameBut.same (State.raiseDie_same ..) .pt (by decide)
@[simp] theorem State.raiseCl_ptAux (s : State) (c d p : Nat) (b : Bytes) : (s.raiseCl c d p b).ptAux = s.ptAux :=
  SameBut.same (State.raiseDie_same ..) .ptAux (by decide)
@[simp] theorem State.raiseCl_ptDies (s : State) (c d p : Nat) (b : Bytes) : (s.raiseCl c d p b).ptDies = s.ptDies :=
  SameBut.same (State.raiseDie_same ..) .ptDies (by decide)
@[simp] theorem State.raiseCl_hm (s : State) (c d p : Nat) (b : Bytes) : (s.raiseCl c d p b).hm = s.hm :=
  SameBut.same (State.raiseDie_same ..) .hm (by decide)
@[simp] theorem State.raiseCl_hmAux (s : State) (c d p : Nat) (b : Bytes) : (s.raiseCl c d p b).hmAux = s.hmAux :=
  SameBut.same (State.raiseDie_same ..) .hmAux (by decide)
@[simp] theorem State.raiseCl_i3c (s : State) (c d p : Nat) (b : Bytes) : (s.raiseCl c d p b).i3c = s.i3c :=
  SameBut.same (State.raiseDie_same ..) .i3c (by decide)
@[simp] theorem State.raiseCl_mf (s : State) (c d p : Nat) (b : Bytes) : (s.raiseCl c d p b).mf = s.mf :=
  SameBut.same (State.raiseDie_same ..) .mf (by decide)
@[simp] theorem State.raiseCl_mfAux (s : State) (c d p : Nat) (b : Bytes) : (s.raiseCl c d p b).mfAux = s.mfAux :=
  SameBut.same (State.raiseDie_same ..) .mfAux (by decide)
@[simp] theorem State.raiseCl_clusters (s : State) (c d p : Nat) (b : Bytes) : (s.raiseCl c d p b).clusters = s.clusters :=
  SameBut.same (State.raiseDie_same ..) .clusters (by decide)
@[simp] theorem State.raiseCl_mem (s : State) (c d p : Nat) (b : Bytes) : (s.raiseCl c d p b).mem = s.mem :=
  SameBut.same (State.raiseDie_same ..) .mem (by decide)
@[simp] theorem State.raiseCl_memDies (s : State) (c d p : Nat) (b : Bytes) : (s.raiseCl c d p b).memDies = s.memDies :=
  SameBut.same (State.raiseDie_same ..) .memDies (by decide)
@[simp] theorem State.raiseCl_memAux (s : State) (c d p : Nat) (b : Bytes) : (s.raiseCl c d p b).memAux = s.memAux :=
  SameBut.same (State.raiseDie_same ..) .memAux (by decide)
@[simp] theorem State.raiseCl_berths (s : State) (c d p : Nat) (b : Bytes) : (s.raiseCl c d p b).berths = s.berths :=
  SameBut.same (State.raiseDie_same ..) .berths (by decide)
@[simp] theorem State.raiseCl_links (s : State) (c d p : Nat) (b : Bytes) : (s.raiseCl c d p b).links = s.links :=
  SameBut.same (State.raiseDie_same ..) .links (by decide)
@[simp] theorem State.raiseCl_linkCtrs (s : State) (c d p : Nat) (b : Bytes) : (s.raiseCl c d p b).linkCtrs = s.linkCtrs :=
  SameBut.same (State.raiseDie_same ..) .linkCtrs (by decide)
@[simp] theorem State.raiseCl_kx (s : State) (c d p : Nat) (b : Bytes) : (s.raiseCl c d p b).kx = s.kx :=
  SameBut.same (State.raiseDie_same ..) .kx (by decide)
@[simp] theorem State.raiseCl_reds (s : State) (c d p : Nat) (b : Bytes) : (s.raiseCl c d p b).reds = s.reds :=
  SameBut.same (State.raiseDie_same ..) .reds (by decide)
@[simp] theorem State.raiseCl_gw (s : State) (c d p : Nat) (b : Bytes) : (s.raiseCl c d p b).gw = s.gw :=
  SameBut.same (State.raiseDie_same ..) .gw (by decide)
@[simp] theorem State.raiseCl_gwAux (s : State) (c d p : Nat) (b : Bytes) : (s.raiseCl c d p b).gwAux = s.gwAux :=
  SameBut.same (State.raiseDie_same ..) .gwAux (by decide)
@[simp] theorem State.raiseCl_parts (s : State) (c d p : Nat) (b : Bytes) : (s.raiseCl c d p b).parts = s.parts :=
  SameBut.same (State.raiseDie_same ..) .parts (by decide)
@[simp] theorem State.raiseCl_runs (s : State) (c d p : Nat) (b : Bytes) : (s.raiseCl c d p b).runs = s.runs :=
  SameBut.same (State.raiseDie_same ..) .runs (by decide)
@[simp] theorem State.raiseCl_jr (s : State) (c d p : Nat) (b : Bytes) : (s.raiseCl c d p b).jr = s.jr :=
  SameBut.same (State.raiseDie_same ..) .jr (by decide)
@[simp] theorem State.raiseCl_pkg (s : State) (c d p : Nat) (b : Bytes) : (s.raiseCl c d p b).pkg = s.pkg :=
  SameBut.same (State.raiseDie_same ..) .pkg (by decide)

/-! ## raise -/

@[simp] theorem State.raise_pending (s : State) (c d : Nat) (p : Option Nat) (b : Bytes) : (s.raise c d p b).pending = s.pending :=
  SameBut.same (State.raise_same ..) .pending (by decide)
@[simp] theorem State.raise_deferred (s : State) (c d : Nat) (p : Option Nat) (b : Bytes) : (s.raise c d p b).deferred = s.deferred :=
  SameBut.same (State.raise_same ..) .deferred (by decide)
@[simp] theorem State.raise_free (s : State) (c d : Nat) (p : Option Nat) (b : Bytes) : (s.raise c d p b).free = s.free :=
  SameBut.same (State.raise_same ..) .free (by decide)
@[simp] theorem State.raise_supply (s : State) (c d : Nat) (p : Option Nat) (b : Bytes) : (s.raise c d p b).supply = s.supply :=
  SameBut.same (State.raise_same ..) .supply (by decide)
@[simp] theorem State.raise_boot (s : State) (c d : Nat) (p : Option Nat) (b : Bytes) : (s.raise c d p b).boot = s.boot :=
  SameBut.same (State.raise_same ..) .boot (by decide)
@[simp] theorem State.raise_sec (s : State) (c d : Nat) (p : Option Nat) (b : Bytes) : (s.raise c d p b).sec = s.sec :=
  SameBut.same (State.raise_same ..) .sec (by decide)
@[simp] theorem State.raise_pt (s : State) (c d : Nat) (p : Option Nat) (b : Bytes) : (s.raise c d p b).pt = s.pt :=
  SameBut.same (State.raise_same ..) .pt (by decide)
@[simp] theorem State.raise_ptAux (s : State) (c d : Nat) (p : Option Nat) (b : Bytes) : (s.raise c d p b).ptAux = s.ptAux :=
  SameBut.same (State.raise_same ..) .ptAux (by decide)
@[simp] theorem State.raise_ptDies (s : State) (c d : Nat) (p : Option Nat) (b : Bytes) : (s.raise c d p b).ptDies = s.ptDies :=
  SameBut.same (State.raise_same ..) .ptDies (by decide)
@[simp] theorem State.raise_hm (s : State) (c d : Nat) (p : Option Nat) (b : Bytes) : (s.raise c d p b).hm = s.hm :=
  SameBut.same (State.raise_same ..) .hm (by decide)
@[simp] theorem State.raise_hmAux (s : State) (c d : Nat) (p : Option Nat) (b : Bytes) : (s.raise c d p b).hmAux = s.hmAux :=
  SameBut.same (State.raise_same ..) .hmAux (by decide)
@[simp] theorem State.raise_mf (s : State) (c d : Nat) (p : Option Nat) (b : Bytes) : (s.raise c d p b).mf = s.mf :=
  SameBut.same (State.raise_same ..) .mf (by decide)
@[simp] theorem State.raise_mfAux (s : State) (c d : Nat) (p : Option Nat) (b : Bytes) : (s.raise c d p b).mfAux = s.mfAux :=
  SameBut.same (State.raise_same ..) .mfAux (by decide)
@[simp] theorem State.raise_clusters (s : State) (c d : Nat) (p : Option Nat) (b : Bytes) : (s.raise c d p b).clusters = s.clusters :=
  SameBut.same (State.raise_same ..) .clusters (by decide)
@[simp] theorem State.raise_memDies (s : State) (c d : Nat) (p : Option Nat) (b : Bytes) : (s.raise c d p b).memDies = s.memDies :=
  SameBut.same (State.raise_same ..) .memDies (by decide)
@[simp] theorem State.raise_memAux (s : State) (c d : Nat) (p : Option Nat) (b : Bytes) : (s.raise c d p b).memAux = s.memAux :=
  SameBut.same (State.raise_same ..) .memAux (by decide)
@[simp] theorem State.raise_links (s : State) (c d : Nat) (p : Option Nat) (b : Bytes) : (s.raise c d p b).links = s.links :=
  SameBut.same (State.raise_same ..) .links (by decide)
@[simp] theorem State.raise_linkCtrs (s : State) (c d : Nat) (p : Option Nat) (b : Bytes) : (s.raise c d p b).linkCtrs = s.linkCtrs :=
  SameBut.same (State.raise_same ..) .linkCtrs (by decide)
@[simp] theorem State.raise_kx (s : State) (c d : Nat) (p : Option Nat) (b : Bytes) : (s.raise c d p b).kx = s.kx :=
  SameBut.same (State.raise_same ..) .kx (by decide)
@[simp] theorem State.raise_reds (s : State) (c d : Nat) (p : Option Nat) (b : Bytes) : (s.raise c d p b).reds = s.reds :=
  SameBut.same (State.raise_same ..) .reds (by decide)
@[simp] theorem State.raise_gw (s : State) (c d : Nat) (p : Option Nat) (b : Bytes) : (s.raise c d p b).gw = s.gw :=
  SameBut.same (State.raise_same ..) .gw (by decide)
@[simp] theorem State.raise_gwAux (s : State) (c d : Nat) (p : Option Nat) (b : Bytes) : (s.raise c d p b).gwAux = s.gwAux :=
  SameBut.same (State.raise_same ..) .gwAux (by decide)
@[simp] theorem State.raise_parts (s : State) (c d : Nat) (p : Option Nat) (b : Bytes) : (s.raise c d p b).parts = s.parts :=
  SameBut.same (State.raise_same ..) .parts (by decide)
@[simp] theorem State.raise_runs (s : State) (c d : Nat) (p : Option Nat) (b : Bytes) : (s.raise c d p b).runs = s.runs :=
  SameBut.same (State.raise_same ..) .runs (by decide)
@[simp] theorem State.raise_jr (s : State) (c d : Nat) (p : Option Nat) (b : Bytes) : (s.raise c d p b).jr = s.jr :=
  SameBut.same (State.raise_same ..) .jr (by decide)
@[simp] theorem State.raise_pkg (s : State) (c d : Nat) (p : Option Nat) (b : Bytes) : (s.raise c d p b).pkg = s.pkg :=
  SameBut.same (State.raise_same ..) .pkg (by decide)

/-! ## raiseHm -/

@[simp] theorem State.raiseHm_pending (s : State) (c : Nat) (p : Option Nat) (b : Bytes) : (s.raiseHm c p b).pending = s.pending :=
  SameBut.same (State.raiseHm_same ..) .pending (by decide)
@[simp] theorem State.raiseHm_deferred (s : State) (c : Nat) (p : Option Nat) (b : Bytes) : (s.raiseHm c p b).deferred = s.deferred :=
  SameBut.same (State.raiseHm_same ..) .deferred (by decide)
@[simp] theorem State.raiseHm_free (s : State) (c : Nat) (p : Option Nat) (b : Bytes) : (s.raiseHm c p b).free = s.free :=
  SameBut.same (State.raiseHm_same ..) .free (by decide)
@[simp] theorem State.raiseHm_supply (s : State) (c : Nat) (p : Option Nat) (b : Bytes) : (s.raiseHm c p b).supply = s.supply :=
  SameBut.same (State.raiseHm_same ..) .supply (by decide)
@[simp] theorem State.raiseHm_boot (s : State) (c : Nat) (p : Option Nat) (b : Bytes) : (s.raiseHm c p b).boot = s.boot :=
  SameBut.same (State.raiseHm_same ..) .boot (by decide)
@[simp] theorem State.raiseHm_sec (s : State) (c : Nat) (p : Option Nat) (b : Bytes) : (s.raiseHm c p b).sec = s.sec :=
  SameBut.same (State.raiseHm_same ..) .sec (by decide)
@[simp] theorem State.raiseHm_pt (s : State) (c : Nat) (p : Option Nat) (b : Bytes) : (s.raiseHm c p b).pt = s.pt :=
  SameBut.same (State.raiseHm_same ..) .pt (by decide)
@[simp] theorem State.raiseHm_ptAux (s : State) (c : Nat) (p : Option Nat) (b : Bytes) : (s.raiseHm c p b).ptAux = s.ptAux :=
  SameBut.same (State.raiseHm_same ..) .ptAux (by decide)
@[simp] theorem State.raiseHm_ptDies (s : State) (c : Nat) (p : Option Nat) (b : Bytes) : (s.raiseHm c p b).ptDies = s.ptDies :=
  SameBut.same (State.raiseHm_same ..) .ptDies (by decide)
@[simp] theorem State.raiseHm_hm (s : State) (c : Nat) (p : Option Nat) (b : Bytes) : (s.raiseHm c p b).hm = s.hm :=
  SameBut.same (State.raiseHm_same ..) .hm (by decide)
@[simp] theorem State.raiseHm_hmAux (s : State) (c : Nat) (p : Option Nat) (b : Bytes) : (s.raiseHm c p b).hmAux = s.hmAux :=
  SameBut.same (State.raiseHm_same ..) .hmAux (by decide)
@[simp] theorem State.raiseHm_mf (s : State) (c : Nat) (p : Option Nat) (b : Bytes) : (s.raiseHm c p b).mf = s.mf :=
  SameBut.same (State.raiseHm_same ..) .mf (by decide)
@[simp] theorem State.raiseHm_mfAux (s : State) (c : Nat) (p : Option Nat) (b : Bytes) : (s.raiseHm c p b).mfAux = s.mfAux :=
  SameBut.same (State.raiseHm_same ..) .mfAux (by decide)
@[simp] theorem State.raiseHm_clusters (s : State) (c : Nat) (p : Option Nat) (b : Bytes) : (s.raiseHm c p b).clusters = s.clusters :=
  SameBut.same (State.raiseHm_same ..) .clusters (by decide)
@[simp] theorem State.raiseHm_memDies (s : State) (c : Nat) (p : Option Nat) (b : Bytes) : (s.raiseHm c p b).memDies = s.memDies :=
  SameBut.same (State.raiseHm_same ..) .memDies (by decide)
@[simp] theorem State.raiseHm_memAux (s : State) (c : Nat) (p : Option Nat) (b : Bytes) : (s.raiseHm c p b).memAux = s.memAux :=
  SameBut.same (State.raiseHm_same ..) .memAux (by decide)
@[simp] theorem State.raiseHm_links (s : State) (c : Nat) (p : Option Nat) (b : Bytes) : (s.raiseHm c p b).links = s.links :=
  SameBut.same (State.raiseHm_same ..) .links (by decide)
@[simp] theorem State.raiseHm_linkCtrs (s : State) (c : Nat) (p : Option Nat) (b : Bytes) : (s.raiseHm c p b).linkCtrs = s.linkCtrs :=
  SameBut.same (State.raiseHm_same ..) .linkCtrs (by decide)
@[simp] theorem State.raiseHm_kx (s : State) (c : Nat) (p : Option Nat) (b : Bytes) : (s.raiseHm c p b).kx = s.kx :=
  SameBut.same (State.raiseHm_same ..) .kx (by decide)
@[simp] theorem State.raiseHm_reds (s : State) (c : Nat) (p : Option Nat) (b : Bytes) : (s.raiseHm c p b).reds = s.reds :=
  SameBut.same (State.raiseHm_same ..) .reds (by decide)
@[simp] theorem State.raiseHm_gw (s : State) (c : Nat) (p : Option Nat) (b : Bytes) : (s.raiseHm c p b).gw = s.gw :=
  SameBut.same (State.raiseHm_same ..) .gw (by decide)
@[simp] theorem State.raiseHm_gwAux (s : State) (c : Nat) (p : Option Nat) (b : Bytes) : (s.raiseHm c p b).gwAux = s.gwAux :=
  SameBut.same (State.raiseHm_same ..) .gwAux (by decide)
@[simp] theorem State.raiseHm_parts (s : State) (c : Nat) (p : Option Nat) (b : Bytes) : (s.raiseHm c p b).parts = s.parts :=
  SameBut.same (State.raiseHm_same ..) .parts (by decide)
@[simp] theorem State.raiseHm_runs (s : State) (c : Nat) (p : Option Nat) (b : Bytes) : (s.raiseHm c p b).runs = s.runs :=
  SameBut.same (State.raiseHm_same ..) .runs (by decide)
@[simp] theorem State.raiseHm_jr (s : State) (c : Nat) (p : Option Nat) (b : Bytes) : (s.raiseHm c p b).jr = s.jr :=
  SameBut.same (State.raiseHm_same ..) .jr (by decide)
@[simp] theorem State.raiseHm_pkg (s : State) (c : Nat) (p : Option Nat) (b : Bytes) : (s.raiseHm c p b).pkg = s.pkg :=
  SameBut.same (State.raiseHm_same ..) .pkg (by decide)

/-! ## raiseJr -/

@[simp] theorem State.raiseJr_pending (s : State) (c p : Nat) (b : Bytes) : (s.raiseJr c p b).pending = s.pending :=
  SameBut.same (State.raiseHm_same ..) .pending (by decide)
@[simp] theorem State.raiseJr_deferred (s : State) (c p : Nat) (b : Bytes) : (s.raiseJr c p b).deferred = s.deferred :=
  SameBut.same (State.raiseHm_same ..) .deferred (by decide)
@[simp] theorem State.raiseJr_free (s : State) (c p : Nat) (b : Bytes) : (s.raiseJr c p b).free = s.free :=
  SameBut.same (State.raiseHm_same ..) .free (by decide)
@[simp] theorem State.raiseJr_supply (s : State) (c p : Nat) (b : Bytes) : (s.raiseJr c p b).supply = s.supply :=
  SameBut.same (State.raiseHm_same ..) .supply (by decide)
@[simp] theorem State.raiseJr_boot (s : State) (c p : Nat) (b : Bytes) : (s.raiseJr c p b).boot = s.boot :=
  SameBut.same (State.raiseHm_same ..) .boot (by decide)
@[simp] theorem State.raiseJr_sec (s : State) (c p : Nat) (b : Bytes) : (s.raiseJr c p b).sec = s.sec :=
  SameBut.same (State.raiseHm_same ..) .sec (by decide)
@[simp] theorem State.raiseJr_pt (s : State) (c p : Nat) (b : Bytes) : (s.raiseJr c p b).pt = s.pt :=
  SameBut.same (State.raiseHm_same ..) .pt (by decide)
@[simp] theorem State.raiseJr_ptAux (s : State) (c p : Nat) (b : Bytes) : (s.raiseJr c p b).ptAux = s.ptAux :=
  SameBut.same (State.raiseHm_same ..) .ptAux (by decide)
@[simp] theorem State.raiseJr_ptDies (s : State) (c p : Nat) (b : Bytes) : (s.raiseJr c p b).ptDies = s.ptDies :=
  SameBut.same (State.raiseHm_same ..) .ptDies (by decide)
@[simp] theorem State.raiseJr_hm (s : State) (c p : Nat) (b : Bytes) : (s.raiseJr c p b).hm = s.hm :=
  SameBut.same (State.raiseHm_same ..) .hm (by decide)
@[simp] theorem State.raiseJr_hmAux (s : State) (c p : Nat) (b : Bytes) : (s.raiseJr c p b).hmAux = s.hmAux :=
  SameBut.same (State.raiseHm_same ..) .hmAux (by decide)
@[simp] theorem State.raiseJr_mf (s : State) (c p : Nat) (b : Bytes) : (s.raiseJr c p b).mf = s.mf :=
  SameBut.same (State.raiseHm_same ..) .mf (by decide)
@[simp] theorem State.raiseJr_mfAux (s : State) (c p : Nat) (b : Bytes) : (s.raiseJr c p b).mfAux = s.mfAux :=
  SameBut.same (State.raiseHm_same ..) .mfAux (by decide)
@[simp] theorem State.raiseJr_clusters (s : State) (c p : Nat) (b : Bytes) : (s.raiseJr c p b).clusters = s.clusters :=
  SameBut.same (State.raiseHm_same ..) .clusters (by decide)
@[simp] theorem State.raiseJr_memDies (s : State) (c p : Nat) (b : Bytes) : (s.raiseJr c p b).memDies = s.memDies :=
  SameBut.same (State.raiseHm_same ..) .memDies (by decide)
@[simp] theorem State.raiseJr_memAux (s : State) (c p : Nat) (b : Bytes) : (s.raiseJr c p b).memAux = s.memAux :=
  SameBut.same (State.raiseHm_same ..) .memAux (by decide)
@[simp] theorem State.raiseJr_links (s : State) (c p : Nat) (b : Bytes) : (s.raiseJr c p b).links = s.links :=
  SameBut.same (State.raiseHm_same ..) .links (by decide)
@[simp] theorem State.raiseJr_linkCtrs (s : State) (c p : Nat) (b : Bytes) : (s.raiseJr c p b).linkCtrs = s.linkCtrs :=
  SameBut.same (State.raiseHm_same ..) .linkCtrs (by decide)
@[simp] theorem State.raiseJr_kx (s : State) (c p : Nat) (b : Bytes) : (s.raiseJr c p b).kx = s.kx :=
  SameBut.same (State.raiseHm_same ..) .kx (by decide)
@[simp] theorem State.raiseJr_reds (s : State) (c p : Nat) (b : Bytes) : (s.raiseJr c p b).reds = s.reds :=
  SameBut.same (State.raiseHm_same ..) .reds (by decide)
@[simp] theorem State.raiseJr_gw (s : State) (c p : Nat) (b : Bytes) : (s.raiseJr c p b).gw = s.gw :=
  SameBut.same (State.raiseHm_same ..) .gw (by decide)
@[simp] theorem State.raiseJr_gwAux (s : State) (c p : Nat) (b : Bytes) : (s.raiseJr c p b).gwAux = s.gwAux :=
  SameBut.same (State.raiseHm_same ..) .gwAux (by decide)
@[simp] theorem State.raiseJr_parts (s : State) (c p : Nat) (b : Bytes) : (s.raiseJr c p b).parts = s.parts :=
  SameBut.same (State.raiseHm_same ..) .parts (by decide)
@[simp] theorem State.raiseJr_runs (s : State) (c p : Nat) (b : Bytes) : (s.raiseJr c p b).runs = s.runs :=
  SameBut.same (State.raiseHm_same ..) .runs (by decide)
@[simp] theorem State.raiseJr_jr (s : State) (c p : Nat) (b : Bytes) : (s.raiseJr c p b).jr = s.jr :=
  SameBut.same (State.raiseHm_same ..) .jr (by decide)
@[simp] theorem State.raiseJr_pkg (s : State) (c p : Nat) (b : Bytes) : (s.raiseJr c p b).pkg = s.pkg :=
  SameBut.same (State.raiseHm_same ..) .pkg (by decide)

/-! ## raisePt -/

@[simp] theorem State.raisePt_pending (s : State) (c : Nat) (b : Bytes) : (s.raisePt c b).pending = s.pending :=
  SameBut.same (State.raiseHm_same ..) .pending (by decide)
@[simp] theorem State.raisePt_deferred (s : State) (c : Nat) (b : Bytes) : (s.raisePt c b).deferred = s.deferred :=
  SameBut.same (State.raiseHm_same ..) .deferred (by decide)
@[simp] theorem State.raisePt_free (s : State) (c : Nat) (b : Bytes) : (s.raisePt c b).free = s.free :=
  SameBut.same (State.raiseHm_same ..) .free (by decide)
@[simp] theorem State.raisePt_supply (s : State) (c : Nat) (b : Bytes) : (s.raisePt c b).supply = s.supply :=
  SameBut.same (State.raiseHm_same ..) .supply (by decide)
@[simp] theorem State.raisePt_boot (s : State) (c : Nat) (b : Bytes) : (s.raisePt c b).boot = s.boot :=
  SameBut.same (State.raiseHm_same ..) .boot (by decide)
@[simp] theorem State.raisePt_sec (s : State) (c : Nat) (b : Bytes) : (s.raisePt c b).sec = s.sec :=
  SameBut.same (State.raiseHm_same ..) .sec (by decide)
@[simp] theorem State.raisePt_pt (s : State) (c : Nat) (b : Bytes) : (s.raisePt c b).pt = s.pt :=
  SameBut.same (State.raiseHm_same ..) .pt (by decide)
@[simp] theorem State.raisePt_ptAux (s : State) (c : Nat) (b : Bytes) : (s.raisePt c b).ptAux = s.ptAux :=
  SameBut.same (State.raiseHm_same ..) .ptAux (by decide)
@[simp] theorem State.raisePt_ptDies (s : State) (c : Nat) (b : Bytes) : (s.raisePt c b).ptDies = s.ptDies :=
  SameBut.same (State.raiseHm_same ..) .ptDies (by decide)
@[simp] theorem State.raisePt_hm (s : State) (c : Nat) (b : Bytes) : (s.raisePt c b).hm = s.hm :=
  SameBut.same (State.raiseHm_same ..) .hm (by decide)
@[simp] theorem State.raisePt_hmAux (s : State) (c : Nat) (b : Bytes) : (s.raisePt c b).hmAux = s.hmAux :=
  SameBut.same (State.raiseHm_same ..) .hmAux (by decide)
@[simp] theorem State.raisePt_mf (s : State) (c : Nat) (b : Bytes) : (s.raisePt c b).mf = s.mf :=
  SameBut.same (State.raiseHm_same ..) .mf (by decide)
@[simp] theorem State.raisePt_mfAux (s : State) (c : Nat) (b : Bytes) : (s.raisePt c b).mfAux = s.mfAux :=
  SameBut.same (State.raiseHm_same ..) .mfAux (by decide)
@[simp] theorem State.raisePt_clusters (s : State) (c : Nat) (b : Bytes) : (s.raisePt c b).clusters = s.clusters :=
  SameBut.same (State.raiseHm_same ..) .clusters (by decide)
@[simp] theorem State.raisePt_memDies (s : State) (c : Nat) (b : Bytes) : (s.raisePt c b).memDies = s.memDies :=
  SameBut.same (State.raiseHm_same ..) .memDies (by decide)
@[simp] theorem State.raisePt_memAux (s : State) (c : Nat) (b : Bytes) : (s.raisePt c b).memAux = s.memAux :=
  SameBut.same (State.raiseHm_same ..) .memAux (by decide)
@[simp] theorem State.raisePt_links (s : State) (c : Nat) (b : Bytes) : (s.raisePt c b).links = s.links :=
  SameBut.same (State.raiseHm_same ..) .links (by decide)
@[simp] theorem State.raisePt_linkCtrs (s : State) (c : Nat) (b : Bytes) : (s.raisePt c b).linkCtrs = s.linkCtrs :=
  SameBut.same (State.raiseHm_same ..) .linkCtrs (by decide)
@[simp] theorem State.raisePt_kx (s : State) (c : Nat) (b : Bytes) : (s.raisePt c b).kx = s.kx :=
  SameBut.same (State.raiseHm_same ..) .kx (by decide)
@[simp] theorem State.raisePt_reds (s : State) (c : Nat) (b : Bytes) : (s.raisePt c b).reds = s.reds :=
  SameBut.same (State.raiseHm_same ..) .reds (by decide)
@[simp] theorem State.raisePt_gw (s : State) (c : Nat) (b : Bytes) : (s.raisePt c b).gw = s.gw :=
  SameBut.same (State.raiseHm_same ..) .gw (by decide)
@[simp] theorem State.raisePt_gwAux (s : State) (c : Nat) (b : Bytes) : (s.raisePt c b).gwAux = s.gwAux :=
  SameBut.same (State.raiseHm_same ..) .gwAux (by decide)
@[simp] theorem State.raisePt_parts (s : State) (c : Nat) (b : Bytes) : (s.raisePt c b).parts = s.parts :=
  SameBut.same (State.raiseHm_same ..) .parts (by decide)
@[simp] theorem State.raisePt_runs (s : State) (c : Nat) (b : Bytes) : (s.raisePt c b).runs = s.runs :=
  SameBut.same (State.raiseHm_same ..) .runs (by decide)
@[simp] theorem State.raisePt_jr (s : State) (c : Nat) (b : Bytes) : (s.raisePt c b).jr = s.jr :=
  SameBut.same (State.raiseHm_same ..) .jr (by decide)
@[simp] theorem State.raisePt_pkg (s : State) (c : Nat) (b : Bytes) : (s.raisePt c b).pkg = s.pkg :=
  SameBut.same (State.raiseHm_same ..) .pkg (by decide)

/-! ## accept -/

@[simp] theorem State.accept_pending (s : State) (r : EventRec) : (s.accept r).pending = s.pending :=
  SameBut.same (State.accept_same ..) .pending (by decide)
@[simp] theorem State.accept_deferred (s : State) (r : EventRec) : (s.accept r).deferred = s.deferred :=
  SameBut.same (State.accept_same ..) .deferred (by decide)
@[simp] theorem State.accept_free (s : State) (r : EventRec) : (s.accept r).free = s.free :=
  SameBut.same (State.accept_same ..) .free (by decide)
@[simp] theorem State.accept_supply (s : State) (r : EventRec) : (s.accept r).supply = s.supply :=
  SameBut.same (State.accept_same ..) .supply (by decide)
@[simp] theorem State.accept_boot (s : State) (r : EventRec) : (s.accept r).boot = s.boot :=
  SameBut.same (State.accept_same ..) .boot (by decide)
@[simp] theorem State.accept_sec (s : State) (r : EventRec) : (s.accept r).sec = s.sec :=
  SameBut.same (State.accept_same ..) .sec (by decide)
@[simp] theorem State.accept_pt (s : State) (r : EventRec) : (s.accept r).pt = s.pt :=
  SameBut.same (State.accept_same ..) .pt (by decide)
@[simp] theorem State.accept_ptAux (s : State) (r : EventRec) : (s.accept r).ptAux = s.ptAux :=
  SameBut.same (State.accept_same ..) .ptAux (by decide)
@[simp] theorem State.accept_ptDies (s : State) (r : EventRec) : (s.accept r).ptDies = s.ptDies :=
  SameBut.same (State.accept_same ..) .ptDies (by decide)
@[simp] theorem State.accept_hm (s : State) (r : EventRec) : (s.accept r).hm = s.hm :=
  SameBut.same (State.accept_same ..) .hm (by decide)
@[simp] theorem State.accept_hmAux (s : State) (r : EventRec) : (s.accept r).hmAux = s.hmAux :=
  SameBut.same (State.accept_same ..) .hmAux (by decide)
@[simp] theorem State.accept_mf (s : State) (r : EventRec) : (s.accept r).mf = s.mf :=
  SameBut.same (State.accept_same ..) .mf (by decide)
@[simp] theorem State.accept_mfAux (s : State) (r : EventRec) : (s.accept r).mfAux = s.mfAux :=
  SameBut.same (State.accept_same ..) .mfAux (by decide)
@[simp] theorem State.accept_clusters (s : State) (r : EventRec) : (s.accept r).clusters = s.clusters :=
  SameBut.same (State.accept_same ..) .clusters (by decide)
@[simp] theorem State.accept_memDies (s : State) (r : EventRec) : (s.accept r).memDies = s.memDies :=
  SameBut.same (State.accept_same ..) .memDies (by decide)
@[simp] theorem State.accept_memAux (s : State) (r : EventRec) : (s.accept r).memAux = s.memAux :=
  SameBut.same (State.accept_same ..) .memAux (by decide)
@[simp] theorem State.accept_links (s : State) (r : EventRec) : (s.accept r).links = s.links :=
  SameBut.same (State.accept_same ..) .links (by decide)
@[simp] theorem State.accept_linkCtrs (s : State) (r : EventRec) : (s.accept r).linkCtrs = s.linkCtrs :=
  SameBut.same (State.accept_same ..) .linkCtrs (by decide)
@[simp] theorem State.accept_kx (s : State) (r : EventRec) : (s.accept r).kx = s.kx :=
  SameBut.same (State.accept_same ..) .kx (by decide)
@[simp] theorem State.accept_reds (s : State) (r : EventRec) : (s.accept r).reds = s.reds :=
  SameBut.same (State.accept_same ..) .reds (by decide)
@[simp] theorem State.accept_gw (s : State) (r : EventRec) : (s.accept r).gw = s.gw :=
  SameBut.same (State.accept_same ..) .gw (by decide)
@[simp] theorem State.accept_gwAux (s : State) (r : EventRec) : (s.accept r).gwAux = s.gwAux :=
  SameBut.same (State.accept_same ..) .gwAux (by decide)
@[simp] theorem State.accept_parts (s : State) (r : EventRec) : (s.accept r).parts = s.parts :=
  SameBut.same (State.accept_same ..) .parts (by decide)
@[simp] theorem State.accept_runs (s : State) (r : EventRec) : (s.accept r).runs = s.runs :=
  SameBut.same (State.accept_same ..) .runs (by decide)
@[simp] theorem State.accept_jr (s : State) (r : EventRec) : (s.accept r).jr = s.jr :=
  SameBut.same (State.accept_same ..) .jr (by decide)
@[simp] theorem State.accept_pkg (s : State) (r : EventRec) : (s.accept r).pkg = s.pkg :=
  SameBut.same (State.accept_same ..) .pkg (by decide)

/-! ## acceptFrom -/

@[simp] theorem State.acceptFrom_pending (s : State) (d : BitVec 4) : (s.acceptFrom d).pending = s.pending :=
  SameBut.same (State.acceptFrom_same ..) .pending (by decide)
@[simp] theorem State.acceptFrom_deferred (s : State) (d : BitVec 4) : (s.acceptFrom d).deferred = s.deferred :=
  SameBut.same (State.acceptFrom_same ..) .deferred (by decide)
@[simp] theorem State.acceptFrom_free (s : State) (d : BitVec 4) : (s.acceptFrom d).free = s.free :=
  SameBut.same (State.acceptFrom_same ..) .free (by decide)
@[simp] theorem State.acceptFrom_supply (s : State) (d : BitVec 4) : (s.acceptFrom d).supply = s.supply :=
  SameBut.same (State.acceptFrom_same ..) .supply (by decide)
@[simp] theorem State.acceptFrom_boot (s : State) (d : BitVec 4) : (s.acceptFrom d).boot = s.boot :=
  SameBut.same (State.acceptFrom_same ..) .boot (by decide)
@[simp] theorem State.acceptFrom_sec (s : State) (d : BitVec 4) : (s.acceptFrom d).sec = s.sec :=
  SameBut.same (State.acceptFrom_same ..) .sec (by decide)
@[simp] theorem State.acceptFrom_pt (s : State) (d : BitVec 4) : (s.acceptFrom d).pt = s.pt :=
  SameBut.same (State.acceptFrom_same ..) .pt (by decide)
@[simp] theorem State.acceptFrom_ptAux (s : State) (d : BitVec 4) : (s.acceptFrom d).ptAux = s.ptAux :=
  SameBut.same (State.acceptFrom_same ..) .ptAux (by decide)
@[simp] theorem State.acceptFrom_ptDies (s : State) (d : BitVec 4) : (s.acceptFrom d).ptDies = s.ptDies :=
  SameBut.same (State.acceptFrom_same ..) .ptDies (by decide)
@[simp] theorem State.acceptFrom_hm (s : State) (d : BitVec 4) : (s.acceptFrom d).hm = s.hm :=
  SameBut.same (State.acceptFrom_same ..) .hm (by decide)
@[simp] theorem State.acceptFrom_hmAux (s : State) (d : BitVec 4) : (s.acceptFrom d).hmAux = s.hmAux :=
  SameBut.same (State.acceptFrom_same ..) .hmAux (by decide)
@[simp] theorem State.acceptFrom_mf (s : State) (d : BitVec 4) : (s.acceptFrom d).mf = s.mf :=
  SameBut.same (State.acceptFrom_same ..) .mf (by decide)
@[simp] theorem State.acceptFrom_mfAux (s : State) (d : BitVec 4) : (s.acceptFrom d).mfAux = s.mfAux :=
  SameBut.same (State.acceptFrom_same ..) .mfAux (by decide)
@[simp] theorem State.acceptFrom_clusters (s : State) (d : BitVec 4) : (s.acceptFrom d).clusters = s.clusters :=
  SameBut.same (State.acceptFrom_same ..) .clusters (by decide)
@[simp] theorem State.acceptFrom_memDies (s : State) (d : BitVec 4) : (s.acceptFrom d).memDies = s.memDies :=
  SameBut.same (State.acceptFrom_same ..) .memDies (by decide)
@[simp] theorem State.acceptFrom_memAux (s : State) (d : BitVec 4) : (s.acceptFrom d).memAux = s.memAux :=
  SameBut.same (State.acceptFrom_same ..) .memAux (by decide)
@[simp] theorem State.acceptFrom_links (s : State) (d : BitVec 4) : (s.acceptFrom d).links = s.links :=
  SameBut.same (State.acceptFrom_same ..) .links (by decide)
@[simp] theorem State.acceptFrom_linkCtrs (s : State) (d : BitVec 4) : (s.acceptFrom d).linkCtrs = s.linkCtrs :=
  SameBut.same (State.acceptFrom_same ..) .linkCtrs (by decide)
@[simp] theorem State.acceptFrom_kx (s : State) (d : BitVec 4) : (s.acceptFrom d).kx = s.kx :=
  SameBut.same (State.acceptFrom_same ..) .kx (by decide)
@[simp] theorem State.acceptFrom_reds (s : State) (d : BitVec 4) : (s.acceptFrom d).reds = s.reds :=
  SameBut.same (State.acceptFrom_same ..) .reds (by decide)
@[simp] theorem State.acceptFrom_gw (s : State) (d : BitVec 4) : (s.acceptFrom d).gw = s.gw :=
  SameBut.same (State.acceptFrom_same ..) .gw (by decide)
@[simp] theorem State.acceptFrom_gwAux (s : State) (d : BitVec 4) : (s.acceptFrom d).gwAux = s.gwAux :=
  SameBut.same (State.acceptFrom_same ..) .gwAux (by decide)
@[simp] theorem State.acceptFrom_parts (s : State) (d : BitVec 4) : (s.acceptFrom d).parts = s.parts :=
  SameBut.same (State.acceptFrom_same ..) .parts (by decide)
@[simp] theorem State.acceptFrom_runs (s : State) (d : BitVec 4) : (s.acceptFrom d).runs = s.runs :=
  SameBut.same (State.acceptFrom_same ..) .runs (by decide)
@[simp] theorem State.acceptFrom_jr (s : State) (d : BitVec 4) : (s.acceptFrom d).jr = s.jr :=
  SameBut.same (State.acceptFrom_same ..) .jr (by decide)
@[simp] theorem State.acceptFrom_pkg (s : State) (d : BitVec 4) : (s.acceptFrom d).pkg = s.pkg :=
  SameBut.same (State.acceptFrom_same ..) .pkg (by decide)

/-! ## deliverHeld -/

@[simp] theorem State.deliverHeld_pending (s : State) : s.deliverHeld.pending = s.pending :=
  SameBut.same (State.deliverHeld_same ..) .pending (by decide)
@[simp] theorem State.deliverHeld_deferred (s : State) : s.deliverHeld.deferred = s.deferred :=
  SameBut.same (State.deliverHeld_same ..) .deferred (by decide)
@[simp] theorem State.deliverHeld_free (s : State) : s.deliverHeld.free = s.free :=
  SameBut.same (State.deliverHeld_same ..) .free (by decide)
@[simp] theorem State.deliverHeld_supply (s : State) : s.deliverHeld.supply = s.supply :=
  SameBut.same (State.deliverHeld_same ..) .supply (by decide)
@[simp] theorem State.deliverHeld_boot (s : State) : s.deliverHeld.boot = s.boot :=
  SameBut.same (State.deliverHeld_same ..) .boot (by decide)
@[simp] theorem State.deliverHeld_sec (s : State) : s.deliverHeld.sec = s.sec :=
  SameBut.same (State.deliverHeld_same ..) .sec (by decide)
@[simp] theorem State.deliverHeld_pt (s : State) : s.deliverHeld.pt = s.pt :=
  SameBut.same (State.deliverHeld_same ..) .pt (by decide)
@[simp] theorem State.deliverHeld_ptAux (s : State) : s.deliverHeld.ptAux = s.ptAux :=
  SameBut.same (State.deliverHeld_same ..) .ptAux (by decide)
@[simp] theorem State.deliverHeld_ptDies (s : State) : s.deliverHeld.ptDies = s.ptDies :=
  SameBut.same (State.deliverHeld_same ..) .ptDies (by decide)
@[simp] theorem State.deliverHeld_hm (s : State) : s.deliverHeld.hm = s.hm :=
  SameBut.same (State.deliverHeld_same ..) .hm (by decide)
@[simp] theorem State.deliverHeld_hmAux (s : State) : s.deliverHeld.hmAux = s.hmAux :=
  SameBut.same (State.deliverHeld_same ..) .hmAux (by decide)
@[simp] theorem State.deliverHeld_mf (s : State) : s.deliverHeld.mf = s.mf :=
  SameBut.same (State.deliverHeld_same ..) .mf (by decide)
@[simp] theorem State.deliverHeld_mfAux (s : State) : s.deliverHeld.mfAux = s.mfAux :=
  SameBut.same (State.deliverHeld_same ..) .mfAux (by decide)
@[simp] theorem State.deliverHeld_clusters (s : State) : s.deliverHeld.clusters = s.clusters :=
  SameBut.same (State.deliverHeld_same ..) .clusters (by decide)
@[simp] theorem State.deliverHeld_memDies (s : State) : s.deliverHeld.memDies = s.memDies :=
  SameBut.same (State.deliverHeld_same ..) .memDies (by decide)
@[simp] theorem State.deliverHeld_memAux (s : State) : s.deliverHeld.memAux = s.memAux :=
  SameBut.same (State.deliverHeld_same ..) .memAux (by decide)
@[simp] theorem State.deliverHeld_links (s : State) : s.deliverHeld.links = s.links :=
  SameBut.same (State.deliverHeld_same ..) .links (by decide)
@[simp] theorem State.deliverHeld_linkCtrs (s : State) : s.deliverHeld.linkCtrs = s.linkCtrs :=
  SameBut.same (State.deliverHeld_same ..) .linkCtrs (by decide)
@[simp] theorem State.deliverHeld_kx (s : State) : s.deliverHeld.kx = s.kx :=
  SameBut.same (State.deliverHeld_same ..) .kx (by decide)
@[simp] theorem State.deliverHeld_reds (s : State) : s.deliverHeld.reds = s.reds :=
  SameBut.same (State.deliverHeld_same ..) .reds (by decide)
@[simp] theorem State.deliverHeld_gw (s : State) : s.deliverHeld.gw = s.gw :=
  SameBut.same (State.deliverHeld_same ..) .gw (by decide)
@[simp] theorem State.deliverHeld_gwAux (s : State) : s.deliverHeld.gwAux = s.gwAux :=
  SameBut.same (State.deliverHeld_same ..) .gwAux (by decide)
@[simp] theorem State.deliverHeld_parts (s : State) : s.deliverHeld.parts = s.parts :=
  SameBut.same (State.deliverHeld_same ..) .parts (by decide)
@[simp] theorem State.deliverHeld_runs (s : State) : s.deliverHeld.runs = s.runs :=
  SameBut.same (State.deliverHeld_same ..) .runs (by decide)
@[simp] theorem State.deliverHeld_jr (s : State) : s.deliverHeld.jr = s.jr :=
  SameBut.same (State.deliverHeld_same ..) .jr (by decide)
@[simp] theorem State.deliverHeld_pkg (s : State) : s.deliverHeld.pkg = s.pkg :=
  SameBut.same (State.deliverHeld_same ..) .pkg (by decide)

/-! ## acceptAll -/

@[simp] theorem State.acceptAll_pending (s : State) : s.acceptAll.pending = s.pending :=
  SameBut.same (State.acceptAll_same ..) .pending (by decide)
@[simp] theorem State.acceptAll_deferred (s : State) : s.acceptAll.deferred = s.deferred :=
  SameBut.same (State.acceptAll_same ..) .deferred (by decide)
@[simp] theorem State.acceptAll_free (s : State) : s.acceptAll.free = s.free :=
  SameBut.same (State.acceptAll_same ..) .free (by decide)
@[simp] theorem State.acceptAll_supply (s : State) : s.acceptAll.supply = s.supply :=
  SameBut.same (State.acceptAll_same ..) .supply (by decide)
@[simp] theorem State.acceptAll_boot (s : State) : s.acceptAll.boot = s.boot :=
  SameBut.same (State.acceptAll_same ..) .boot (by decide)
@[simp] theorem State.acceptAll_sec (s : State) : s.acceptAll.sec = s.sec :=
  SameBut.same (State.acceptAll_same ..) .sec (by decide)
@[simp] theorem State.acceptAll_pt (s : State) : s.acceptAll.pt = s.pt :=
  SameBut.same (State.acceptAll_same ..) .pt (by decide)
@[simp] theorem State.acceptAll_ptAux (s : State) : s.acceptAll.ptAux = s.ptAux :=
  SameBut.same (State.acceptAll_same ..) .ptAux (by decide)
@[simp] theorem State.acceptAll_ptDies (s : State) : s.acceptAll.ptDies = s.ptDies :=
  SameBut.same (State.acceptAll_same ..) .ptDies (by decide)
@[simp] theorem State.acceptAll_hm (s : State) : s.acceptAll.hm = s.hm :=
  SameBut.same (State.acceptAll_same ..) .hm (by decide)
@[simp] theorem State.acceptAll_hmAux (s : State) : s.acceptAll.hmAux = s.hmAux :=
  SameBut.same (State.acceptAll_same ..) .hmAux (by decide)
@[simp] theorem State.acceptAll_mf (s : State) : s.acceptAll.mf = s.mf :=
  SameBut.same (State.acceptAll_same ..) .mf (by decide)
@[simp] theorem State.acceptAll_mfAux (s : State) : s.acceptAll.mfAux = s.mfAux :=
  SameBut.same (State.acceptAll_same ..) .mfAux (by decide)
@[simp] theorem State.acceptAll_clusters (s : State) : s.acceptAll.clusters = s.clusters :=
  SameBut.same (State.acceptAll_same ..) .clusters (by decide)
@[simp] theorem State.acceptAll_memDies (s : State) : s.acceptAll.memDies = s.memDies :=
  SameBut.same (State.acceptAll_same ..) .memDies (by decide)
@[simp] theorem State.acceptAll_memAux (s : State) : s.acceptAll.memAux = s.memAux :=
  SameBut.same (State.acceptAll_same ..) .memAux (by decide)
@[simp] theorem State.acceptAll_links (s : State) : s.acceptAll.links = s.links :=
  SameBut.same (State.acceptAll_same ..) .links (by decide)
@[simp] theorem State.acceptAll_linkCtrs (s : State) : s.acceptAll.linkCtrs = s.linkCtrs :=
  SameBut.same (State.acceptAll_same ..) .linkCtrs (by decide)
@[simp] theorem State.acceptAll_kx (s : State) : s.acceptAll.kx = s.kx :=
  SameBut.same (State.acceptAll_same ..) .kx (by decide)
@[simp] theorem State.acceptAll_reds (s : State) : s.acceptAll.reds = s.reds :=
  SameBut.same (State.acceptAll_same ..) .reds (by decide)
@[simp] theorem State.acceptAll_gw (s : State) : s.acceptAll.gw = s.gw :=
  SameBut.same (State.acceptAll_same ..) .gw (by decide)
@[simp] theorem State.acceptAll_gwAux (s : State) : s.acceptAll.gwAux = s.gwAux :=
  SameBut.same (State.acceptAll_same ..) .gwAux (by decide)
@[simp] theorem State.acceptAll_parts (s : State) : s.acceptAll.parts = s.parts :=
  SameBut.same (State.acceptAll_same ..) .parts (by decide)
@[simp] theorem State.acceptAll_runs (s : State) : s.acceptAll.runs = s.runs :=
  SameBut.same (State.acceptAll_same ..) .runs (by decide)
@[simp] theorem State.acceptAll_jr (s : State) : s.acceptAll.jr = s.jr :=
  SameBut.same (State.acceptAll_same ..) .jr (by decide)
@[simp] theorem State.acceptAll_pkg (s : State) : s.acceptAll.pkg = s.pkg :=
  SameBut.same (State.acceptAll_same ..) .pkg (by decide)

/-! ## service -/

@[simp] theorem State.service_pending (s : State) (b : Nat) (v : Bool) : (s.service b v).pending = s.pending :=
  SameBut.same (State.service_same ..) .pending (by decide)
@[simp] theorem State.service_deferred (s : State) (b : Nat) (v : Bool) : (s.service b v).deferred = s.deferred :=
  SameBut.same (State.service_same ..) .deferred (by decide)
@[simp] theorem State.service_free (s : State) (b : Nat) (v : Bool) : (s.service b v).free = s.free :=
  SameBut.same (State.service_same ..) .free (by decide)
@[simp] theorem State.service_supply (s : State) (b : Nat) (v : Bool) : (s.service b v).supply = s.supply :=
  SameBut.same (State.service_same ..) .supply (by decide)
@[simp] theorem State.service_boot (s : State) (b : Nat) (v : Bool) : (s.service b v).boot = s.boot :=
  SameBut.same (State.service_same ..) .boot (by decide)
@[simp] theorem State.service_sec (s : State) (b : Nat) (v : Bool) : (s.service b v).sec = s.sec :=
  SameBut.same (State.service_same ..) .sec (by decide)
@[simp] theorem State.service_pt (s : State) (b : Nat) (v : Bool) : (s.service b v).pt = s.pt :=
  SameBut.same (State.service_same ..) .pt (by decide)
@[simp] theorem State.service_ptAux (s : State) (b : Nat) (v : Bool) : (s.service b v).ptAux = s.ptAux :=
  SameBut.same (State.service_same ..) .ptAux (by decide)
@[simp] theorem State.service_ptDies (s : State) (b : Nat) (v : Bool) : (s.service b v).ptDies = s.ptDies :=
  SameBut.same (State.service_same ..) .ptDies (by decide)
@[simp] theorem State.service_hmAux (s : State) (b : Nat) (v : Bool) : (s.service b v).hmAux = s.hmAux :=
  SameBut.same (State.service_same ..) .hmAux (by decide)
@[simp] theorem State.service_mf (s : State) (b : Nat) (v : Bool) : (s.service b v).mf = s.mf :=
  SameBut.same (State.service_same ..) .mf (by decide)
@[simp] theorem State.service_mfAux (s : State) (b : Nat) (v : Bool) : (s.service b v).mfAux = s.mfAux :=
  SameBut.same (State.service_same ..) .mfAux (by decide)
@[simp] theorem State.service_clusters (s : State) (b : Nat) (v : Bool) : (s.service b v).clusters = s.clusters :=
  SameBut.same (State.service_same ..) .clusters (by decide)
@[simp] theorem State.service_memDies (s : State) (b : Nat) (v : Bool) : (s.service b v).memDies = s.memDies :=
  SameBut.same (State.service_same ..) .memDies (by decide)
@[simp] theorem State.service_memAux (s : State) (b : Nat) (v : Bool) : (s.service b v).memAux = s.memAux :=
  SameBut.same (State.service_same ..) .memAux (by decide)
@[simp] theorem State.service_links (s : State) (b : Nat) (v : Bool) : (s.service b v).links = s.links :=
  SameBut.same (State.service_same ..) .links (by decide)
@[simp] theorem State.service_linkCtrs (s : State) (b : Nat) (v : Bool) : (s.service b v).linkCtrs = s.linkCtrs :=
  SameBut.same (State.service_same ..) .linkCtrs (by decide)
@[simp] theorem State.service_kx (s : State) (b : Nat) (v : Bool) : (s.service b v).kx = s.kx :=
  SameBut.same (State.service_same ..) .kx (by decide)
@[simp] theorem State.service_reds (s : State) (b : Nat) (v : Bool) : (s.service b v).reds = s.reds :=
  SameBut.same (State.service_same ..) .reds (by decide)
@[simp] theorem State.service_gw (s : State) (b : Nat) (v : Bool) : (s.service b v).gw = s.gw :=
  SameBut.same (State.service_same ..) .gw (by decide)
@[simp] theorem State.service_gwAux (s : State) (b : Nat) (v : Bool) : (s.service b v).gwAux = s.gwAux :=
  SameBut.same (State.service_same ..) .gwAux (by decide)
@[simp] theorem State.service_parts (s : State) (b : Nat) (v : Bool) : (s.service b v).parts = s.parts :=
  SameBut.same (State.service_same ..) .parts (by decide)
@[simp] theorem State.service_runs (s : State) (b : Nat) (v : Bool) : (s.service b v).runs = s.runs :=
  SameBut.same (State.service_same ..) .runs (by decide)
@[simp] theorem State.service_jr (s : State) (b : Nat) (v : Bool) : (s.service b v).jr = s.jr :=
  SameBut.same (State.service_same ..) .jr (by decide)
@[simp] theorem State.service_pkg (s : State) (b : Nat) (v : Bool) : (s.service b v).pkg = s.pkg :=
  SameBut.same (State.service_same ..) .pkg (by decide)

/-! ## writeNotReady -/

@[simp] theorem State.writeNotReady_pending (s : State) (a : Nat) : (s.writeNotReady a).pending = s.pending :=
  SameBut.same (State.writeNotReady_same ..) .pending (by decide)
@[simp] theorem State.writeNotReady_deferred (s : State) (a : Nat) : (s.writeNotReady a).deferred = s.deferred :=
  SameBut.same (State.writeNotReady_same ..) .deferred (by decide)
@[simp] theorem State.writeNotReady_free (s : State) (a : Nat) : (s.writeNotReady a).free = s.free :=
  SameBut.same (State.writeNotReady_same ..) .free (by decide)
@[simp] theorem State.writeNotReady_supply (s : State) (a : Nat) : (s.writeNotReady a).supply = s.supply :=
  SameBut.same (State.writeNotReady_same ..) .supply (by decide)
@[simp] theorem State.writeNotReady_boot (s : State) (a : Nat) : (s.writeNotReady a).boot = s.boot :=
  SameBut.same (State.writeNotReady_same ..) .boot (by decide)
@[simp] theorem State.writeNotReady_sec (s : State) (a : Nat) : (s.writeNotReady a).sec = s.sec :=
  SameBut.same (State.writeNotReady_same ..) .sec (by decide)
@[simp] theorem State.writeNotReady_pt (s : State) (a : Nat) : (s.writeNotReady a).pt = s.pt :=
  SameBut.same (State.writeNotReady_same ..) .pt (by decide)
@[simp] theorem State.writeNotReady_ptAux (s : State) (a : Nat) : (s.writeNotReady a).ptAux = s.ptAux :=
  SameBut.same (State.writeNotReady_same ..) .ptAux (by decide)
@[simp] theorem State.writeNotReady_ptDies (s : State) (a : Nat) : (s.writeNotReady a).ptDies = s.ptDies :=
  SameBut.same (State.writeNotReady_same ..) .ptDies (by decide)
@[simp] theorem State.writeNotReady_hmAux (s : State) (a : Nat) : (s.writeNotReady a).hmAux = s.hmAux :=
  SameBut.same (State.writeNotReady_same ..) .hmAux (by decide)
@[simp] theorem State.writeNotReady_mf (s : State) (a : Nat) : (s.writeNotReady a).mf = s.mf :=
  SameBut.same (State.writeNotReady_same ..) .mf (by decide)
@[simp] theorem State.writeNotReady_mfAux (s : State) (a : Nat) : (s.writeNotReady a).mfAux = s.mfAux :=
  SameBut.same (State.writeNotReady_same ..) .mfAux (by decide)
@[simp] theorem State.writeNotReady_clusters (s : State) (a : Nat) : (s.writeNotReady a).clusters = s.clusters :=
  SameBut.same (State.writeNotReady_same ..) .clusters (by decide)
@[simp] theorem State.writeNotReady_memDies (s : State) (a : Nat) : (s.writeNotReady a).memDies = s.memDies :=
  SameBut.same (State.writeNotReady_same ..) .memDies (by decide)
@[simp] theorem State.writeNotReady_memAux (s : State) (a : Nat) : (s.writeNotReady a).memAux = s.memAux :=
  SameBut.same (State.writeNotReady_same ..) .memAux (by decide)
@[simp] theorem State.writeNotReady_links (s : State) (a : Nat) : (s.writeNotReady a).links = s.links :=
  SameBut.same (State.writeNotReady_same ..) .links (by decide)
@[simp] theorem State.writeNotReady_linkCtrs (s : State) (a : Nat) : (s.writeNotReady a).linkCtrs = s.linkCtrs :=
  SameBut.same (State.writeNotReady_same ..) .linkCtrs (by decide)
@[simp] theorem State.writeNotReady_kx (s : State) (a : Nat) : (s.writeNotReady a).kx = s.kx :=
  SameBut.same (State.writeNotReady_same ..) .kx (by decide)
@[simp] theorem State.writeNotReady_reds (s : State) (a : Nat) : (s.writeNotReady a).reds = s.reds :=
  SameBut.same (State.writeNotReady_same ..) .reds (by decide)
@[simp] theorem State.writeNotReady_gw (s : State) (a : Nat) : (s.writeNotReady a).gw = s.gw :=
  SameBut.same (State.writeNotReady_same ..) .gw (by decide)
@[simp] theorem State.writeNotReady_gwAux (s : State) (a : Nat) : (s.writeNotReady a).gwAux = s.gwAux :=
  SameBut.same (State.writeNotReady_same ..) .gwAux (by decide)
@[simp] theorem State.writeNotReady_parts (s : State) (a : Nat) : (s.writeNotReady a).parts = s.parts :=
  SameBut.same (State.writeNotReady_same ..) .parts (by decide)
@[simp] theorem State.writeNotReady_runs (s : State) (a : Nat) : (s.writeNotReady a).runs = s.runs :=
  SameBut.same (State.writeNotReady_same ..) .runs (by decide)
@[simp] theorem State.writeNotReady_jr (s : State) (a : Nat) : (s.writeNotReady a).jr = s.jr :=
  SameBut.same (State.writeNotReady_same ..) .jr (by decide)
@[simp] theorem State.writeNotReady_pkg (s : State) (a : Nat) : (s.writeNotReady a).pkg = s.pkg :=
  SameBut.same (State.writeNotReady_same ..) .pkg (by decide)

/-! ## berthWrite -/

@[simp] theorem State.berthWrite_pending (s : State) (q : Option Nat) (n : Nat) (m : BerthMsg) : (s.berthWrite q n m).2.pending = s.pending :=
  SameBut.same (State.berthWrite_same ..) .pending (by decide)
@[simp] theorem State.berthWrite_deferred (s : State) (q : Option Nat) (n : Nat) (m : BerthMsg) : (s.berthWrite q n m).2.deferred = s.deferred :=
  SameBut.same (State.berthWrite_same ..) .deferred (by decide)
@[simp] theorem State.berthWrite_free (s : State) (q : Option Nat) (n : Nat) (m : BerthMsg) : (s.berthWrite q n m).2.free = s.free :=
  SameBut.same (State.berthWrite_same ..) .free (by decide)
@[simp] theorem State.berthWrite_supply (s : State) (q : Option Nat) (n : Nat) (m : BerthMsg) : (s.berthWrite q n m).2.supply = s.supply :=
  SameBut.same (State.berthWrite_same ..) .supply (by decide)
@[simp] theorem State.berthWrite_boot (s : State) (q : Option Nat) (n : Nat) (m : BerthMsg) : (s.berthWrite q n m).2.boot = s.boot :=
  SameBut.same (State.berthWrite_same ..) .boot (by decide)
@[simp] theorem State.berthWrite_sec (s : State) (q : Option Nat) (n : Nat) (m : BerthMsg) : (s.berthWrite q n m).2.sec = s.sec :=
  SameBut.same (State.berthWrite_same ..) .sec (by decide)
@[simp] theorem State.berthWrite_pt (s : State) (q : Option Nat) (n : Nat) (m : BerthMsg) : (s.berthWrite q n m).2.pt = s.pt :=
  SameBut.same (State.berthWrite_same ..) .pt (by decide)
@[simp] theorem State.berthWrite_ptAux (s : State) (q : Option Nat) (n : Nat) (m : BerthMsg) : (s.berthWrite q n m).2.ptAux = s.ptAux :=
  SameBut.same (State.berthWrite_same ..) .ptAux (by decide)
@[simp] theorem State.berthWrite_ptDies (s : State) (q : Option Nat) (n : Nat) (m : BerthMsg) : (s.berthWrite q n m).2.ptDies = s.ptDies :=
  SameBut.same (State.berthWrite_same ..) .ptDies (by decide)
@[simp] theorem State.berthWrite_hm (s : State) (q : Option Nat) (n : Nat) (m : BerthMsg) : (s.berthWrite q n m).2.hm = s.hm :=
  SameBut.same (State.berthWrite_same ..) .hm (by decide)
@[simp] theorem State.berthWrite_hmAux (s : State) (q : Option Nat) (n : Nat) (m : BerthMsg) : (s.berthWrite q n m).2.hmAux = s.hmAux :=
  SameBut.same (State.berthWrite_same ..) .hmAux (by decide)
@[simp] theorem State.berthWrite_i3c (s : State) (q : Option Nat) (n : Nat) (m : BerthMsg) : (s.berthWrite q n m).2.i3c = s.i3c :=
  SameBut.same (State.berthWrite_same ..) .i3c (by decide)
@[simp] theorem State.berthWrite_mf (s : State) (q : Option Nat) (n : Nat) (m : BerthMsg) : (s.berthWrite q n m).2.mf = s.mf :=
  SameBut.same (State.berthWrite_same ..) .mf (by decide)
@[simp] theorem State.berthWrite_mfAux (s : State) (q : Option Nat) (n : Nat) (m : BerthMsg) : (s.berthWrite q n m).2.mfAux = s.mfAux :=
  SameBut.same (State.berthWrite_same ..) .mfAux (by decide)
@[simp] theorem State.berthWrite_clusters (s : State) (q : Option Nat) (n : Nat) (m : BerthMsg) : (s.berthWrite q n m).2.clusters = s.clusters :=
  SameBut.same (State.berthWrite_same ..) .clusters (by decide)
@[simp] theorem State.berthWrite_memDies (s : State) (q : Option Nat) (n : Nat) (m : BerthMsg) : (s.berthWrite q n m).2.memDies = s.memDies :=
  SameBut.same (State.berthWrite_same ..) .memDies (by decide)
@[simp] theorem State.berthWrite_memAux (s : State) (q : Option Nat) (n : Nat) (m : BerthMsg) : (s.berthWrite q n m).2.memAux = s.memAux :=
  SameBut.same (State.berthWrite_same ..) .memAux (by decide)
@[simp] theorem State.berthWrite_links (s : State) (q : Option Nat) (n : Nat) (m : BerthMsg) : (s.berthWrite q n m).2.links = s.links :=
  SameBut.same (State.berthWrite_same ..) .links (by decide)
@[simp] theorem State.berthWrite_linkCtrs (s : State) (q : Option Nat) (n : Nat) (m : BerthMsg) : (s.berthWrite q n m).2.linkCtrs = s.linkCtrs :=
  SameBut.same (State.berthWrite_same ..) .linkCtrs (by decide)
@[simp] theorem State.berthWrite_kx (s : State) (q : Option Nat) (n : Nat) (m : BerthMsg) : (s.berthWrite q n m).2.kx = s.kx :=
  SameBut.same (State.berthWrite_same ..) .kx (by decide)
@[simp] theorem State.berthWrite_reds (s : State) (q : Option Nat) (n : Nat) (m : BerthMsg) : (s.berthWrite q n m).2.reds = s.reds :=
  SameBut.same (State.berthWrite_same ..) .reds (by decide)
@[simp] theorem State.berthWrite_gw (s : State) (q : Option Nat) (n : Nat) (m : BerthMsg) : (s.berthWrite q n m).2.gw = s.gw :=
  SameBut.same (State.berthWrite_same ..) .gw (by decide)
@[simp] theorem State.berthWrite_gwAux (s : State) (q : Option Nat) (n : Nat) (m : BerthMsg) : (s.berthWrite q n m).2.gwAux = s.gwAux :=
  SameBut.same (State.berthWrite_same ..) .gwAux (by decide)
@[simp] theorem State.berthWrite_parts (s : State) (q : Option Nat) (n : Nat) (m : BerthMsg) : (s.berthWrite q n m).2.parts = s.parts :=
  SameBut.same (State.berthWrite_same ..) .parts (by decide)
@[simp] theorem State.berthWrite_runs (s : State) (q : Option Nat) (n : Nat) (m : BerthMsg) : (s.berthWrite q n m).2.runs = s.runs :=
  SameBut.same (State.berthWrite_same ..) .runs (by decide)
@[simp] theorem State.berthWrite_jr (s : State) (q : Option Nat) (n : Nat) (m : BerthMsg) : (s.berthWrite q n m).2.jr = s.jr :=
  SameBut.same (State.berthWrite_same ..) .jr (by decide)
@[simp] theorem State.berthWrite_pkg (s : State) (q : Option Nat) (n : Nat) (m : BerthMsg) : (s.berthWrite q n m).2.pkg = s.pkg :=
  SameBut.same (State.berthWrite_same ..) .pkg (by decide)

/-! ## draw -/

@[simp] theorem State.draw_pending (s : State) : s.draw.2.pending = s.pending :=
  SameBut.same (State.draw_same _) .pending (by decide)
@[simp] theorem State.draw_deferred (s : State) : s.draw.2.deferred = s.deferred :=
  SameBut.same (State.draw_same _) .deferred (by decide)
@[simp] theorem State.draw_supply (s : State) : s.draw.2.supply = s.supply :=
  SameBut.same (State.draw_same _) .supply (by decide)
@[simp] theorem State.draw_boot (s : State) : s.draw.2.boot = s.boot :=
  SameBut.same (State.draw_same _) .boot (by decide)
@[simp] theorem State.draw_sec (s : State) : s.draw.2.sec = s.sec :=
  SameBut.same (State.draw_same _) .sec (by decide)
@[simp] theorem State.draw_pt (s : State) : s.draw.2.pt = s.pt :=
  SameBut.same (State.draw_same _) .pt (by decide)
@[simp] theorem State.draw_ptAux (s : State) : s.draw.2.ptAux = s.ptAux :=
  SameBut.same (State.draw_same _) .ptAux (by decide)
@[simp] theorem State.draw_ptDies (s : State) : s.draw.2.ptDies = s.ptDies :=
  SameBut.same (State.draw_same _) .ptDies (by decide)
@[simp] theorem State.draw_hm (s : State) : s.draw.2.hm = s.hm :=
  SameBut.same (State.draw_same _) .hm (by decide)
@[simp] theorem State.draw_hmAux (s : State) : s.draw.2.hmAux = s.hmAux :=
  SameBut.same (State.draw_same _) .hmAux (by decide)
@[simp] theorem State.draw_events (s : State) : s.draw.2.events = s.events :=
  SameBut.same (State.draw_same _) .events (by decide)
@[simp] theorem State.draw_i3c (s : State) : s.draw.2.i3c = s.i3c :=
  SameBut.same (State.draw_same _) .i3c (by decide)
@[simp] theorem State.draw_mf (s : State) : s.draw.2.mf = s.mf :=
  SameBut.same (State.draw_same _) .mf (by decide)
@[simp] theorem State.draw_mfAux (s : State) : s.draw.2.mfAux = s.mfAux :=
  SameBut.same (State.draw_same _) .mfAux (by decide)
@[simp] theorem State.draw_clusters (s : State) : s.draw.2.clusters = s.clusters :=
  SameBut.same (State.draw_same _) .clusters (by decide)
@[simp] theorem State.draw_mem (s : State) : s.draw.2.mem = s.mem :=
  SameBut.same (State.draw_same _) .mem (by decide)
@[simp] theorem State.draw_memDies (s : State) : s.draw.2.memDies = s.memDies :=
  SameBut.same (State.draw_same _) .memDies (by decide)
@[simp] theorem State.draw_memAux (s : State) : s.draw.2.memAux = s.memAux :=
  SameBut.same (State.draw_same _) .memAux (by decide)
@[simp] theorem State.draw_berths (s : State) : s.draw.2.berths = s.berths :=
  SameBut.same (State.draw_same _) .berths (by decide)
@[simp] theorem State.draw_links (s : State) : s.draw.2.links = s.links :=
  SameBut.same (State.draw_same _) .links (by decide)
@[simp] theorem State.draw_linkCtrs (s : State) : s.draw.2.linkCtrs = s.linkCtrs :=
  SameBut.same (State.draw_same _) .linkCtrs (by decide)
@[simp] theorem State.draw_kx (s : State) : s.draw.2.kx = s.kx :=
  SameBut.same (State.draw_same _) .kx (by decide)
@[simp] theorem State.draw_reds (s : State) : s.draw.2.reds = s.reds :=
  SameBut.same (State.draw_same _) .reds (by decide)
@[simp] theorem State.draw_gw (s : State) : s.draw.2.gw = s.gw :=
  SameBut.same (State.draw_same _) .gw (by decide)
@[simp] theorem State.draw_gwAux (s : State) : s.draw.2.gwAux = s.gwAux :=
  SameBut.same (State.draw_same _) .gwAux (by decide)
@[simp] theorem State.draw_parts (s : State) : s.draw.2.parts = s.parts :=
  SameBut.same (State.draw_same _) .parts (by decide)
@[simp] theorem State.draw_runs (s : State) : s.draw.2.runs = s.runs :=
  SameBut.same (State.draw_same _) .runs (by decide)
@[simp] theorem State.draw_jr (s : State) : s.draw.2.jr = s.jr :=
  SameBut.same (State.draw_same _) .jr (by decide)
@[simp] theorem State.draw_pkg (s : State) : s.draw.2.pkg = s.pkg :=
  SameBut.same (State.draw_same _) .pkg (by decide)

/-! ## transientFault -/

@[simp] theorem State.transientFault_pending (s : State) (r : Resource) : (s.transientFault r).2.pending = s.pending :=
  SameBut.same (State.transientFault_same ..) .pending (by decide)
@[simp] theorem State.transientFault_deferred (s : State) (r : Resource) : (s.transientFault r).2.deferred = s.deferred :=
  SameBut.same (State.transientFault_same ..) .deferred (by decide)
@[simp] theorem State.transientFault_free (s : State) (r : Resource) : (s.transientFault r).2.free = s.free :=
  SameBut.same (State.transientFault_same ..) .free (by decide)
@[simp] theorem State.transientFault_supply (s : State) (r : Resource) : (s.transientFault r).2.supply = s.supply :=
  SameBut.same (State.transientFault_same ..) .supply (by decide)
@[simp] theorem State.transientFault_boot (s : State) (r : Resource) : (s.transientFault r).2.boot = s.boot :=
  SameBut.same (State.transientFault_same ..) .boot (by decide)
@[simp] theorem State.transientFault_sec (s : State) (r : Resource) : (s.transientFault r).2.sec = s.sec :=
  SameBut.same (State.transientFault_same ..) .sec (by decide)
@[simp] theorem State.transientFault_pt (s : State) (r : Resource) : (s.transientFault r).2.pt = s.pt :=
  SameBut.same (State.transientFault_same ..) .pt (by decide)
@[simp] theorem State.transientFault_ptAux (s : State) (r : Resource) : (s.transientFault r).2.ptAux = s.ptAux :=
  SameBut.same (State.transientFault_same ..) .ptAux (by decide)
@[simp] theorem State.transientFault_ptDies (s : State) (r : Resource) : (s.transientFault r).2.ptDies = s.ptDies :=
  SameBut.same (State.transientFault_same ..) .ptDies (by decide)
@[simp] theorem State.transientFault_hm (s : State) (r : Resource) : (s.transientFault r).2.hm = s.hm :=
  SameBut.same (State.transientFault_same ..) .hm (by decide)
@[simp] theorem State.transientFault_mf (s : State) (r : Resource) : (s.transientFault r).2.mf = s.mf :=
  SameBut.same (State.transientFault_same ..) .mf (by decide)
@[simp] theorem State.transientFault_mfAux (s : State) (r : Resource) : (s.transientFault r).2.mfAux = s.mfAux :=
  SameBut.same (State.transientFault_same ..) .mfAux (by decide)
@[simp] theorem State.transientFault_clusters (s : State) (r : Resource) : (s.transientFault r).2.clusters = s.clusters :=
  SameBut.same (State.transientFault_same ..) .clusters (by decide)
@[simp] theorem State.transientFault_memDies (s : State) (r : Resource) : (s.transientFault r).2.memDies = s.memDies :=
  SameBut.same (State.transientFault_same ..) .memDies (by decide)
@[simp] theorem State.transientFault_memAux (s : State) (r : Resource) : (s.transientFault r).2.memAux = s.memAux :=
  SameBut.same (State.transientFault_same ..) .memAux (by decide)
@[simp] theorem State.transientFault_links (s : State) (r : Resource) : (s.transientFault r).2.links = s.links :=
  SameBut.same (State.transientFault_same ..) .links (by decide)
@[simp] theorem State.transientFault_linkCtrs (s : State) (r : Resource) : (s.transientFault r).2.linkCtrs = s.linkCtrs :=
  SameBut.same (State.transientFault_same ..) .linkCtrs (by decide)
@[simp] theorem State.transientFault_kx (s : State) (r : Resource) : (s.transientFault r).2.kx = s.kx :=
  SameBut.same (State.transientFault_same ..) .kx (by decide)
@[simp] theorem State.transientFault_reds (s : State) (r : Resource) : (s.transientFault r).2.reds = s.reds :=
  SameBut.same (State.transientFault_same ..) .reds (by decide)
@[simp] theorem State.transientFault_gw (s : State) (r : Resource) : (s.transientFault r).2.gw = s.gw :=
  SameBut.same (State.transientFault_same ..) .gw (by decide)
@[simp] theorem State.transientFault_gwAux (s : State) (r : Resource) : (s.transientFault r).2.gwAux = s.gwAux :=
  SameBut.same (State.transientFault_same ..) .gwAux (by decide)
@[simp] theorem State.transientFault_parts (s : State) (r : Resource) : (s.transientFault r).2.parts = s.parts :=
  SameBut.same (State.transientFault_same ..) .parts (by decide)
@[simp] theorem State.transientFault_runs (s : State) (r : Resource) : (s.transientFault r).2.runs = s.runs :=
  SameBut.same (State.transientFault_same ..) .runs (by decide)
@[simp] theorem State.transientFault_jr (s : State) (r : Resource) : (s.transientFault r).2.jr = s.jr :=
  SameBut.same (State.transientFault_same ..) .jr (by decide)
@[simp] theorem State.transientFault_pkg (s : State) (r : Resource) : (s.transientFault r).2.pkg = s.pkg :=
  SameBut.same (State.transientFault_same ..) .pkg (by decide)

/-! ## The replace request -/

@[simp] theorem State.service_hm_service (s : State) (b : Nat) (v : Bool) :
    (s.service b v).hm.service = putBit s.hm.service b v := by
  unfold State.service State.reportService
  simp only []
  split
  · rfl
  · split
    · simp
    · split <;> simp

theorem State.service_hm (s : State) (b : Nat) (v : Bool) :
    ∃ w, (s.service b v).hm = { s.hm with service := putBit s.hm.service b v, reported := w } := by
  unfold State.service State.reportService
  simp only []
  split
  · exact ⟨s.hm.reported, rfl⟩
  · split
    · exact ⟨0, by simp⟩
    · split
      · exact ⟨s.hm.reported, rfl⟩
      · exact ⟨_, by simp; rfl⟩

@[simp] theorem State.service_hm_error (s : State) (b : Nat) (v : Bool) : (s.service b v).hm.error = s.hm.error := by
  obtain ⟨w, h⟩ := State.service_hm s b v; rw [h]
@[simp] theorem State.service_hm_ready (s : State) (b : Nat) (v : Bool) : (s.service b v).hm.ready = s.hm.ready := by
  obtain ⟨w, h⟩ := State.service_hm s b v; rw [h]
@[simp] theorem State.service_hm_readyFail (s : State) (b : Nat) (v : Bool) : (s.service b v).hm.readyFail = s.hm.readyFail := by
  obtain ⟨w, h⟩ := State.service_hm s b v; rw [h]
@[simp] theorem State.service_hm_resetCause (s : State) (b : Nat) (v : Bool) : (s.service b v).hm.resetCause = s.hm.resetCause := by
  obtain ⟨w, h⟩ := State.service_hm s b v; rw [h]
@[simp] theorem State.service_hm_time (s : State) (b : Nat) (v : Bool) : (s.service b v).hm.time = s.hm.time := by
  obtain ⟨w, h⟩ := State.service_hm s b v; rw [h]
@[simp] theorem State.service_hm_timeHi (s : State) (b : Nat) (v : Bool) : (s.service b v).hm.timeHi = s.hm.timeHi := by
  obtain ⟨w, h⟩ := State.service_hm s b v; rw [h]
@[simp] theorem State.service_hm_aon (s : State) (b : Nat) (v : Bool) : (s.service b v).hm.aon = s.hm.aon := by
  obtain ⟨w, h⟩ := State.service_hm s b v; rw [h]
@[simp] theorem State.service_hm_aonFrac (s : State) (b : Nat) (v : Bool) : (s.service b v).hm.aonFrac = s.hm.aonFrac := by
  obtain ⟨w, h⟩ := State.service_hm s b v; rw [h]
@[simp] theorem State.service_hm_aonHi (s : State) (b : Nat) (v : Bool) : (s.service b v).hm.aonHi = s.hm.aonHi := by
  obtain ⟨w, h⟩ := State.service_hm s b v; rw [h]
@[simp] theorem State.service_hm_boardCoord (s : State) (b : Nat) (v : Bool) : (s.service b v).hm.boardCoord = s.hm.boardCoord := by
  obtain ⟨w, h⟩ := State.service_hm s b v; rw [h]
@[simp] theorem State.service_hm_feed (s : State) (b : Nat) (v : Bool) : (s.service b v).hm.feed = s.hm.feed := by
  obtain ⟨w, h⟩ := State.service_hm s b v; rw [h]
@[simp] theorem State.service_hm_linkMedium (s : State) (b : Nat) (v : Bool) : (s.service b v).hm.linkMedium = s.hm.linkMedium := by
  obtain ⟨w, h⟩ := State.service_hm s b v; rw [h]
@[simp] theorem State.service_hm_straps (s : State) (b : Nat) (v : Bool) : (s.service b v).hm.straps = s.hm.straps := by
  obtain ⟨w, h⟩ := State.service_hm s b v; rw [h]
@[simp] theorem State.service_hm_recoveryServer (s : State) (b : Nat) (v : Bool) : (s.service b v).hm.recoveryServer = s.hm.recoveryServer := by
  obtain ⟨w, h⟩ := State.service_hm s b v; rw [h]
@[simp] theorem State.service_hm_trayTemp (s : State) (b : Nat) (v : Bool) : (s.service b v).hm.trayTemp = s.hm.trayTemp := by
  obtain ⟨w, h⟩ := State.service_hm s b v; rw [h]
@[simp] theorem State.service_hm_trayTempSet (s : State) (b : Nat) (v : Bool) : (s.service b v).hm.trayTempSet = s.hm.trayTempSet := by
  obtain ⟨w, h⟩ := State.service_hm s b v; rw [h]
@[simp] theorem State.service_hm_trayFlow (s : State) (b : Nat) (v : Bool) : (s.service b v).hm.trayFlow = s.hm.trayFlow := by
  obtain ⟨w, h⟩ := State.service_hm s b v; rw [h]

end Sys2Proof.Machine
end

