-- ==== Sys2Proof/Laws/Mailbox.lean ====
section
/-!
SUPPORT. The owner mailbox: what a record written into it reads back as, and that it bears on no check.
-/

namespace Sys2Proof.Machine

theorem Sparse.get_foldl_set {β : Type} [DecidableEq β] (d : Nat → β) (l : List β) (k q : Nat) (m : Sparse β) :
    Sparse.get d ((l.zipIdx k).foldl (fun m x => Sparse.set d m x.2 x.1) m) q
      = if k ≤ q then (l[q - k]?).getD (Sparse.get d m q) else Sparse.get d m q := by
  induction l generalizing k m with
  | nil => simp
  | cons v l ih =>
    rw [List.zipIdx_cons, List.foldl_cons, ih, Sparse.get_set]
    by_cases h : k = q
    · subst h; have h3 : ¬ k + 1 ≤ k := by omega
      simp [h3]
    · by_cases h2 : k ≤ q
      · have h3 : k + 1 ≤ q := by omega
        have h4 : q - k = (q - (k + 1)) + 1 := by omega
        simp [h, h2, h3, h4]
      · have h3 : ¬ k + 1 ≤ q := by omega
        simp [h, h2, h3]

/-- The little-endian bytes of a little-endian number are its bytes. -/
theorem natLe_leNat (b : Bytes) : natLe b.length (leNat b) = b := by
  induction b with
  | nil => rfl
  | cons x b ih =>
    have h1 : BitVec.ofNat 8 (x.toNat + 256 * leNat b) = x := by
      apply BitVec.eq_of_toNat_eq; have := x.isLt; simp only [BitVec.toNat_ofNat]; omega
    have h2 : (x.toNat + 256 * leNat b) / 256 = leNat b := by have := x.isLt; omega
    simp only [leNat, List.length_cons, natLe, h1, h2, ih]

theorem leNat_lt (b : Bytes) : leNat b < 256 ^ b.length := by
  induction b with
  | nil => simp [leNat]
  | cons x b ih =>
    have := x.isLt
    simp only [leNat, List.length_cons, Nat.pow_succ]
    omega

/-- The words of a byte string, as bytes. -/
theorem flatMap_wordsOf (n : Nat) (b : Bytes) (h : 4 * n ≤ b.length) : (wordsOf n b).flatMap (wordLe 4) = b.take (4 * n) := by
  induction n with
  | zero => simp [wordsOf]
  | succ n ih =>
    have hs : (slice b (4 * n) 4).length = 4 := by simp [slice]; omega
    have hlt : leNat (slice b (4 * n) 4) < 2 ^ 32 := by have := leNat_lt (slice b (4 * n) 4); rw [hs] at this; simpa using this
    have hw : wordLe 4 (BitVec.ofNat 32 (leAt b (4 * n) 4)) = slice b (4 * n) 4 := by
      have := natLe_leNat (slice b (4 * n) 4)
      rw [hs] at this
      rw [wordLe, leAt, BitVec.toNat_ofNat, Nat.mod_eq_of_lt hlt, this]
    have ih := ih (by omega)
    simp only [wordsOf] at ih ⊢
    rw [List.range_succ, List.map_append, List.flatMap_append, ih]
    simp only [List.map_cons, List.map_nil, List.flatMap_cons, List.flatMap_nil, List.append_nil, hw, slice]
    rw [show 4 * (n + 1) = 4 * n + 4 by omega, List.take_add]

theorem length_padTo (n : Nat) (b : Bytes) : (padTo n b).length = n := by simp [padTo, zeros]; omega

theorem length_wordsOf (n : Nat) (b : Bytes) : (wordsOf n b).length = n := by simp [wordsOf]

/-- What a record written into the mailbox reads back as: its bytes, and zeros after them. -/
theorem State.mailBytes_putMail (s : State) (b : Bytes) : (s.putMail b).mailBytes = padTo 512 b := by
  have h : ∀ i, ((s.putMail b).sec.mailbox.get (fun _ => (0 : Word)) i) = ((wordsOf 128 (padTo 512 b))[i]?).getD 0 := by
    intro i
    simp only [State.putMail, State.modSec]
    rw [Sparse.get_foldl_set]
    simp [Sparse.get]
  have h2 : (List.range 128).map (fun i => ((wordsOf 128 (padTo 512 b))[i]?).getD 0) = wordsOf 128 (padTo 512 b) := by
    apply List.ext_getElem
    · simp [length_wordsOf]
    · intro i h1 h2; simp [List.getElem?_eq_getElem h2]
  unfold State.mailBytes
  simp only [h]
  rw [← List.flatMap_map (f := fun i => ((wordsOf 128 (padTo 512 b))[i]?).getD 0) (g := wordLe 4), h2,
    flatMap_wordsOf _ _ (by first | (rw [length_padTo]; decide) | rw [length_padTo])]
  exact List.take_of_length_le (by first | (rw [length_padTo]; decide) | rw [length_padTo])

/-- The mailbox bears on no check of a record. -/
theorem State.ownerResult_putMail (s : State) (b : Bytes) (i3c : Bool) (r : Bytes) :
    (s.putMail b).ownerResult i3c r = s.ownerResult i3c r := rfl

end Sys2Proof.Machine
end

