-- ==== Sys2Proof/Laws/Memory.lean ====
section
/-!
SUPPORT. The memories: a read after a write gives what was written, a write leaves every other byte alone, and every
operation keeps the canonical form.
-/

namespace Sys2Proof.Machine

/-- Every listed address lies in a range. -/
def Cells.within (a n : Nat) (m : Cells) : Prop := ∀ e ∈ m, a ≤ e.1 ∧ e.1 < a + n

theorem Cells.byte_nil (a : Nat) : Cells.byte [] a = 0 := rfl

theorem Cells.byte_absent (m : Cells) (a : Nat) (h : ∀ e ∈ m, e.1 ≠ a) : Cells.byte m a = 0 := by
  induction m with
  | nil => rfl
  | cons e m ih =>
    have h1 := h e (List.mem_cons_self ..)
    have h2 := ih fun x hx => h x (List.mem_cons_of_mem _ hx)
    simp only [Cells.byte, Sparse.get, h1, if_false] at h2 ⊢; exact h2

theorem Cells.byte_append_left (l r : Cells) (a : Nat) (h : ∀ e ∈ l, e.1 ≠ a) :
    Cells.byte (l ++ r) a = Cells.byte r a := by
  induction l with
  | nil => rfl
  | cons e l ih =>
    have h1 := h e (List.mem_cons_self ..)
    have h2 := ih fun x hx => h x (List.mem_cons_of_mem _ hx)
    simp only [Cells.byte, List.cons_append, Sparse.get, h1, if_false] at h2 ⊢; exact h2

theorem Cells.byte_append_right (l r : Cells) (a : Nat) (h : ∀ e ∈ r, e.1 ≠ a) :
    Cells.byte (l ++ r) a = Cells.byte l a := by
  induction l with
  | nil => simpa [Cells.byte_nil] using Cells.byte_absent r a h
  | cons e l ih =>
    simp only [Cells.byte, List.cons_append, Sparse.get] at ih ⊢
    split
    · rfl
    · exact ih

/-- A selection by address keeps the bytes at the addresses it takes, and no other. -/
theorem Cells.byte_filter (m : Cells) (p : Nat → Bool) (a : Nat) :
    Cells.byte (m.filter (fun c => p c.1)) a = if p a then Cells.byte m a else 0 := by
  induction m with
  | nil => simp [Cells.byte_nil]
  | cons e m ih =>
    obtain ⟨j, v⟩ := e
    simp only [List.filter_cons]
    by_cases hp : p j = true
    · simp only [hp, if_true]
      simp only [Cells.byte, Sparse.get] at ih ⊢
      by_cases hj : j = a
      · subst hj; simp only [if_true, hp]
      · simp only [hj, if_false]; exact ih
    · simp only [hp, if_false, Bool.false_eq_true]
      rw [ih]; split
      · rename_i ha
        have hj : j ≠ a := by rintro rfl; exact hp ha
        simp [Cells.byte, Sparse.get, hj]
      · rfl

/-- What a replaced range holds: the new cells inside it, the old ones outside it. -/
theorem Cells.byte_put (m : Cells) (a n : Nat) (mid : Cells) (h : Cells.within a n mid) (q : Nat) :
    Cells.byte (m.put a n mid) q = if a ≤ q ∧ q < a + n then Cells.byte mid q else Cells.byte m q := by
  have hl := Cells.byte_filter m (fun k => decide (k < a)) q
  have hr := Cells.byte_filter m (fun k => decide (a + n ≤ k)) q
  unfold Cells.put
  by_cases h1 : q < a
  · rw [List.append_assoc, Cells.byte_append_right _ _ _ (by
      intro e he; rcases List.mem_append.1 he with g | g
      · have := h e g; omega
      · have := (List.mem_filter.1 g).2; simp at this; omega)]
    have : ¬ (a ≤ q ∧ q < a + n) := by omega
    simp only [this, if_false]; rw [hl]; simp [h1]
  · by_cases h2 : q < a + n
    · have : a ≤ q ∧ q < a + n := by omega
      simp only [this, if_true, and_self]
      rw [Cells.byte_append_right _ _ _ (by
        intro e g; have := (List.mem_filter.1 g).2; simp at this; omega),
        Cells.byte_append_left _ _ _ (by
        intro e g; have := (List.mem_filter.1 g).2; simp at this; omega)]
    · have : ¬ (a ≤ q ∧ q < a + n) := by omega
      simp only [this, if_false]
      rw [Cells.byte_append_left _ _ _ (by
        intro e he; rcases List.mem_append.1 he with g | g
        · have := (List.mem_filter.1 g).2; simp at this; omega
        · have := h e g; omega), hr]
      have : a + n ≤ q := by omega
      simp [this]

theorem Cells.within_ofBytes (a : Nat) (b : Bytes) : Cells.within a b.length (Cells.ofBytes a b) := by
  induction b generalizing a with
  | nil => intro e he; simp [Cells.ofBytes] at he
  | cons x b ih =>
    intro e he
    simp only [Cells.ofBytes] at he
    split at he
    · have := ih (a + 1) e he; simp only [List.length_cons]; omega
    · rcases List.mem_cons.1 he with g | g
      · subst g; simp only [List.length_cons]; omega
      · have := ih (a + 1) e g; simp only [List.length_cons]; omega

/-- The byte at an address of bytes laid out as cells. -/
theorem Cells.byte_ofBytes (a : Nat) (b : Bytes) (i : Nat) (h : i < b.length) :
    Cells.byte (Cells.ofBytes a b) (a + i) = b[i] := by
  induction b generalizing a i with
  | nil => simp at h
  | cons x b ih =>
    cases i with
    | zero =>
      simp only [Cells.ofBytes, Nat.add_zero, List.getElem_cons_zero]
      split
      · rename_i hx
        rw [hx]; refine Cells.byte_absent _ _ fun e he => ?_
        have := Cells.within_ofBytes (a + 1) b e he; omega
      · simp [Cells.byte, Sparse.get]
    | succ i =>
      have := ih (a + 1) i (by simpa using h)
      rw [show a + 1 + i = a + (i + 1) by omega] at this
      simp only [Cells.ofBytes, List.getElem_cons_succ]
      split
      · exact this
      · simp only [Cells.byte, Sparse.get] at this ⊢
        rw [if_neg (by omega)]; exact this

/-- A read after a write gives the byte written. -/
theorem Cells.byte_write_inside (m : Cells) (a : Nat) (b : Bytes) (i : Nat) (h : i < b.length) :
    Cells.byte (m.write a b) (a + i) = b[i] := by
  unfold Cells.write
  rw [Cells.byte_put _ _ _ _ (Cells.within_ofBytes a b), if_pos (by omega), Cells.byte_ofBytes a b i h]

/-- A write leaves every other byte alone. -/
theorem Cells.byte_write_outside (m : Cells) (a : Nat) (b : Bytes) (q : Nat) (h : q < a ∨ a + b.length ≤ q) :
    Cells.byte (m.write a b) q = Cells.byte m q := by
  unfold Cells.write
  rw [Cells.byte_put _ _ _ _ (Cells.within_ofBytes a b), if_neg (by omega)]

theorem Cells.within_moved (m : Cells) (a n dest : Nat) : Cells.within dest n (Cells.moved m a n dest) := by
  intro e he
  obtain ⟨c, hc, rfl⟩ := List.mem_map.1 he
  have := (List.mem_filter.1 hc).2
  simp at this; simp; omega

/-- Cells moved from one place to another hold the bytes they held. -/
theorem Cells.byte_moved (m : Cells) (a n dest i : Nat) (h : i < n) :
    Cells.byte (Cells.moved m a n dest) (dest + i) = Cells.byte m (a + i) := by
  induction m with
  | nil => rfl
  | cons e m ih =>
    obtain ⟨j, v⟩ := e
    simp only [Cells.moved, List.filter_cons] at ih ⊢
    by_cases hj : (decide (a ≤ j) && decide (j < a + n)) = true
    · simp only [hj, if_true, List.map_cons]
      simp only [Bool.and_eq_true, decide_eq_true_eq] at hj
      simp only [Cells.byte, Sparse.get] at ih ⊢
      by_cases hq : j = a + i
      · rw [if_pos (by omega), if_pos hq]
      · rw [if_neg (by omega), if_neg hq]; exact ih
    · simp only [hj, if_false, Bool.false_eq_true]
      simp only [Bool.and_eq_true, decide_eq_true_eq, not_and] at hj
      have hq : j ≠ a + i := by omega
      simp only [Cells.byte, Sparse.get, hq, if_false] at ih ⊢; exact ih

/-- Cleared bytes read 0, and the others stay. -/
theorem Cells.byte_clear (m : Cells) (a n q : Nat) :
    Cells.byte (m.clear a n) q = if a ≤ q ∧ q < a + n then 0 else Cells.byte m q := by
  unfold Cells.clear
  rw [Cells.byte_put _ _ _ _ (by intro e he; simp at he)]; rfl

/-! ## The canonical form -/

theorem Cells.wf_iff (m : Cells) :
    Cells.wf m = true ↔ m.Pairwise (fun x y => x.1 < y.1) ∧ ∀ e ∈ m, e.2 ≠ 0 := by
  have hs : ∀ l : Cells, Sparse.sorted l = true ↔ l.Pairwise (fun x y => x.1 < y.1) := by
    intro l
    induction l with
    | nil => simp [Sparse.sorted]
    | cons e l ih =>
      obtain ⟨k, v⟩ := e
      simp [Sparse.sorted, Sparse.above, ih, List.pairwise_cons]
  simp [Cells.wf, Sparse.wf, hs, unlisted, -Prod.forall]
  intro _; exact ⟨fun h e he => of_decide_eq_false (h e he), fun h e he => decide_eq_false (h e he)⟩

theorem Cells.wf_nil : Cells.wf [] = true := rfl

theorem Cells.wf_filter (m : Cells) (p : Host.Cell → Bool) (h : Cells.wf m = true) : Cells.wf (m.filter p) = true := by
  rw [Cells.wf_iff] at *
  exact ⟨h.1.filter _, fun e he => h.2 e (List.mem_filter.1 he).1⟩

/-- Replacing a range by cells that lie in it keeps the canonical form. -/
theorem Cells.wf_put (m : Cells) (a n : Nat) (mid : Cells) (hm : Cells.wf m = true) (hd : Cells.wf mid = true)
    (hw : Cells.within a n mid) : Cells.wf (m.put a n mid) = true := by
  rw [Cells.wf_iff] at *
  unfold Cells.put
  constructor
  · refine List.pairwise_append.2 ⟨List.pairwise_append.2 ⟨hm.1.filter _, hd.1, ?_⟩, hm.1.filter _, ?_⟩
    · intro x hx y hy
      have h1 := (List.mem_filter.1 hx).2; have h2 := hw y hy; simp at h1; omega
    · intro x hx y hy
      have h1 := (List.mem_filter.1 hy).2; simp at h1
      rcases List.mem_append.1 hx with g | g
      · have h2 := (List.mem_filter.1 g).2; simp at h2; omega
      · have h2 := hw x g; omega
  · intro e he
    rcases List.mem_append.1 he with g | g
    · rcases List.mem_append.1 g with g | g
      · exact hm.2 e (List.mem_filter.1 g).1
      · exact hd.2 e g
    · exact hm.2 e (List.mem_filter.1 g).1

theorem Cells.wf_ofBytes (a : Nat) (b : Bytes) : Cells.wf (Cells.ofBytes a b) = true := by
  induction b generalizing a with
  | nil => rfl
  | cons x b ih =>
    simp only [Cells.ofBytes]
    split
    · exact ih (a + 1)
    · rename_i hx
      have := (Cells.wf_iff _).1 (ih (a + 1))
      rw [Cells.wf_iff]
      refine ⟨List.pairwise_cons.2 ⟨fun e he => ?_, this.1⟩, fun e he => ?_⟩
      · have := Cells.within_ofBytes (a + 1) b e he; simp; omega
      · rcases List.mem_cons.1 he with g | g
        · subst g; exact hx
        · exact this.2 e g

theorem Cells.wf_write (m : Cells) (a : Nat) (b : Bytes) (h : Cells.wf m = true) : Cells.wf (m.write a b) = true :=
  Cells.wf_put m a b.length _ h (Cells.wf_ofBytes a b) (Cells.within_ofBytes a b)

theorem Cells.wf_moved (m : Cells) (a n dest : Nat) (h : Cells.wf m = true) : Cells.wf (Cells.moved m a n dest) = true := by
  rw [Cells.wf_iff] at *
  constructor
  · refine List.pairwise_map.2 ((h.1.filter _).imp_of_mem ?_)
    intro x y hx hy hxy
    have h1 := (List.mem_filter.1 hx).2; have h2 := (List.mem_filter.1 hy).2
    simp at h1 h2 ⊢; omega
  · intro e he
    obtain ⟨c, hc, rfl⟩ := List.mem_map.1 he
    exact h.2 c (List.mem_filter.1 hc).1

theorem Cells.wf_clear (m : Cells) (a n : Nat) (h : Cells.wf m = true) : Cells.wf (m.clear a n) = true :=
  Cells.wf_put m a n [] h rfl (by intro e he; simp at he)

/-- Writes in a row keep the canonical form. -/
theorem Cells.wf_foldl {α : Type} (f : Cells → α → Cells) (hf : ∀ m x, Cells.wf m = true → Cells.wf (f m x) = true)
    (xs : List α) (m : Cells) (h : Cells.wf m = true) : Cells.wf (xs.foldl f m) = true := by
  induction xs generalizing m with
  | nil => exact h
  | cons x xs ih => exact ih _ (hf m x h)

/-! ## The memories of the state -/

theorem Mem.cells_setPoison (m : Mem) (sp sq : Space) (l : List Nat) : (m.setPoison sp l).cells sq = m.cells sq := by
  cases sp <;> cases sq <;> rfl

theorem Mem.cells_setCells (m : Mem) (sp sq : Space) (c : Cells) :
    (m.setCells sp c).cells sq = if sp = sq then c else m.cells sq := by
  cases sp <;> cases sq <;> rfl

theorem Memory.wf_iff (m : Mem) : Memory.wf m = true ↔ ∀ sp, Cells.wf (m.cells sp) = true := by
  constructor
  · intro h sp
    simp only [Memory.wf, Bool.and_eq_true] at h
    cases sp <;> simp [Mem.cells, h]
  · intro h
    have h1 := h .near; have h2 := h .yard; have h3 := h .hold
    simp only [Mem.cells] at h1 h2 h3
    simp [Memory.wf, h1, h2, h3]

/-- The bytes after a range of a memory is replaced. -/
theorem State.byte_putCells (s : State) (sp : Space) (a n : Nat) (mid : Cells) (h : Cells.within a n mid) (sq : Space)
    (q : Nat) : (s.putCells sp a n mid).byte sq q
      = if sp = sq ∧ a ≤ q ∧ q < a + n then Cells.byte mid q else s.byte sq q := by
  simp only [State.byte, State.putCells, Mem.cells_setPoison, Mem.cells_setCells]
  by_cases hs : sp = sq
  · subst hs; simp only [if_true, true_and]; exact Cells.byte_put _ _ _ _ h q
  · simp [hs]

theorem State.wf_putCells (s : State) (sp : Space) (a n : Nat) (mid : Cells) (hs : Memory.wf s.mem = true)
    (hd : Cells.wf mid = true) (hw : Cells.within a n mid) : Memory.wf (s.putCells sp a n mid).mem = true := by
  rw [Memory.wf_iff] at *
  intro sq
  simp only [State.putCells, Mem.cells_setPoison, Mem.cells_setCells]
  split
  · exact Cells.wf_put _ _ _ _ (hs sp) hd hw
  · exact hs sq

/-- A store gives its bytes and leaves every other byte of every memory alone. -/
theorem State.byte_store_inside (s : State) (sp : Space) (a : Nat) (b : Bytes) (i : Nat) (h : i < b.length) :
    (s.store sp a b).byte sp (a + i) = b[i] := by
  unfold State.store
  rw [State.byte_putCells _ _ _ _ _ (Cells.within_ofBytes a b), if_pos ⟨rfl, by omega, by omega⟩,
    Cells.byte_ofBytes a b i h]

theorem State.store_outside (s : State) (sp : Space) (a : Nat) (b : Bytes) :
    SameBytesOutside sp a b.length s (s.store sp a b) := by
  intro sq q h
  unfold State.store
  rw [State.byte_putCells _ _ _ _ _ (Cells.within_ofBytes a b), if_neg]
  rintro ⟨rfl, h1, h2⟩; rcases h with h | h | h
  · exact h rfl
  · omega
  · omega

theorem State.wf_store (s : State) (sp : Space) (a : Nat) (b : Bytes) (h : Memory.wf s.mem = true) :
    Memory.wf (s.store sp a b).mem = true :=
  State.wf_putCells s sp a _ _ h (Cells.wf_ofBytes a b) (Cells.within_ofBytes a b)

theorem State.byte_clearBytes (s : State) (sp : Space) (a n : Nat) (sq : Space) (q : Nat) :
    (s.clearBytes sp a n).byte sq q = if sp = sq ∧ a ≤ q ∧ q < a + n then 0 else s.byte sq q := by
  unfold State.clearBytes
  rw [State.byte_putCells _ _ _ _ _ (by intro e he; simp at he)]; rfl

theorem State.wf_clearBytes (s : State) (sp : Space) (a n : Nat) (h : Memory.wf s.mem = true) :
    Memory.wf (s.clearBytes sp a n).mem = true :=
  State.wf_putCells s sp a n [] h rfl (by intro e he; simp at he)

/-- A copy gives the destination the source's bytes. -/
theorem State.byte_copyBytes_inside (s : State) (src : Space) (a : Nat) (dst : Space) (dest n i : Nat) (h : i < n) :
    (s.copyBytes src a dst dest n).byte dst (dest + i) = s.byte src (a + i) := by
  unfold State.copyBytes
  rw [State.byte_putCells _ _ _ _ _ (Cells.within_moved (s.mem.cells src) a n dest), if_pos ⟨rfl, by omega, by omega⟩, Cells.byte_moved _ _ _ _ _ h]
  rfl

theorem State.copyBytes_outside (s : State) (src : Space) (a : Nat) (dst : Space) (dest n : Nat) :
    SameBytesOutside dst dest n s (s.copyBytes src a dst dest n) := by
  intro sq q h
  unfold State.copyBytes
  rw [State.byte_putCells _ _ _ _ _ (Cells.within_moved (s.mem.cells src) a n dest), if_neg]
  rintro ⟨rfl, h1, h2⟩; rcases h with h | h | h
  · exact h rfl
  · omega
  · omega

theorem State.wf_copyBytes (s : State) (src : Space) (a : Nat) (dst : Space) (dest n : Nat) (h : Memory.wf s.mem = true) :
    Memory.wf (s.copyBytes src a dst dest n).mem = true :=
  State.wf_putCells s dst dest n _ h (Cells.wf_moved _ _ _ _ ((Memory.wf_iff _).1 h src)) (Cells.within_moved (s.mem.cells src) a n dest)

/-- Poison changes no byte. -/
theorem State.byte_poisonAt (s : State) (sp : Space) (a n : Nat) (sq : Space) (q : Nat) :
    (s.poisonAt sp a n).byte sq q = s.byte sq q := by
  simp only [State.byte, State.poisonAt, Mem.cells_setPoison]

theorem State.wf_poisonAt (s : State) (sp : Space) (a n : Nat) (h : Memory.wf s.mem = true) :
    Memory.wf (s.poisonAt sp a n).mem = true := by
  rw [Memory.wf_iff] at *
  intro sq; simp only [State.poisonAt, Mem.cells_setPoison]; exact h sq

/-- Reset's memory has the canonical form. -/
theorem Memory.wf_reset : Memory.wf State.reset.mem = true := rfl

end Sys2Proof.Machine
end

