-- ==== Sys2Proof/WellFormed.lean ====
section
/-!
DEFINITION. Which commands are well formed: the bounds that the manual sets on an operand and that its type does not
hold already. A command outside them names no unit or no payload of the device.
-/

namespace Sys2Proof

/-- A package die of R20: the Harbourmaster, the Gateway, four link dies and eight compute dies. -/
def packageDie (d : BitVec 4) : Bool := decide (d.toNat < 14)

/-- A bit of HM_READY that a function has (Table 15.3). -/
def readyBit (b : BitVec 5) : Bool := decide (b.toNat ≤ 8) || (decide (12 ≤ b.toNat) && decide (b.toNat ≤ 24))

/-- A hot spot of Table 13.5. -/
def hotSpot (n : Nat) : Bool := decide (n < 189)

/-- A command is well formed. -/
def Instr.wf (i : Instr) : Bool :=
  match i with
  | .registerWrite _ _ => true
  | .rcRead _ _ => true
  | .eventRecordAccept die => packageDie die
  | .inputRise20V => true
  | .inputRise39V => true
  | .railsInRegulation => true
  | .brownOut => true
  | .inputOvervoltage => true
  | .inputStageClose => true
  | .refclkLost _ => true
  | .resetNAssert => true
  | .resetNDeassert => true
  | .mgmtClkLock => true
  | .imageVerifyComplete _ _ _ => true
  | .tftpRetransmitTimeout => true
  | .tftpAttemptRestart => true
  | .recoveryImageReceived _ _ => true
  | .functionReady bit => readyBit bit
  | .bringupFailed bit _ => readyBit bit
  | .watchdogExpiry => true
  | .managementMemoryUe => true
  | .managementRestartComplete => true
  | .i3cPrivateWrite bytes _ =>
      decide (4 ≤ bytes.length) && decide (bytes.length ≤ 68) && decide (bytes.length % 4 = 0)
  | .i3cPrivateRead addr len _ => addr.isSome && decide (4 ≤ len) && decide (len ≤ 64) && decide (len % 4 = 0)
  | .rstdaa => true
  | .setdasa _ => true
  | .entdaa _ => true
  | .enec => true
  | .disec => true
  | .getpid => true
  | .getbcr => true
  | .getdcr => true
  | .getstatus => true
  | .getmwl => true
  | .getmrl => true
  | .boardInputChange _ _ => true
  | .trayReading _ => true
  | .headroomWrite _ => true
  | .envelopeWrite _ => true
  | .prioCfgWrite _ => true
  | .etsShareWrite _ _ => true
  | .sideCfgWrite _ _ => true
  | .timerCfgWrite _ _ => true
  | .leakInAssert _ => true
  | .timerExpiry _ => true
  | .restoreFactory => true
  | .clearFaultCounts => true
  | .manifestData _ _ _ bytes => decide (bytes.length ≤ 8188)
  | .load => true
  | .manifestSignatureVerified => true
  | .manifestChecksComplete => true
  | .commit => true
  | .amend => true
  | .amendmentChecksComplete => true
  | .withdraw => true
  | .discard => true
  | .pilotAdmit _ _ => true
  | .tileNop _ _ => true
  | .tileFence _ _ => true
  | .pilotFetchReturn _ _ _ _ _ => true
  | .anchorReady _ _ _ _ => true
  | .tileProduct _ _ _ => true
  | .tileRowIssue _ _ _ => true
  | .rowDrain _ _ _ => true
  | .outputCopyComplete _ _ _ => true
  | .spareSelfTestComplete _ _ => true
  | .quantumExpiry _ _ => true
  | .swapComplete _ _ _ _ => true
  | .selfTest _ => true
  | .selfTestComplete _ _ => true
  | .haltSlot _ _ => true
  | .resumeSlot _ _ => true
  | .peakRecordReceive _ _ => true
  | .vectorDescriptorAdmit _ _ => true
  | .vectorNop _ _ => true
  | .vectorMap _ _ _ _ => true
  | .vectorQuant _ _ _ _ => true
  | .vectorMask _ _ _ _ => true
  | .vectorLsum _ _ _ => true
  | .vectorDiscard _ _ => true
  | .lastTileNotice _ _ _ _ => true
  | .stashCopyComplete _ _ => true
  | .stashWaitLimitExpiry _ _ => true
  | .lighterNop _ _ => true
  | .lighterCopy _ _ _ => true
  | .lighterAdd _ _ _ => true
  | .lighterSettle _ _ _ => true
  | .lighterClear _ _ => true
  | .lighterResume _ _ => true
  | .lighterFlush _ _ => true
  | .scrubNow => true
  | .patrolScrub _ => true
  | .refresh _ _ => true
  | .refreshBandRise _ _ _ => true
  | .refreshBandFall _ _ _ => true
  | .rowRepairComplete _ _ _ => true
  | .bankRepairComplete _ _ _ => true
  | .holdSpareTestComplete _ _ _ => true
  | .holdSpareCopyComplete _ _ _ => true
  | .berthWrite _ msg => decide (msg.cls.toNat ≤ 8) && decide (msg.bytes ≠ [])
  | .berthDequeue _ => true
  | .berthFlush _ => true
  | .linkDetectProbe _ _ => true
  | .linkEqualiseComplete _ => true
  | .linkTrainingTimeout _ _ => true
  | .linkLockComplete _ _ => true
  | .linkRttComplete _ _ => true
  | .linkIdentReceived _ record => decide (record.length = 48)
  | .linkCheck _ => true
  | .portMissingDeadline _ => true
  | .discoveryWaitExpiry => true
  | .proceed => true
  | .discoveryHalt => true
  | .enable _ => true
  | .disable _ => true
  | .retrain _ => true
  | .linkLossOfLock _ => true
  | .flitReceive _ _ => true
  | .fecRateWindow _ _ _ _ => true
  | .packetInject _ _ => true
  | .packetForward _ _ _ => true
  | .class0Operation _ _ _ => true
  | .reductionScaleReceive _ _ _ _ => true
  | .reductionScalePhaseClose _ => true
  | .reductionContributionReceive _ _ => true
  | .reductionRound _ => true
  | .excusalReceive _ _ _ _ => true
  | .ethLinkUp _ => true
  | .ethLinkDown _ => true
  | .frameReceive frame _ => decide (60 ≤ frame.length) && decide (frame.length ≤ 9212)
  | .pfcStuck _ => true
  | .cctOpen _ payload => decide (payload.length ≤ 8192)
  | .cctClose _ _ => true
  | .cctKeepalive _ _ => true
  | .berthPut _ _ _ cls bytes => decide (cls.toNat ≤ 8) && decide (bytes ≠ []) && decide (bytes.length ≤ 8188)
  | .berthTake _ _ _ _ => true
  | .frameSend _ _ frame => decide (60 ≤ frame.length) && decide (frame.length ≤ 8192)
  | .qpConnect _ _ qp _ _ _ _ => decide (qp.toNat < 1024)
  | .qpDisconnect _ _ qp => decide (qp.toNat < 1024)
  | .mrpRequest _ _ ops => decide (ops ≠ []) && decide (ops.length ≤ 64)
  | .sessionTimeout _ => true
  | .rdmaReadComplete _ _ _ _ => true
  | .fetchTimeout _ => true
  | .ethRetrain => true
  | .pcieRetrain => true
  | .driveReset _ => true
  | .snapshotLinkUp _ _ => true
  | .nvmeCommandComplete _ _ => true
  | .nvmeCommandTimeout _ _ => true
  | .driveReadyTimeout _ => true
  | .logbookDriveTimeout => true
  | .loop _ => true
  | .endloop _ => true
  | .fetch _ => true
  | .post _ => true
  | .wait _ => true
  | .reduce _ => true
  | .loss _ _ => true
  | .verdict _ => true
  | .verdictResult _ _ _ => true
  | .endStep _ => true
  | .slackWaterOpen _ => true
  | .partnerDigestReceive _ digest => decide (digest.length = 48)
  | .logbookEntryWritten _ => true
  | .snapshotWriteOutComplete _ => true
  | .guestSizeReceive _ _ => true
  | .keeperReceive _ => true
  | .start _ _ _ => true
  | .stop _ _ _ => true
  | .retry _ _ _ => true
  | .skip _ _ _ => true
  | .resume _ _ _ => true
  | .restore _ _ _ _ _ => true
  | .declareLost _ _ _ _ => true
  | .restoreLoadComplete _ _ _ _ => true
  | .forceSnapshot _ => true
  | .readyPacketReceive _ _ _ _ => true
  | .stragglerWaitExpiry _ _ _ => true
  | .haltNoticeReceive _ _ _ _ => true
  | .heartbeatTick _ => true
  | .partnerLossTimeout _ => true
  | .unpartneredLossTimeout _ _ => true
  | .lossNoticeReceive _ _ _ _ => true
  | .claimReceive _ => true
  | .claimAnswer _ _ => true
  | .claimTimeout _ => true
  | .remapAcknowledged _ => true
  | .fillCopyComplete _ _ _ => true
  | .fillRegenComplete _ => true
  | .fillQueueExpiry _ => true
  | .powerEstimateTick e => e.work.all (fun a => decide (a.counts.length = 7)) && decide (e.spine.length = 3)
  | .burstLimitExpiry _ => true
  | .powerMeasurementTick m => decide (m.dieRails.length = 8)
  | .powerDisagreeExpiry => true
  | .powerSensorFaultExpiry _ => true
  | .clearSensorFault => true
  | .ceilingUpdate _ => true
  | .fvLoopTick _ _ => true
  | .thermalModelUpdate spots => spots.all (fun u => hotSpot u.spot)
  | .thermalQuiesceExpiry spot => hotSpot spot
  | .floorDutyRelease _ => true
  | .diodePairSuspect spot _ _ => hotSpot spot
  | .hotspotSensorFault spot _ => hotSpot spot
  | .diodePairClear spot => hotSpot spot
  | .coolantStale => true
  | .coolantDefault => true
  | .marginCheck _ _ => true
  | .marginLower _ => true
  | .supplyWarnFall => true
  | .supplyWarnHeld => true
  | .supplyWarnRise => true
  | .supplyWarnRelease => true
  | .sluiceWaveOpen _ _ => true
  | .droopStretch _ => true
  | .droopRecover _ => true
  | .flowStop _ => true
  | .quiesceComplete => true
  | .quiesceEnd => true
  | .ptResume => true
  | .tideReset => true
  | .thermTrip _ => true
  | .claim _ _ _ key _ => decide (key.length = 96)
  | .setManifestKey _ _ _ slot key _ => decide (slot.toNat < 4) && decide (key.length = 96)
  | .revokeManifestKey _ _ _ slot _ => decide (slot.toNat < 4)
  | .setHostKey _ _ _ slot key _ => decide (slot.toNat < 8) && decide (key.length = 96)
  | .revokeHostKey _ _ _ slot _ => decide (slot.toNat < 8)
  | .installSak _ _ _ args _ => decide (args.length = 164)
  | .removePeer _ _ _ peer _ => decide (peer.toNat < 64)
  | .raiseMinSvn _ _ _ _ _ => true
  | .forceNetworkBoot _ _ _ _ => true
  | .release _ _ _ _ => true
  | .decommission _ _ _ _ => true
  | .clearMailbox => true
  | .issue _ => true
  | .linkDieLoss _ => true
  | .packageLaneFault link _ lane => decide (link < 84) && (decide (8 ≤ link) || decide (lane < 32768))
  | .alwaysOnRailFall => true
  | .driveReady _ _ => true
  | .serviceManagementClear => true
  | .deviceLoss die => packageDie die
  | .jtagInstruction _ => true

end Sys2Proof
end

