-- ==== Sys2Proof/Tests/Slice0.lean ====
section
/-!
SUPPORT. The model's own tests: a command on a small state, and for every statement with hypotheses a state and operands
that meet them.
-/

namespace Sys2Proof.Tests

open Sys2Proof.Machine

set_option Elab.async false

/-! ## States -/

/-- A device whose firmware runs and whose functions are all ready. -/
def up : State :=
  { State.reset with
    supply := { Supply.powered with resetN := true }
    boot := { Boot.held with phase := .firmware }
    sec := { Sec.shipped with idPublicKey := [], fwKeys := [] }
    hm := { Hm.zero with ready := 0x01FFFFFF } }

/-- Power before the always-on rail. -/
def unpowered : State :=
  { State.reset with supply := { Supply.powered with alwaysOn := false, powerGood := false, stageClosed := false } }

/-- The rails not yet in regulation. -/
def noRails : State := { State.reset with supply := { Supply.powered with powerGood := false, resetN := true } }

/-- A boot ROM in a phase. -/
def rom (p : BootPhase) : State := { up with hm := Hm.zero, boot := { Boot.held with phase := p } }

/-! ## The machine, power and reset, boot -/

theorem test_witness_StepRunsTheFrontCommand : up.pending = [] := by decide

theorem test_witness_SupplyAndBootStart :
    (unpowered.supply.alwaysOn = false)
    ∧ ({ up with supply := { up.supply with stageClosed := false } } : State).supply.stageClosed = false
    ∧ up.supply.alwaysOn = true
    ∧ (noRails.boot.phase = .held ∧ noRails.supply.clkHold = false ∧ noRails.dead 0 = false
      ∧ noRails.supply.alwaysOn = true ∧ noRails.supply.stageClosed = true ∧ noRails.supply.bulkCharged = true
      ∧ noRails.supply.powerGood = false ∧ noRails.supply.resetN = true)
    ∧ (State.reset.boot.phase = .held ∧ State.reset.supply.clkHold = false ∧ State.reset.dead 0 = false
      ∧ State.reset.supply.powerGood = true ∧ State.reset.supply.resetN = false) := by decide

theorem test_witness_ResetsHoldTheDevice : up.supply.powerGood = true := by decide

/-- An image of 4,096 bytes for key slot 1, with its key and its signature. -/
def imageE : Nat := 0x1311c2286da5dc1ec1a2682bf32f6090aeaa65105ebcf29d2c428980a19f5e6c5002b270f978d15889896c8e49c3c5db
def imageKey : Bytes :=
  natBe 48 0xe99914d3fab8f85c55035b6edf514ac298b7e5c48ded72a35444af390634982a24115d59be20ba66843c5e6db58fe307
    ++ natBe 48 0x975d869e0c8bd91f74bef0df58384aea4ed03c0f709cbfc3df9f0f98db48cc01b8559b02573664e003b35827eac0a969
def image : Bytes :=
  natLe 4 0x57464443 ++ ([1, 0, 1, 1, 3, 0, 0, 0] ++ (natLe 4 4096 ++ (natLe 8 0 ++ (natLe 4 64 ++ (zeros 3972
    ++ (natBe 48 imageE ++ natBe 48 imageE))))))

/-- A boot ROM in a phase, with that key. -/
def keyed (p : BootPhase) : State := { rom p with sec := { (rom p).sec with fwKeys := [[], imageKey] }, gw := { Gw.zero with ethUp := true } }

theorem test_witness_BootRecoveryAndReadiness_verified :
    (keyed .rom).boot.phase = .rom ∧ (keyed .rom).sec.forceNetwork = false ∧ (keyed .rom).imageFault image = 0
      ∧ (keyed .recovery).boot.phase = .recovery ∧ (keyed .recovery).gw.ethUp = true
      ∧ (keyed .recovery).imageFault image = 0 := by
  have h : (keyed .rom).imageFault image = 0 := by decide +kernel
  have h2 : (keyed .recovery).imageFault image = (keyed .rom).imageFault image := by
    unfold State.imageFault
    rw [show (keyed .recovery).sec = (keyed .rom).sec from rfl]
  exact ⟨by decide, by decide, h, by decide, by decide, h2.trans h⟩

theorem test_witness_BootRecoveryAndReadiness :
    (rom .ring).boot.phase = .ring ∧ (rom .rom).boot.phase = .rom ∧ (rom .rom).sec.forceNetwork = false
    ∧ (rom .rom).imageFault [] ≠ 0
    ∧ ((rom .recovery).boot.phase = .recovery ∧ (rom .recovery).boot.retransmits < 5)
    ∧ (({ rom .recovery with boot := { (rom .recovery).boot with retransmits := 5 } } : State).boot.phase = .recovery
      ∧ 5 ≤ ({ rom .recovery with boot := { (rom .recovery).boot with retransmits := 5 } } : State).boot.retransmits)
    ∧ (rom .abandoned).boot.phase = .abandoned
    ∧ ({ rom .recovery with gw := { Gw.zero with ethUp := true } } : State).gw.ethUp = true
    ∧ ({ up with hm := { Hm.zero with ready := 3 } } : State).mayReady 2 = true
    ∧ (({ up with hm := { Hm.zero with ready := 3 } } : State).boot.phase = .firmware
      ∧ ({ up with hm := { Hm.zero with ready := 3 } } : State).ready 13 = false
      ∧ ({ up with hm := { Hm.zero with ready := 3 } } : State).hm.readyFail.getLsbD 13 = false) := by decide

/-- A device whose management cores restart. -/
def restarting : State := { up with hmAux := { HmAux.zero with restarting := true } }

theorem test_witness_RestartsAndLosses :
    (up.boot.phase = .firmware ∧ up.hmAux.restarting = false)
    ∧ (restarting.hmAux.restarting = true ∧ restarting.events.held = [] ∧ restarting.parts = [] ∧ restarting.deferred = [])
    ∧ (6 ≤ (6 : BitVec 4).toNat ∧ (13 : BitVec 4).toNat < 14)
    ∧ ({ up with gw := { Gw.zero with ethUp := true } } : State).gw.ethUp = true := by decide

theorem test_witness_SidebandTransfers :
    up.ready 0 = true ∧ up.i3c.dynamic = none ∧ up.hmAux.restarting = false := by decide

theorem test_witness_UnoccupiedAddresses :
    occupied (place 0x000000DC).1 (place 0x000000DC).2 = false ∧ up.served = true ∧ up.ready 0 = true
      ∧ up.hmAux.restarting = false := by decide

theorem test_witness_RegisterAccesses :
    up.serves 0 ∧ up.serves readyGateway ∧ up.romRuns = false
    ∧ ({ up with hm := { Hm.zero with ready := 3 } } : State).served = true
    ∧ ({ up with hm := { Hm.zero with ready := 3 } } : State).ready readyGateway = false
    ∧ restarting.ready 0 = true ∧ restarting.hmAux.restarting = true
    ∧ occupied (place 0x0000004C).1 (place 0x0000004C).2 = true := by
  unfold State.serves; decide

/-- A device with a side pin and a timer configured and running. -/
def featured (side cfg : Word) : State :=
  { up with hmAux := { HmAux.zero with sideCfg := [(0, side)], timers := [(0, { cfg := cfg, period := 9, target := 0, count := 0 })] } }

/-- A device with a partition in a state. -/
def inState (p : PState) : State := { up with parts := [(0, { Part.zero with state := p })] }

theorem test_witness_BoardAndFeatures :
    (up.serves readySideband ∧ up.mfAux.locked = false) ∧ up.serves readyPower
    ∧ (sideFeature (bits (0x10 : Word) 7 0) = true ∧ sideActive (up.side 0) = false ∧ bits (0 : Word) 7 0 = 0)
    ∧ (timerFeature (bits (0x00020014 : Word) 7 0) = true ∧ bit (0x00020014 : Word) 17 = true
      ∧ bit (up.timer 0).cfg 18 = false)
    ∧ (bit ((featured 0 0x00050020).timer 0).cfg 18 = true
      ∧ bits ((featured 0 0x00050020).timer 0).cfg 7 0 = featTelemetry
      ∧ bit ((featured 0 0x00050020).timer 0).cfg 16 = true ∧ bit ((featured 0 0x00040020).timer 0).cfg 16 = false)
    ∧ (sideActive ((featured 0x01000010 0).side 0) = true ∧ sideFeatureOf ((featured 0x01000010 0).side 0) = featLeakIn
      ∧ (featured 0x01000010 0).ptUp = true ∧ (featured 0x01000010 0).pt.flowRow = .idle)
    ∧ up.jobRunning = false ∧ (inState .running).jobRunning = true ∧ (inState .running).serves readySideband
    ∧ up.sec.lifecycle ≠ .factory := by
  unfold State.serves; decide

/-- A record on the ring. -/
def ringRec (die : BitVec 4) : EventRec :=
  { code := 0x8001, die := die, flags := 0, payload := [1], seq := 0, time := 0, step := 0, noBerth := false }

/-- Records of two dies wait on the ring, the log one short of full. -/
def ringed : State :=
  { up with events := { Events.zero with ring := [ringRec 7, ringRec 6]
                                         log := List.replicate 4095 { ev := ringRec 0, read := true } } }

theorem test_witness_EventRecordsAreNumbered :
    takeOf 6 ringed.events.ring = some (ringRec 6, [ringRec 7]) ∧ ringed.events.log.length < 4096
      ∧ bit ringed.events.berth 14 = false := by
  refine ⟨by decide, ?_, by decide⟩
  simp only [ringed, List.length_replicate]; decide

/-! ## A small Manifest: one partition on cluster 0.0, one region, a BODY of VERDICT and END -/

/-- One BODY instruction (Table 12.3). -/
def ins (op a : Nat) : Bytes := natLe 1 op ++ [0] ++ natLe 2 a ++ zeros 12

/-- The step program's subsections: CONTROL, regions, data order, sources, BODY, images, contexts. -/
def subControl : Bytes :=
  natLe 8 7 ++ zeros 12 ++ natLe 4 1 ++ zeros 4 ++ natLe 2 1 ++ [0, 0xFF, 0, 0xFF] ++ zeros 30
def subRegions : Bytes := [1, 3, 0, 0] ++ natLe 4 0 ++ natLe 4 1 ++ zeros 4
def subOrder : Bytes := [0, 1, 0, 0] ++ natLe 4 1 ++ natLe 8 1 ++ natLe 4 100 ++ zeros 12
def subSources : Bytes := natLe 8 0 ++ natLe 8 1 ++ zeros 12 ++ natLe 4 64 ++ natLe 2 0 ++ natLe 2 0xFFFF ++ zeros 4
def subBody : Bytes := ins 8 0 ++ ins 9 0
def subContexts : Bytes := [0, 0, 0, 0, 0, 0, 1, 0]

/-- An entry of the subsection table, and one of the section table. -/
def subEntry (type off len : Nat) : Bytes := natLe 2 type ++ zeros 2 ++ natLe 4 off ++ natLe 4 len ++ zeros 4
def sectEntry (type part off len : Nat) : Bytes := natLe 2 type ++ natLe 1 part ++ [0] ++ natLe 4 off ++ natLe 4 len ++ zeros 4

def secProgramBytes : Bytes :=
  natLe 2 7 ++ zeros 6
    ++ subEntry 1 120 64 ++ subEntry 2 184 16 ++ subEntry 3 200 32 ++ subEntry 4 232 40 ++ subEntry 8 272 32
    ++ subEntry 9 304 0 ++ subEntry 10 304 8
    ++ subControl ++ subRegions ++ subOrder ++ subSources ++ subBody ++ subContexts

def secPartBytes : Bytes := zeros 16 ++ natLe 32 1 ++ zeros 224
def secPolicyBytes : Bytes := zeros 6 ++ natLe 2 0x100 ++ natLe 4 1 ++ zeros 20

/-- The Manifest before its signature. -/
def mfBody (id : Nat) : Bytes :=
  natLe 4 0x464D4443 ++ natLe 2 1 ++ natLe 2 0 ++ natLe 4 936 ++ natLe 2 8 ++ zeros 2 ++ natLe 8 id ++ zeros 16
    ++ natLe 2 0 ++ natLe 2 1 ++ zeros 20
    ++ sectEntry 1 0xFF 192 272 ++ sectEntry 2 0xFF 464 8 ++ sectEntry 3 0 472 8 ++ sectEntry 4 0xFF 480 8
    ++ sectEntry 5 0 488 8 ++ sectEntry 6 0xFF 496 0 ++ sectEntry 7 0 496 32 ++ sectEntry 8 0 528 312
    ++ secPartBytes ++ zeros 32 ++ secPolicyBytes ++ secProgramBytes

/-- An amendment of it: POLICY of partition 0, and a plan. -/
def amBody (id : Nat) : Bytes :=
  natLe 4 0x464D4443 ++ natLe 2 1 ++ natLe 2 2 ++ natLe 4 240 ++ natLe 2 2 ++ zeros 2 ++ natLe 8 id ++ natLe 8 1
    ++ zeros 8 ++ natLe 2 0 ++ natLe 2 0 ++ zeros 20
    ++ sectEntry 7 0 96 32 ++ sectEntry 14 0xFF 128 16 ++ secPolicyBytes ++ zeros 16

/-- Keys and signatures made by hand for these bytes (FIPS 186): with e the digest of the bytes before the signature,
R the point whose x is e and Q = R - G, the signature r = s = e verifies under Q. -/
def mfE : Nat := 0xdd9685a5dd3f716311aa7a1b8ae509deb666e20960f3ef323f96ea4980d1f5bd91c0ef87fa2e2fee00713ae96f1bd9ba
def mfKey : Bytes :=
  natBe 48 0xb97e43f832d3680b6e810a31c3aeb0da80607fc2209ab19a4fa82e88429210368b399013543770d7350f860d4b1877b2
    ++ natBe 48 0x987aabc260c26098d8f5f5d7f196fcf1b1131357a7248bdd19175c604cf992e5ccb3fafebbef7bd2c1fb8904935d59dd
def amE : Nat := 0x59f68685b814c316c49a3faa9187dae4776a6e893160b25a2aba81a479582a93a7413b20c20cbd34cfbeeb95cc8c2c6f
def amKey : Bytes :=
  natBe 48 0x5bd4a01c0c6b1a8e9e961b3e13eb5a4a1feb9e5facc1374aa61bcb233312280d5ad19fe0a9c0110ea1d7da8d0000e9d3
    ++ natBe 48 0xe798ecbc3b8857936abe7279ceea6b43cec4dbfb78b83749cdbc4feeacebd3f10dbfbeeb92c7b5cd4d4da9289743156b

def mfBytes : Bytes := mfBody 1 ++ natBe 48 mfE ++ natBe 48 mfE
def amBytes : Bytes := amBody 3 ++ natBe 48 amE ++ natBe 48 amE

/-- The Manifest stands in the incoming slot. -/
def loading (st : LoadState) (b : Bytes) : State :=
  { up with
    hm := { up.hm with boardCoord := 0x10000 }
    sec := { Sec.shipped with manifestKeys := [.provisioned mfKey, .provisioned amKey, .empty, .empty] }
    mf := { Mf.zero with loadState := st, incoming := b } }

/-- The amendment stands in the incoming slot beside the committed Manifest. -/
def amending (st : AmendState) (b : Bytes) : State :=
  { loading .committed b with
    sec := { Sec.shipped with manifestKeys := [.provisioned amKey, .empty, .empty, .empty] }
    mf := { Mf.zero with loadState := .committed, activeBytes := mfBytes, active := true, activeId := 1, incoming := b
                         amendState := st } }

/-! ## Manifest slots, checks, commit and amendments -/

/-- A step program runs. -/
def busy (s : State) : State := { s with parts := [(0, { Part.zero with state := .running })] }

/-- Session 0 is open and waits for request 5. -/
def connected (s : State) : State :=
  { s with gw := { s.gw with ethUp := true
                             sessions := [(0, { isOpen := true, slot := 0, nextSeq := 5, held := [], responses := [] })] } }

/-- The incoming slot takes bytes from session 0. -/
def taking (b : Bytes) : State :=
  connected { loading .receiving b with mf := { (loading .receiving b).mf with owner := some 0 } }

theorem test_witness_ManifestSlots :
    ((taking [1, 2]).serves readyHm ∧ (taking [1, 2]).mf.loadState = .receiving ∧ (taking [1, 2]).amendBytes = false
      ∧ (taking [1, 2]).jobRunning = false ∧ (taking [1, 2]).mf.amendState.busy = false ∧ (busy (taking [1, 2])).jobRunning = true)
    ∧ up.mf.loadState ≠ .receiving
    ∧ ((taking [1, 2]).mf.loadState ≠ .verifying ∧ (taking [1, 2]).mf.loadState ≠ .checking ∧ (taking [1, 2]).mf.slotHeld = false)
    ∧ (loading .verifying []).mf.loadState = .verifying
    ∧ ((connected up).turn 0 5 ∧ (connected up).ready (readyCompute 0) = true ∧ (connected up).mf.slotHeld = false
      ∧ (connected up).mf.startsAt0 = true)
    ∧ ((taking [1, 2]).turn 0 5 ∧ (taking [1, 2]).mf.owner = some (BitVec.ofNat 6 (0 : Half).toNat)
      ∧ (2 : Word).toNat = (taking [1, 2]).mf.incoming.length ∧ (taking [1, 2]).mf.incoming.length + [3].length ≤ manifestMax
      ∧ (1 : Word).toNat ≠ (taking [1, 2]).mf.incoming.length)
    ∧ ((connected (amending .checking amBytes)).turn 0 5
      ∧ (connected { amending .checking [] with mf := { (amending .checking []).mf with slotHeld := true } }).mf.slotHeld = true) := by
  unfold State.serves State.turn; decide

theorem test_witness_ManifestChecksAndCommit_signed :
    (loading .verifying mfBytes).mf.loadState = .verifying
      ∧ (loading .verifying mfBytes).checks1to4 (View.of (loading .verifying mfBytes).mf.incoming) = none := by
  decide +kernel

theorem test_witness_ManifestChecksAndCommit_refused :
    ((loading .verifying [1]).mf.loadState = .verifying
      ∧ (loading .verifying [1]).checks1to4 (View.of (loading .verifying [1]).mf.incoming) = some (1, nowhere))
    ∧ ((loading .checking [1]).mf.loadState = .checking
      ∧ (loading .checking [1]).checks5to21 (View.of (loading .checking [1]).mf.incoming) (fun _ => []) = some (6, nowhere)) := by
  decide +kernel

theorem test_witness_ManifestChecksAndCommit_checked :
    (loading .checking mfBytes).mf.loadState = .checking
      ∧ (loading .checking mfBytes).checks5to21 (View.of (loading .checking mfBytes).mf.incoming) (fun _ => []) = none := by
  decide +kernel

/-- An amendment is staged whose shadow Manifest can be committed. -/
def stagedFor : State :=
  { amending .staged [] with mf := { (amending .staged []).mf with loadState := .committed, shadow := mfBytes } }

theorem test_witness_ManifestChecksAndCommit_commit :
    ((loading .loaded mfBytes).ready readySideband = true ∧ (loading .loaded mfBytes).hmAux.restarting = false
      ∧ (loading .loaded mfBytes).ready readyHm = true ∧ (loading .loaded mfBytes).mf.loadState = .loaded
      ∧ (loading .loaded mfBytes).jobRunning = false
      ∧ (loading .loaded mfBytes).commitReady (View.of (loading .loaded mfBytes).mf.incoming) = true)
    ∧ (busy (loading .loaded mfBytes)).jobRunning = true
    ∧ (stagedFor.ready readySideband = true ∧ stagedFor.hmAux.restarting = false ∧ stagedFor.ready readyHm = true
      ∧ stagedFor.mf.loadState ≠ .loaded ∧ stagedFor.mf.amendState = .staged ∧ stagedFor.jobRunning = false
      ∧ stagedFor.someHalted = false ∧ stagedFor.commitReady (View.of stagedFor.mf.shadow) = true)
    ∧ (up.mf.loadState ≠ .loaded ∧ up.mf.amendState ≠ .staged) := by
  decide +kernel

theorem test_witness_AmendmentStates_checked :
    (amending .checking amBytes).mf.amendState = .checking
      ∧ (amending .checking amBytes).amendChecks (View.of (amending .checking amBytes).mf.activeBytes)
        (View.of (amending .checking amBytes).mf.incoming) = none := by
  decide +kernel

/-- The amendment's bytes have come in. -/
def amendIn : State :=
  { amending .none amBytes with mf := { (amending .none amBytes).mf with loadState := .receiving } }

theorem test_witness_AmendmentStates :
    (amendIn.ready readySideband = true ∧ amendIn.hmAux.restarting = false ∧ amendIn.ready readyHm = true
      ∧ amendIn.mf.loadState = .receiving ∧ amendIn.amendBytes = true ∧ amendIn.mf.amendState.busy = false)
    ∧ ((amending .checking [1]).mf.amendState = .checking
      ∧ (amending .checking [1]).amendChecks (View.of (amending .checking [1]).mf.activeBytes)
        (View.of (amending .checking [1]).mf.incoming) = some (1, nowhere))
    ∧ (stagedFor.mf.amendState = .staged ∧ stagedFor.mf.done = 0 ∧ stagedFor.mf.amendState.busy = true)
    ∧ up.mf.amendState ≠ .staged := by
  decide +kernel

/-! ## A partition at work: cluster 0.0, context 0 in slot 0 with four store blocks, its intake in berth 0 -/

def region (kind unit size : Nat) : Region :=
  { kind := kind, read := true, write := true, add := true, lightersOnly := false, noCache := false, unit := unit,
    base := 0, size := size }

def program0 (body : List BodyIns) : StepProgram :=
  { control := { runSeed := 7, firstStep := 0, stashCapacity := 16, stashWaitMs := 5, tokensPerStep := 0,
                 microBatches := 1, imageRegion := 0, stagingFirst := 0xFF, stagingCount := 0, lateRegion := 0xFF }
    regions := [region 1 0 0x10000, region 2 0 0x100, region 3 1 0x20000]
    order := { mode := 0, fetchAhead := 1, samples := 1, positions := 1, timeoutMs := 100 }
    sources := [{ first := 0, count := 1, remoteAddr := 0, rkey := 0, recordBytes := 64, qp := 0, altQp := 0xFFFF }]
    scopes := [], blocks := [], ties := [], body := body, images := []
    contexts := [{ die := 0, cluster := 0, ctx := 0, slot := 0, priority := 0, base := 0, size := 4 }] }

def cfg0 (body : List BodyIns) : PartCfg :=
  { part := { id := 0, timeSlice := true, quantumUs := 50, masks := [1, 0, 0, 0, 0, 0, 0, 0] }
    share := 0, berths := [], remaps := [], routes := [], groups := []
    policy := { gradWire := 0, stochRound := 0, memsideFloat := 0, nonfiniteAction := 0, spikeAction := 0,
                spikeRatio := 0x100, spikeWindow := 1 }
    program := program0 body, mirror := none
    recovery := { defaultRecovery with rewindLimit := 3 }, hasRecovery := true }

/-- The two instructions that every BODY ends with. -/
def bodyEnd : List BodyIns := [{ op := 8, flags := 0, a := 0, b := 0, c := 0 }, { op := 9, flags := 0, a := 0, b := 0, c := 0 }]

/-- A berth's configuration: its kind, partition 0, writes of 4 bytes, items of 64 bytes, capacity 4, a ring in near
stack 0, a consumer and a producer. -/
def berthCfg (kind ring consumer producer : Nat) : BerthCfg :=
  { kind := BitVec.ofNat 32 (kind + 4 * 64), ringLo := BitVec.ofNat 32 (ring / 32), ringHi := 0x24
    level := 0, links := BitVec.ofNat 32 (producer * 65536), creditCfg := 1, consumer := BitVec.ofNat 32 consumer }

/-- A berth that holds one item in slot 0. -/
def held1 (c : BerthCfg) : Berth := { Berth.zero with cfg := c, occupancy := 1, tail := 1, seq := 1, enqueued := 1 }

/-- An item as it stands in its slot (Table 9.2). -/
def itemBytes (cls : Nat) (payload : Bytes) : Bytes :=
  natLe 1 cls ++ [0] ++ natLe 2 payload.length ++ [0, 0] ++ natLe 2 idSequencer ++ zeros 24 ++ payload

def ctx0 (slot : BitVec 1) (id base : Nat) (w : List Entry) : Ctx :=
  { part := 0, id := id, slot := slot, priority := 0, base := base, size := 4, resident := true, halted := false
    runsOn := 0, since := 0, due := false, window := w, carries := [] }

/-- The partition's state: its step program runs. -/
def running0 (body : List BodyIns) : Part := { Part.zero with cfg := some (cfg0 body), state := .running }

/-- A device whose partition 0 runs with a window and, in its intake, an item. -/
def work (cls : Nat) (payload : Bytes) (w : List Entry) : State :=
  { up with
    parts := [(0, running0 bodyEnd)]
    clusters := [(0, { Cluster.first 0 with ctxs := [ctx0 0 0 0 w] })]
    berths := [(0, held1 (berthCfg 2 0x1000 0 idSequencer))]
    mem := { Mem.zero with near := Cells.ofBytes 0x1000 (itemBytes cls payload) }
    memDies := [(0, { MemDie.zero with scratch := 1 })] }

/-- The place of work in slot 0. -/
def at0 (w : List Entry) : At :=
  { die := 0, phys := 0, slot := 0, logical := 0, idx := 0, ctx := ctx0 0 0 0 w, cfg := cfg0 bodyEnd }

/-- The words of a tile: PRODUCT of one row and column of B16, 64 deep, from slots 0 and 32 to F32 at slot 64; `src` is
the kind of P's source, at near address 0. -/
def tileWords (op src : Nat) : List Word :=
  [BitVec.ofNat 32 (op + 3 * 16 + 3 * 128), 0x00010001, 1, 0x00200000, 0x00010020, 0, 0x00010040, 0, 0, 0, 0, 0,
   BitVec.ofNat 32 (src * 256), 0, 0, 0]

/-- The bytes of words. -/
def bytesOf (ws : List Word) : Bytes := ws.flatMap (fun w => wordLe 4 w)

/-- An entry of the window. -/
def entry (ws : List Word) (vector : Bool) (seq : DWord) (phase : EntryPhase) : Entry :=
  { words := ws, vector := vector, berth := 0, itemSeq := seq, step := 0, phase := phase, pReady := true, qReady := true
    anchor := some 0, nextRow := 0, inexact := false, invalid := false, sawAbove := false, sawInvalid := false
    retried := [], again := [], ueRetried := false, vec := VecPart.zero }

/-! ## Tiles -/

def tileEntry (phase : EntryPhase) : Entry := entry (tileWords 1 0) false 9 phase
def nopEntry : Entry := entry (tileWords 0 0) false 9 .waiting
def fenceEntry : Entry := entry (tileWords 2 0) false 9 .waiting

/-- The item of an intake as it is read. -/
def itemOf (cls : Nat) (payload : Bytes) : Item :=
  { cls := cls, flags := 0, valid := payload.length, tag := 0, producer := idSequencer, seq := 0, step := 0, drops := 0
    payload := payload, slot := 0, poisoned := false }

theorem test_witness_TilesEnterAndComplete_admitted :
    (work 1 (bytesOf (tileWords 1 1)) []).at? ⟨0, 0⟩ 0 = some (at0 [])
      ∧ (work 1 (bytesOf (tileWords 1 1)) []).intakeHead (at0 []) = some (0, itemOf 1 (bytesOf (tileWords 1 1)))
      ∧ (work 1 (bytesOf (tileWords 1 1)) []).pilotOpen (at0 []) = true
      ∧ (work 1 (bytesOf (tileWords 1 1)) []).checkTile (at0 []) (Tile.of (wordsOf 16 (bytesOf (tileWords 1 1)))) = 0
      ∧ (work 1 (bytesOf (tileWords 1 1)) []).tileRefused (at0 []) (Tile.of (wordsOf 16 (bytesOf (tileWords 1 1)))) = none := by
  decide +kernel

theorem test_witness_TilesEnterAndComplete_rejected :
    (work 1 (bytesOf (tileWords 3 0)) [nopEntry]).at? ⟨0, 0⟩ 0 = some (at0 [nopEntry])
      ∧ (work 1 (bytesOf (tileWords 3 0)) [nopEntry]).intakeHead (at0 [nopEntry]) = some (0, itemOf 1 (bytesOf (tileWords 3 0)))
      ∧ (work 1 (bytesOf (tileWords 3 0)) [nopEntry]).pilotOpen (at0 [nopEntry]) = true
      ∧ (work 1 (bytesOf (tileWords 3 0)) [nopEntry]).checkTile (at0 [nopEntry])
          (Tile.of (wordsOf 16 (bytesOf (tileWords 3 0)))) = 1 := by
  decide +kernel

/-- A device whose partition 0 has these entries in its window. -/
def windowed (w : List Entry) : State := work 1 [] w

theorem test_witness_TilesEnterAndComplete_completed :
    ((windowed [nopEntry]).at? ⟨0, 0⟩ 0 = some (at0 [nopEntry])
      ∧ firstEntry ((windowed [nopEntry]).ctxOf (at0 [nopEntry])).window
          (fun e => !e.vector && decide ((Tile.of e.words).op = 0)) = some (0, nopEntry)
      ∧ fenced ((windowed [nopEntry]).ctxOf (at0 [nopEntry])).window 0 = false
      ∧ (windowed [nopEntry]).entryRuns (at0 [nopEntry]) 0 = true)
    ∧ (((windowed [fenceEntry]).ctxOf (at0 [fenceEntry])).window.head? = some fenceEntry ∧ (Tile.of fenceEntry.words).op = 2
      ∧ (windowed [fenceEntry]).entryRuns (at0 [fenceEntry]) 0 = true)
    ∧ firstEntry ((windowed [tileEntry .copying]).ctxOf (at0 [tileEntry .copying])).window
        (fun e => !e.vector && decide (e.phase = .copying)) = some (0, tileEntry .copying) := by
  decide +kernel

/-- A tile that waits for P from the near tier, and one whose operands are ready and whose anchor is not. -/
def fetching : Entry := { entry (tileWords 1 1) false 9 .waiting with pReady := false, anchor := none }
def anchoring : Entry := { tileEntry .waiting with anchor := none }

/-- A tile that goes on from a carry, and a record of that carry at an anchor which no peak gives. -/
def carryEntry : Entry := { anchoring with words := anchoring.words.set 0 (BitVec.ofNat 32 (1 + 3 * 16 + 3 * 128 + 2 ^ 14)) }
def carryCtx : Ctx := { ctx0 0 0 0 [carryEntry] with carries := [{ oAddr := 64, nCols := 1, anchor := 511 }] }
def carrying : State := { windowed [] with clusters := [(0, { Cluster.first 0 with ctxs := [carryCtx] })] }
def atCarrying : At := { at0 [] with ctx := carryCtx }

theorem test_witness_OperandsAndAnchor :
    ((windowed [fetching]).at? ⟨0, 0⟩ 0 = some (at0 [fetching])
      ∧ ((windowed [fetching]).ctxOf (at0 [fetching])).window[0]? = some fetching
      ∧ (windowed [fetching]).entryRuns (at0 [fetching]) 0 = true
      ∧ fillClear ((windowed [fetching]).ctxOf (at0 [fetching])).window 0 ((Tile.of fetching.words).fill .p) = true
      ∧ spaceOf ((Tile.of fetching.words).kind .p) = some .near
      ∧ (windowed [fetching]).piecesLocked .near ((Tile.of fetching.words).src .p) ((Tile.of fetching.words).image .p) = false
      ∧ (windowed [fetching]).firstRefused (at0 [fetching]).part .near .read ((Tile.of fetching.words).src .p)
          ((Tile.of fetching.words).image .p) = none
      ∧ ((windowed [fetching]).readPieces (at0 [fetching]).via .near ((Tile.of fetching.words).src .p) (at0 [fetching]).ident .good
          ((Tile.of fetching.words).image .p)).1 = true)
    ∧ ((windowed [anchoring]).entryRuns (at0 [anchoring]) 0 = true ∧ (Tile.of anchoring.words).op = 1
      ∧ readClear ((windowed [anchoring]).ctxOf (at0 [anchoring])).window 0 (Tile.of anchoring.words).anchorSpans = true
      ∧ (Tile.of anchoring.words).carryIn = false)
    ∧ (carrying.at? ⟨0, 0⟩ 0 = some atCarrying ∧ (carrying.ctxOf atCarrying).window[0]? = some carryEntry
      ∧ carrying.entryRuns atCarrying 0 = true ∧ (Tile.of carryEntry.words).carryIn = true
      ∧ readClear (carrying.ctxOf atCarrying).window 0 (Tile.of carryEntry.words).anchorSpans = true
      ∧ (carrying.ctxOf atCarrying).carryDiffers (Tile.of carryEntry.words)
          ((Tile.of carryEntry.words).formAnchor (carrying.clusterOf atCarrying).store atCarrying.ctx.lo) = true) := by
  decide +kernel

/-- A row of the tile in the pipeline. -/
def rowed (e : Entry) : State :=
  { windowed [e] with
    clusters := [(0, { Cluster.first 0 with ctxs := [ctx0 0 0 0 [e]]
                                            flight := [{ slot := 0, item := 9, row := 0, accs := [] }] })] }

/-- A running tile with a row to issue again. -/
def redrawn : Entry := { tileEntry .running with retried := [0], again := [(0, [], false, false)], nextRow := 1 }

theorem test_witness_TileRowsIssueAndDrain :
    (arrayEntry ((windowed [tileEntry .waiting]).ctxOf (at0 [tileEntry .waiting])).window = some (0, tileEntry .waiting)
      ∧ (windowed [tileEntry .waiting]).arrayFree ((windowed [tileEntry .waiting]).at? ⟨0, 0⟩ 1) = true
      ∧ (windowed [tileEntry .waiting]).tileReady (at0 [tileEntry .waiting]) = true
      ∧ (windowed [tileEntry .waiting]).arrayTurn (at0 [tileEntry .waiting]) ((windowed [tileEntry .waiting]).at? ⟨0, 0⟩ 1)
          (fun b => (windowed [tileEntry .waiting]).tileReady b) = true)
    ∧ ((windowed [tileEntry .running]).at? ⟨0, 0⟩ 0 = some (at0 [tileEntry .running])
      ∧ arrayEntry ((windowed [tileEntry .running]).ctxOf (at0 [tileEntry .running])).window = some (0, tileEntry .running)
      ∧ (tileEntry .running).nextRow < (Tile.of (tileEntry .running).words).m
      ∧ (windowed [tileEntry .running]).entryRuns (at0 [tileEntry .running]) 0 = true
      ∧ (windowed [tileEntry .running]).mayIssue 0 0 = true
      ∧ (tileEntry .running).again = [] ∧ (tileEntry .running).retried.contains (tileEntry .running).nextRow = false
      ∧ (windowed [redrawn]).at? ⟨0, 0⟩ 0 = some (at0 [redrawn])
      ∧ arrayEntry ((windowed [redrawn]).ctxOf (at0 [redrawn])).window = some (0, redrawn)
      ∧ (windowed [redrawn]).entryRuns (at0 [redrawn]) 0 = true)
    ∧ ((rowed (tileEntry .running)).at? ⟨0, 0⟩ 0 = some (at0 [tileEntry .running])
      ∧ ((rowed (tileEntry .running)).clusterOf (at0 [tileEntry .running])).flight.find? (fun f => decide (f.slot = 0))
          = some { slot := 0, item := 9, row := 0, accs := [] }
      ∧ RowInFlight.entry { slot := 0, item := 9, row := 0, accs := [] }
          ((rowed (tileEntry .running)).ctxOf (at0 [tileEntry .running])).window = some (0, tileEntry .running)
      ∧ (spaceOf (Tile.of (tileEntry .running).words).oKind).any (fun sp => (rowed (tileEntry .running)).piecesLocked sp
          (Tile.of (tileEntry .running).words).oDst (Tile.of (tileEntry .running).words).imageO) = false) := by
  decide +kernel

/-! ## The vector engine, contexts and clusters -/

/-- The words of a vector descriptor of a kind over one row of 8 columns, its destination at slot 64; a MAP's chain is
empty and its A is B16. -/
def vecWords (kind : Nat) : List Word :=
  [BitVec.ofNat 32 (kind + 5 * 16), 1, 8, 0, 0x00040000, 0x00040020, 0x00040020, 0x00040040, 0, 0, 0, 0, 0, 0, 0, 0]

/-- The same, waiting for the verdict and writing its status record at slot 96. -/
def waitWords (kind : Nat) : List Word := (vecWords kind).set 0 (BitVec.ofNat 32 (kind + 5 * 16 + 2 ^ 24 + 2 ^ 26)) |>.set 8 0x00600000

def vecEntry (kind : Nat) : Entry := entry (vecWords kind) true 9 .waiting

theorem test_witness_VectorAdmissionAndDiscard_admitted :
    ((work 2 (bytesOf (vecWords 3)) []).at? ⟨0, 0⟩ 0 = some (at0 [])
      ∧ (work 2 (bytesOf (vecWords 3)) []).intakeHead (at0 []) = some (0, itemOf 2 (bytesOf (vecWords 3)))
      ∧ (work 2 (bytesOf (vecWords 3)) []).pilotOpen (at0 []) = true
      ∧ (work 2 (bytesOf (vecWords 3)) []).checkVec (at0 []) (Vec.of (wordsOf 16 (bytesOf (vecWords 3)))) = 0)
    ∧ ((work 2 (bytesOf (vecWords 5)) []).intakeHead (at0 []) = some (0, itemOf 2 (bytesOf (vecWords 5)))
      ∧ (work 2 (bytesOf (vecWords 5)) []).checkVec (at0 []) (Vec.of (wordsOf 16 (bytesOf (vecWords 5)))) ≠ 0) := by
  decide +kernel

/-- The step's verdict is in. -/
def judged (v : Action) (w : List Entry) : State :=
  { windowed w with runs := [(0, { PartRun.zero with seq := { Sequencer.zero with verdict := some v } })] }

def waitEntry : Entry := entry (waitWords 3) true 9 .waiting

theorem test_witness_VectorAdmissionAndDiscard :
    (firstEntry ((windowed [vecEntry 0]).ctxOf (at0 [vecEntry 0])).window
        (fun e => e.vector && decide ((Vec.of e.words).kind = 0)) = some (0, vecEntry 0)
      ∧ (windowed [vecEntry 0]).at? ⟨0, 0⟩ 0 = some (at0 [vecEntry 0]) ∧ (windowed [vecEntry 0]).entryRuns (at0 [vecEntry 0]) 0 = true
      ∧ fenced ((windowed [vecEntry 0]).ctxOf (at0 [vecEntry 0])).window 0 = false)
    ∧ ((judged .skip [waitEntry]).at? ⟨0, 0⟩ 0 = some (at0 [waitEntry]) ∧ (judged .skip [waitEntry]).entryRuns (at0 [waitEntry]) 0 = true
      ∧ vectorEntry ((judged .skip [waitEntry]).ctxOf (at0 [waitEntry])).window = some (0, waitEntry)
      ∧ (judged .skip [waitEntry]).discardReady (at0 [waitEntry]) 0 waitEntry = some .skip
      ∧ (judged .halt [waitEntry]).discardReady (at0 [waitEntry]) 0 waitEntry = some .halt
      ∧ (judged .skip [waitEntry]).vectorTurn (at0 [waitEntry]) ((judged .skip [waitEntry]).at? ⟨0, 0⟩ 1) = true) := by
  decide +kernel

theorem test_witness_VectorDescriptorsRun :
    ∀ k, k ∈ [1, 2, 3, 4] → (windowed [vecEntry k]).at? ⟨0, 0⟩ 0 = some (at0 [vecEntry k])
      ∧ vectorEntry ((windowed [vecEntry k]).ctxOf (at0 [vecEntry k])).window = some (0, vecEntry k)
      ∧ (windowed [vecEntry k]).vectorReady (at0 [vecEntry k]) 0 (vecEntry k) = true
      ∧ (windowed [vecEntry k]).vectorTurn (at0 [vecEntry k]) ((windowed [vecEntry k]).at? ⟨0, 0⟩ 1) = true
      ∧ (Vec.of (vecEntry k).words).kind = k ∧ (vecEntry k).vec.done + 0 < (Vec.of (vecEntry k).words).parts
      ∧ ((windowed [vecEntry k]).laneFault (at0 [vecEntry k]) 0 (Vec.of (vecEntry k).words).tag .none).1 = true
      ∧ ((windowed [vecEntry k]).laneFault (at0 [vecEntry k]) 0 (Vec.of (vecEntry k).words).tag (.storeUe 0)).1 = false := by
  decide +kernel

/-- Two contexts share slot 0; the one that is saved has an item in its intake, and a buffer of `size` bytes keeps the
images of both. -/
def sliced (size : Nat) (swap : Option Swap) : State :=
  { windowed [] with
    clusters := [(0, { Cluster.first 0 with ctxs := [ctx0 0 0 0 [], { ctx0 0 1 4 [] with resident := false }]
                                            swap := swap })]
    berths := [(0, held1 (berthCfg 2 0x1000 1 idSequencer))]
    parts := [(0, { running0 bodyEnd with cfg := some (cfgSliced) })]
    hmAux := { HmAux.zero with yardBufs := [{ kind := 3, index := 0, owner := 0, feature := 1, bufOff := 0, bufSize := size }] } }
where
  cfgSliced : PartCfg :=
    { cfg0 bodyEnd with
      program := { program0 bodyEnd with
        contexts := [{ die := 0, cluster := 0, ctx := 0, slot := 0, priority := 0, base := 0, size := 4 },
                     { die := 0, cluster := 0, ctx := 1, slot := 0, priority := 0, base := 4, size := 4 }] } }

/-- The resident context's place, and the saved context. -/
def atSliced : At := { at0 [] with cfg := sliced.cfgSliced }
def savedCtx : Ctx := { ctx0 0 1 4 [] with resident := false }

theorem test_witness_ContextsAndClusters_swaps :
    ((sliced 0x100000 none).at? ⟨0, 0⟩ 0 = some atSliced ∧ atSliced.cfg.part.timeSlice = true
      ∧ ((sliced 0x100000 none).clusterOf atSliced).swap = none
      ∧ comesIn ((sliced 0x100000 none).readySaved atSliced) = some (1, savedCtx)
      ∧ ((sliced 0x100000 none).imagePlace atSliced ((sliced 0x100000 none).ctxOf atSliced)).isSome = true
      ∧ ((sliced 0x100000 none).imagePlace atSliced savedCtx).isSome = true
      ∧ (sliced 0x1000 none).imagePlace atSliced ((sliced 0x1000 none).ctxOf atSliced) = none)
    ∧ (((sliced 0x100000 (some { slot := 0, outgoing := 0, incoming := 1 })).clusterOf atSliced).swap
          = some { slot := 0, outgoing := 0, incoming := 1 }
      ∧ ((sliced 0x100000 (some { slot := 0, outgoing := 0, incoming := 1 })).clusterOf atSliced).ctxs[1]? = some savedCtx
      ∧ ((sliced 0x100000 (some { slot := 0, outgoing := 0, incoming := 1 })).clusterOf atSliced).flight = []
      ∧ ((sliced 0x100000 (some { slot := 0, outgoing := 0, incoming := 1 })).imagePlace atSliced savedCtx).isSome = true
      ∧ ((sliced 0x100000 (some { slot := 0, outgoing := 0, incoming := 1 })).readMem none .yard
          (((sliced 0x100000 (some { slot := 0, outgoing := 0, incoming := 1 })).imagePlace atSliced savedCtx).getD 0)
          (imageBytes savedCtx.size) (idContext 0 0 1) .good).1 = true
      ∧ ((sliced 0x100000 (some { slot := 0, outgoing := 0, incoming := 1 })).clusterOf atSliced).ctxs.zipIdx.all
          (fun x => !x.1.due || decide (x.2 = 0)) = true) := by
  decide +kernel

theorem test_witness_ContextsAndClusters_control :
    (up.ready readySideband = true ∧ up.hmAux.restarting = false ∧ up.ready (readyCompute (7 : BitVec 3).toNat) = true)
    ∧ ({ up with clusters := [(9, { Cluster.first 9 with testing := true })] } : State).cluster 0 9
        = { Cluster.first 9 with testing := true }
    ∧ (up.cluster 0 255).mayTest = true ∧ ((windowed []).cluster 0 0).mayTest = false
    ∧ (({ up with clusters := [(255, { Cluster.first 255 with testing := true })] } : State).cluster 0 255).testing = true
    ∧ (({ up with clusters := [(255, { Cluster.first 255 with testing := true })] } : State).cluster 0 255).state = .spare
    ∧ (windowed []).at? ⟨0, 0⟩ 0 = some (at0 []) := by
  decide +kernel

/-- Cluster 0.3 is retired and spare 0.250 is in test. -/
def replacing : State :=
  { up with clusters := [(3, { Cluster.first 3 with state := .retired }),
                         (250, { Cluster.first 250 with state := .testing, replaces := some 3 })] }

theorem test_witness_SparesTakeTheNumber :
    (replacing.cluster 0 250).state = .testing ∧ (replacing.cluster 0 250).replaces = some 3
      ∧ (replacing.cluster 0 3).logical = some 3 ∧ (replacing.cluster 0 3).ctxs = [] ∧ replacing.ownerOf 0 3 = none
      ∧ replacing.lowestCluster 0 (fun x => decide (x.state = .spare)) = some 251 := by
  decide +kernel

/-- What the forward pass of micro-batch 0 of step 0 bound to version `tag` of block 3. -/
def bound3 (tag : Byte) : Bound := { block := 3, step := 0, mb := 0, tag := tag, readers := 1, lastTag := 1 }

/-- A partition with a weight block in its near region, and what its stash holds. -/
def stashing (st : Stash) (ph : StepPhase) : State :=
  { up with
    parts := [(0, { running0 bodyEnd with cfg := some cfgBlocks })]
    runs := [(0, { PartRun.zero with stash := st, seq := { Sequencer.zero with phase := ph } })]
    memDies := [(0, { MemDie.zero with scratch := 1 })] }
where
  cfgBlocks : PartCfg :=
    { cfg0 bodyEnd with
      program := { program0 bodyEnd with
        blocks := [{ block := 3, region := 0, readers := 2, lastTag := 1, base := 0, size := 1 }] } }

theorem test_witness_PeaksAndStash :
    (((windowed []).cfg? 0).isSome = true ∧ ((windowed []).seq 0).arrived = [])
    ∧ ((stashing Stash.zero .none).blockOf 0 3
        = some { block := 3, region := 0, readers := 2, lastTag := 1, base := 0, size := 1 }
      ∧ ((stashing { Stash.zero with bound := [bound3 0] } .none).stash 0).bound.find?
          (fun x => decide (x.block = 3) && decide (x.step = 0) && decide (x.mb = 0)) = some (bound3 0)
      ∧ (((stashing { Stash.zero with bound := [bound3 0] } .none).stash 0).version 3).tag = (bound3 0).tag
      ∧ (((stashing { Stash.zero with bound := [bound3 1] } .none).stash 0).version 3).tag ≠ (bound3 1).tag
      ∧ ((stashing { Stash.zero with bound := [bound3 1] } .none).stash 0).bound.find?
          (fun x => decide (x.block = 3) && decide (x.step = 0) && decide (x.mb = 0)) = some (bound3 1))
    ∧ (((stashing { Stash.zero with versions := [{ firstVersion 3 with copying := true }] } .none).stash 0).version 3).copying = true
    ∧ (((stashing { Stash.zero with waits := [{ block := 3, space := true, since := 0 }] } .body).stash 0).waits.any
        (fun w => decide (w.block = 3)) = true
      ∧ ((stashing { Stash.zero with waits := [{ block := 3, space := true, since := 0 }] } .body).part 0).state = .running
      ∧ ((stashing { Stash.zero with waits := [{ block := 3, space := true, since := 0 }] } .body).seq 0).phase ≠ .none) := by
  decide +kernel

/-! ## Lighters and memories -/

/-- The words of a lighter's descriptor: kinds near for source and destination, source 0, destination 0x2000, one row. -/
def lightWords (op srcKind addFmt sectors : Nat) : List Word :=
  [BitVec.ofNat 32 (op + srcKind * 16 + 64 + addFmt * 256), 0, 0, 0, 0x2000, 0, BitVec.ofNat 32 sectors, 1, 8, 8, 0, 0,
   0, 0, 0, 0]

/-- Lighter 0.0 has a descriptor in its queue; its intake is berth 0. -/
def lit (halted : Bool) (ws : List Word) : State :=
  { work 1 [] [] with
    clusters := []
    berths := [(0, { Berth.zero with cfg := berthCfg 2 0x1000 (idLighter 0 0) idSequencer })]
    memAux := [(0, { MemDieAux.zero with lighters := [(0, { halted := halted, queue := [(ws, 0, 9, 0)] })] })] }

/-- That work. -/
def job (ws : List Word) : Work :=
  { die := 0, n := 0, part := 0, cfg := cfg0 bodyEnd, words := ws, berth := 0, seq := 9, step := 0 }

theorem test_witness_LightersMoveAndAdd_ready :
    ∀ ws, ws ∈ [lightWords 0 1 0 1, lightWords 4 0 0 1, lightWords 1 1 0 1, lightWords 2 1 0 1, lightWords 2 1 2 8,
        lightWords 3 1 0 8] →
      (job ws).die = (0 : BitVec 3).toNat ∧ (job ws).n = (0 : BitVec 4).toNat
      ∧ (lit false ws).lightStands (job ws) (lit false ws)
      ∧ ((lit false ws).checkLight (job ws).part (job ws).cfg (job ws).light).1 = 0
      ∧ (lit false ws).lightLocked (job ws).light = false ∧ (job ws).light.notify = false := by
  unfold State.lightStands; decide +kernel

/-- The row of that destination is locked for repair. -/
def lockedLit (ws : List Word) : State :=
  { lit false ws with mem := { Mem.zero with locked := [(0, pseudoChannel (Space.near.offset 0x2000), rowOf (Space.near.offset 0x2000))] } }

theorem test_witness_LightersMoveAndAdd :
    ((job (lightWords 0 1 0 1)).light.op = 0 ∧ (job (lightWords 4 0 0 1)).light.op = 4
      ∧ spaceOf (job (lightWords 4 0 0 1)).light.dstKind = some .near
      ∧ (lockedLit (lightWords 4 0 0 1)).lightLocked (job (lightWords 4 0 0 1)).light = true)
    ∧ ((job (lightWords 1 1 0 1)).light.op = 1 ∧ spaceOf (job (lightWords 1 1 0 1)).light.srcKind = some .near
      ∧ (State.lightCopy (job (lightWords 1 1 0 1)) .near .near .good
          ((job (lightWords 1 1 0 1)).light.srcRanges.zip (job (lightWords 1 1 0 1)).light.dstRanges)
          (lit false (lightWords 1 1 0 1))).1 = true
      ∧ (State.lightCopy (job (lightWords 1 1 0 1)) .near .near .uncorrectable
          ((job (lightWords 1 1 0 1)).light.srcRanges.zip (job (lightWords 1 1 0 1)).light.dstRanges)
          ((lit false (lightWords 1 1 0 1)).commitPoint (job (lightWords 1 1 0 1)))).1 = false
      ∧ (job (lightWords 1 1 0 1)).light.rows = 1)
    ∧ ((job (lightWords 2 1 0 1)).light.op = 2 ∧ (job (lightWords 2 1 0 1)).light.indexed = false
      ∧ (job (lightWords 2 1 0 1)).light.addFmt ≠ 2 ∧ (job (lightWords 2 1 0 1)).light.rows = 1
      ∧ (lit false (lightWords 2 1 0 1)).poisoned .near 0 32 = false
      ∧ (lit false (lightWords 2 1 0 1)).poisoned .near 0x2000 32 = false)
    ∧ ((job (lightWords 2 1 2 8)).light.op = 2 ∧ (job (lightWords 2 1 2 8)).light.addFmt = 2
      ∧ (job (lightWords 2 1 2 8)).light.rows = 1 ∧ ((lit false (lightWords 2 1 2 8)).log 0).lateOrigin = none)
    ∧ ((job (lightWords 3 1 0 8)).light.op = 3
      ∧ ((lit false (lightWords 3 1 0 8)).readRanges (job (lightWords 3 1 0 8)).via .near (job (lightWords 3 1 0 8)).ident
          .good (job (lightWords 3 1 0 8)).light.srcRanges).1 = true) := by
  decide +kernel

/-- A CLEAR whose destination lies off a sector. -/
def offWords : List Word := (lightWords 4 0 0 1).set 4 0x2001

theorem test_witness_LightersHaltAndResume :
    ((lit false offWords).lightStands (job offWords) (lit false offWords) ∧ (job offWords).light.op = 4
      ∧ (lit false offWords).checkLight 0 (job offWords).cfg (job offWords).light = (0x43, none))
    ∧ ((job (lightWords 1 1 0 1)).light.srcKind ≠ 3 ∧ spaceOf (job (lightWords 1 1 0 1)).light.dstKind = some .near)
    ∧ ((lit true offWords).ready readySideband = true ∧ (lit true offWords).hmAux.restarting = false
      ∧ (lit true offWords).ready (readyCompute (0 : BitVec 3).toNat) = true
      ∧ ((lit true offWords).lighter (0 : BitVec 3).toNat (0 : BitVec 4).toNat).halted = true) := by
  unfold State.lightStands; decide +kernel

theorem test_witness_RefreshAndScrub :
    (up.ready readySideband = true ∧ up.hmAux.restarting = false ∧ up.ready readyHm = true)
    ∧ up.poisoned .near 0 1 = false ∧ up.poisoned .hold (15 * 2 ^ 36) 1 = false
    ∧ up.twoBonds 0 (pseudoChannel (Space.near.offset 0)) = false
    ∧ (up.memDieAux 0).free (dramOf (pseudoChannel (Space.near.offset 0))) ≠ 0
    ∧ up.mem.unserviceable.contains (0, pseudoChannel (Space.near.offset 0), rowOf (Space.near.offset 0)) = false := by
  decide +kernel

/-- A row of stack 1 is locked for repair, and a bank of it is being copied. -/
def repairing : State :=
  { up with mem := { Mem.zero with locked := [(1, 255, 8128)], bankJobs := [(1, 255, 1)]
                                   remaps := [{ stack := 1, pc := 255, row := 8129, pool := 0 }] } }

/-- A spare hold device in a state of Table 8.11. -/
def sparing (x : HoldSpare) : State := { up with mem := { Mem.zero with h16 := x } }

theorem test_witness_RowsBanksAndSpares :
    (repairing.mem.locked.contains ((1 : BitVec 3).toNat, (255 : Byte).toNat, 8128) = true
      ∧ repairing.mem.bankJobs.contains ((1 : BitVec 3).toNat, (255 : Byte).toNat, 1) = true)
    ∧ (if (0 : BitVec 1) = 1 then (sparing (.testing 15 true)).mem.h17 else (sparing (.testing 15 true)).mem.h16) = .testing 15 true
    ∧ (if (0 : BitVec 1) = 1 then (sparing (.filling 0 true)).mem.h17 else (sparing (.filling 0 true)).mem.h16) = .filling 0 true := by
  decide +kernel

/-! ## Berths -/

/-- A device with berth 3 alone; its ring begins at 0x1000 of near stack 0. -/
def berthed (b : Berth) : State :=
  { up with berths := [(3, b)], mem := { Mem.zero with near := Cells.ofBytes 0x1000 (itemBytes 1 [7]) } }

/-- A message of four bytes from a producer. -/
def msg (producer : Nat) : BerthMsg :=
  { serves := 0, producer := BitVec.ofNat 16 producer, cls := 8, step := 0, bytes := [1, 2, 3, 4] }

/-- Berths of each kind, for the step sequencer and from it; from host session 0. -/
def cfgK (kind : Nat) : BerthCfg := berthCfg kind 0x1000 idSequencer idSequencer
def cfgS (kind : Nat) : BerthCfg := berthCfg kind 0x1000 idSequencer (idSession 0)
def empty (c : BerthCfg) : Berth := { Berth.zero with cfg := c, credits := c.capacity }
/-- With a level of one item, armed, noticed by event. -/
def levelled : Berth :=
  { empty (cfgK 2) with cfg := { cfgK 2 with level := 1, links := (cfgK 2).links ||| 0x4000 }, armed := true }

theorem test_witness_BerthWrites_enqueued :
    (∀ k, k ∈ [1, 2, 3] → (berthed (empty (cfgK k))).gatewayUp = true
      ∧ (berthed (empty (cfgK k))).berthRefuses (3 : BitVec 14).toNat (msg idSequencer) = false
      ∧ slotsNeeded ((berthed (empty (cfgK k))).berth 3).cfg (msg idSequencer).bytes = 1
      ∧ ((berthed (empty (cfgK k))).berth 3).inRing + 1 ≤ ((berthed (empty (cfgK k))).berth 3).cfg.capacity - 1
      ∧ ((berthed (empty (cfgK k))).berth 3).waiting = [] ∧ ((berthed (empty (cfgK k))).berth 3).room = true
      ∧ ((berthed (empty (cfgK k))).berth 3).cfg.levelOf = 0)
    ∧ (((berthed levelled).berth 3).armed = true
      ∧ ((berthed levelled).berth 3).cfg.levelOf = ((berthed levelled).berth 3).occupancy + 1
      ∧ ((berthed levelled).berth 3).cfg.noticeEvent = true
      ∧ (berthed levelled).berthRefuses 3 (msg idSequencer) = false ∧ ((berthed levelled).berth 3).room = true) := by
  decide +kernel

/-- Full: no credit, no room. -/
def full (c : BerthCfg) : Berth := { Berth.zero with cfg := c, occupancy := c.capacity }

theorem test_witness_BerthWrites_refused :
    (berthed (empty (cfgS 2))).berthRefuses 3 (msg idSequencer) = true
    ∧ ((berthed (full (cfgS 1))).berthRefuses 3 (msg (idSession 0)) = false ∧ isSession (msg (idSession 0)).producer.toNat = true
      ∧ ((berthed (full (cfgS 1))).berth 3).cfg.kindOf = kindTensor
      ∧ ((berthed (full (cfgS 1))).berth 3).credits < slotsNeeded ((berthed (full (cfgS 1))).berth 3).cfg (msg (idSession 0)).bytes)
    ∧ ((berthed (full (cfgK 3))).berthRefuses 3 (msg idSequencer) = false
      ∧ ((berthed (full (cfgK 3))).berth 3).cfg.kindOf = kindMarked
      ∧ ((berthed (full (cfgK 3))).berth 3).cfg.capacity - 1
          < ((berthed (full (cfgK 3))).berth 3).inRing + slotsNeeded ((berthed (full (cfgK 3))).berth 3).cfg (msg idSequencer).bytes
      ∧ ((berthed (full (cfgK 3))).berth 3).cfg.levelOf = 0 ∧ bit ((berthed (full (cfgK 3))).berth 3).status 1 = false)
    ∧ ((berthed (full (cfgK 2))).berthRefuses 3 (msg idSequencer) = false
      ∧ ((berthed (full (cfgK 2))).berth 3).cfg.kindOf ≠ kindMarked ∧ isSession (msg idSequencer).producer.toNat = false
      ∧ ((berthed (full (cfgK 2))).berth 3).room = false) := by
  decide +kernel

theorem test_witness_BerthsDequeueAndFlush :
    (berthed (held1 (cfgK 1))).mf.amendState ≠ .committing ∧ (berthed (held1 (cfgK 1))).mf.amendState ≠ .retiring
      ∧ ((berthed (held1 (cfgK 1))).berth 3).cfg.kindOf ≠ 0 ∧ (berthed (held1 (cfgK 1))).gatewayUp = true
      ∧ isSpine ((berthed (held1 (cfgK 1))).berth 3).cfg.consumerId = true
      ∧ (berthed (held1 (cfgK 1))).headItem 3 = some { itemOf 1 (padTo 64 [7]) with valid := 1 }
      ∧ ((berthed (held1 (cfgK 1))).berth 3).oldItems = 0 ∧ ((berthed (held1 (cfgK 1))).berth 3).old = none
      ∧ ((berthed (held1 (cfgK 1))).berth 3).waiting = [] ∧ ((berthed (held1 (cfgK 1))).berth 3).cfg.levelOf = 0
      ∧ (berthed (held1 (cfgK 1))).ready readyGateway = true := by
  decide +kernel

theorem test_witness_UnusedBerthsRefuse :
    (up.berth 0).cfg.kindOf = 0 ∧ up.gatewayUp = true ∧ (msg idSequencer).bytes ≠ []
      ∧ ((berthed (empty (cfgK 3))).berth 3).cfg.kindOf ≠ 0 := by
  decide +kernel

/-! ## The fabric -/

/-- Port 0: link 0, dimension 0, toward coordinate 1, whose job is 5. -/
def port0 : PortRec :=
  { port := 0, owner := 0, width := 1, firstLink := 0, dimension := 0, role := 0, peerCoord := 1, peerJob := 5 }

/-- A device at coordinate 0 with that port, its link 0 as given, and partition 0 with its groups. -/
def fabric (l : Link) (gs : List Group) : State :=
  { up with
    hm := { up.hm with boardCoord := 0x10000 }
    mf := { Mf.zero with active := true, jobId := 5, loadState := .committed }
    mfAux := { MfAux.zero with dev := { DevCfg.zero with ports := [port0], discovery := { missingDefault := 1, waitMs := 9, deadlineMs := 2 } } }
    links := [(0, l)]
    parts := [(0, { Part.zero with cfg := some { cfg0 bodyEnd with groups := gs }, state := .running })] }

def linkAt (x : LinkState) : Link := { Link.zero with state := x }
/-- A peer as IDENT gives it. -/
def peered (coord job : Nat) : Link := { linkAt .check with peerCoord := BitVec.ofNat 32 coord, peerJob := BitVec.ofNat 64 job }

theorem test_witness_LinksTrainAndCheck_training :
    (fabric (linkAt .detect) []).linkIn (0 : BitVec 4).toNat .detect = true
    ∧ ((fabric (linkAt .equalise) []).linkIn 0 .equalise = true ∧ 3 ≤ ((fabric (linkAt .equalise) []).link 0).lanes
      ∧ ((fabric { linkAt .equalise with badRx := [0, 1, 2] } []).link 0).lanes < 3
      ∧ (fabric { linkAt .equalise with badRx := [0, 1, 2] } []).linkIn 0 .equalise = true)
    ∧ (fabric (linkAt .lock) []).linkIn 0 .lock = true ∧ (fabric (linkAt .rtt) []).linkIn 0 .rtt = true
    ∧ ((fabric (linkAt .ident) []).linkIn 0 .ident = true ∧ (zeros 48).length = 48)
    ∧ ((fabric (linkAt .rtt) []).linkUp 0 = true ∧ ((fabric (linkAt .rtt) []).link 0).state.limited = true
      ∧ ((fabric (linkAt .rtt) []).link 0).failures + b2n (decide (((fabric (linkAt .rtt) []).link 0).state = .equalise)) < 16
      ∧ (3 : BitVec 3).toNat < 4 ∧ ((fabric (linkAt .rtt) []).link 0).bad true = [])
    ∧ ((fabric { linkAt .equalise with failures := 15 } []).linkUp 0 = true
      ∧ ((fabric { linkAt .equalise with failures := 15 } []).link 0).state.limited = true
      ∧ 16 ≤ ((fabric { linkAt .equalise with failures := 15 } []).link 0).failures
          + b2n (decide (((fabric { linkAt .equalise with failures := 15 } []).link 0).state = .equalise))) := by
  decide +kernel

theorem test_witness_LinksTrainAndCheck_checks :
    ((fabric (peered 1 5) []).linkIn 0 .check = true ∧ (fabric (peered 1 5) []).boardCoord?.isSome = true
      ∧ (fabric (peered 1 5) []).mf.active = true ∧ (fabric (peered 1 5) []).portOf 0 = some port0
      ∧ bits ((fabric (peered 1 5) []).link 0).peerCoord 15 0 = port0.peerCoord
      ∧ ((fabric (peered 1 5) []).link 0).peerJob.toNat = port0.peerJob)
    ∧ ((fabric (peered 1 6) []).linkIn 0 .check = true ∧ port0.role = 0
      ∧ ((fabric (peered 1 6) []).link 0).peerJob.toNat ≠ port0.peerJob)
    ∧ (({ fabric (peered 1 5) [] with links := [(15, peered 1 5)] } : State).linkIn (15 : BitVec 4).toNat .check = true
      ∧ ({ fabric (peered 1 5) [] with links := [(15, peered 1 5)] } : State).portOf 15 = none) := by
  decide +kernel

/-- Discovery waits for the missing port. -/
def waiting : State :=
  { fabric (linkAt .dark) [] with kx := { Kx.zero with disc := .waiting, missing := 1, missingDims := [0], waitLeft := 9 } }

theorem test_witness_LinksAndDiscovery :
    ((fabric (linkAt .fault) []).ready readySideband = true ∧ (fabric (linkAt .fault) []).hmAux.restarting = false
      ∧ (fabric (linkAt .fault) []).ready (readyLink ((0 : BitVec 4).toNat / 4)) = true
      ∧ ((fabric (linkAt .fault) []).link 0).state = .fault ∧ ((fabric (linkAt .dark) []).link 0).state = .dark
      ∧ ((fabric (linkAt .active) []).link 0).state = .active ∧ (fabric (linkAt .active) []).linkUp 0 = true)
    ∧ ((fabric (linkAt .dark) []).mfAux.dev.ports.find? (fun r => decide (r.port = (0 : BitVec 4).toNat)) = some port0
      ∧ (fabric (linkAt .dark) []).activeLinks port0 = [] ∧ port0.width ≠ 0
      ∧ (fabric (linkAt .dark) []).kx.missingDims.contains port0.dimension = false ∧ (fabric (linkAt .dark) []).kx.disc ≠ .waiting)
    ∧ (waiting.kx.disc = .waiting ∧ waiting.ready (readyLink 0) = true) := by
  decide +kernel

/-- A packet for a coordinate, of a job. -/
def packet (dst job : Nat) : Packet :=
  { dst := BitVec.ofNat 16 dst, src := 0, jobTag := BitVec.ofNat 16 job, vc := 0, detour := false, kind := 1, tag := 0, stream := 0
    seq := 0, payload := [1, 2] }

/-- Two replays of a flit have failed. -/
def failing : State := { fabric (linkAt .active) [] with linkCtrs := [(0, { LinkCounters.zero with replayRun := 2 })] }

/-- A second port, of links on another die, so that a packet between the two crosses a compute die. -/
def port1 : PortRec := { port0 with port := 1, firstLink := 4, dimension := 1, peerCoord := 2 }
def twoPorts : State :=
  { fabric (linkAt .active) [] with
    links := [(0, linkAt .active), (4, linkAt .active)]
    mfAux := { MfAux.zero with dev := { DevCfg.zero with ports := [port0, port1] } } }

theorem test_witness_FlitsAndPackets_relay :
    (twoPorts.nextHop (packet 1 5) (some 1) = some (port0, false, false)
      ∧ ((some 1).bind twoPorts.portNo).any (fun r => r.apart port0) = true)
    ∧ (((some 0).bind twoPorts.portNo).any (fun r => r.apart port0) = false) := by
  decide +kernel

theorem test_witness_FlitsAndPackets :
    ((fabric (linkAt .active) []).linkIn 0 .active = true ∧ (fabric (linkAt .active) []).linkUp 0 = true
      ∧ lanesServing ((fabric (linkAt .active) []).link 0).badRx ≠ [] ∧ 2 ≤ (failing.linkCtr 0).replayRun
      ∧ failing.linkIn 0 .active = true ∧ lanesServing (failing.link 0).badRx ≠ []
      ∧ (3 : BitVec 3).toNat < 4 ∧ ((fabric (linkAt .active) []).link 0).badRx = []
      ∧ ((fabric (linkAt .active) []).link 0).state.locked = true)
    ∧ (packetFits (packet 1 5) = true ∧ (packet 1 5).dst.toNat ≠ (fabric (linkAt .active) []).coord
      ∧ (fabric (linkAt .active) []).nextHop (packet 1 5) none = some (port0, false, false)
      ∧ (fabric (linkAt .active) []).nextHop (packet 2 5) none = none)
    ∧ ((packet 0 5).dst.toNat = (fabric (linkAt .active) []).coord ∧ (fabric (linkAt .active) []).ownTraffic (packet 0 5) = true
      ∧ (packet 0 5).kind ≠ 6 ∧ (fabric (linkAt .active) []).ownTraffic (packet 0 6) = false
      ∧ packetFits (packet 0 6) = true ∧ serviceClass (packet 1 5) ≤ 1)
    ∧ ((fabric (linkAt .active) []).cfg? (0 : BitVec 6).toNat).isSome = true := by
  decide +kernel

/-- A group of coordinates 0 and 1, one block to a shard. -/
def group (op : Nat) : Group := { id := 1, op := op, perDevice := 1, base := 0, dimMask := 1, shardElems := 32 }
def key1 : RedKey := { part := 0, group := 1, step := 0, shard := 0 }

/-- A reduction at an engine of the device. -/
def reducing (op : Nat) (r : Reduction) : State := { fabric (linkAt .active) [group op] with reds := [r] }

theorem test_witness_Class0Operations :
    (reducing 4 (Reduction.new key1)).groupOf key1 = some (group 4) ∧ (group 4).sum = false ∧ (group 4).has 1 = true
      ∧ ((reducing 4 (Reduction.new key1)).red key1).isExcused 1 = false
      ∧ ((reducing 4 (Reduction.new key1)).red key1).phase ≠ .done
      ∧ (((reducing 4 (Reduction.new key1)).red key1).added.filter (fun x => decide (x.1 = 1))).length < (group 4).perDevice
      ∧ ([1, 0, 0, 0] : Bytes) ≠ [] ∧ ([1, 0, 0, 0] : Bytes).length % class0Size (group 4).op = 0
      ∧ ((reducing 4 { Reduction.new key1 with added := [(0, 0)], class0 := [2, 0, 0, 0] }).red key1).added ≠ []
      ∧ ([1, 0, 0, 0] : Bytes).length
          = ((reducing 4 { Reduction.new key1 with added := [(0, 0)], class0 := [2, 0, 0, 0] }).red key1).class0.length := by
  decide +kernel

/-- Phase 1 with every scale in; phase 2 with both contributions in. -/
def scaled : Reduction := { Reduction.new key1 with scales := [(0, 0, [3]), (1, 0, [4])] }
def summed : Reduction :=
  { Reduction.new key1 with phase := .add, sb := [4], sums := List.replicate 32 0, blockInvalid := [false],
                            blockInexact := [false], added := [(0, 0), (1, 0)] }

/-- A group of coordinates 0 to 3: a shard of member 1 leaves member 0 in the last exchange, one of member 2 in the first. -/
def group4 : Group := { id := 1, op := 1, perDevice := 1, base := 0, dimMask := 3, shardElems := 32 }
def keyOf (shard : Half) : RedKey := { part := 0, group := 1, step := 0, shard := shard }
def exchanging (shard : Half) (r : Reduction) : State := { fabric (linkAt .active) [group4] with reds := [{ r with key := keyOf shard }] }

theorem test_witness_ReductionsAndExcusals_exchanges :
    ((exchanging 1 summed).groupOf (keyOf 1) = some group4 ∧ (exchanging 1 summed).exchange (keyOf 1) group4 = some 0
      ∧ group4.first 0 = false ∧ (exchanging 1 summed).leavesRaw (keyOf 1) group4 0 = none
      ∧ group4.gathered ((exchanging 1 summed).me 0) 0 = [0, 2]
      ∧ group4.inOf { summed with added := [(0, 0), (2, 0)] } [0, 2] = true)
    ∧ ((exchanging 2 { summed with added := [] }).leavesRaw (keyOf 2) group4 0 = some 1
      ∧ ((exchanging 2 { summed with added := [] }).red (keyOf 2)).phase = .add) := by
  decide +kernel

theorem test_witness_ReductionsAndExcusals :
    ((reducing 1 (Reduction.new key1)).groupOf key1 = some (group 1) ∧ (group 1).sum = true
      ∧ ((reducing 1 (Reduction.new key1)).red key1).phase = .scale ∧ (group 1).has 1 = true
      ∧ ((0 : BitVec 3)).toNat < (group 1).perDevice ∧ ([7] : Bytes).length = (group 1).blocks
      ∧ ((reducing 1 (Reduction.new key1)).red key1).scales.any (fun x => decide (x.1 = 1) && decide (x.2.1 = 0)) = false)
    ∧ (group 1).allIn ((reducing 1 scaled).red key1) (((reducing 1 scaled).red key1).scales.map (fun x => (x.1, x.2.1))) = true
    ∧ (((reducing 1 { summed with added := [] }).red key1).phase = .add
      ∧ ((reducing 1 { summed with added := [] }).red key1).added.contains (1, 0) = false
      ∧ (zeros 64).length = (group 1).shardElems * (if (group 1).op = 2 then 1 else 2)
      ∧ (List.replicate 32 (0 : BitVec 48)).length = (group 1).shardElems)
    ∧ ((group 1).owner key1.shard.toNat = (reducing 1 summed).me key1.part.toNat
      ∧ (group 1).allIn ((reducing 1 summed).red key1) ((reducing 1 summed).red key1).added = true)
    ∧ (((reducing 1 (Reduction.new key1)).red key1).isExcused 0 = false
      ∧ ((reducing 1 (Reduction.new key1)).seq 0).ownReady.contains key1.group = false
      ∧ ((reducing 1 (Reduction.new key1)).seq 0).ready.any
          (fun x => decide (x.1 = key1.step) && decide (x.2.1 = key1.group) && decide (x.2.2 = 0)) = false
      ∧ (0 : Half).toNat = (reducing 1 (Reduction.new key1)).me key1.part.toNat
      ∧ key1.step = ((reducing 1 (Reduction.new key1)).part key1.part.toNat).step) := by
  decide +kernel

/-! ## The Ethernet port and the command transport -/

/-- The link is up, with a peer whose frames are secured. -/
def wired : State :=
  { connected up with
    sec := { up.sec with peers := [(0, { mac := [2, 0, 0, 0, 0, 9], secured := true, keys := [], txAn := none, dropSeen := false })] } }

/-- A frame for every station (broadcast), from a station, of an EtherType, with a body. -/
def frame (src : Byte) (et : Nat) (body : Bytes) : Bytes :=
  List.replicate 6 0xFF ++ [2, 0, 0, 0, 0, src] ++ natBe 2 et ++ body ++ zeros (46 - body.length)

/-- A device with a priority in a state. -/
def prioIn (p : Prio) : State := { wired with gw := { wired.gw with prios := [(3, p)] } }

theorem test_witness_EthernetPort :
    (up.ethUsable = true ∧ up.gw.ethUp = false) ∧ (wired.gw.ethUp = true) ∧ wired.serves readyGateway
    ∧ ((prioIn { Prio.zero with paused := true }).prio (3 : BitVec 3).toNat).paused = true
    ∧ ((prioIn { Prio.zero with paused := true }).prio (3 : BitVec 3).toNat).stuck = false
    ∧ (wired.session (0 : BitVec 6).toNat).isOpen = true
    ∧ ((List.range 8).filter (fun c => !bit (0 : Word) (8 + c))).foldl (fun n c => n + etsShare 0x64 0 c) 0 = 100
    ∧ ((List.range 8).filter (fun c => !bit (0 : Word) (8 + c))).foldl (fun n c => n + etsShare 0x63 0 c) 0 ≠ 100 := by
  unfold State.serves; decide

/-- Pass-through frames go to berth 3, a marked-drop berth. -/
def passing : State :=
  { wired with
    gw := { wired.gw with passCfg := 0x4003 }
    berths := [(3, { Berth.zero with cfg := berthCfg 3 0x1000 idSequencer idCct })] }

/-- One of two addresses is not the device's. -/
theorem test_witness_FramesReceived_notForUs : ∃ f : Bytes, 60 ≤ f.length ∧ f.length ≤ 9212 ∧ etherType f ≠ etMacControl ∧ forUs f = false := by
  by_cases h : (zeros 64).take 6 = ownMac
  · refine ⟨[2] ++ zeros 63, by decide, by decide, by decide, ?_⟩
    have h2 : ([2] ++ zeros 63).take 6 ≠ ownMac := by rw [← h]; decide
    unfold forUs
    rw [decide_eq_false h2]
    decide
  · refine ⟨zeros 64, by decide, by decide, by decide, ?_⟩
    unfold forUs
    rw [decide_eq_false h]
    decide

theorem test_witness_FramesReceived :
    (wired.gw.ethUp = true ∧ wired.ready readyEth = true) ∧ (zeros 59).length < 60
    ∧ (60 ≤ (frame 9 etLldp []).length ∧ (frame 9 etLldp []).length ≤ 9212 ∧ etherType (frame 9 etLldp []) ≠ etMacControl
      ∧ bit ((frame 9 etLldp []).headD 0) 0 = true
      ∧ (wired.peerOf (slice (frame 9 etLldp []) 6 6)).any (fun p => p.2.secured) = true)
    ∧ (60 ≤ (frame 8 etMacControl [1, 1, 0, 8, 0, 0, 0, 0, 0, 0, 0, 5]).length
      ∧ etherType (frame 8 etMacControl [1, 1, 0, 8, 0, 0, 0, 0, 0, 0, 0, 5]) = etMacControl
      ∧ beAt (frameBody (frame 8 etMacControl [1, 1, 0, 8, 0, 0, 0, 0, 0, 0, 0, 5])) 0 2 = 0x0101
      ∧ (beAt (frameBody (frame 8 etMacControl [1, 1, 0, 8, 0, 0, 0, 0, 0, 0, 0, 5])) 2 2).testBit 3 = true
      ∧ bit ({ wired with gw := { wired.gw with prioCfg := 8 } } : State).gw.prioCfg 3 = true)
    ∧ (passing.gw.ethUp = true ∧ passing.ready readyEth = true ∧ 60 ≤ (frame 8 etLldp []).length
      ∧ passing.peerOf (slice (frame 8 etLldp []) 6 6) = none ∧ etherType (frame 8 etLldp []) = etLldp
      ∧ bit passing.gw.passCfg 14 = true ∧ bit passing.gw.prioCfg (rxPriority (frame 8 etLldp [])) = false
      ∧ (passing.prio (rxPriority (frame 8 etLldp []))).xoff = false
      ∧ (passing.berth (bits passing.gw.passCfg 13 0)).cfg.levelOf = 0
      ∧ passing.berthRefuses (bits passing.gw.passCfg 13 0) (BerthMsg.mk 0 (BitVec.ofNat 16 idCct) 8
          (passing.berthStep (bits passing.gw.passCfg 13 0)) (frame 8 etLldp [])) = false
      ∧ (passing.berth (bits passing.gw.passCfg 13 0)).cfg.kindOf = kindMarked
      ∧ (passing.berth (bits passing.gw.passCfg 13 0)).drops? (frame 8 etLldp []) = false
      ∧ slotsNeeded (passing.berth (bits passing.gw.passCfg 13 0)).cfg (frame 8 etLldp []) = 1) := by
  decide +kernel

/-- A KEEPALIVE of session 0, and a response kept for request 4. -/
def ping (seq : Word) : CctReq := { mrp := false, opcode := 0x03, sess := 0, seq := seq, payload := [] }
def pong : CctResp := { mrp := false, opcode := 0x03, sess := 0, seq := 4, status := 0, payload := [] }

/-- Session 0 with requests held and responses kept. -/
def keeping (h : List CctReq) (r : List CctResp) : State :=
  { connected up with
    gw := { (connected up).gw with sessions := [(0, { isOpen := true, slot := 0, nextSeq := 5, held := h, responses := r })] } }

theorem test_witness_SessionsAndOrder :
    ((connected up).hears false = true ∧ (connected up).openReason [0xFF] = 0 ∧ (connected up).freeSession = some 1
      ∧ (connected up).openReason [0] ≠ 0)
    ∧ (connected up).turn 0 5 ∧ ((connected up).session (3 : Half).toNat).isOpen = false
    ∧ ((keeping [] [pong]).hears false = true ∧ ((keeping [] [pong]).session (0 : Half).toNat).isOpen = true
      ∧ (4 : Word) = ((keeping [] [pong]).session (0 : Half).toNat).nextSeq - 1
      ∧ ((keeping [] [pong]).session (0 : Half).toNat).responses.find? (fun y => decide (y.seq = 4)) = some pong)
    ∧ ((6 : Word) = ((keeping [] [pong]).session (0 : Half).toNat).nextSeq + 1
      ∧ ((keeping [] [pong]).session (0 : Half).toNat).held = [])
    ∧ (((keeping [ping 6] []).session (0 : Half).toNat).held = [ping 6] ∧ (ping 6).mrp = false ∧ (ping 6).opcode = 0x03
      ∧ (ping 6).payload = [] ∧ (ping 6).seq = ((keeping [ping 6] []).session (0 : Half).toNat).nextSeq + 1
      ∧ (5 : Word) = ((keeping [ping 6] []).session (0 : Half).toNat).nextSeq) := by
  unfold State.turn; decide

/-- Session 0 consumes berth 3 and berth 4, of which one holds an item. -/
def drawing : State :=
  { connected up with
    berths := [(3, { Berth.zero with cfg := berthCfg 1 0x1000 (idSession 0) idSequencer }),
               (4, held1 (berthCfg 1 0x2000 (idSession 0) idSequencer))] }

theorem test_witness_BerthAndFrameCommands :
    drawing.turn 0 5
    ∧ ((drawing.berth (3 : BitVec 14).toNat).cfg.kindOf ≠ 0
      ∧ (drawing.berth (3 : BitVec 14).toNat).cfg.consumerId = idSession (0 : Half).toNat
      ∧ (drawing.berth (3 : BitVec 14).toNat).occupancy = 0)
    ∧ ((drawing.berth (4 : BitVec 14).toNat).cfg.consumerId = idSession (0 : Half).toNat
      ∧ (drawing.berth (4 : BitVec 14).toNat).cfg.kindOf ≠ 0
      ∧ (drawing.berth (4 : BitVec 14).toNat).occupancy ≠ 0 ∧ drawing.mf.amendState ≠ .committing
      ∧ drawing.mf.amendState ≠ .retiring)
    ∧ (60 ≤ (zeros 60).length ∧ (zeros 60).length ≤ 8192 ∧ drawing.peerOf ((zeros 60).take 6) = none
      ∧ beAt (zeros 60) 12 2 ≠ etVlan ∧ (drawing.prio 0).paused = false) := by
  unfold State.turn; decide

/-- Queue pair 7 is connected; the device has an owner. -/
def paired : State :=
  { connected up with
    sec := { up.sec with lifecycle := .owned }
    gw := { (connected up).gw with qps := [(7, { Qp.none with state := .ready })] } }

theorem test_witness_QueuePairsAndRegisterRequests :
    (paired.turn 0 5 ∧ (1023 : Half).toNat < 1024 ∧ (paired.qp (1023 : Half).toNat).state ≠ .ready
      ∧ (paired.qp (7 : Half).toNat).state = .ready)
    ∧ (paired.hears true = true ∧ (paired.session (0 : Half).toNat).isOpen = true
      ∧ (paired.session (0 : Half).toNat).nextSeq = 5 ∧ (paired.session (0 : Half).toNat).held = []
      ∧ paired.hmAux.restarting = false ∧ paired.readsOnly (0 : Half).toNat = false)
    ∧ (connected up).readsOnly (0 : Half).toNat = true := by
  unfold State.turn; decide

/-! ## Data fetch and the snapshot port -/

/-- The read of sample 0 of step 0, micro-batch 0. -/
def read0 : FetchRead := { part := 0, step := 0, mb := 0, sample := 0, qp := 0, retried := false }
def mb0 : MbFetch := { step := 0, mb := 0, region := 0, queue := [], left := [0] }

/-- Partition 0 waits in BODY for micro-batch 0, whose one record is read. -/
def fetchIn : State :=
  { connected up with
    gw := { (connected up).gw with reads := [read0], qps := [(0, { Qp.none with state := .ready })] }
    parts := [(0, running0 bodyEnd)]
    runs := [(0, { PartRun.zero with seq := { Sequencer.zero with phase := .body, waitsData := some 0, fetches := [mb0] } })] }

theorem test_witness_RecordsLandOrHalt :
    fetchIn.gw.reads.find? (fun r => decide (r.part.toNat = (0 : BitVec 6).toNat) && decide (r.step = 0) && decide (r.sample = 0))
        = some read0
    ∧ (fetchIn.program? (0 : BitVec 6).toNat = some (program0 bodyEnd)
      ∧ fetchIn.readSource read0 = some (0, { first := 0, count := 1, remoteAddr := 0, rkey := 0, recordBytes := 64, qp := 0, altQp := 0xFFFF })
      ∧ (fetchIn.seq (0 : BitVec 6).toNat).fetches.find? (fun f => decide (f.step = read0.step) && decide (f.mb = read0.mb)) = some mb0
      ∧ (program0 bodyEnd).landing mb0.region 0 = some (.near, 0)
      ∧ fetchIn.mayAccess (0 : BitVec 6).toNat false .near .write (0 + read0.piece * pieceBytes) (zeros 64).length = true
      ∧ (zeros 64).length = pieceLen 64 read0.piece ∧ fetchIn.sec.peers = []
      ∧ (program0 bodyEnd).readsOf (0 : DWord).toNat 0
        ≤ ((fetchIn.log 0).pieces.filter (fun x => decide (x.1 = 0) && decide (x.2.1 = 0))).length + 1)
    ∧ ((fetchIn.seq (0 : BitVec 6).toNat).waitsData = some 0
      ∧ (fetchIn.seq (0 : BitVec 6).toNat).fetches.find?
          (fun f => decide (f.step = (fetchIn.part (0 : BitVec 6).toNat).step) && decide (f.mb = 0)) = some mb0
      ∧ (fetchIn.part (0 : BitVec 6).toNat).state.live = true ∧ (fetchIn.part (0 : BitVec 6).toNat).state ≠ .halted
      ∧ (fetchIn.seq (0 : BitVec 6).toNat).pendingHalt = none ∧ (fetchIn.seq (0 : BitVec 6).toNat).phase ≠ .none) := by
  decide +kernel

/-- A drive in a state with one command: a logbook write of one block. -/
def cmd0 (retried : Bool) : NvmeCmd := { logWrite 0 3 2 1 with retried := retried }
def drive0 (x : DriveState) (retried : Bool) : Drive :=
  { state := x, blocks := 2 ^ 40, cmds := [cmd0 retried], queues := queuePairs, admin := [], label := none }

def driven (x : DriveState) (retried : Bool) : State := { up with gw := { Gw.zero with pcieUp := true, drive0 := drive0 x retried } }

theorem test_witness_SnapshotPort :
    up.serves readyGateway
    ∧ (∀ x, x ∈ [true, false] →
      ((driven .ready x).drive (0 : BitVec 1).toNat).cmds.find? (fun c => decide (c.cid = 3))
        = some (cmd0 x))
    ∧ (∀ c ∈ ((driven .ready false).drive 0).cmds, c.logbook = true)
    ∧ ((driven .ready false).drive (0 : BitVec 1).toNat).state ≠ .absent
    ∧ (((driven .resetting false).drive (0 : BitVec 1).toNat).state ≠ .ready ∧ (driven .resetting false).gw.pcieUp = true)
    ∧ ((driven .resetting false).drive (0 : BitVec 1).toNat).state = .resetting
    ∧ ((inState .running).working = [] ∧ 0 ∈ (inState .running).parts.map (·.1) ∧ ((inState .running).part 0).state = .running
      ∧ ((inState .running).seq 0).phase = .none ∧ ((inState .running).seq 0).pendingHalt = none) := by
  unfold State.serves; decide

theorem test_witness_SnapshotPort_noSlack (r : Bool) : ∀ q, ((driven .ready r).seq q).phase ≠ .slack 4 := by
  intro q; show StepPhase.none ≠ .slack 4; decide

/-! ## The step loop -/

/-- Partition 0 stands at an instruction of BODY, which the power controller has been told of. -/
def bodied (i : BodyIns) (q : Sequencer) : State :=
  { up with
    parts := [(0, running0 ([i] ++ bodyEnd))]
    runs := [(0, { PartRun.zero with seq := { q with phase := .body, reported := some q.pc } })]
    memDies := [(0, { MemDie.zero with scratch := 1 })]
    berths := [(0, { Berth.zero with cfg := berthCfg 2 0x1000 0 idSequencer })] }

def insAt (op flags a b c : Nat) : BodyIns := { op := op, flags := flags, a := a, b := b, c := c }

/-- The same partition with a step phase, as `q` has it. -/
theorem bodied_runs (op : Nat) (i : BodyIns) (q : Sequencer)
    (h : (bodied i q).bodyAt 0 op = some i) : (bodied i q).bodyRuns 0 op i (bodied i q) := by
  have hb : (bodied i q).tryBegin 0 = bodied i q := by
    unfold State.tryBegin
    have : ((bodied i q).seq 0).phase = .body := rfl
    simp [this]
  have he : (bodied i q).endRewind 0 = bodied i q := rfl
  have hr : ((bodied i q).seq 0).reported = some ((bodied i q).seq 0).pc := rfl
  exact ⟨by rw [hb]; exact h, by rw [hb, he, if_pos hr]⟩

def frame0 (index : Nat) : LoopFrame := { start := 0, index := index, count := 2 }
def looping (fs : List LoopFrame) : Sequencer := { Sequencer.zero with loops := fs }

theorem test_witness_BodyLoopsFetchesAndWaits :
    (bodied (insAt 1 0 2 0 0) Sequencer.zero).bodyRuns (0 : BitVec 6).toNat 1 (insAt 1 0 2 0 0) (bodied (insAt 1 0 2 0 0) Sequencer.zero)
    ∧ ((bodied (insAt 2 0 0 0 0) (looping [frame0 0])).bodyRuns 0 2 (insAt 2 0 0 0 0) (bodied (insAt 2 0 0 0 0) (looping [frame0 0]))
      ∧ ((bodied (insAt 2 0 0 0 0) (looping [frame0 0])).seq 0).loops = frame0 0 :: []
      ∧ (frame0 0).index + 1 < (frame0 0).count ∧ (frame0 1).count ≤ (frame0 1).index + 1
      ∧ ((bodied (insAt 2 0 0 0 0) (looping [frame0 1])).seq 0).loops = frame0 1 :: []
      ∧ ((bodied (insAt 2 0 0 0 0) (looping [])).seq 0).loops = [])
    ∧ ((bodied (insAt 3 0 0 0 0) Sequencer.zero).bodyRuns 0 3 (insAt 3 0 0 0 0) (bodied (insAt 3 0 0 0 0) Sequencer.zero)
      ∧ (bodied (insAt 3 0 0 0 0) Sequencer.zero).program? 0 = some (program0 ([insAt 3 0 0 0 0] ++ bodyEnd)))
    ∧ ((bodied (insAt 5 0 7 8 0) { Sequencer.zero with notices := [(7, 8)] }).bodyRuns 0 5 (insAt 5 0 7 8 0)
        (bodied (insAt 5 0 7 8 0) { Sequencer.zero with notices := [(7, 8)] })
      ∧ (7, 8) ∈ ((bodied (insAt 5 0 7 8 0) { Sequencer.zero with notices := [(7, 8)] }).seq 0).notices
      ∧ (7, 8) ∉ ((bodied (insAt 5 0 7 8 0) Sequencer.zero).seq 0).notices)
    ∧ (bodied (insAt 9 0 0 0 0) Sequencer.zero).bodyRuns 0 9 (insAt 9 0 0 0 0) (bodied (insAt 9 0 0 0 0) Sequencer.zero)
    ∧ (up.tryBegin (0 : BitVec 6).toNat).bodyAt 0 1 = none := by
  refine ⟨bodied_runs 1 _ _ (by decide), ⟨bodied_runs 2 _ _ (by decide), by decide⟩, ⟨bodied_runs 3 _ _ (by decide), by decide⟩,
    ⟨bodied_runs 5 _ _ (by decide), by decide⟩, bodied_runs 9 _ _ (by decide), by decide⟩

/-- Partition 0 at REDUCE of group 1, with a contribution of step 5 late. -/
def lateAt (posted : List Posted) : State :=
  { bodied (insAt 6 0 1 0 0) { Sequencer.zero with posted := posted } with
    parts := [(0, { running0 ([insAt 6 0 1 0 0] ++ bodyEnd) with latePending := true })]
    runs := [(0, { PartRun.zero with seq := { Sequencer.zero with phase := .body, reported := some 0, posted := posted }
                                     log := { StepLog.zero with lateOrigin := some 5, lateGroups := [1] } })] }

theorem lateAt_runs (posted : List Posted) (h : (lateAt posted).bodyAt 0 6 = some (insAt 6 0 1 0 0)) :
    (lateAt posted).bodyRuns 0 6 (insAt 6 0 1 0 0) (lateAt posted) := by
  have hb : (lateAt posted).tryBegin 0 = lateAt posted := by
    unfold State.tryBegin
    have : ((lateAt posted).seq 0).phase = .body := rfl
    simp [this]
  have he : (lateAt posted).endRewind 0 = lateAt posted := rfl
  have hr : ((lateAt posted).seq 0).reported = some ((lateAt posted).seq 0).pc := rfl
  exact ⟨by rw [hb]; exact h, by rw [hb, he, if_pos hr]⟩

/-- A descriptor posted in step 5. -/
def posted5 : Posted := { berth := 0, itemSeq := 1, writeBack := false, image := 0, step := 5, mb := 0, reads := [] }

theorem test_witness_BodyReduceAndVerdict :
    ((bodied (insAt 6 0 1 0 0) Sequencer.zero).bodyRuns (0 : BitVec 6).toNat 6 (insAt 6 0 1 0 0) (bodied (insAt 6 0 1 0 0) Sequencer.zero)
      ∧ (1 : Half) = BitVec.ofNat 16 (insAt 6 0 1 0 0).a
      ∧ ((bodied (insAt 6 0 1 0 0) { Sequencer.zero with ownReady := [1] }).seq 0).ownReady.contains 1 = true
      ∧ ((bodied (insAt 6 0 1 0 0) Sequencer.zero).seq 0).reduced.contains 1 = false
      ∧ ((bodied (insAt 6 0 1 0 0) Sequencer.zero).seq 0).ownReady.contains 1 = false
      ∧ ((bodied (insAt 6 0 1 0 0) Sequencer.zero).seq 0).excused.any (fun x => decide (x.1 = 1)
          && decide (x.2.1 = BitVec.ofNat 16 ((bodied (insAt 6 0 1 0 0) Sequencer.zero).me 0))) = false
      ∧ ((bodied (insAt 6 0 1 0 0) Sequencer.zero).log 0).lateOrigin = none)
    ∧ (∀ ps, ps ∈ [[], [posted5]] → (lateAt ps).bodyRuns (0 : BitVec 6).toNat 6 (insAt 6 0 1 0 0) (lateAt ps)
      ∧ ((lateAt ps).log 0).lateOrigin = some 5 ∧ ((lateAt ps).part 0).latePending = true
      ∧ (lateAt ps).cfg? 0 = some (cfg0 ([insAt 6 0 1 0 0] ++ bodyEnd)) ∧ ((lateAt ps).seq 0).lateAdded = false
      ∧ ((lateAt ps).log 0).lateGroups ≠ [] ∧ (5 : DWord) ≠ ((lateAt ps).part 0).step)
    ∧ (((lateAt [posted5]).seq 0).posted.any (fun x => decide (x.step = 5)) = true
      ∧ ((lateAt []).seq 0).posted.any (fun x => decide (x.step = 5)) = false
      ∧ (State.lateAdds 0 (cfg0 ([insAt 6 0 1 0 0] ++ bodyEnd)) 5 ((lateAt []).lateImages 0) (lateAt [])).1 = true)
    ∧ ((bodied (insAt 8 0 0 0 0) Sequencer.zero).bodyRuns 0 8 (insAt 8 0 0 0 0) (bodied (insAt 8 0 0 0 0) Sequencer.zero)
      ∧ (bodied (insAt 8 0 0 0 0) Sequencer.zero).cfg? 0 = some (cfg0 ([insAt 8 0 0 0 0] ++ bodyEnd))) := by
  refine ⟨⟨bodied_runs 6 _ _ (by decide), by decide⟩, ?_, by decide, bodied_runs 8 _ _ (by decide), by decide⟩
  intro ps h
  simp only [List.mem_cons, List.not_mem_nil, or_false] at h
  obtain rfl | rfl := h
  · exact ⟨lateAt_runs _ (by decide), by decide⟩
  · exact ⟨lateAt_runs _ (by decide), by decide⟩

/-- Partition 0 at a POST of one image, in a loop or out of one. -/
def postAt (flags first : Nat) (q : Sequencer) : State := bodied (insAt 4 flags 0 1 first) q

/-- Sixteen zero words, an image of memory that nothing has written. -/
def zeroWords : List Word := List.replicate 16 0

/-- The image's codeword is poisoned. -/
def spoiled : State := { postAt 0 0 Sequencer.zero with mem := { Mem.zero with nearPoison := [0] } }

theorem test_witness_BodyPostAndLoss :
    ((postAt 0 0 { looping [frame0 0] with fetches := [mb0] }).bodyRuns (0 : BitVec 6).toNat 4 (insAt 4 0 0 1 0)
        (postAt 0 0 { looping [frame0 0] with fetches := [mb0] })
      ∧ ((postAt 0 0 { looping [frame0 0] with fetches := [mb0] }).seq 0).loops ≠ []
      ∧ ((postAt 0 0 { looping [frame0 0] with fetches := [mb0] }).seq 0).fetching
          ((postAt 0 0 { looping [frame0 0] with fetches := [mb0] }).part 0).step
          ((postAt 0 0 { looping [frame0 0] with fetches := [mb0] }).seq 0).index = true)
    ∧ ((postAt 1 0 Sequencer.zero).bodyRuns 0 4 (insAt 4 1 0 1 0) (postAt 1 0 Sequencer.zero)
      ∧ (insAt 4 1 0 1 0).flags.testBit 0 = true
      ∧ (postAt 1 0 Sequencer.zero).pairPeaks 0 (program0 ([insAt 4 1 0 1 0] ++ bodyEnd)) 0 = none)
    ∧ ((insAt 4 0 0 1 0).flags.testBit 0 = false ∧ spoiled.bodyRuns 0 4 (insAt 4 0 0 1 0) spoiled
      ∧ (spoiled.readImages 0 (program0 ([insAt 4 0 0 1 0] ++ bodyEnd)) (0 % 2 ^ 32) 1).1 = none)
    ∧ ((postAt 0 0 { Sequencer.zero with boundMbs := [0] }).bodyRuns 0 4 (insAt 4 0 0 1 0) (postAt 0 0 { Sequencer.zero with boundMbs := [0] })
      ∧ (postAt 0 0 { Sequencer.zero with boundMbs := [0] }).program? 0 = some (program0 ([insAt 4 0 0 1 0] ++ bodyEnd))
      ∧ ((postAt 0 0 { Sequencer.zero with boundMbs := [0] }).seq 0).loops = []
      ∧ ((postAt 0 0 { Sequencer.zero with boundMbs := [0] }).log 0).lateOrigin = none
      ∧ (program0 ([insAt 4 0 0 1 0] ++ bodyEnd)).blocks = []
      ∧ (postAt 0 0 { Sequencer.zero with boundMbs := [0] }).applies 0 = false
      ∧ ((postAt 0 0 { Sequencer.zero with boundMbs := [0] }).seq 0).boundMbs.contains
          ((postAt 0 0 { Sequencer.zero with boundMbs := [0] }).seq 0).index = true
      ∧ ((postAt 0 0 { Sequencer.zero with boundMbs := [0] }).readImages 0 (program0 ([insAt 4 0 0 1 0] ++ bodyEnd)) (0 % 2 ^ 32) 1).1
          = some [zeroWords])
    ∧ ((bodied (insAt 7 0 0 0 (2 ^ 62)) Sequencer.zero).bodyRuns 0 7 (insAt 7 0 0 0 (2 ^ 62)) (bodied (insAt 7 0 0 0 (2 ^ 62)) Sequencer.zero)
      ∧ ((bodied (insAt 7 0 0 0 (2 ^ 62)) Sequencer.zero).lossRecord 0 (2 ^ 62)).1 = some (0, 0)
      ∧ ((bodied (insAt 7 0 0 0 (3 * 2 ^ 62)) Sequencer.zero).lossRecord 0 (3 * 2 ^ 62)).1 = none
      ∧ (bodied (insAt 7 0 0 0 (3 * 2 ^ 62)) Sequencer.zero).bodyRuns 0 7 (insAt 7 0 0 0 (3 * 2 ^ 62)) (bodied (insAt 7 0 0 0 (3 * 2 ^ 62)) Sequencer.zero)
      ∧ (0 : BitVec 128) ≠ longInvalid) := by
  refine ⟨⟨bodied_runs 4 _ _ (by decide), by decide⟩, ⟨bodied_runs 4 _ _ (by decide), by decide⟩,
    ⟨by decide, ⟨by decide +kernel, by decide +kernel⟩, by decide +kernel⟩,
    ⟨bodied_runs 4 _ _ (by decide), by decide, by decide, by decide, by decide, by decide +kernel, by decide, by decide +kernel⟩, bodied_runs 7 _ _ (by decide), by decide +kernel,
    by decide +kernel, bodied_runs 7 _ _ (by decide), by decide⟩

/-- Partition 0 in BODY with a step program of its own, whose POSTs go to lighter 0.0. -/
def bodiedIn (g : StepProgram) (q : Sequencer) (log : StepLog) (st : Stash) : State :=
  { up with
    parts := [(0, { Part.zero with cfg := some { cfg0 bodyEnd with program := g }, state := .running, latePending := true })]
    runs := [(0, { PartRun.zero with seq := { q with phase := .body, reported := some q.pc }, log := log, stash := st })]
    memDies := [(0, { MemDie.zero with scratch := 1 })]
    berths := [(0, { Berth.zero with cfg := berthCfg 2 0x1000 (idLighter 0 0) idSequencer })] }

theorem bodiedIn_runs (op : Nat) (i : BodyIns) (g : StepProgram) (q : Sequencer) (log : StepLog) (st : Stash)
    (h : (bodiedIn g q log st).bodyAt 0 op = some i) : (bodiedIn g q log st).bodyRuns 0 op i (bodiedIn g q log st) := by
  have hb : (bodiedIn g q log st).tryBegin 0 = bodiedIn g q log st := by
    unfold State.tryBegin
    have : ((bodiedIn g q log st).seq 0).phase = .body := rfl
    simp [this]
  have he : (bodiedIn g q log st).endRewind 0 = bodiedIn g q log st := rfl
  have hr : ((bodiedIn g q log st).seq 0).reported = some ((bodiedIn g q log st).seq 0).pc := rfl
  exact ⟨by rw [hb]; exact h, by rw [hb, he, if_pos hr]⟩

/-- A step program whose apply pass clears block 3 with its first image and block 4 with its second. -/
def clears : StepProgram :=
  { program0 [insAt 8 0 0 0 0, insAt 4 0 0 1 0, insAt 4 0 0 1 1, insAt 9 0 0 0 0] with
    blocks := [{ block := 3, region := 0, readers := 2, lastTag := 1, base := 2, size := 1 },
               { block := 4, region := 0, readers := 2, lastTag := 1, base := 3, size := 1 }]
    images := bytesOf (lightWords 4 0 0 1) ++ bytesOf ((lightWords 4 0 0 1).set 4 0x3000) }

/-- That program at an instruction; `held` is set while block 3 is being copied into the stash. -/
def clearing (pc : Nat) (held : Bool) (off : List (Nat × Nat)) : State :=
  bodiedIn clears { Sequencer.zero with pc := pc, verdictSent := true, verdict := some .none, boundMbs := [0], putOff := off } StepLog.zero
    { Stash.zero with versions := [{ firstVersion 3 with copying := held }] }

/-- The same, in a loop that began before the block's part. -/
def clearingLoop : State :=
  bodiedIn clears { Sequencer.zero with pc := 1, verdictSent := true, verdict := some .none, boundMbs := [0], loops := [frame0 0] }
    StepLog.zero { Stash.zero with versions := [{ firstVersion 3 with copying := true }] }

/-- The machine once the images of its POST are read. -/
def clearing1 (pc : Nat) (held : Bool) : State := ((clearing pc held []).readImages 0 clears (pc - 1) 1).2

theorem test_witness_BodyPostAndLoss_applies :
    (∀ held, held ∈ [true, false] → (clearing 1 held []).bodyRuns 0 4 (insAt 4 0 0 1 0) (clearing 1 held [])
      ∧ (clearing 1 held []).program? 0 = some clears ∧ ((clearing 1 held []).seq 0).loops = []
      ∧ ((clearing 1 held []).readImages 0 clears (0 % 2 ^ 32) 1).1 = some [zeroWords]
      ∧ postClass ((clearing 1 held []).berth 0).cfg 0 = 3
      ∧ ((clearing 1 held []).log 0).lateOrigin = none
      ∧ ((clearing1 1 held).postPart 0).map (fun x => (x.1, x.2.1, x.2.2.map (·.block))) = some (1, 2, [3])
      ∧ ((clearing1 1 held).applyBlocks 0 ((clearing1 1 held).postBlocks 0 clears 3 [zeroWords])).1 = !held)
    ∧ (((clearing1 1 true).applyBlocks 0 ((clearing1 1 true).postBlocks 0 clears 3 [zeroWords])).2.mayPutOff 0 (1, 2, []) = true)
    ∧ (clearingLoop.bodyRuns 0 4 (insAt 4 0 0 1 0) clearingLoop
      ∧ (clearingLoop.readImages 0 clears (0 % 2 ^ 32) 1).1 = some [zeroWords]
      ∧ (let b1 := (clearingLoop.readImages 0 clears 0 1).2
         (b1.applyBlocks 0 (b1.postBlocks 0 clears 3 [zeroWords])).1 = false
          ∧ (b1.postPart 0).isSome = true
          ∧ (b1.applyBlocks 0 (b1.postBlocks 0 clears 3 [zeroWords])).2.mayPutOff 0 (1, 2, []) = false)) := by
  refine ⟨?_, by decide +kernel, bodiedIn_runs 4 _ _ _ _ _ (by decide +kernel), by decide +kernel, by decide +kernel⟩
  intro held h
  simp only [List.mem_cons, List.not_mem_nil, or_false] at h
  obtain rfl | rfl := h <;> exact ⟨bodiedIn_runs 4 _ _ _ _ _ (by decide +kernel), by decide +kernel⟩

theorem test_witness_BodyLoopsFetchesAndWaits_putOff :
    (∀ held, held ∈ [true, false] → (clearing 3 held [(1, 2)]).bodyRuns 0 9 (insAt 9 0 0 0 0) (clearing 3 held [(1, 2)])
      ∧ ((clearing 3 held [(1, 2)]).seq 0).putOff ≠ [])
    ∧ ((clearing 3 true [(1, 2)]).resumePart 0 [(1, 2)]).1 = none
    ∧ ((clearing 3 false [(1, 2)]).resumePart 0 [(1, 2)]).1 = some (1, 2) := by
  refine ⟨?_, by decide +kernel, by decide +kernel⟩
  intro held h
  simp only [List.mem_cons, List.not_mem_nil, or_false] at h
  obtain rfl | rfl := h <;> exact ⟨bodiedIn_runs 9 _ _ _ _ _ (by decide +kernel), by decide +kernel⟩

/-- A program that settles a sum image, with a set of its own for a late contribution in region 0. -/
def settles : StepProgram :=
  { program0 [insAt 6 0 1 0 0, insAt 4 0 0 1 0, insAt 8 0 0 0 0, insAt 9 0 0 0 0] with
    control := { (program0 []).control with lateRegion := 0 }, images := bytesOf (lightWords 3 1 0 8) }
/-- The sums of step 5 wait for its REDUCE, in a die all of whose scratchpad is given to it; they cannot be read where
the first codeword is poisoned. -/
def lateSums (bad : List Nat) : State :=
  let s := bodiedIn settles Sequencer.zero { StepLog.zero with lateOrigin := some 5, lateGroups := [1] } Stash.zero
  { s with mem := { s.mem with nearPoison := bad }, memDies := [(0, { MemDie.zero with scratch := 12 })] }

theorem test_witness_BodyReduceAndVerdict_late :
    (lateSums []).bodyRuns 0 6 (insAt 6 0 1 0 0) (lateSums []) ∧ (lateSums [0]).bodyRuns 0 6 (insAt 6 0 1 0 0) (lateSums [0])
      ∧ (State.lateAdds 0 { cfg0 bodyEnd with program := settles } 5 ((lateSums []).lateImages 0) (lateSums [])).1 = true
      ∧ (State.lateAdds 0 { cfg0 bodyEnd with program := settles } 5 ((lateSums [0]).lateImages 0) (lateSums [0])).1 = false := by
  refine ⟨⟨by decide +kernel, by decide +kernel⟩, ⟨by decide +kernel, by decide +kernel⟩, by decide +kernel, by decide +kernel⟩

/-- Two scopes, with a peak of each for the step. -/
def peaked : State :=
  { postAt 1 0 Sequencer.zero with
    parts := [(0, { Part.zero with cfg := some { cfg0 bodyEnd with program := peaks }, state := .running })]
    runs := [(0, { PartRun.zero with seq := { Sequencer.zero with phase := .body, reported := some 0, peaks := [peak 8, peak 9] } })] }
where
  peaks : StepProgram :=
    { program0 ([insAt 4 1 0 1 (2 ^ 48)] ++ bodyEnd) with
      scopes := [{ id := 8, tensor := 0, microBatch := 0, elemFirst := 0, elemCount := 1 },
                 { id := 9, tensor := 1, microBatch := 0, elemFirst := 0, elemCount := 1 }] }
  peak (n : Nat) : PeakRec := { step := 0, scope := BitVec.ofNat 32 n, peak := 1, invalid := false, fmt := 0, cluster := none }

theorem test_witness_BodyPostAndLoss_peaks :
    peaked.bodyRuns 0 4 (insAt 4 1 0 1 (2 ^ 48)) peaked ∧ peaked.program? 0 = some peaked.peaks
      ∧ (if (insAt 4 1 0 1 (2 ^ 48)).flags.testBit 0 then peaked.pairPeaks 0 peaked.peaks (2 ^ 48) else some (0, 0)) = some (1, 1)
      ∧ (peaked.readImages 0 peaked.peaks (2 ^ 48 % 2 ^ 32) 1).1 = some [zeroWords] := by
  refine ⟨⟨by decide +kernel, by decide +kernel⟩, by decide +kernel⟩

/-- Partition 0 waits for the job's verdict. -/
def awaiting : State := bodied (insAt 9 0 0 0 0) { Sequencer.zero with verdictSent := true }

theorem test_witness_VerdictsAct :
    ((cfg0 bodyEnd).policy.nonfiniteAction = 0 ∧ (cfg0 bodyEnd).policy.spikeAction = 0
      ∧ ({ (cfg0 bodyEnd).policy with nonfiniteAction := 1, spikeAction := 1 } : Policy).nonfiniteAction = 1
      ∧ ({ (cfg0 bodyEnd).policy with nonfiniteAction := 2 } : Policy).nonfiniteAction = 2)
    ∧ ((awaiting.seq (0 : BitVec 6).toNat).verdictSent = true ∧ (awaiting.seq 0).verdict = none ∧ (awaiting.seq 0).phase = .body
      ∧ awaiting.cfg? 0 = some (cfg0 ([insAt 9 0 0 0 0] ++ bodyEnd)))
    ∧ (((cfg0 bodyEnd).policy.verdict true false).discards = true
      ∧ ((awaiting.berth 0).front.kindOf ≠ 0 ∧ (awaiting.berth 0).front.partition = (0 : BitVec 6).toNat
        ∧ (awaiting.berth 0).front.intake = true)
      ∧ (cfg0 bodyEnd).policy.verdict true false = .halt ∧ (awaiting.part 0).state.live = true
      ∧ (awaiting.part 0).state ≠ .halted ∧ (awaiting.seq 0).pendingHalt = none)
    ∧ ((cfg0 bodyEnd).policy.verdict false false).discards = false := by
  decide

/-! ## Slack water, the logbook and snapshots -/

/-- Partition 0 with a drive that works, its Manifest part mirrored or not, and what it runs. -/
def journal (m : Option Mirror) (x : PState) (r : PartRun) : State :=
  { driven .ready false with
    parts := [(0, { Part.zero with cfg := some { cfg0 bodyEnd with mirror := m }, state := x })]
    runs := [(0, r)]
    hm := { up.hm with boardCoord := 0x10000 } }

def mirror0 : Mirror := { partner := 1, partnerFeed := 0, shardRegion := 2, mirrorRegion := 2, shardBytes := 0 }

def seqRun (q : Sequencer) : PartRun := { PartRun.zero with seq := q }
def ended : State := journal (some mirror0) .running (seqRun { Sequencer.zero with phase := .ended })

theorem test_witness_SlackWater :
    (up.seq (0 : BitVec 6).toNat).phase ≠ .ended
    ∧ ((ended.seq (0 : BitVec 6).toNat).phase = .ended ∧ ended.stepBusy 0 = false ∧ ended.hmAux.restarting = false
      ∧ (ended.det 0).applyHalt = false ∧ (ended.seq 0).cause = 0 ∧ ended.cfg? 0 = some { cfg0 bodyEnd with mirror := some mirror0 }
      ∧ (ended.seq 0).verdict ≠ some .skip ∧ (some mirror0).isSome = true ∧ (ended.part 0).partnerLost = false
      ∧ (ended.log 0).partnerDigest = none)
    ∧ ((ended.mirror? 0).isSome = true ∧ (ended.part 0).state.live = true ∧ (ended.seq 0).phase ≠ .slack 2)
    ∧ (((journal (some mirror0) .running { seqRun { Sequencer.zero with phase := .slack 2 } with log := { StepLog.zero with ownDigest := some (zeros 48) } }).seq 0).phase = .slack 2
      ∧ ((journal (some mirror0) .running { seqRun { Sequencer.zero with phase := .slack 2 } with log := { StepLog.zero with ownDigest := some (zeros 48) } }).log 0).ownDigest = some (zeros 48)) := by
  decide

/-- A step entry on its way to the drives, at action 5, with a halt pending or without. -/
def entry0 : Unwritten := { cid := some 3, step := true, bytes := [1] }
def writing (h : Option (Byte × Byte)) : State :=
  journal none .running { seqRun { Sequencer.zero with phase := .slack 5, pendingHalt := h } with log := { StepLog.zero with unwritten := [entry0] } }

/-- The same, with an abandon notice for the next step received. -/
def noticed : State := { writing none with parts := [(0, { (writing none).part 0 with noticeAt := some 1 })] }

/-- A snapshot on its way to the drives. -/
def image0 : SnapImage :=
  { step := 7, slot := true, digest := [], bytes := 0, hold := [], late := [], stash := [], versions := [], places := [], bound := []
    lateOrigin := none, lateGroups := [], active := [], shadow := [], incoming := [], shadowDigest := [], shadowId := 0, plan := [], pend := 0, done := 0, tag := 0, prevTag := 0, prevLive := false
    routes := [], phase := .none, mean := 0, seen := 0, lading := Lading.zero }
def snapping : State := journal none .running { PartRun.zero with log := { StepLog.zero with snapImage := some (image0, 3) } }

theorem test_witness_EntriesAndSnapshots :
    (((writing none).log (0 : BitVec 6).toNat).unwritten.find? (fun u => u.cid.isSome) = some entry0 ∧ (writing none).working ≠ []
      ∧ (writing none).hmAux.restarting = false ∧ entry0.step = true ∧ ((writing none).seq 0).phase = .slack 5
      ∧ ((writing none).seq 0).pendingHalt = none ∧ ((writing none).part 0).state = .running
      ∧ ((writing none).part 0).fillPending = false ∧ ((writing none).run 0).held = false ∧ (writing none).discHeld 0 = false
      ∧ ((writing none).log 0).restoring = none ∧ ((writing none).part 0).noticeAt = none)
    ∧ (noticed.log 0).unwritten.find? (fun u => u.cid.isSome) = some entry0 ∧ noticed.working ≠ []
    ∧ (noticed.seq 0).phase = .slack 5 ∧ (noticed.seq 0).pendingHalt = none ∧ (noticed.part 0).noticeAt = some 1
    ∧ (1 : DWord) ≤ (noticed.part 0).step + 1
    ∧ ((writing (some (2, 2))).seq 0).pendingHalt = some (2, 2)
    ∧ ((snapping.log 0).snapImage = some (image0, 3) ∧ snapping.working ≠ [] ∧ snapping.hmAux.restarting = false
      ∧ (snapping.seq 0).phase ≠ .slack 4 ∧ (snapping.seq 0).phase ≠ .slack 5)
    ∧ up.serves readyHm := by
  unfold State.serves; decide

/-- Partition 0 keeps a lading record, for berth 3 or for no berth; its last message waits there or not. -/
def lading (n : Word) (waits : List Waiting) : State :=
  { journal none .running { PartRun.zero with lading := { Lading.zero with kept := true, cfg := n } } with
    berths := [(3, { Berth.zero with cfg := berthCfg 2 0x1000 (idSession 0) idJournal, waiting := waits })] }

/-- A message of the journal keeper that waits for room. -/
def waits0 : Waiting := { msg := { serves := 0, producer := BitVec.ofNat 16 idJournal, cls := 8, step := 0, bytes := [1] }, done := 0 }

/-- A keeper with a guest. -/
def keeper : State := { driven .ready false with jr := { Jr.zero with guest := some 5, guestSize := some 4096 } }

theorem test_witness_LadingRecordsAndKeepers :
    ((lading 3 []).serves readySecurity ∧ ((lading 3 []).lading (0 : BitVec 6).toNat).kept = true
      ∧ (lading 3 []).ladingBerthOk 0 (bits ((lading 3 []).lading 0).cfg 13 0) = true ∧ (lading 3 []).ladingPending 0 = false
      ∧ bit (lading 3 []).events.berth 14 = false)
    ∧ ((lading 4 []).ladingBerthOk 0 (bits ((lading 4 []).lading 0).cfg 13 0) = false ∧ ((lading 4 []).lading 0).kept = true)
    ∧ (lading 3 [waits0]).ladingPending 0 = true
    ∧ ((driven .ready false).jr.guest = none ∧ (driven .ready false).layoutFits (driven .ready false).ownImages (4096 : DWord).toNat = true)
    ∧ (keeper.jr.guest ≠ none ∧ (∀ g, keeper.jr.guest = some g → g ≠ 6 ∨ keeper.fitsGuestSlot 1 = false))
    ∧ (keeper.jr.guest = some 5 ∧ keeper.fitsGuestSlot 4096 = true ∧ keeper.fitsGuestSlot (2 ^ 40) = false)
    ∧ (keeper.jr.guest.isSome = true ∧ keeper.working ≠ [] ∧ entryBlocks [1] ≤ guestRing
      ∧ keeper.fitsGuestSlot [(1 : Byte)].length = true) := by
  refine ⟨by unfold State.serves; decide, by decide, by decide, by decide, ⟨by decide, ?_⟩, by decide, by decide⟩
  intro g h; cases h; decide

theorem test_witness_EntriesAndSnapshots_written : ∀ d, ∀ x ∈ (snapping.drive d).cmds, x.cid = 3 ∨ x.cid = 3 + 1 → x.retried = false := by
  intro d x h _
  unfold State.drive at h
  split at h
  · simp only [show snapping.gw.drive0.cmds = [cmd0 false] from rfl, List.mem_singleton] at h
    rw [h]; rfl
  · simp only [show snapping.gw.drive1.cmds = [] from rfl, List.not_mem_nil] at h

/-! ## Jobs -/

/-- A committed Manifest with partition 0 in a state; session 0 is open and a drive works. -/
def jobbed (x : Part) (r : PartRun) : State :=
  { connected up with
    gw := { (connected up).gw with pcieUp := true, drive0 := drive0 .ready false }
    mf := { Mf.zero with active := true, jobId := 5, loadState := .committed }
    hm := { up.hm with boardCoord := 0x10000 }
    parts := [(0, { x with cfg := some (cfg0 bodyEnd) })]
    runs := [(0, r)] }

def partIn (x : PState) (cause : Byte) : Part := { Part.zero with state := x, cause := cause }

/-- A partition that keeps the snapshot of step 7. -/
def withSnap : State := jobbed (partIn .idle 0) { PartRun.zero with log := { StepLog.zero with slots := [image0] } }

/-- The same, which lost member 1 of its job. -/
def withLost : State :=
  jobbed { partIn .idle 0 with lostMembers := [1] } { PartRun.zero with log := { StepLog.zero with slots := [image0] } }

/-- A spare that has taken member 1's place in partition 0, halted with cause 11, and whose keeper serves. -/
def servedBy (k : Nat) : State :=
  let s := jobbed (partIn .halted 11) .zero
  { s with
    parts := [(0, { partIn .halted 11 with
      cfg := some { cfg0 bodyEnd with recovery := { (cfg0 bodyEnd).recovery with keeper := k } } })]
    clusters := [(0, { Cluster.first 0 with ctxs := [ctx0 0 0 0 []] })]
    jr := { Jr.zero with fill := { Fill.zero with spareRole := true, lost := 1 } } }

/-- The same spare while it waits for its fill. -/
def waitingFor (k : Nat) : State := { servedBy k with parts := [(0, { (servedBy k).part 0 with state := .fillWait, cause := 0 })] }

theorem test_witness_JobActions_resume :
    (((jobbed (partIn .halted 6) .zero).seq 0).phase = .none ∧ ((jobbed (partIn .halted 6) .zero).run 0).held = false
      ∧ (jobbed (partIn .halted 6) .zero).discHeld 0 = false ∧ ((jobbed (partIn .halted 6) .zero).log 0).restoring = none)
    ∧ ((jobbed (partIn .halted 6) (seqRun { Sequencer.zero with phase := .slack 5 })).seq 0).phase ≠ .none
    ∧ (withSnap.restoreClaims 0 1 = false ∧ withLost.restoreClaims 0 1 = true ∧ (withLost.ownSnapshot 0 7).isSome = true) := by
  decide

theorem test_witness_JobActions_restore :
    (servedBy 3).jobTurn 0 5 0 ∧ (servedBy 3).ready readySnapshot = true ∧ ((servedBy 3).part 0).state = .halted
      ∧ ((servedBy 3).part 0).restartCause = 11 ∧ (servedBy 3).avoidsBad 0 = true ∧ (servedBy 3).keeperServes 0 1 = true
      ∧ (waitingFor 3).jobTurn 0 5 0 ∧ ((waitingFor 3).part 0).state = .fillWait ∧ (waitingFor 3).keeperServes 0 1 = true := by
  unfold State.jobTurn State.turn; decide +kernel

theorem test_witness_JobActions_start :
    (jobbed (partIn .idle 0) .zero).jobTurn 0 5 (0 : Byte).toNat ∧ (jobbed (partIn .idle 0) .zero).ready readySnapshot = true
      ∧ ((jobbed (partIn .idle 0) .zero).part 0).state = .idle
      ∧ (jobbed (partIn .idle 0) .zero).layoutFits (jobbed (partIn .idle 0) .zero).ownImages
          (((jobbed (partIn .idle 0) .zero).jr.guestSize.map BitVec.toNat).getD 0) = true
      ∧ ((jobbed (partIn .idle 0) .zero).run 0).restored = none
      ∧ (jobbed (partIn .idle 0) .zero).program? 0 = some (program0 bodyEnd)
      ∧ ((jobbed (partIn .idle 0) .zero).recoveryOf 0).keeper = 0xFFFF ∧ (jobbed (partIn .idle 0) .zero).mirror? 0 = none := by
  unfold State.jobTurn State.turn; decide

theorem test_witness_JobActions :
    ((jobbed (partIn .running 0) .zero).jobTurn 0 5 0 ∧ (jobbed (partIn .running 0) .zero).ready readySnapshot = true
      ∧ ((jobbed (partIn .running 0) .zero).part 0).state ≠ .idle
      ∧ ((jobbed (partIn .running 0) .zero).part 0).state = .running
      ∧ ((jobbed (partIn .running 0) .zero).seq 0).pendingHalt = none
      ∧ ((jobbed (partIn .running 0) .zero).seq 0).phase = .none
      ∧ ((jobbed (partIn .running 0) (seqRun { Sequencer.zero with phase := .body })).seq 0).phase ≠ .none
      ∧ (jobbed (partIn .running 0) .zero).mirror? 0 = none)
    ∧ ((jobbed (partIn .halted 2) .zero).jobTurn 0 5 0 ∧ ((jobbed (partIn .halted 2) .zero).part 0).state = .halted
      ∧ [1, 2, 5, 8, 12].contains ((jobbed (partIn .halted 2) .zero).part 0).restartCause = true
      ∧ [2, 5].contains ((jobbed (partIn .halted 2) .zero).part 0).restartCause = true
      ∧ ((jobbed (partIn .halted 2) .zero).log 0).replay = []
      ∧ ((jobbed (partIn .halted 2) .zero).part 0).stepClosed = false)
    ∧ ((jobbed (partIn .halted 4) .zero).jobTurn 0 5 0 ∧ ((jobbed (partIn .halted 4) .zero).part 0).cause = 4)
    ∧ ((jobbed (partIn .halted 6) .zero).jobTurn 0 5 0 ∧ ((jobbed (partIn .halted 6) .zero).part 0).cause = 6
      ∧ (jobbed (partIn .halted 6) .zero).working ≠ [])
    ∧ (withSnap.jobTurn 0 5 0 ∧ withSnap.ready readySnapshot = true ∧ (withSnap.part 0).state = .idle
      ∧ (withSnap.ownSnapshot 0 7).isSome = true ∧ (withSnap.recoveryOf 0).keeper = 0xFFFF)
    ∧ ((jobbed (partIn .running 0) .zero).turn 0 5 ∧ (jobbed (partIn .running 0) .zero).hmAux.restarting = false
      ∧ (jobbed (partIn .running 0) .zero).jobPart (1 : Byte).toNat = false) := by
  unfold State.jobTurn State.turn; decide

/-! ## Notices, losses, restores and fills -/

/-- Partition 0 in a job of two members, mirrored with member 1, with a spare pool; it waits for stragglers. -/
def teamCfg (m : Option Mirror) : PartCfg :=
  { cfg0 bodyEnd with
    groups := [group 1], mirror := m
    program := { program0 bodyEnd with regions := [region 1 0 0x10000, region 2 0 0x100, region 3 1 1] }
    recovery := { (cfg0 bodyEnd).recovery with stragglerUs := 10, lateAction := 1 } }

def team (m : Option Mirror) (pools : List PoolRec) (x : PState) (f : Fill) (r : PartRun) : State :=
  { jobbed Part.zero r with
    parts := [(0, { Part.zero with cfg := some (teamCfg m), state := x, step := 4 })]
    mfAux := { MfAux.zero with dev := { DevCfg.zero with pools := pools } }
    jr := { Jr.zero with fill := f } }

def pool (n : Nat) : PoolRec := { part := 0, spare := n, feed := 0 }

def inBody : PartRun := seqRun { Sequencer.zero with phase := .body }
def meeting : State := team (some mirror0) [] .running .zero (seqRun { Sequencer.zero with phase := .body, ownReady := [1] })

theorem test_witness_NoticesAndStragglers :
    ((meeting.part (0 : BitVec 6).toNat).state.live = true ∧ (meeting.part 0).state ≠ .halted ∧ (meeting.seq 0).pendingHalt = none
      ∧ (3 : DWord) < (meeting.part 0).step ∧ (meeting.part 0).step ≤ (4 : DWord) ∧ (meeting.seq 0).phase ≠ .none
      ∧ (1 : Byte) ≠ 2 ∧ (4 : DWord) ≤ (meeting.part 0).step ∧ (meeting.seq 0).phase = .body)
    ∧ (meeting.coordinates 0 1 = true ∧ (meeting.group? 0 (1 : Half).toNat).any (fun x => x.has 1) = true
      ∧ (meeting.seq 0).ready.contains (4, 1, 1) = false ∧ meeting.coordinates 0 2 = false)
    ∧ (meeting.part 0).step < (5 : DWord) ∧ ((team (some mirror0) [] .running .zero .zero).seq 0).phase = .none
    ∧ ((meeting.recoveryOf 0).stragglerUs ≠ 0 ∧ (meeting.part 0).state = .running ∧ meeting.waitsFor 0 1 = true
      ∧ meeting.silent 0 1 1 = true) := by
  decide

/-- A restore from the snapshot of step 7. -/
def reloading : State :=
  team (some mirror0) [] .restoring .zero { PartRun.zero with log := { StepLog.zero with restoring := some (7, false), slots := [image0] } }

theorem test_witness_RestoresLoad :
    (reloading.part (0 : BitVec 6).toNat).state = .restoring ∧ (reloading.log 0).restoring = some (7, false)
      ∧ (reloading.log 0).slots.find? (fun i => decide (i.step = 7)) = some image0
      ∧ (∀ u, u = reloading.loaded 0 7 false none → u.shardHolds 0 7 (u.restoreEntries 0 false none) = true)
      ∧ replayNext (replaySteps [] 7 7) = []
      ∧ (replayNext (replaySteps [zeros 8 ++ natLe 8 8 ++ zeros 80] 7 8)).map (·.step) = [8] := by
  refine ⟨by decide, by decide, by decide, ?_, by decide, by decide +kernel⟩
  intro u h; subst h; decide +kernel

/-- A fill of member 1's place for partition 0. -/
def fill (x : FillState) (spare : Bool) (bad : Nat) : Fill := { Fill.zero with state := x, spareRole := spare, lost := 1, mismatches := bad }

/-- What a keeper gives of step 7, and a restore that loads it. -/
def guest7 : GuestImage :=
  { last := 7, mean := 0x3F800000, seen := 3, hold := [(0, [1, 2])], entries := [], stash := [], tags := [], active := []
    shadow := [], amendment := [], phase := 0, tag := 1, prevTag := 0, prevLive := false, pend := 0, done := 0 }
def refetching : State :=
  team (some mirror0) [] .restoring (fill .idle true 0) { PartRun.zero with log := { StepLog.zero with restoring := some (7, true) } }

theorem test_witness_RestoresLoad_keeper :
    (refetching.part (0 : BitVec 6).toNat).state = .restoring ∧ (refetching.log 0).restoring = some (7, true)
      ∧ guest7.last = 7
      ∧ (∀ u, u = refetching.loaded 0 7 true (some guest7) → u.shardHolds 0 7 (u.restoreEntries 0 true (some guest7)) = true) := by
  refine ⟨by decide, by decide, by decide, ?_⟩
  intro u h; subst h; decide +kernel

/-- The same member without a mirror. -/
def alone : State := team none [] .running .zero (seqRun { Sequencer.zero with phase := .body, ownReady := [1] })

theorem test_witness_LossesAreDeclared :
    ((meeting.mirror? (0 : BitVec 6).toNat).isSome = true ∧ (meeting.part 0).state.live = true ∧ meeting.hmAux.escalated = false
      ∧ meeting.lostToJob 0 = false ∧ (meeting.part 0).partnerLost = false)
    ∧ ((team (some mirror0) [pool 9] .running .zero inBody).mirror? 0 = some mirror0 ∧ mirror0.partner < 65536
      ∧ ((team (some mirror0) [pool 9] .running .zero inBody).part 0).state = .running
      ∧ ((team (some mirror0) [pool 9] .running .zero inBody).part 0).partnerLost = false
      ∧ ((team (some mirror0) [pool 9] .running .zero inBody).part 0).fillPending = false
      ∧ (team (some mirror0) [pool 9] .running .zero inBody).jr.fill.active = false
      ∧ (team (some mirror0) [pool 9] .running .zero inBody).jr.fill.follows = false
      ∧ ((team (some mirror0) [pool 9] .running .zero inBody).seq 0).phase ≠ .slack 2
      ∧ ((team (some mirror0) [pool 9] .running .zero inBody).spareOrder 0)[0]? = some (pool 9)
      ∧ (team (some mirror0) [pool 9] .running .zero inBody).lossMode 0 = 1
      ∧ (team (some mirror0) [pool 9] .running .zero (seqRun { Sequencer.zero with phase := .body, verdict := some .none })).lossMode 0 = 2
      ∧ ((team (some mirror0) [] .running .zero inBody).spareOrder 0)[0]? = none)
    ∧ (alone.cfg? 0 = some (teamCfg none) ∧ group 1 ∈ (teamCfg none).groups ∧ alone.coordinates 0 1 = true
      ∧ (alone.seq 0).ownReady.contains 1 = true ∧ (group 1).has 1 = true ∧ (1 : Half).toNat ≠ alone.me 0
      ∧ (alone.seq 0).ready.contains ((alone.part 0).step, 1, 1) = false)
    ∧ alone.mirror? 0 = none
    ∧ (mirror0.partner ≠ (7 : Half).toNat ∧ (team (some mirror0) [] .running .zero .zero).mirror? 0 = some mirror0
      ∧ ((team (some mirror0) [] .running .zero .zero).seq 0).phase = .none
      ∧ ((team (some mirror0) [] .running .zero .zero).part 0).state = .running) := by
  decide

/-- A partition in such a fill. -/
def filling (x : FillState) (spare : Bool) (bad : Nat) : State := team (some mirror0) [pool 9, pool 10] .fillWait (fill x spare bad) .zero
def claim0 : Claim := { claimant := 0, lostLogical := 1, lostPhysical := 1, part := 0 }

theorem test_witness_FillsRun_claims :
    (((team (some mirror0) [] .standby .zero .zero).part claim0.part.toNat).state = .standby
      ∧ (team (some mirror0) [] .standby .zero .zero).jr.fill.active = false)
    ∧ (meeting.part claim0.part.toNat).state ≠ .standby
    ∧ ((filling .claim false 0).fillIn (0 : BitVec 6).toNat .claim = true ∧ (filling .claim false 0).jr.fill.spareRole = false
      ∧ ((filling .claim false 0).cfg? 0).isSome = true
      ∧ ((filling .claim false 0).spareOrder 0)[(filling .claim false 0).jr.fill.tried + 1]? = some (pool 10))
    ∧ ((team (some mirror0) [pool 9] .fillWait (fill .claim false 0) .zero).spareOrder 0)[0 + 1]? = none := by
  decide

/-- A member that waits for another's fill. -/
def following : State := team (some mirror0) [] .fillWait { Fill.zero with follows := true, lost := 1 } .zero

theorem test_witness_FillsRun_copies :
    (∀ x, x ∈ [true, false] → (filling .route x 0).fillIn (0 : BitVec 6).toNat .route = true
      ∧ (filling .copy x 0).fillIn 0 .copy = true ∧ (filling .copy x 0).jr.fill.spareRole = x
      ∧ (filling .copy x 0).jr.fill.mismatches = 0 ∧ (filling .route x 0).jr.fill.follows = false
      ∧ (filling .route x 0).jr.fill.restore = false ∧ (filling .copy x 0).jr.fill.follows = false
      ∧ (filling .copy x 1).jr.fill.mismatches ≠ 0
      ∧ ((filling .regen x 0).part 0).state = .fillWait ∧ (filling .regen x 0).jr.fill.queued = []
      ∧ (filling .regen x 0).fillIn 0 .regen = true ∧ (filling .regen x 0).jr.fill.spareRole = x)
    ∧ ((filling .copy false 1).jr.fill.mismatches ≠ 0 ∧ ((filling .copy false 1).cfg? 0).isSome = true
      ∧ ((filling .copy false 1).spareOrder 0)[(filling .copy false 1).jr.fill.tried + 1]? = some (pool 10))
    ∧ ((team (some mirror0) [] .running { fill .route false 0 with restore := true } .zero).fillIn 0 .route = true
      ∧ (team (some mirror0) [] .running { fill .route false 0 with restore := true } .zero).jr.fill.restore = true)
    ∧ ((following.part 0).state = .fillWait ∧ following.jr.fill.queued = [] ∧ following.followsIn 0 = true
      ∧ following.jr.fill.active = false)
    ∧ guest7.active = [] ∧ ({ guest7 with active := [1] } : GuestImage).active ≠ []
    ∧ (((filling .copy true 0).modFill (fun f => { f with progress := BitVec.ofNat 32 ((filling .copy true 0).copyMib 0) })).fillTo 0
        .verify).spareChecks 0 { guest7 with active := [1] } ≠ none
    ∧ ((team (some mirror0) [] .fillWait { fill .claim false 0 with queued := [2] } .zero).jr.fill.queued ≠ []
      ∧ (team (some mirror0) [] .fillWait { fill .claim false 0 with queued := [2] } .zero).jr.fill.part = 0
      ∧ ((team (some mirror0) [] .fillWait { fill .claim false 0 with queued := [2] } .zero).part 0).state = .fillWait
      ∧ ((team (some mirror0) [] .fillWait { fill .claim false 0 with queued := [2] } .zero).seq 0).phase = .none
      ∧ ((team (some mirror0) [] .fillWait { fill .claim false 0 with queued := [2] } .zero).seq 0).pendingHalt = none) := by
  decide

/-! ## Power and cooling -/

/-- A device with its power registers, the rest of them, and compute die 0 as given. -/
def powered (p : Pt) (a : PtAux) (d : PtDie) : State := { up with pt := p, ptAux := a, ptDies := [(0, d)] }
def withPt (p : Pt) : State := powered p .zero .zero

/-- Measured at 50 V; a burst began long ago, a moment ago, or never. -/
def loaded (since : Option DWord) : State :=
  { withPt { Pt.zero with milliV := 50000, burstSince := since } with hm := { up.hm with time := 3000000 } }

theorem test_witness_PowerIsControlled :
    up.ptUp = true
    ∧ ((loaded (some 0)).ptUp = true ∧ (loaded (some 0)).pt.burst = false
      ∧ (∀ u, (loaded (some 0)).pt.burstSince = some u → u.toNat + burstGap ≤ (loaded (some 0)).hm.time.toNat))
    ∧ ((loaded (some 2000000)).pt.burstSince = some 2000000
      ∧ (loaded (some 2000000)).hm.time.toNat < (2000000 : DWord).toNat + burstGap)
    ∧ ((withPt { Pt.zero with burst := true }).pt.burst = true)
    ∧ (inState .running).configured = [] ∧ (jobbed (partIn .running 0) .zero).configured = [0]
    ∧ ((withPt { Pt.zero with measuredW := 1000 }).pt.disagree = false ∧ (withPt { Pt.zero with measuredW := 1000 }).pt.disagrees = true)
    ∧ ((withPt { Pt.zero with measuredW := 1000, disagree := true }).pt.sensorFault = false
      ∧ (withPt { Pt.zero with measuredW := 1000, disagree := true }).pt.disagrees = true)
    ∧ (withPt { Pt.zero with sensorFault := true }).pt.sensorFault = true
    ∧ up.serves readyPower ∧ up.ptAux.coolTarget = none
    ∧ (powered .zero { PtAux.zero with coolTarget := some 9000 } .zero).ptAux.coolTarget = some 9000
    ∧ (up.dieUp (0 : BitVec 3).toNat = true ∧ (up.ptDie 0).reaches 400 = true ∧ (up.ptDie 0).pinned = false) := by
  refine ⟨by decide, ⟨by decide, by decide, ?_⟩, by decide, by decide, by decide, by decide, by decide,
    by decide, by decide, by unfold State.serves; decide, by decide, by decide, by decide⟩
  intro u h; cases h; decide

/-- An estimate of no activity is at the ceiling that it sets, and much activity lies above it. -/
theorem test_witness_PowerIsControlled_estimates :
    (∃ c, inputOf ((withPt { Pt.zero with ceiling := c }).estimateOf { work := [], spine := [] })
      ≤ (withPt { Pt.zero with ceiling := c }).pt.ceiling)
    ∧ ∀ since, (loaded since).pt.ceiling
      < inputOf ((loaded since).estimateOf { work := [{ die := 0, counts := [10 ^ 20] }], spine := [] }) := by
  refine ⟨⟨inputOf ((withPt Pt.zero).estimateOf { work := [], spine := [] }), Nat.le_of_eq rfl⟩, ?_⟩
  intro since
  have big : ∀ n : Nat, 10 ^ 20 ≤ n → 9600 < inputOf n := by
    intro n h
    unfold inputOf
    have h1 : max 1 (min 1000 (Config.efficiency n)) ≤ 1000 := by omega
    have h2 : 0 < max 1 (min 1000 (Config.efficiency n)) := by omega
    have h3 : 9601 ≤ n / 1000 / 1000 := by omega
    exact Nat.lt_of_succ_le (Nat.le_trans h3 (Nat.div_le_div_left h1 h2))
  have hc : (loaded since).pt.ceiling ≤ 9600 := by show Pt.zero.ceiling ≤ 9600; decide
  refine Nat.lt_of_le_of_lt hc (big _ ?_)
  have hd : 10 ^ 20 ≤ (loaded since).dieEstimate { work := [{ die := 0, counts := [10 ^ 20] }], spine := [] } 0 := by
    have hk : ∀ c : Nat, 10 ^ 20 ≤ 10 ^ 20 * max 1 c := fun c => Nat.le_mul_of_pos_right _ (by omega)
    have hw : 10 ^ 20 ≤ (loaded since).workOf { die := 0, counts := [10 ^ 20] } := by
      simp only [State.workOf, weigh, List.zipIdx, List.map, List.sum_cons, List.sum_nil]
      exact Nat.le_trans (hk _) (Nat.le_add_right _ _)
    have he : (loaded since).dieEstimate { work := [{ die := 0, counts := [10 ^ 20] }], spine := [] } 0
        = (loaded since).workOf { die := 0, counts := [10 ^ 20] } + Config.leakage 0 ((loaded since).ptDie 0).milliV := rfl
    omega
  refine Nat.le_trans hd ?_
  unfold State.estimateOf
  simp [List.range, List.range.loop]
  omega

/-- A die at its lowest point, which it runs at a voltage. -/
def trimmed (v : Nat) : State := powered .zero .zero { PtDie.zero with mhz := 400, trimMv := List.replicate 8 v }
/-- Spot 0 at a temperature. -/
def hot (t : Nat) (faulty : Bool) : State :=
  powered .zero { PtAux.zero with spots := [(0, { Spot.zero with r0 := t, r1 := t, estimate := t, fault := faulty })] } .zero

theorem test_witness_HeatAndMargins :
    up.ptUp = true
    ∧ (spotLimit 0 ≤ 103 + 2 ∧ (up.spot 0).limited = none
      ∧ ({ up.spot 0 with r0 := 90, r1 := 89, estimate := 90, prediction := 90 } : Spot).protective < spotLimit 0
      ∧ spotLimit 0 ≤ ({ up.spot 0 with r0 := 106, r1 := 100, estimate := 90, prediction := 90 } : Spot).protective
      ∧ ({ up.spot 0 with r0 := 106, r1 := 100, estimate := 90, prediction := 90 } : Spot).atLimit = false
      ∧ within 160 177 0 = false ∧ within 160 177 161 = true ∧ within 128 159 0 = false ∧ within 128 159 128 = true)
    ∧ (10 < apart_ ((hot 110 false).spot 0).r0 (90 : Byte).toNat ∧ 10 < apart_ ((hot 110 false).spot 0).r1 (90 : Byte).toNat
      ∧ apart_ ((hot 110 false).spot 0).r0 (105 : Byte).toNat ≤ 10
      ∧ apart_ ((hot 110 false).spot 0).r0 ((hot 110 false).spot 0).r1 ≤ 3
      ∧ 3 < apart_ ((powered .zero { PtAux.zero with spots := [(0, { Spot.zero with r0 := 9 })] } .zero).spot 0).r0
          ((powered .zero { PtAux.zero with spots := [(0, { Spot.zero with r0 := 9 })] } .zero).spot 0).r1)
    ∧ (spotLimit 0 + 5 ≤ ((hot 110 false).spot 0).protective ∧ (hot 110 false).pt.flowRow = .idle)
    ∧ (∀ e ∈ (hot 100 false).ptAux.spots, ((hot 100 false).spotDies e.1).contains (0 : BitVec 3).toNat = true →
        e.2.protective + 3 ≤ spotLimit e.1)
    ∧ (6 : Nat) < max (90 : Byte).toNat (80 : Byte).toNat - min (90 : Byte).toNat (80 : Byte).toNat
    ∧ ((powered .zero { PtAux.zero with tray := [{ inlet := 1, outlet := 2, flow := 3 }] } .zero).ptAux.trayStale = false
      ∧ (powered .zero { PtAux.zero with tray := [{ inlet := 1, outlet := 2, flow := 3 }] } .zero).ptAux.tray ≠ [])
    ∧ (powered .zero { PtAux.zero with trayStale := true } .zero).ptAux.trayStale = true
    ∧ ((trimmed 600).dieUp (0 : BitVec 3).toNat = true ∧ pointFor 0 ((trimmed 600).ptDie 0).mhz = 0
      ∧ ((trimmed 600).ptDie 0).pointV 0 0 + 5 ≤ 750 ∧ 505 ≤ ((trimmed 600).ptDie 0).pointV 0 0
      ∧ (trimmed 748).dieUp 0 = true ∧ pointFor 0 ((trimmed 748).ptDie 0).mhz = 0
      ∧ 750 < ((trimmed 748).ptDie 0).pointV 0 0 + 5) := by
  decide

theorem test_witness_PinsAndQuiesce :
    (up.supply.warnLow = false ∧ up.boot.phase ≠ .held)
    ∧ (({ up with supply := { up.supply with warnLow := true } } : State).ptUp = true
      ∧ ({ up with supply := { up.supply with warnLow := true } } : State).supply.warnLow = true
      ∧ ({ up with supply := { up.supply with warnLow := true } } : State).pt.limits.supply = none)
    ∧ (withPt { Pt.zero with warnHold := true }).pt.warnHold = true
    ∧ (((powered .zero .zero { PtDie.zero with waves := 2 }).ptDie (0 : BitVec 3).toNat).waves = (2 : BitVec 3).toNat
      ∧ 0 < ((powered .zero .zero { PtDie.zero with waves := 2 }).ptDie 0).duty
      ∧ ((powered .zero .zero { PtDie.zero with waves := 2 }).ptDie 0).waves ≠ (3 : BitVec 3).toNat)
    ∧ ((up.ptDie 0).stretched = false ∧ ((powered .zero .zero { PtDie.zero with stretched := true }).ptDie 0).stretched = true)
    ∧ (up.ptUp = true ∧ up.pt.flowRow = .idle ∧ (rom .rom).ptUp = false)
    ∧ ((powered .zero { PtAux.zero with tray := [{ inlet := 1, outlet := 2, flow := 3 }] } .zero).ptAux.tray.getLast?
        = some { inlet := 1, outlet := 2, flow := 3 } ∧ (3 : Nat) < 120)
    ∧ (withPt { Pt.zero with flowRow := .running }).pt.flowRow = .running
    ∧ ((withPt { Pt.zero with flowRow := .quiesced }).pt.flowRow = .quiesced
      ∧ bit (withPt { Pt.zero with flowRow := .quiesced }).pt.config 0 = false
      ∧ bit (withPt { Pt.zero with flowRow := .quiesced, config := 3 }).pt.config 0 = true
      ∧ (withPt { Pt.zero with flowRow := .quiesced }).serves readyPower
      ∧ (withPt { Pt.zero with flowRow := .quiesced, resumeReady := true }).pt.resumeReady = true
      ∧ (withPt { Pt.zero with flowRow := .quiesced }).pt.resumeReady = false)
    ∧ bit (powered .zero { PtAux.zero with tideCfg := 0x00400000 } .zero).ptAux.tideCfg 22 = true := by
  unfold State.serves; decide

theorem test_witness_PinsAndQuiesce_ends :
    ((withPt { Pt.zero with flowRow := .running }).mayQuiesce = true
      ∧ ({ writing none with pt := { Pt.zero with flowRow := .running } } : State).mayQuiesce = false)
    ∧ ((withPt { Pt.zero with flowRow := .quiesced }).mayResume = true ∧ (hot 110 false).mayResume = false)
    ∧ ((team (some mirror0) [] .fillWait .zero .zero).part (team (some mirror0) [] .fillWait .zero .zero).tidePart).state = .fillWait
    ∧ (team (some mirror0) [] .fillWait .zero .zero).serves readyPower
    ∧ ((powered .zero { PtAux.zero with tideCfg := 0x00400000 } .zero).part
        (powered .zero { PtAux.zero with tideCfg := 0x00400000 } .zero).tidePart).state ≠ .fillWait := by
  unfold State.serves; decide

theorem test_witness_PinsAndQuiesce_held : (withPt { Pt.zero with flowRow := .quiesced }).nothingHeld := by
  intro p h; simp [withPt, powered, up, State.reset] at h

theorem test_witness_RewindLimit :
    (meeting.part 0).state.steps = true ∧ (meeting.seq 0).phase ≠ .none ∧ (meeting.seq 0).pendingHalt = none
      ∧ (meeting.seq 0).rewindsInStep + 1 ≤ (meeting.recoveryOf 0).rewindLimit
      ∧ ((team none [] .running .zero (seqRun { Sequencer.zero with phase := .body, rewindsInStep := 3 })).recoveryOf 0).rewindLimit
        < ((team none [] .running .zero (seqRun { Sequencer.zero with phase := .body, rewindsInStep := 3 })).seq 0).rewindsInStep + 1 := by
  decide

/-! ## Well-formed commands: a term for each check, refused outside its bound and passed at it -/

theorem test_wf_management :
    (Instr.eventRecordAccept 14).wf = false ∧ (Instr.eventRecordAccept 13).wf = true
    ∧ (Instr.functionReady 9).wf = false ∧ (Instr.functionReady 8).wf = true ∧ (Instr.functionReady 25).wf = false
    ∧ (Instr.functionReady 24).wf = true ∧ (Instr.bringupFailed 11 0).wf = false ∧ (Instr.bringupFailed 12 0).wf = true
    ∧ (Instr.i3cPrivateWrite (zeros 72) true).wf = false ∧ (Instr.i3cPrivateWrite (zeros 5) true).wf = false
    ∧ (Instr.i3cPrivateWrite [] true).wf = false ∧ (Instr.i3cPrivateWrite (zeros 68) true).wf = true
    ∧ (Instr.i3cPrivateRead none 4 true).wf = false ∧ (Instr.i3cPrivateRead (some 0) 68 true).wf = false
    ∧ (Instr.i3cPrivateRead (some 0) 0 true).wf = false ∧ (Instr.i3cPrivateRead (some 0) 6 true).wf = false
    ∧ (Instr.i3cPrivateRead (some 0) 64 true).wf = true
    ∧ (Instr.packageLaneFault 7 true 32768).wf = false ∧ (Instr.packageLaneFault 7 true 32767).wf = true
    ∧ (Instr.packageLaneFault 84 true 0).wf = false ∧ (Instr.packageLaneFault 83 true 0).wf = true ∧ (Instr.deviceLoss 14).wf = false := by decide

theorem test_wf_network :
    (Instr.manifestData 0 0 0 (zeros 8189)).wf = false ∧ (Instr.manifestData 0 0 0 (zeros 8188)).wf = true
    ∧ (Instr.linkIdentReceived 0 (zeros 47)).wf = false ∧ (Instr.linkIdentReceived 0 (zeros 48)).wf = true
    ∧ (Instr.frameReceive (zeros 59) .plain).wf = false ∧ (Instr.frameReceive (zeros 60) .plain).wf = true
    ∧ (Instr.frameReceive (zeros 9213) .plain).wf = false ∧ (Instr.cctOpen 0 (zeros 8193)).wf = false
    ∧ (Instr.cctOpen 0 (zeros 8192)).wf = true ∧ (Instr.frameSend 0 0 (zeros 59)).wf = false
    ∧ (Instr.frameSend 0 0 (zeros 8193)).wf = false ∧ (Instr.frameSend 0 0 (zeros 8192)).wf = true := by decide +kernel

theorem test_wf_sessions :
    (Instr.berthPut 0 0 0 9 [1]).wf = false ∧ (Instr.berthPut 0 0 0 8 []).wf = false ∧ (Instr.berthPut 0 0 0 8 [1]).wf = true
    ∧ (Instr.berthPut 0 0 0 8 (zeros 8189)).wf = false
    ∧ (Instr.berthWrite 0 { msg idSequencer with cls := 9 }).wf = false ∧ (Instr.berthWrite 0 { msg idSequencer with bytes := [] }).wf = false
    ∧ (Instr.qpConnect 0 0 1024 0 0 0 0).wf = false ∧ (Instr.qpConnect 0 0 1023 0 0 0 0).wf = true
    ∧ (Instr.qpDisconnect 0 0 1024).wf = false ∧ (Instr.mrpRequest 0 0 []).wf = false
    ∧ (Instr.mrpRequest 0 0 (List.replicate 65 ⟨false, 0, 0⟩)).wf = false
    ∧ (Instr.mrpRequest 0 0 (List.replicate 64 ⟨false, 0, 0⟩)).wf = true
    ∧ (Instr.partnerDigestReceive 0 (zeros 47)).wf = false ∧ (Instr.partnerDigestReceive 0 (zeros 48)).wf = true := by decide +kernel

theorem test_wf_power :
    (Instr.powerEstimateTick ⟨[], []⟩).wf = false ∧ (Instr.powerEstimateTick ⟨[], [0, 0, 0]⟩).wf = true
    ∧ (Instr.powerEstimateTick ⟨[{ die := 0, counts := [] }], [0, 0, 0]⟩).wf = false
    ∧ (Instr.powerEstimateTick ⟨[{ die := 0, counts := zeros 7 |>.map BitVec.toNat }], [0, 0, 0]⟩).wf = true
    ∧ (Instr.powerMeasurementTick ⟨0, 0, 0, []⟩).wf = false ∧ (Instr.powerMeasurementTick ⟨0, 0, 0, List.replicate 8 0⟩).wf = true
    ∧ (Instr.thermalModelUpdate [⟨189, 0, 0, 0, 0, 0⟩]).wf = false ∧ (Instr.thermalModelUpdate [⟨188, 0, 0, 0, 0, 0⟩]).wf = true
    ∧ (Instr.thermalQuiesceExpiry 189).wf = false ∧ (Instr.diodePairSuspect 189 0 0).wf = false
    ∧ (Instr.hotspotSensorFault 189 0).wf = false ∧ (Instr.diodePairClear 189).wf = false
    ∧ (Instr.diodePairClear 188).wf = true := by decide

theorem test_wf_owner :
    (Instr.claim true 0 0 (zeros 95) []).wf = false ∧ (Instr.claim true 0 0 (zeros 96) []).wf = true
    ∧ (Instr.setManifestKey true 0 0 4 (zeros 96) []).wf = false ∧ (Instr.setManifestKey true 0 0 3 (zeros 96) []).wf = true
    ∧ (Instr.setManifestKey true 0 0 3 [] []).wf = false
    ∧ (Instr.revokeManifestKey true 0 0 4 []).wf = false ∧ (Instr.setHostKey true 0 0 8 (zeros 96) []).wf = false
    ∧ (Instr.setHostKey true 0 0 7 (zeros 97) []).wf = false ∧ (Instr.revokeHostKey true 0 0 8 []).wf = false
    ∧ (Instr.revokeHostKey true 0 0 7 []).wf = true ∧ (Instr.installSak true 0 0 (zeros 163) []).wf = false
    ∧ (Instr.removePeer true 0 0 64 []).wf = false ∧ (Instr.removePeer true 0 0 63 []).wf = true := by decide

/-! ## Worked examples of the manual and of the standards it names -/

/-- FIPS 180-4, SHA-384 of "abc". -/
theorem test_sha384_abc :
    beNat (sha384 [0x61, 0x62, 0x63])
      = 0xcb00753f45a35e8bb5a03d699ac65007272c32ab0eded1631a8b605a43ff5bed8086072ba1e7cc2358baeca134c825a7 := by
  decide +kernel

/-- The cluster window of the conventions: cluster 3.117 lies at 0x1375_0000, and the port registers of the fabric at
the window of link 0. -/
theorem test_cluster_window : place 0x13750000 = (.cluster 3 117, 0) ∧ place 0x1375FFFC = (.cluster 3 117, 0xFFFC) := by decide

/-- 10, the twist: from 0x5A towards 0x52 the route goes through 0x56. -/
theorem test_twist : defaultDim 0x5A 0x52 = some 3 ∧ neighbour 3 0x5A = 0x56 ∧ defaultDim 0x56 0x52 = some 2 ∧ neighbour 2 0x56 = 0x52 := by
  decide

/-- 08, three terms and a settle: every order gives 0x0000_009C_3FFF_FFD1, and the third term is cut. -/
theorem test_s64_terms :
    (s64Add (-10) 0 0x75 20000).1 = 671088640000 ∧ (s64Add (-10) 0 0x60 (-3)).1 = -48
    ∧ s64Add (-10) (671088640000 - 48) 0x5A 7 = (0x0000009C3FFFFFD1, true, false)
    ∧ blockScale .x16 [s64Val (-10) 0x0000009C3FFFFFD1] = (0x75, -10)
    ∧ (quantElem .x16 .nearest 0x75 (-10) (s64Val (-10) 0x0000009C3FFFFFD1)).1 = 0x4E20 := by decide +kernel

/-- 10, one element reduced across four members. -/
theorem test_reduction_element :
    redTerm false 0x78 0x78 12000 = (786432000, false, false) ∧ redTerm false 0x78 0x78 (0x10000 - 20000) = (-1310720000, false, false)
    ∧ redTerm false 0x78 0x6A 30001 = (120004, false, false) ∧ redTerm false 0x78 0x50 7 = (0, true, false)
    ∧ blockScale .x16 [Val.ofInt (-524167996) (-38)] = (0x76, -9)
    ∧ (quantElem .x16 .nearest 0x76 (-9) (Val.ofInt (-524167996) (-38))).1 = 0x8307 := by decide +kernel

/-- 04, a G8 × F8 sum: its anchor. -/
theorem test_anchor : anchorOf .g8 .f8 0x84 0x7A = -19 := by decide

/-- A code of a narrow format under a block's 2^k. -/
def scaledVal (f : FloatFmt) (k : Int) (code : Nat) : Val :=
  match decodeNarrow f code with
  | .fin n m e => .fin n m (e + k)
  | v => v

/-- 04, the column's sum: P of codes at k = 3, 10, 27 and 40, Q of codes there, every other product a zero. -/
theorem test_accumulate :
    accumulate (-19) Acc.empty
      (([0x3A, 0xB5, 0x44].map (scaledVal fmtG8 5)) ++ [scaledVal fmtG8 5 0x0B])
      (([0x44, 0x38, 0x29].map (scaledVal fmtF8 (-5))) ++ [scaledVal fmtF8 (-65) 0x05])
      = ({ l := 0x00000000001880000000000000000011, inexact := true, invalid := false }, false, false) := by decide +kernel

/-- 05, one outlier block in F4: the scale without rotation, and the code of element 0. -/
theorem test_f4_outlier :
    blockScale .f4 (Val.ofInt 36 0 :: List.replicate 31 (Val.ofInt 1 0)) = (0x82, 3)
    ∧ (quantElem .f4 .nearest 0x82 3 (Val.ofInt 36 0)).1 = 6 ∧ (quantElem .f4 .nearest 0x82 3 (Val.ofInt 1 0)).1 = 0 := by decide +kernel

/-- 13, energy per token. -/
theorem test_per_token : perToken 12000000000 32768 = 366210 := by decide


/-! ## Boundary cases of the statements on clocks, lighters, rows, the fabric and Ethernet -/

theorem test_witness_idle_and_losses :
    (up.pending = [] ∧ up.mfAux.dev.ports = [] ∧ (∀ e ∈ up.parts, e.2.state.live = false) ∧ up.mem.bankTicks = []
      ∧ (∀ k, k < 16 → (up.link k).state ≠ .ident) ∧ (∀ n, n < 8 → (up.prio n).xoff = false))
    ∧ ((rom .recovery).gw.ethUp = false ∧ (rom .recovery).boot.phase = .recovery)
    ∧ (32 ≤ 33 ∧ 33 < packageLinks ∧ 2 ≤ ({ up with pkg := { up.pkg with lanes := [(33, true, 2)] } } : State).lanesLost 33 true
      ∧ up.hm.reported ≠ setBit up.hm.service 3) := by
  decide +kernel

/-- A write-back's descriptor stands in front, of a layer whose bound is 0 or another. -/
def backLit (bound : Word) (ws : List Word) : State :=
  { lit false ws with
    runs := [(0, { PartRun.zero with seq := { Sequencer.zero with
      posted := [{ berth := 0, itemSeq := 9, writeBack := true, image := 0, step := 0, mb := 0, reads := [] }]
      bounds := [{ job := false, layer := 0, bound := bound, exponent := 0 }] } })] }

theorem test_witness_LightersMoveAndAdd_still :
    (∀ ws, ws ∈ [lightWords 1 1 0 1, lightWords 2 1 0 1, lightWords 3 1 0 8, lightWords 4 0 0 1] →
      (backLit 0 ws).lightStands (job ws) (backLit 0 ws)
      ∧ ((backLit 0 ws).checkLight (job ws).part (job ws).cfg (job ws).light).1 = 0
      ∧ (backLit 0 ws).lightLocked (job ws).light = false
      ∧ (backLit 0 ws).writesBack (job ws) = true ∧ (backLit 0 ws).layerStill 0 (job ws).light.tag = true)
    ∧ ((backLit 0x3F800000 (lightWords 4 0 0 1)).writesBack (job (lightWords 4 0 0 1)) = true
      ∧ (backLit 0x3F800000 (lightWords 4 0 0 1)).layerStill 0 (job (lightWords 4 0 0 1)).light.tag = false)
    ∧ up.rowsLeft 0 (dramOf (pseudoChannel (Space.near.offset 0))) ≠ 0
    ∧ ({ up with mem := { Mem.zero with bankJobs := [(0, pseudoChannel (Space.near.offset 0), bankOf (rowOf (Space.near.offset 0)))] } }
        : State).mem.bankJobs.contains (0, pseudoChannel (Space.near.offset 0), bankOf (rowOf (Space.near.offset 0))) = true := by
  unfold State.lightStands; decide +kernel

/-- A flit that asks for a replay from flit 7. -/
def asking : FlitRx := { seq := 0, crcOk := true, replayed := false, ack := none, credits := [], replay := some 7 }

theorem test_witness_Fabric_more :
    (asking.crcOk = true ∧ asking.replayed = false ∧ asking.replay = some 7)
    ∧ (reducing 4 (Reduction.new key1)).isTide key1 [1, 0, 0, 0] = false
    ∧ (1 : Half).toNat ≠ (reducing 4 (Reduction.new key1)).me key1.part.toNat
    ∧ ((0 : Half).toNat = (reducing 4 (Reduction.new key1)).me key1.part.toNat ∧ (group 4).has 0 = true) := by
  decide +kernel

theorem test_witness_Ethernet_more :
    (up.ethUsable = true ∧ up.gw.ethUp = false ∧ up.boot.phase ≠ .recovery)
    ∧ (let s : State := { wired with gw := { wired.gw with prioInForce := 8 } }
       let f := frame 8 etMacControl [1, 1, 0, 8, 0, 0, 0, 0, 0, 0, 0, 5]
       bit s.gw.prioInForce 3 = true ∧ 3 ≠ rxPriority f ∧ forUs f = true)
    ∧ ((up.sec.peers = [] ∧ bit (connected up).gw.prioCfg 0 = false) ∧ (connected up).quietPort ∧ drawing.quietPort
      ∧ drawing.gwAux.txHeld = [] ∧ (connected up).sec.peers = [])
    ∧ ((5 : Byte).toNat = 5 ∧ (4 : Byte).toNat ≠ 5) := by
  unfold State.quietPort
  refine ⟨by decide +kernel, ?_, by decide +kernel, by decide⟩
  have h : forUs (frame 8 etMacControl [1, 1, 0, 8, 0, 0, 0, 0, 0, 0, 0, 5]) = true := by
    unfold forUs
    have : bit ((frame 8 etMacControl [1, 1, 0, 8, 0, 0, 0, 0, 0, 0, 0, 5]).headD 0) 0 = true := by decide
    rw [this, Bool.or_true]
  exact ⟨by decide, by decide, h⟩

/-! ## Owner commands -/

/-- A device with an owner key, owner counter 1, a running image of svn 5 and agreement key 1; host slot 0 and manifest
slot 0 are provisioned. -/
def owned (key : Bytes) : State :=
  { connected up with
    boot := { up.boot with fwSvn := 5, aliasAgree := 1 }
    sec := { up.sec with lifecycle := .owned, ownerKey := some key, ownerCounter := 1
                         hostKeys := [.provisioned (zeros 96)] ++ List.replicate 7 .empty
                         manifestKeys := [.provisioned (zeros 96)] ++ List.replicate 3 .empty } }

/-- The device identity of an empty identity key. -/
def device0 : DWord := BitVec.ofNat 64 (leNat ((sha384 []).take 8))

def pubKey (x y : Nat) : Bytes := natBe 48 x ++ natBe 48 y
def sigOf (e : Nat) : Bytes := natBe 48 e ++ natBe 48 e

/-- INSTALL_SAK's arguments: peer 3, AN 1, secured, XPN, transmit at once, the wrapped SAK 0, 1, ... 31. -/
def wrapped : Nat := 0xbfadbb1fb2b6f84b8cd14eb1e260fbb3d3c3473708fba00112a7f35243f0409d0c51f2653c2ae918
def genX : Nat := 0xaa87ca22be8b05378eb1c71ef320ad746e1d3b628ba79b9859f741e082542a385502f25dbf55296c3a545e3872760ab7
def genY : Nat := 0x3617de4a96262c6f5d9e98bf9292dc29f8f41dbd289a147ce9da3113b5f0b8c00a60b1ce1d7e819d7a431d7c90ea0e5f
def sakArgs : Bytes :=
  [3, 1, 7, 0, 2, 0, 0, 0, 0, 7, 0, 0, 9, 0, 0, 0] ++ zeros 12 ++ pubKey genX genY ++ natBe 40 wrapped

def e_setManifestKey : Nat := 0xc334cf9ce6ad7e8a1b4239089858d4722b64b07c37d1a96871f5d031b1337a9e7cb35d23bb22982e4e9a03bb784368f8
def k_setManifestKey : Bytes :=
  pubKey 0x388b880fcb01b62b70257204e383277271b6255bd5d2019e72f12b55a935cad7cf3c34d715cefad9068570b1e492f537
    0xb546f7a0ba3e76fafbc57804db3ed003de11ec7bfc090bace3721b0a66a8073a5f3e477eaae35e1a3546e43b843b3c6b
def e_revokeManifestKey : Nat := 0x3c39a10ab9ac9e8fa05a26aa513bac7ecf28fc98148c809f19b2e048b27ba80cc34daec7f8eaaaae58e422029d4336a6
def k_revokeManifestKey : Bytes :=
  pubKey 0x263e31cb6a53a1f53e3f31afae4b7be503c38132538e40f1fefb0d1778a14e68f830636663e8747031dfcb5e70c47b37
    0x4bd461af7702d25a254fb756831e70c19ec6af764226fc474bc4698fae49143b9b9c861fd346657a9be25141b42d4d4e
def e_setHostKey : Nat := 0x93d9725e8f085f4cb8879e44d1cf78fd9ca40c5922a7642f6fec04b14dcc374e6affcbb534cca551f94c01089819e0bd
def k_setHostKey : Bytes :=
  pubKey 0x991636899ce1d7785714b441c492fe8008661a0a81a4f203bed6781448b7e5ce423b1ff47562c09aaafa679e67376b6b
    0x53575114d8d7cf0afed9c465b5055d9dae2e7b3fd034d9011912506c90c299c6d65624905a147e19d9c8f2506ef3c0b0
def e_revokeHostKey : Nat := 0x6f5068a39aa8de2b22737aba3f91983e7636ee8a1a8a165126693ce24b7b90417296f352c11c0b64ab0c0d61421b8fd8
def k_revokeHostKey : Bytes :=
  pubKey 0x83116a3c996a0797001557547b451713b8da2b30362cc048b0c40c95e8b6c1f8549d3e064eaedb371c1793feda2d7d12
    0x5ebee573ad6a25ae290c8bf315d76b2599759d435a7641b4c5d16cfb667a9e5a8fa95aa9ba18fd14f0674f0449a52e44
def e_installSak : Nat := 0x91c4ed84a8ca881aa8de4e77c5360feeab4ce78c8913e83ae9bfdbfcb04e01c7a0556f020e4fdc9a81b1e3ceb8e9177d
def k_installSak : Bytes :=
  pubKey 0xe2903133ee78becc6e0012b803b845e26c629610a6e7346c4140e2a7f3a472392f35ebc7f3b365e097d3fd936a0b7781
    0xd4012c6c4f5011c9aa2c88486e6860e3cac373a82ccf0c3d285efb4303a5fc2265a9f8ad59b64bb364878530a748b593
def e_removePeer : Nat := 0x026dd88b2c757e29aec229612b578e0519dcfab5d7bc46a33c589d947826c587b3aa7db731d38b70be836aa90dcc8265
def k_removePeer : Bytes :=
  pubKey 0x41d3be88cdd0eba89c31b09b057bf0230bf26efa8cdc3ce997de2b0afaab01acd21a65a4fbf3d0b7a0bf92286532e8c5
    0x4de123317496058835913c2322f3993c7e99e0a093ce35d07e06cc88392cf7c58554426ed5b8489b74f5f84bd5c02796
def e_raiseMinSvn : Nat := 0x512f14f4256f5adfd0e5090105c6d43652e8ec672ef0544d6e474770f63cfec01759ff1e55e288aba7fc8ea3b75f38e9
def k_raiseMinSvn : Bytes :=
  pubKey 0xb10e900d8cbfe7cad822d961b928f44692d2028920b5ded7a184c1c01d1ae0a3030ebadf295ff32fbcc578a68df252a6
    0xaba337e2c130b5d016e5d5db15b15eec319ecd32594111b2f9ebe50f1071482147717413ebc7f84fa2b16d6f334cfa5f
def e_forceNetworkBoot : Nat := 0xbce057d2de9241a7e8c778264a7178dd2f1a315e3f85787e6419bb624b2e4364b528844da13088118b79e2dade72298a
def k_forceNetworkBoot : Bytes :=
  pubKey 0x83ca1cdf543d6443c38d813ae9f16db42d7efbdf0e0f9c06c041c5de1629b7da5f07bc070b8bf1e815310eea56d6e271
    0x425da4ea6038697645c2159b0fedbd380c80a6bea017e3d64ee9bdc245ebf8cf9f91d27e6ec969f07764970768dc0e1a
def e_release : Nat := 0x2a2278cb8a4abff4348ad0034a3906a2b5d88657d5209c053f5c99dec6ab320167590ad33d5c1762c9ac48cc1a19faea
def k_release : Bytes :=
  pubKey 0xcf1e91ca5cbf42966f5ae5b96b7b9662a91167fb594144226f8dce18dc709bd9e0b302068f7bb4a3af51fca41a7a1ce8
    0xf8befd5ca7667406788aed0e3b4fb6303d9f74ff3b52963cd99c73972f96c349b5771b64c8d5dff5cb7109f7b2c13d7e
def e_decommission : Nat := 0x3eb1a9f5554c28e284b0ad90ebd4b526de414689d4d1ffb07190ce0173b65e2a2a4f3bab5deca03746c7265094fcf20a
def k_decommission : Bytes :=
  pubKey 0x6a1dd0cf0887a285df76c16bc75af75e2d7f0c29f6612337b6bf7bd53fb6ceb3ce6072d5768af6d84b7f091b27db2f54
    0x9dc8dd71ee059a531740c32ac4120e942cb27650fb266d2256b9a42656bb00dab9cdfa84d3ab7f9ab97950ae57805110
def claimR : Nat := 0xaa87ca22be8b05378eb1c71ef320ad746e1d3b628ba79b9859f741e082542a385502f25dbf55296c3a545e3872760ab7
def claimS : Nat := 0x5c462a26f64e0cbd186d739d357236ed3e0a65c36e2c61d9158903b0be77bc1547334445bf383cc5ec55ba6d9b0d3f64

theorem test_witness_OwnerCommands_claim :
    up.mailServes ∧ up.mailResult true 1 device0 2 (padTo 96 (pubKey genX genY)) (natBe 48 claimR ++ natBe 48 claimS) = 0
      ∧ up.mailResult false 1 device0 2 (padTo 96 (pubKey genX genY)) [] ≠ 0 := by
  unfold State.mailServes State.serves; decide +kernel

theorem test_witness_OwnerCommands_setManifestKey :
    (owned k_setManifestKey).mailServes ∧ (owned k_setManifestKey).mailResult false 2 device0 5 ([1] ++ zeros 3 ++ padTo 96 (zeros 96)) (sigOf e_setManifestKey) = 0 := by
  unfold State.mailServes State.serves; decide +kernel

theorem test_witness_OwnerCommands_revokeManifestKey :
    (owned k_revokeManifestKey).mailServes ∧ (owned k_revokeManifestKey).mailResult false 3 device0 3 ([0] ++ zeros 3) (sigOf e_revokeManifestKey) = 0 := by
  unfold State.mailServes State.serves; decide +kernel

theorem test_witness_OwnerCommands_setHostKey :
    (owned k_setHostKey).mailServes ∧ (owned k_setHostKey).mailResult false 4 device0 2 ([1] ++ zeros 3 ++ padTo 96 (zeros 96)) (sigOf e_setHostKey) = 0 := by
  unfold State.mailServes State.serves; decide +kernel

theorem test_witness_OwnerCommands_revokeHostKey :
    (owned k_revokeHostKey).mailServes ∧ (owned k_revokeHostKey).mailResult false 5 device0 2 ([0] ++ zeros 3) (sigOf e_revokeHostKey) = 0 := by
  unfold State.mailServes State.serves; decide +kernel

/-- The key-encryption key, and what it unwraps. -/
def kek0 : Nat := 0xa63431c697983a65ff3a436fa0c3a45362c480a5ac8bac39fe080049c64ed847
theorem kek_kek0 : hkdf384 ((sha384 []).take 8) (natBe 48 genX) [0x43, 0x44, 0x53, 0x41, 0x4B] 32 = natBe 32 kek0 := by
  decide +kernel
theorem unwrap_wrapped : (aesUnwrap (natBe 32 kek0) (natBe 40 wrapped)).isNone = false := by decide +kernel

theorem unwrapSak_sakArgs : ((owned k_installSak).unwrapSak sakArgs).isNone = false := by
  unfold State.unwrapSak
  rw [show ecdh (owned k_installSak).agreementKey (slice sakArgs 28 96) = some (natBe 48 genX) by decide +kernel,
    show slice sakArgs 124 40 = natBe 40 wrapped by decide +kernel]
  show (aesUnwrap (hkdf384 ((sha384 []).take 8) (natBe 48 genX) [0x43, 0x44, 0x53, 0x41, 0x4B] 32) _).isNone = false
  rw [kek_kek0, unwrap_wrapped]

theorem ownerResult_of_checks (s : State) (i3c : Bool) (r args : Bytes) (cmd : Nat) (h0 : leAt r 4 1 = cmd)
    (h1 : ownerFormed r = true) (h2 : ownerValid s.sec.lifecycle cmd = true) (h3 : cmd ≠ 1) (h4 : slice r 8 8 = s.deviceId)
    (h5 : s.sec.ownerCounter.toNat < leAt r 16 8) (h6 : s.ownerSigned i3c r = true)
    (h7 : slice r 32 (leAt r 6 2) = args) : s.ownerResult i3c r = s.ownerArgsFail cmd args := by
  have h5 := Nat.not_le.mpr h5
  simp [State.ownerResult, h0, h1, h2, h3, h4, h5, h6, h7]

theorem sakArgs_ok (s : State) (h : (s.unwrapSak sakArgs).isNone = false) : s.ownerArgsFail 6 sakArgs = 0 := by
  have hn : ¬ 64 ≤ leAt sakArgs 0 1 := by decide
  simp [State.ownerArgsFail, h, hn]

theorem test_witness_OwnerCommands_installSak :
    (owned k_installSak).mailServes ∧ (owned k_installSak).mailResult false 6 device0 2 (padTo 164 sakArgs) (sigOf e_installSak) = 0 :=
  ⟨by unfold State.mailServes State.serves; decide +kernel,
    (ownerResult_of_checks (owned k_installSak) false (padTo 512 (ownerRecord 6 device0 2 (padTo 164 sakArgs) (sigOf e_installSak)))
      sakArgs 6 (by decide +kernel) (by decide +kernel) (by decide +kernel) (by decide) (by decide +kernel) (by decide +kernel)
      (by decide +kernel) (by decide +kernel)).trans (sakArgs_ok _ unwrapSak_sakArgs)⟩

theorem test_witness_OwnerCommands_removePeer :
    (owned k_removePeer).mailServes ∧ (owned k_removePeer).mailResult false 7 device0 2 ([3] ++ zeros 3) (sigOf e_removePeer) = 0 := by
  unfold State.mailServes State.serves; decide +kernel

theorem test_witness_OwnerCommands_raiseMinSvn :
    (owned k_raiseMinSvn).mailServes ∧ (owned k_raiseMinSvn).mailResult false 8 device0 2 (wordLe 2 (4 : Half) ++ zeros 2) (sigOf e_raiseMinSvn) = 0 := by
  unfold State.mailServes State.serves; decide +kernel

theorem test_witness_OwnerCommands_forceNetworkBoot :
    (owned k_forceNetworkBoot).mailServes ∧ (owned k_forceNetworkBoot).mailResult false 9 device0 2 [] (sigOf e_forceNetworkBoot) = 0 := by
  unfold State.mailServes State.serves; decide +kernel

theorem test_witness_OwnerCommands_release :
    (owned k_release).mailServes ∧ (owned k_release).mailResult false 10 device0 2 [] (sigOf e_release) = 0 := by
  unfold State.mailServes State.serves; decide +kernel

theorem test_witness_OwnerCommands_decommission :
    (owned k_decommission).mailServes ∧ (owned k_decommission).mailResult false 11 device0 2 [] (sigOf e_decommission) = 0 := by
  unfold State.mailServes State.serves; decide +kernel

theorem test_witness_OwnerCommands_refused :
    (owned []).mailResult false 4 device0 1 ([1] ++ zeros 3 ++ padTo 96 (zeros 96)) [] ≠ 0 ∧ up.mailResult false 11 device0 2 [] [] ≠ 0 := by
  decide +kernel

end Sys2Proof.Tests
end

section
/-!
The management address space: what an access of a register gives, by its block's readiness (R10, R12, R14, R522, R525, R530).
-/

namespace Sys2Proof.Machine

/-! ## Little-endian words -/

theorem length_natLe (n v : Nat) : (natLe n v).length = n := by
  induction n generalizing v with
  | zero => rfl
  | succ n ih => simp [natLe, ih]

theorem leNat_natLe (n v : Nat) : leNat (natLe n v) = v % 256 ^ n := by
  induction n generalizing v with
  | zero => simp [natLe, leNat, Nat.mod_one]
  | succ n ih =>
    have h : v % 256 ^ (n + 1) = v % 256 + 256 * (v / 256 % 256 ^ n) := by
      rw [Nat.pow_succ, Nat.mul_comm, Nat.mod_mul]
    simp [natLe, leNat, ih, h]

theorem leAt_wordLe_append (a : Word) (b : Bytes) : leAt (wordLe 4 a ++ b) 0 4 = a.toNat := by
  have hs : slice (wordLe 4 a ++ b) 0 4 = wordLe 4 a := by
    simp [slice, wordLe, List.take_left' (length_natLe 4 a.toNat)]
  rw [leAt, hs, wordLe, leNat_natLe]
  exact Nat.mod_eq_of_lt a.isLt

/-! ## Bits of a register -/

theorem bit_setBit_same (w : Word) (i : Nat) (hi : i < 32) : bit (setBit w i) i = true := by
  simp [bit, setBit, hi]

theorem getLsbD_w1c (old v mask : Word) (i : Nat) (hi : i < 32) (hm : mask.getLsbD i = true) :
    (w1c old v mask).getLsbD i = (old.getLsbD i && !v.getLsbD i) := by
  rw [w1c, BitVec.getLsbD_and, BitVec.getLsbD_not, BitVec.getLsbD_and, hm, Bool.and_true, decide_eq_true hi, Bool.true_and]

/-! ## Reads and writes of the register map (R10, R12, R522, R530) -/

theorem State.served_iff (s : State) : s.served = true ↔ s.ready readySideband = true ∧ s.hmAux.restarting = false := by
  simp [State.served]

theorem State.defer_ready (s : State) (d : Deferred) (h : s.ready readySideband = true) :
    s.defer d = { s with deferred := s.deferred ++ [d] } := by simp [State.defer, h]

theorem State.guardWrite_restarting (s : State) (c : Instr) (b a : Nat) (k : State → State)
    (h : s.ready readySideband = true) (hr : s.hmAux.restarting = true) :
    s.guardWrite c b a k = { s with deferred := s.deferred ++ [.cmd c] } := by
  simp [State.guardWrite, h, hr, State.defer_ready]

theorem State.guardWrite_notReady (s : State) (c : Instr) (b a : Nat) (k : State → State) (h : s.served = true)
    (hrom : s.romRuns = false) (hb : s.ready b = false) : s.guardWrite c b a k = s.writeNotReady a := by
  obtain ⟨h0, hr⟩ := s.served_iff.1 h
  simp [State.guardWrite, h0, hr, hb, hrom]

/-- The not-ready report sets HM_ERROR.not_ready (R530). -/
theorem State.error_writeNotReady (s : State) (a : Nat) : bit (s.writeNotReady a).hm.error 0 = true := by
  rw [State.writeNotReady, State.raiseHm_hm]
  exact bit_setBit_same _ 0 (by decide)

theorem State.readReg_unoccupied (s : State) (a : Nat) (upd : Word)
    (h : occupied (place a).1 (place a).2 = false) : s.readReg a upd = (0, s) := by
  simp [State.readReg, State.readAt, h]

theorem State.readReg_ready (s : State) (a : Nat) (upd : Word) (hrom : s.romRuns = false)
    (hb : s.ready (readyFor (place a).1 (place a).2) = true) :
    s.readReg a upd = s.readAt (place a).1 (place a).2 upd := by simp [State.readReg, hrom, hb]

theorem State.writeReg_unoccupied (s : State) (i3c : Bool) (a : Nat) (v : Word)
    (h : occupied (place a).1 (place a).2 = false) : s.writeReg i3c a v = s := by
  simp [State.writeReg, h]

/-- A write of an occupied address is guarded by the ready bit of its register's block. -/
theorem State.writeReg_occupied (s : State) (i3c : Bool) (a : Nat) (v : Word)
    (h : occupied (place a).1 (place a).2 = true) :
    s.writeReg i3c a v = s.guardWrite (.registerWrite (BitVec.ofNat 32 a) v) (readyFor (place a).1 (place a).2) a
      (fun u => u.poke i3c (place a).1 (place a).2 v) := by simp [State.writeReg, h]

theorem State.writeReg_serves (s : State) (i3c : Bool) (a : Nat) (v : Word)
    (h : occupied (place a).1 (place a).2 = true) (hs : s.serves (readyFor (place a).1 (place a).2)) :
    s.writeReg i3c a v = s.poke i3c (place a).1 (place a).2 v := by
  obtain ⟨h0, hr, hb⟩ := hs
  rw [State.writeReg_occupied s i3c a v h, State.guardWrite_ready _ _ _ _ _ h0 hr hb]

theorem execRcRead_served (a u : Word) (s : State) (h : s.served = true) :
    execRcRead a u s = .next ((s.readReg a.toNat u).2.modGwAux (fun g => { g with lastRead := (s.readReg a.toNat u).1 })) := by
  obtain ⟨h0, hr⟩ := s.served_iff.1 h
  simp only [execRcRead, hr, h, if_true, Bool.false_eq_true, if_false]; rfl

/-! ## The sideband's transfers (R525) -/

theorem State.i3cRead_one (s : State) (a : Word) (hs : s.served = true) :
    s.i3cRead (some a) 4 true
      = (s.readReg a.toNat 0).2.i3cReply (wordLe 4 (s.readReg a.toNat 0).1 ++ []) := by
  obtain ⟨h0, hr⟩ := s.served_iff.1 hs
  have ha : a.toNat % 4294967296 = a.toNat := Nat.mod_eq_of_lt a.isLt
  simp [State.i3cRead, hr, hs, i3cLength, State.i3cReads, ha]

theorem State.i3cWrite_one (s : State) (a d : Word) (hs : s.served = true) :
    s.i3cWrite (wordLe 4 a ++ wordLe 4 d) true = (s.writeReg true a.toNat d).i3cReply [] := by
  obtain ⟨h0, hr⟩ := s.served_iff.1 hs
  have ha : a.toNat % 4294967296 = a.toNat := Nat.mod_eq_of_lt a.isLt
  have hl : (wordLe 4 a ++ wordLe 4 d).length = 8 := by simp [wordLe, length_natLe]
  have hd : (wordLe 4 a ++ wordLe 4 d).drop 4 = wordLe 4 d := by
    simp [wordLe, List.drop_left' (length_natLe 4 a.toNat)]
  have hv : leAt (wordLe 4 d) 0 4 = d.toNat := by simpa using leAt_wordLe_append d []
  simp [State.i3cWrite, hr, hs, hl, i3cLength, State.i3cWords, leAt_wordLe_append, ha, hd, hv]

/-! ## The frames of the updates that a register access makes -/

theorem State.modGwAux_same (s : State) (f : GwAux → GwAux) : SameBut [.gwAux] s (s.modGwAux f) := by
  constructor; intro f hf; cases f
  case gwAux => exact absurd (List.mem_singleton.2 rfl) hf
  all_goals rfl

theorem State.modGw_same (s : State) (f : Gw → Gw) : SameBut [.gw] s (s.modGw f) := by
  constructor; intro f hf; cases f
  case gw => exact absurd (List.mem_singleton.2 rfl) hf
  all_goals rfl

theorem State.modEvents_same (s : State) (f : Events → Events) : SameBut [.events] s (s.modEvents f) := by
  constructor; intro f hf; cases f
  case events => exact absurd (List.mem_singleton.2 rfl) hf
  all_goals rfl

theorem State.i3cReply_same (s : State) (b : Bytes) : SameBut [.i3c] s (s.i3cReply b) := by
  constructor; intro f hf; cases f
  case i3c => exact absurd (List.mem_singleton.2 rfl) hf
  all_goals rfl

end Sys2Proof.Machine

open Sys2Proof Sys2Proof.Machine

/-- Settles O10: both ways in read by `State.readReg` and write by `State.writeReg`, and these leave a place without a register
alone. -/
theorem unoccupiedAddresses : Obligations.UnoccupiedAddresses := by
  intro s a h
  have hread := fun u => s.readReg_unoccupied a.toNat u h
  have hwrite := fun i d => s.writeReg_unoccupied i a.toNat d h
  refine ⟨fun d => ?_, fun u hs => ?_, fun h0 hr => ?_⟩
  · exact congrArg Host.Outcome.next (hwrite false d)
  · refine ⟨_, execRcRead_served a u s hs, ?_⟩
    rw [hread]
    exact ⟨rfl, State.modGwAux_same ..⟩
  · have hs : s.served = true := s.served_iff.2 ⟨h0, hr⟩
    refine ⟨⟨_, congrArg Host.Outcome.next (s.i3cRead_one a hs), ?_⟩,
      fun d => ⟨_, congrArg Host.Outcome.next (s.i3cWrite_one a d hs), ?_⟩⟩
    · rw [hread]
      exact ⟨show wordLe 4 (0 : Word) ++ [] = [0, 0, 0, 0] by decide, State.i3cReply_same s _⟩
    · rw [hwrite]
      exact State.i3cReply_same ..

/-- Settles O11: each access comes to one row of the shared write path (`State.guardWrite`: the block serves, it is not ready, or
a restart runs) or of the shared read path. -/
theorem registerAccesses : Obligations.RegisterAccesses := by
  refine ⟨fun s => ⟨fun d hs => ?_, fun d hs => ⟨?_, ?_⟩, fun u hs hrom => ?_, fun d hs hrom hb => ?_⟩,
    fun s h0 hr => ⟨fun a d ho => ?_, fun a u => ?_, fun b ok => ?_, ?_⟩⟩
  · have hw : s.writeReg false 0x4C d = s.modEvents (fun e => { e with mask := d &&& 0xFFFF }) :=
      s.writeReg_serves false 0x4C d rfl hs
    exact ⟨_, congrArg Host.Outcome.next hw, rfl, State.modEvents_same ..⟩
  · exact congrArg Host.Outcome.next (s.writeReg_serves false 0x50000 d rfl hs)
  · have hw : s.writeReg false 0x50008 d = s.modGw (fun g => { g with error := w1c g.error d 0xFF }) :=
      s.writeReg_serves false 0x50008 d rfl hs
    have hmask : ∀ i < 8, (0xFF : Word).getLsbD i = true := by decide
    exact ⟨_, congrArg Host.Outcome.next hw, fun i hi => getLsbD_w1c _ _ _ _ (by omega) (hmask i hi),
      State.modGw_same ..⟩
  · obtain ⟨h0, hr, hb⟩ := hs
    have hread : s.readReg 0x50048 u = (s.gwAux.fcsErrors, s.modGwAux (fun g => { g with fcsErrors := u })) :=
      s.readReg_ready 0x50048 u hrom hb
    refine ⟨_, execRcRead_served _ u s (s.served_iff.2 ⟨h0, hr⟩), ?_⟩
    rw [show (0x00050048 : Word).toNat = 0x50048 from rfl, hread]
    have hset := s.modGwAux_same (fun g => { g with fcsErrors := u })
    exact ⟨rfl, rfl, hset.trans (State.modGwAux_same _ _)⟩
  · have hw : s.writeReg false 0x50084 d = s.writeNotReady 0x50084 :=
      (s.writeReg_occupied false 0x50084 d rfl).trans (s.guardWrite_notReady _ _ _ _ hs hrom hb)
    have hsame := s.writeNotReady_same 0x50084
    exact ⟨_, congrArg Host.Outcome.next hw, s.error_writeNotReady 0x50084, hsame.same .gw (by decide), hsame⟩
  · have hw := (s.writeReg_occupied false a.toNat d ho).trans (s.guardWrite_restarting _ _ _ _ h0 hr)
    rw [BitVec.ofNat_toNat, BitVec.setWidth_eq] at hw
    exact congrArg Host.Outcome.next hw
  · simp only [exec, execRcRead, hr, if_true, s.defer_ready _ h0]
  · simp only [exec, execI3cPrivateWrite, State.i3cWrite, hr, if_true, s.defer_ready _ h0]
  · exact congrArg Host.Outcome.next (s.guardWrite_restarting _ _ _ _ h0 hr)

end

section
/-!
The canonical form of the memories (log entry 4): reset has it; a step keeps it only where the map of the partitions' runs is
canonical itself, which `State.memOk` does not ask.
-/

namespace Sys2Proof.Machine

theorem State.byte_reset (sp : Space) (a : Nat) : State.reset.byte sp a = 0 := by cases sp <;> rfl

theorem State.memOk_reset : State.reset.memOk :=
  ⟨Memory.wf_reset, fun _ => rfl, fun _ => ⟨fun _ h => (List.not_mem_nil h).elim, fun _ h => nomatch h⟩⟩

/-! ## A map of runs that lists a partition twice -/

/-- A snapshot image that lists a zero byte. -/
def SnapImage.listsZero : SnapImage := { (State.reset.snapImage 0 false).1 with hold := [(0, 0)] }

theorem SnapImage.not_ok_listsZero : ¬ SnapImage.listsZero.ok := fun h => Bool.false_ne_true h.1

/-- What a partition runs with when its drives hold that image. -/
def PartRun.keepsListsZero : PartRun :=
  { PartRun.zero with log := { StepLog.zero with slots := [SnapImage.listsZero] } }

/-- A device at which RESET_N is about to fall, whose map of runs lists partition 0 twice: a read takes the first entry, and
`Sparse.remake` keeps the last. -/
def State.listsRunTwice : State :=
  { State.reset with pending := [.resetNAssert], runs := [(0, PartRun.zero), (0, PartRun.keepsListsZero)] }

theorem State.run_listsRunTwice (p : Nat) : State.listsRunTwice.run p = PartRun.zero := by
  cases p with
  | zero => rfl
  | succ p => simp [State.run, State.listsRunTwice, Sparse.get]

theorem State.memOk_listsRunTwice : State.listsRunTwice.memOk := by
  refine ⟨Memory.wf_reset, fun _ => rfl, fun p => ?_⟩
  rw [State.log, State.run_listsRunTwice]
  exact ⟨fun _ h => (List.not_mem_nil h).elim, fun _ h => nomatch h⟩

/-- What a reset leaves of the runs: each entry of the map in its turn. -/
theorem State.runs_resetFalls (s : State) :
    s.resetFalls.runs = Sparse.remake (fun _ => PartRun.zero) PartRun.afterReset s.runs := rfl

theorem State.run_resetFalls_listsRunTwice : State.listsRunTwice.resetFalls.run 0 = PartRun.keepsListsZero := by
  have hkept : PartRun.afterReset 0 PartRun.keepsListsZero = PartRun.keepsListsZero := rfl
  rw [State.run, State.runs_resetFalls]
  simp only [State.listsRunTwice, Sparse.remake, List.foldl_cons, List.foldl_nil, Sparse.get_set, if_true, hkept]

end Sys2Proof.Machine

open Sys2Proof Sys2Proof.Machine

/-- Settles O4: reset lists no byte, and every byte that is not listed reads as zero. -/
theorem resetMemoryCanonical : Obligations.ResetMemoryCanonical := ⟨State.memOk_reset, State.byte_reset⟩

/-- Refutes O3: the form of a partition's snapshots is asked of what a read of the map of runs finds. In a map that lists a
partition twice a read finds the first entry; RESET_N's fall (R546) makes the map anew, the later entry comes to light, and
its snapshot image lists a zero byte. -/
theorem not_stepKeepsMemoryCanonical : ¬ Obligations.StepKeepsMemoryCanonical := by
  intro h
  obtain ⟨-, -, hlog⟩ := h State.listsRunTwice _ State.memOk_listsRunTwice rfl
  obtain ⟨hslots, -⟩ := hlog 0
  have hrun : (State.resetFalls { State.listsRunTwice with pending := [] }).run 0 = PartRun.keepsListsZero :=
    State.run_resetFalls_listsRunTwice
  rw [State.log, hrun] at hslots
  exact SnapImage.not_ok_listsZero (hslots _ (List.mem_singleton.2 rfl))

end

section
/-!
O2: no command touches the commands that wait. Of each function that a command runs, in the order of the model's files,
one rule says that the state it leaves holds the same waiting commands (`State.pending`); a function that runs another
one given to it has the rule of the latter as a hypothesis. The rules are simp lemmas, so that a function's rule follows
from those of the functions it calls, and a command's from that of its function (R10, R14, R522).
-/

namespace Sys2Proof.Machine

/-! ## Branches and folds -/

/-- The same commands wait in both states. -/
def State.SameQueue (s t : State) : Prop := t.pending = s.pending

@[simp] theorem State.sameQueue_iff (s t : State) : State.SameQueue s t ↔ t.pending = s.pending := by
  unfold State.SameQueue; exact ⟨id, id⟩

@[simp] theorem State.pending_ite (c : Prop) [Decidable c] (s t : State) :
    (if c then s else t).pending = if c then s.pending else t.pending := apply_ite _ _ _ _

@[simp] theorem State.snd_ite {α : Type} (c : Prop) [Decidable c] (x y : α × State) :
    (if c then x else y).2 = if c then x.2 else y.2 := apply_ite _ _ _ _

/-- A fold over any list keeps the queue that each of its steps keeps. -/
@[simp] theorem State.pending_foldl {α : Type} (f : State → α → State) (h : ∀ s a, State.SameQueue s (f s a))
    (l : List α) (s : State) : (l.foldl f s).pending = s.pending := by
  induction l generalizing s with
  | nil => rfl
  | cons a l ih => rw [List.foldl_cons, ih, h]

/-- The same for a fold that carries a state beside what it gathers. -/
@[simp] theorem State.pending_foldl_snd {α β : Type} (f : β × State → α → β × State)
    (h : ∀ x a, State.SameQueue x.2 (f x a).2) (l : List α) (x : β × State) :
    (l.foldl f x).2.pending = x.2.pending := by
  induction l generalizing x with
  | nil => rfl
  | cons a l ih => rw [List.foldl_cons, ih, h]

theorem State.pending_of_eq {α : Type} {x : α × State} {a : α} {s t : State} (h : x.2.pending = s.pending)
    (hx : x = (a, t)) : t.pending = s.pending := by subst hx; exact h

theorem State.ite_pending_eq {c : Prop} [Decidable c] {s t u : State} (ht : t.pending = s.pending)
    (hu : u.pending = s.pending) : (if c then t else u).pending = s.pending := by
  split
  · exact ht
  · exact hu

theorem State.withJr_pending (s : State) (j : Jr) : ({ s with jr := j } : State).pending = s.pending := by rfl

/-! ## Ops -/

@[simp] theorem State.detectLink_pending (s : State) (k n : Nat) : (s.detectLink k n).pending = s.pending := by rfl
@[simp] theorem State.modDrive_pending (s : State) (d : Nat) (f : Drive → Drive) :
    (s.modDrive d f).pending = s.pending := by simp [State.modDrive]

/-! ## Memory -/

@[simp] theorem State.putCells_pending (s : State) (sp : Space) (a n : Nat) (mid : Cells) :
    (s.putCells sp a n mid).pending = s.pending := by rfl
@[simp] theorem State.store_pending (s : State) (sp : Space) (a : Nat) (b : Bytes) :
    (s.store sp a b).pending = s.pending := by rfl
@[simp] theorem State.clearBytes_pending (s : State) (sp : Space) (a n : Nat) :
    (s.clearBytes sp a n).pending = s.pending := by rfl
@[simp] theorem State.copyBytes_pending (s : State) (src : Space) (a : Nat) (dst : Space) (dest n : Nat) :
    (s.copyBytes src a dst dest n).pending = s.pending := by rfl
@[simp] theorem State.poisonAt_pending (s : State) (sp : Space) (a n : Nat) :
    (s.poisonAt sp a n).pending = s.pending := by rfl
@[simp] theorem State.regionFault_pending (s : State) (die p requester addr : Nat) :
    (s.regionFault die p requester addr).pending = s.pending := by simp [State.regionFault]
@[simp] theorem State.touch_pending (s : State) (v : Via) (write : Bool) (sp : Space) (a n : Nat) :
    (s.touch v write sp a n).pending = s.pending := by simp [State.touch]
@[simp] theorem State.yieldLines_pending (s : State) (a n : Nat) : (s.yieldLines a n).pending = s.pending := by rfl
@[simp] theorem State.emptyCache_pending (s : State) (die : Nat) : (s.emptyCache die).pending = s.pending := by rfl

/-! ## Berths -/

@[simp] theorem State.ringStore_pending (s : State) (c : BerthCfg) (a : Nat) (b : Bytes) :
    (s.ringStore c a b).pending = s.pending := by simp [State.ringStore]
@[simp] theorem State.putSlot_pending (s : State) (n cls flags valid producer : Nat) (step : DWord) (drops : Nat)
    (payload : Bytes) :
    (s.putSlot n cls flags valid producer step drops payload).pending = s.pending := by simp [State.putSlot]
@[simp] theorem State.dropSlots_pending (s : State) (quiet : Option Nat) (n k : Nat) (step : DWord) :
    (s.dropSlots quiet n k step).pending = s.pending := by simp [State.dropSlots]
@[simp] theorem State.levelAfter_pending (fuel : Nat) (quiet : Option Nat) (n before : Nat) (step : DWord) (s : State) :
    (State.levelAfter fuel quiet n before step s).pending = s.pending :=
  SameBut.same (State.levelAfter_same ..) .pending (by decide)
@[simp] theorem State.level_pending (s : State) (quiet : Option Nat) (n before : Nat) (step : DWord) :
    (s.level quiet n before step).pending = s.pending := by simp [State.level]
@[simp] theorem State.enqueueSlot_pending (s : State) (quiet : Option Nat) (n : Nat) (m : BerthMsg) (at_ : Nat) :
    (s.enqueueSlot quiet n m at_).pending = s.pending := by simp [State.enqueueSlot]
@[simp] theorem State.feed_pending (quiet : Option Nat) (n : Nat) (m : BerthMsg) (fuel i : Nat) (s : State) :
    (State.feed quiet n m fuel i s).2.pending = s.pending := SameBut.same (State.feed_same ..) .pending (by decide)
@[simp] theorem State.fillFree_pending (s : State) (n : Nat) (bytes : Bytes) :
    (s.fillFree n bytes).pending = s.pending := by simp [State.fillFree]
@[simp] theorem State.acceptMessage_pending (s : State) (quiet : Option Nat) (n : Nat) (m : BerthMsg) :
    (s.acceptMessage quiet n m).pending = s.pending := by simp [State.acceptMessage]
@[simp] theorem State.releaseWaiting_pending (n fuel : Nat) (s : State) :
    (State.releaseWaiting n fuel s).pending = s.pending := by
  induction fuel generalizing s with
  | zero => rfl
  | succ fuel ih =>
    unfold State.releaseWaiting; simp only []; split
    · rfl
    · split <;> simp [ih]
@[simp] theorem State.releaseOld_pending (s : State) (n : Nat) : (s.releaseOld n).pending = s.pending := by
  unfold State.releaseOld; simp only []; split <;> simp
@[simp] theorem State.dequeue_pending (s : State) (n : Nat) : (s.dequeue n).2.pending = s.pending := by
  unfold State.dequeue; split <;> simp
@[simp] theorem State.flushBerth_pending (s : State) (n : Nat) : (s.flushBerth n).pending = s.pending := by
  simp [State.flushBerth]
@[simp] theorem State.placeBerth_pending (s : State) (n : Nat) (c : BerthCfg) (tag : Byte) :
    (s.placeBerth n c tag).pending = s.pending := by simp [State.placeBerth]
@[simp] theorem State.refuseWaiting_pending (s : State) (n : Nat) : (s.refuseWaiting n).pending = s.pending := by
  simp [State.refuseWaiting]
@[simp] theorem State.programBerth_pending (s : State) (n : Nat) (c : BerthCfg) (tag : Byte) :
    (s.programBerth n c tag).pending = s.pending := by simp [State.programBerth]
@[simp] theorem State.freshBerth_pending (s : State) (n : Nat) (c : BerthCfg) (tag : Byte) :
    (s.freshBerth n c tag).pending = s.pending := by rfl
@[simp] theorem State.completionNotice_pending (s : State) (done producer : Nat) (step : DWord)
    (tag source flags unit die cluster : Nat) :
    (s.completionNotice done producer step tag source flags unit die cluster).pending = s.pending := by
  simp [State.completionNotice]

/-! ## Events -/

@[simp] theorem State.toBerth_pending (s : State) (r : EventRec) : (s.toBerth r).pending = s.pending := by
  simp [State.toBerth]
@[simp] theorem State.signal_pending (s : State) (r : EventRec) : (s.signal r).pending = s.pending := by
  simp [State.signal]
@[simp] theorem State.acceptOne_pending (s : State) (r : EventRec) : (s.acceptOne r).2.pending = s.pending := by
  simp [State.acceptOne]
@[simp] theorem State.takeSeq_pending (s : State) : s.takeSeq.2.pending = s.pending := by rfl
@[simp] theorem State.reportService_pending (s : State) (old : Word) : (s.reportService old).pending = s.pending := by
  simp [State.reportService]

/-! ## LightDesc -/

@[simp] theorem State.clearSums_pending (s : State) (p : Nat) : (s.clearSums p).pending = s.pending := by
  simp [State.clearSums]

/-! ## Versions -/

@[simp] theorem State.pinPlaces_pending (s : State) (p : Nat) : (s.pinPlaces p).pending = s.pending := by
  unfold State.pinPlaces; split
  · rfl
  · refine State.pending_foldl _ (fun s b => ?_) _ _
    simp only []; split <;> simp
@[simp] theorem State.writeStash_pending (s : State) (p gone : Nat) : (s.writeStash p gone).pending = s.pending := by
  rfl
@[simp] theorem State.modEntries_pending (s : State) (p : Nat) (f : StashEntry → StashEntry) :
    (s.modEntries p f).pending = s.pending := by simp [State.modEntries]
@[simp] theorem State.endWaits_pending (s : State) (p : Nat) : (s.endWaits p).pending = s.pending := by
  simp [State.endWaits]
@[simp] theorem State.releaseStash_pending (s : State) (p : Nat) : (s.releaseStash p).pending = s.pending := by
  simp [State.releaseStash]
@[simp] theorem State.unapply_pending (s : State) (p : Nat) : (s.unapply p).pending = s.pending := by
  simp [State.unapply]

/-! ## Partition -/

@[simp] theorem State.addRecord_pending (s : State) (p type : Nat) (body : Bytes) :
    (s.addRecord p type body).pending = s.pending := by rfl
@[simp] theorem State.ladingOverflow_pending (s : State) (p : Nat) : (s.ladingOverflow p).pending = s.pending := by
  simp [State.ladingOverflow]
@[simp] theorem State.recovery_pending (s : State) (p kind : Nat) (detail : Bytes) :
    (s.recovery p kind detail).pending = s.pending := by simp [State.recovery]
@[simp] theorem State.countLading_pending (s : State) (p i : Nat) : (s.countLading p i).pending = s.pending := by rfl
@[simp] theorem State.send_pending (s : State) (p : Nat) (n : Notice) : (s.send p n).pending = s.pending := by rfl
@[simp] theorem State.modContexts_pending (s : State) (p : Nat) (f : Ctx → Ctx) :
    (s.modContexts p f).pending = s.pending := by simp [State.modContexts]
@[simp] theorem State.dropFlights_pending (s : State) (p : Nat) : (s.dropFlights p).pending = s.pending := by
  simp [State.dropFlights]
@[simp] theorem State.retag_pending (s : State) : s.retag.pending = s.pending := by simp [State.retag]
@[simp] theorem State.amendCheck_pending (s : State) : s.amendCheck.pending = s.pending := by simp [State.amendCheck]
@[simp] theorem State.withdraw_pending (s : State) (p : Nat) : (s.withdraw p).pending = s.pending := by
  simp [State.withdraw]
@[simp] theorem State.cancelStep_pending (s : State) (p : Nat) (step : DWord) :
    (s.cancelStep p step).pending = s.pending := by simp [State.cancelStep]
@[simp] theorem State.enterHalted_pending (s : State) (p cause mode : Nat) :
    (s.enterHalted p cause mode).pending = s.pending := by simp [State.enterHalted]
@[simp] theorem State.haltWith_pending (s : State) (p cause mode : Nat) :
    (s.haltWith p cause mode).pending = s.pending := by simp [State.haltWith]
@[simp] theorem State.halt_pending (s : State) (p cause : Nat) : (s.halt p cause).pending = s.pending := by
  simp [State.halt]
@[simp] theorem State.countNonfinite_pending (s : State) (p src k : Nat) :
    (s.countNonfinite p src k).pending = s.pending := by simp [State.countNonfinite]
@[simp] theorem State.countKept_pending (s : State) (p src k : Nat) : (s.countKept p src k).pending = s.pending := by
  simp [State.countKept]
@[simp] theorem State.noteBound_pending (s : State) (p : Nat) (job : Bool) (layer : Nat) (b : Word) :
    (s.noteBound p job layer b).pending = s.pending := by simp [State.noteBound]
@[simp] theorem State.restartBody_pending (s : State) (p : Nat) : (s.restartBody p).pending = s.pending := by
  simp [State.restartBody]
@[simp] theorem State.restartApply_pending (s : State) (p : Nat) : (s.restartApply p).pending = s.pending := by
  simp [State.restartApply]
@[simp] theorem State.flushPartition_pending (s : State) (p : Nat) : (s.flushPartition p).pending = s.pending := by
  simp [State.flushPartition]
@[simp] theorem State.endRewind_pending (s : State) (p : Nat) : (s.endRewind p).pending = s.pending := by
  simp [State.endRewind]
@[simp] theorem State.rewind_pending (s : State) (p code : Nat) : (s.rewind p code).pending = s.pending := by
  simp [State.rewind]

/-! ## Access -/

@[simp] theorem State.guardWrite_pending (s : State) (c : Instr) (b addr : Nat) (k : State → State)
    (hk : State.SameQueue s (k s)) :
    (s.guardWrite c b addr k).pending = s.pending := by
  have hk := (State.sameQueue_iff _ _).1 hk
  unfold State.guardWrite; repeat' split
  all_goals simp [hk]

/-! ## MemFaults -/

@[simp] theorem State.memService_pending (s : State) : s.memService.pending = s.pending := by simp [State.memService]
@[simp] theorem State.takePool_pending (s : State) (stack dram k : Nat) :
    (s.takePool stack dram k).pending = s.pending := by simp [State.takePool]
@[simp] theorem State.loseRow_pending (s : State) (stack pc row : Nat) :
    (s.loseRow stack pc row).pending = s.pending := by simp [State.loseRow]
@[simp] theorem State.startBank_pending (s : State) (stack pc bank : Nat) :
    (s.startBank stack pc bank).pending = s.pending := by simp [State.startBank]
@[simp] theorem State.rowFault_pending (s : State) (stack pc row : Nat) :
    (s.rowFault stack pc row).pending = s.pending := by simp [State.rowFault]
@[simp] theorem State.rowFaultAt_pending (s : State) (addr : Nat) : (s.rowFaultAt addr).pending = s.pending := by
  simp [State.rowFaultAt]
@[simp] theorem State.rowRepaired_pending (s : State) (stack pc row : Nat) :
    (s.rowRepaired stack pc row).pending = s.pending := by simp [State.rowRepaired]
@[simp] theorem State.bankRepaired_pending (s : State) (stack pc bank : Nat) :
    (s.bankRepaired stack pc bank).pending = s.pending := by simp [State.bankRepaired]
@[simp] theorem State.holdParts_pending (s : State) (j : Nat) : (s.holdParts j).pending = s.pending := by
  simp [State.holdParts]
@[simp] theorem State.noHoldSpare_pending (s : State) (j : Nat) : (s.noHoldSpare j).pending = s.pending := by
  simp [State.noHoldSpare]
@[simp] theorem State.holdFault_pending (s : State) (j : Nat) (readable : Bool) :
    (s.holdFault j readable).pending = s.pending := by
  unfold State.holdFault
  repeat' split
  all_goals simp
@[simp] theorem State.spareFault_pending (s : State) (h17 : Bool) (die : Nat) :
    (s.spareFault h17 die).pending = s.pending := by unfold State.spareFault; split <;> simp
@[simp] theorem State.spareTested_pending (s : State) (h17 pass oldReadable : Bool) :
    (s.spareTested h17 pass oldReadable).pending = s.pending := by unfold State.spareTested; split <;> simp
@[simp] theorem State.recoverHold_pending (s : State) (j : Nat) (bytes : List (Nat × Bytes)) :
    (s.recoverHold j bytes).pending = s.pending := by
  refine State.pending_foldl _ (fun s q => ?_) _ _
  simp only []; split
  · simp
  · split <;> simp
@[simp] theorem State.spareServes_pending (s : State) (h17 : Bool) (lost : List Nat) (bytes : List (Nat × Bytes)) :
    (s.spareServes h17 lost bytes).pending = s.pending := by unfold State.spareServes; split <;> simp
@[simp] theorem State.memTransient_pending (s : State) (sp : Space) (addr : Nat) :
    (s.memTransient sp addr).pending = s.pending := by unfold State.memTransient; split <;> simp
@[simp] theorem State.lineTransient_pending (s : State) (addr : Nat) : (s.lineTransient addr).pending = s.pending := by
  simp [State.lineTransient]
@[simp] theorem State.countCe_pending (s : State) (sp : Space) (die : Nat) :
    (s.countCe sp die).pending = s.pending := by rfl
@[simp] theorem State.countUe_pending (s : State) (sp : Space) (die : Nat) :
    (s.countUe sp die).pending = s.pending := by rfl
@[simp] theorem State.readLost_pending (s : State) (sp : Space) (addr requester : Nat) :
    (s.readLost sp addr requester).pending = s.pending := by unfold State.readLost; split <;> simp
@[simp] theorem State.readFault_pending (s : State) (sp : Space) (addr requester : Nat) (x : ReadOutcome) :
    (s.readFault sp addr requester x).2.pending = s.pending := by unfold State.readFault; split <;> simp
@[simp] theorem State.lineFault_pending (s : State) (v : Via) (x : CacheLine) (addr : Nat) (x1 : ReadOutcome) :
    (s.lineFault v x addr x1).2.pending = s.pending := by unfold State.lineFault; split <;> simp
@[simp] theorem State.readMem_pending (s : State) (via : Option Via) (sp : Space) (addr n requester : Nat)
    (o : ReadOutcome) :
    (s.readMem via sp addr n requester o).2.pending = s.pending := by
  unfold State.readMem; simp only []
  repeat' split
  all_goals simp
@[simp] theorem State.scrubFind_pending (s : State) (f : ScrubFind) : (s.scrubFind f).pending = s.pending := by
  simp [State.scrubFind]
@[simp] theorem State.scrub_pending (s : State) (finds : List ScrubFind) : (s.scrub finds).pending = s.pending := by
  simp [State.scrub]
@[simp] theorem State.scrubStart_pending (s : State) : s.scrubStart.pending = s.pending := by rfl
@[simp] theorem State.setBand_pending (s : State) (stack n band temp : Nat) :
    (s.setBand stack n band temp).pending = s.pending := by simp [State.setBand]
@[simp] theorem State.bandRise_pending (s : State) (stack n temp : Nat) :
    (s.bandRise stack n temp).pending = s.pending := by simp [State.bandRise]
@[simp] theorem State.bandFall_pending (s : State) (stack n temp : Nat) :
    (s.bandFall stack n temp).pending = s.pending := by simp [State.bandFall]
@[simp] theorem State.suspectBand_pending (s : State) (i : Nat) (before after : Bool) :
    (s.suspectBand i before after).pending = s.pending := by simp [State.suspectBand]
@[simp] theorem State.refresh_pending (s : State) (stack : Nat) : (s.refresh stack).pending = s.pending := by rfl

/-! ## Store -/

@[simp] theorem State.haltCtx_pending (s : State) (a : At) (runs : Nat) : (s.haltCtx a runs).pending = s.pending := by
  rfl
@[simp] theorem State.clError_pending (s : State) (die phys b : Nat) : (s.clError die phys b).pending = s.pending := by
  rfl
@[simp] theorem State.dropEntry_pending (s : State) (a : At) (i : Nat) : (s.dropEntry a i).pending = s.pending := by rfl
@[simp] theorem State.descriptorDone_pending (s : State) (p berth : Nat) (itemSeq : DWord) :
    (s.descriptorDone p berth itemSeq).pending = s.pending := by simp [State.descriptorDone]
@[simp] theorem State.storeCorrected_pending (s : State) (die phys : Nat) :
    (s.storeCorrected die phys).pending = s.pending := by rfl
@[simp] theorem State.readPieces_pending (s : State) (v : Via) (sp : Space) (src requester : Nat) (o : ReadOutcome)
    (xs : List Piece) :
    (s.readPieces v sp src requester o xs).2.pending = s.pending := by
  induction xs generalizing s o with
  | nil => rfl
  | cons x xs ih => unfold State.readPieces; simp only []; split <;> simp [ih]
@[simp] theorem State.fillStore_pending (s : State) (a : At) (sp : Space) (src : Nat) (ps : List Piece) :
    (s.fillStore a sp src ps).pending = s.pending := by rfl
@[simp] theorem State.copyOut_pending (s : State) (a : At) (sp : Space) (from_ dest n : Nat) :
    (s.copyOut a sp from_ dest n).pending = s.pending := by simp [State.copyOut]

/-! ## Slipway -/

@[simp] theorem State.lastSpare_pending (s : State) (die n : Nat) : (s.lastSpare die n).pending = s.pending := by
  unfold State.lastSpare; split <;> simp
@[simp] theorem State.trySpare_pending (s : State) (die old logical : Nat) :
    (s.trySpare die old logical).pending = s.pending := by
  unfold State.trySpare; simp only []
  repeat' split
  all_goals simp
@[simp] theorem State.clusterLost_pending (s : State) (die phys : Nat) :
    (s.clusterLost die phys).pending = s.pending := by
  unfold State.clusterLost; simp only []
  repeat' split
  all_goals simp
@[simp] theorem State.clusterTransient_pending (s : State) (die phys kind : Nat) :
    (s.clusterTransient die phys kind).pending = s.pending := by simp [State.clusterTransient]
@[simp] theorem State.replacedFor_pending (pay : Bytes) (s : State) (p : Nat) :
    (State.replacedFor pay s p).pending = s.pending := by simp [State.replacedFor]
@[simp] theorem State.bringIn_pending (s : State) (die old new logical : Nat) :
    (s.bringIn die old new logical).pending = s.pending := by simp [State.bringIn]
@[simp] theorem State.spareTestEnds_pending (s : State) (die n : Nat) (pass : Bool) :
    (s.spareTestEnds die n pass).pending = s.pending := by
  unfold State.spareTestEnds; simp only []; split <;> simp
@[simp] theorem State.resumeSlipway_pending (s : State) (die : Nat) : (s.resumeSlipway die).pending = s.pending := by
  refine State.pending_foldl _ (fun s n => ?_) _ _
  simp only []; split <;> simp
@[simp] theorem State.selfTest_pending (s : State) (die phys : Nat) : (s.selfTest die phys).pending = s.pending := by
  simp [State.selfTest]
@[simp] theorem State.selfTestEnds_pending (s : State) (die phys : Nat) (pass : Bool) :
    (s.selfTestEnds die phys pass).pending = s.pending := by simp [State.selfTestEnds]

/-! ## Tiles -/

@[simp] theorem State.rejectTile_pending (s : State) (a : At) (runs code tag : Nat) :
    (s.rejectTile a runs code tag).pending = s.pending := by simp [State.rejectTile]
@[simp] theorem State.fetchRefused_pending (s : State) (a : At) (runs tag operand kind addr : Nat) :
    (s.fetchRefused a runs tag operand kind addr).pending = s.pending := by simp [State.fetchRefused]
@[simp] theorem State.admitItem_pending (s : State) (a : At) (n : Nat) (it : Item) (vector : Bool) :
    (s.admitItem a n it vector).pending = s.pending := by simp [State.admitItem]
@[simp] theorem State.poisonedItem_pending (s : State) (a : At) (n : Nat) :
    (s.poisonedItem a n).pending = s.pending := by simp [State.poisonedItem]
@[simp] theorem State.pilotAdmit_pending (s : State) (id : ClusterId) (slot : BitVec 1) :
    (s.pilotAdmit id slot).pending = s.pending := by
  unfold State.pilotAdmit; simp only []
  repeat' split
  all_goals simp
@[simp] theorem State.pilotFetchReturn_pending (s : State) (id : ClusterId) (slot : BitVec 1) (i : Nat)
    (op : TileOperand) (o : ReadOutcome) :
    (s.pilotFetchReturn id slot i op o).pending = s.pending := by
  unfold State.pilotFetchReturn; simp only []
  repeat' split
  all_goals simp
@[simp] theorem State.dropRows_pending (s : State) (a : At) (e : Entry) (row : Nat) :
    (s.dropRows a e row).pending = s.pending := by rfl
@[simp] theorem State.rowStoreUe_pending (s : State) (a : At) (i : Nat) (e : Entry) (t : Tile) (op : TileOperand)
    (slot : Half) :
    (s.rowStoreUe a i e t op slot).pending = s.pending := by simp [State.rowStoreUe]
@[simp] theorem State.anchorReady_pending (s : State) (id : ClusterId) (slot : BitVec 1) (i : Nat) (f : RowFault) :
    (s.anchorReady id slot i f).pending = s.pending := by
  unfold State.anchorReady; simp only []
  repeat' split
  all_goals simp
@[simp] theorem State.entryNotice_pending (s : State) (a : At) (e : Entry) (notify : Bool)
    (done tag source flags : Nat) :
    (s.entryNotice a e notify done tag source flags).pending = s.pending := by simp [State.entryNotice]
@[simp] theorem State.entryDone_pending (s : State) (a : At) (i : Nat) (e : Entry) (notify : Bool)
    (done tag source flags : Nat) :
    (s.entryDone a i e notify done tag source flags).pending = s.pending := by simp [State.entryDone]
@[simp] theorem State.countTile_pending (s : State) (a : At) : (s.countTile a).pending = s.pending := by rfl
@[simp] theorem State.tileNop_pending (s : State) (id : ClusterId) (slot : BitVec 1) :
    (s.tileNop id slot).pending = s.pending := by
  unfold State.tileNop; simp only []
  repeat' split
  all_goals simp
@[simp] theorem State.tileFence_pending (s : State) (id : ClusterId) (slot : BitVec 1) :
    (s.tileFence id slot).pending = s.pending := by
  unfold State.tileFence
  repeat' split
  all_goals simp
@[simp] theorem State.tileEvents_pending (s : State) (a : At) (i : Nat) (e : Entry) (tag row : Nat) (anchor : Int)
    (above bad : Bool) :
    (s.tileEvents a i e tag row anchor above bad).pending = s.pending := by simp [State.tileEvents]
@[simp] theorem State.rowResidue_pending (s : State) (a : At) (i row : Nat) (e : Entry) (tag : Nat)
    (again : List Acc × Bool × Bool) :
    (s.rowResidue a i row e tag again).pending = s.pending := by simp [State.rowResidue]
@[simp] theorem State.issueRow_pending (s : State) (a : At) (i : Nat) (e : Entry) (t : Tile) (anchor : Int)
    (f : RowFault) :
    (s.issueRow a i e t anchor f).pending = s.pending := by
  unfold State.issueRow; simp only []; split <;> simp
@[simp] theorem State.takeArray_pending (s : State) (other : Option At) : (s.takeArray other).pending = s.pending := by
  unfold State.takeArray; split <;> simp
@[simp] theorem State.tileProduct_pending (s : State) (id : ClusterId) (slot : BitVec 1) (f : RowFault) :
    (s.tileProduct id slot f).pending = s.pending := by
  unfold State.tileProduct
  repeat' split
  all_goals simp
@[simp] theorem State.tileRowIssue_pending (s : State) (id : ClusterId) (slot : BitVec 1) (f : RowFault) :
    (s.tileRowIssue id slot f).pending = s.pending := by
  unfold State.tileRowIssue
  repeat' split
  all_goals simp
@[simp] theorem State.copyRow_pending (s : State) (a : At) (t : Tile) (i : Nat) :
    (s.copyRow a t i).pending = s.pending := by unfold State.copyRow; split <;> simp
@[simp] theorem State.tileDone_pending (s : State) (a : At) (i : Nat) (e : Entry) (t : Tile) (anchor : Int) :
    (s.tileDone a i e t anchor).pending = s.pending := by simp [State.tileDone]
@[simp] theorem State.tileWritten_pending (s : State) (a : At) (i : Nat) (t : Tile) (anchor : Int) :
    (s.tileWritten a i t anchor).pending = s.pending := by unfold State.tileWritten; split <;> simp
@[simp] theorem State.rowDrain_pending (s : State) (id : ClusterId) (slot : BitVec 1) (residue : Bool) :
    (s.rowDrain id slot residue).pending = s.pending := by
  unfold State.rowDrain; simp only []
  repeat' split
  all_goals simp
@[simp] theorem State.outputCopied_pending (s : State) (id : ClusterId) (slot : BitVec 1) (corrected : Bool) :
    (s.outputCopied id slot corrected).pending = s.pending := by
  unfold State.outputCopied
  repeat' split
  all_goals simp
@[simp] theorem State.slotControl_pending (s : State) (id : ClusterId) (slot : BitVec 1) (halt : Bool) :
    (s.slotControl id slot halt).pending = s.pending := by unfold State.slotControl; split <;> simp

/-! ## Contexts -/

@[simp] theorem State.swapRefused_pending (s : State) (a : At) (x : Ctx) :
    (s.swapRefused a x).pending = s.pending := by simp [State.swapRefused]
@[simp] theorem State.startSwap_pending (s : State) (a : At) : (s.startSwap a).pending = s.pending := by
  unfold State.startSwap; split <;> simp
@[simp] theorem State.nextSwap_pending (s : State) (id : ClusterId) : (s.nextSwap id).pending = s.pending := by
  unfold State.nextSwap; simp only []; split <;> simp
@[simp] theorem State.quantumExpiry_pending (s : State) (id : ClusterId) (slot : BitVec 1) :
    (s.quantumExpiry id slot).pending = s.pending := by unfold State.quantumExpiry; split <;> simp
@[simp] theorem State.intakeFilled_pending (s : State) (n : Nat) : (s.intakeFilled n).pending = s.pending := by
  unfold State.intakeFilled; simp only []
  repeat' split
  all_goals simp
@[simp] theorem State.swapComplete_pending (s : State) (id : ClusterId) (slot : BitVec 1) (corrected : Bool)
    (o : ReadOutcome) :
    (s.swapComplete id slot corrected o).pending = s.pending := by
  unfold State.swapComplete; simp only []
  repeat' split
  all_goals simp

/-! ## Vector -/

@[simp] theorem State.vectorAdmit_pending (s : State) (id : ClusterId) (slot : BitVec 1) :
    (s.vectorAdmit id slot).pending = s.pending := by
  unfold State.vectorAdmit
  repeat' split
  all_goals simp
@[simp] theorem State.laneFault_pending (s : State) (a : At) (i : Nat) (tag : Nat) (f : LaneFault) :
    (s.laneFault a i tag f).2.pending = s.pending := by unfold State.laneFault; split <;> simp
@[simp] theorem State.notePeak_pending (s : State) (a : At) (v : Vec) (step : DWord) (x : VecRun) :
    (s.notePeak a v step x).pending = s.pending := by simp [State.notePeak]
@[simp] theorem State.vectorDone_pending (s : State) (a : At) (i : Nat) (e : Entry) (v : Vec) (x : VecRun) :
    (s.vectorDone a i e v x).pending = s.pending := by simp [State.vectorDone]
@[simp] theorem State.vectorRun_pending (s : State) (id : ClusterId) (slot : BitVec 1) (kind : Nat) (f : LaneFault)
    (stop : Option Nat) :
    (s.vectorRun id slot kind f stop).pending = s.pending := by
  unfold State.vectorRun
  repeat' split
  all_goals simp
@[simp] theorem State.vectorNop_pending (s : State) (id : ClusterId) (slot : BitVec 1) :
    (s.vectorNop id slot).pending = s.pending := by
  unfold State.vectorNop; simp only []
  repeat' split
  all_goals simp
@[simp] theorem State.vectorDiscard_pending (s : State) (id : ClusterId) (slot : BitVec 1) :
    (s.vectorDiscard id slot).pending = s.pending := by
  unfold State.vectorDiscard; simp only []
  repeat' split
  all_goals simp

/-! ## Lighters -/

@[simp] theorem State.keepSums_pending (s : State) (p : Nat) : (s.keepSums p).pending = s.pending := by
  simp [State.keepSums]
@[simp] theorem State.haltLighter_pending (s : State) (w : Work) (code : Nat) :
    (s.haltLighter w code).pending = s.pending := by rfl
@[simp] theorem State.refuseLight_pending (s : State) (w : Work) (code : Nat) :
    (s.refuseLight w code).pending = s.pending := by simp [State.refuseLight]
@[simp] theorem State.lightUe_pending (s : State) (w : Work) : (s.lightUe w).pending = s.pending := by
  simp [State.lightUe]
@[simp] theorem State.haltReaders_pending (s : State) (p : Nat) (block : Word) (tag : Byte) :
    (s.haltReaders p block tag).pending = s.pending := by simp [State.haltReaders]
@[simp] theorem State.stashLost_pending (s : State) (p addr : Nat) : (s.stashLost p addr).pending = s.pending := by
  unfold State.stashLost; split <;> simp
@[simp] theorem State.copyUe_pending (s : State) (w : Work) : (s.copyUe w).pending = s.pending := by simp [State.copyUe]
@[simp] theorem State.commitPoint_pending (s : State) (w : Work) : (s.commitPoint w).pending = s.pending := by
  simp [State.commitPoint]
@[simp] theorem State.lighterFront_pending (s : State) (die n : Nat) :
    (s.lighterFront die n).2.pending = s.pending := by
  unfold State.lighterFront; simp only []
  split
  · rfl
  next b _ =>
    split
    · rfl
    · split
      · rfl
      · split
        · rfl
        next it t heq =>
          have ht := State.pending_of_eq (s.dequeue_pending b) heq
          split <;> simp [ht]
@[simp] theorem State.lightDone_pending (s : State) (w : Work) (flags : Nat) :
    (s.lightDone w flags).pending = s.pending := by simp [State.lightDone]
@[simp] theorem State.readRanges_pending (s : State) (v : Via) (sp : Space) (requester : Nat) (o : ReadOutcome)
    (xs : List Range) :
    (s.readRanges v sp requester o xs).2.pending = s.pending := by
  induction xs generalizing s o with
  | nil => rfl
  | cons x xs ih => unfold State.readRanges; simp only []; split <;> simp [ih]
@[simp] theorem State.lightCopy_pending (w : Work) (sp dp : Space) (o : ReadOutcome) (xs : List (Range × Range))
    (s : State) :
    (State.lightCopy w sp dp o xs s).2.pending = s.pending := by
  induction xs generalizing s o with
  | nil => rfl
  | cons x xs ih => unfold State.lightCopy; simp only []; split <;> simp [ih]
@[simp] theorem State.countAdds_pending (s : State) (die sectors cuts bad : Nat) :
    (s.countAdds die sectors cuts bad).pending = s.pending := by rfl
@[simp] theorem State.addOne_pending (w : Work) (d : Light) (sp : Space) (o : ReadOutcome) (r : Nat)
    (xs : AddRun × State) :
    (State.addOne w d sp o r xs).2.pending = xs.2.pending := by
  unfold State.addOne; simp only []
  repeat' split
  all_goals simp
@[simp] theorem State.addRows_pending (w : Work) (d : Light) (sp : Space) (o : ReadOutcome) (rows : List Nat)
    (xs : AddRun × State) :
    (State.addRows w d sp o rows xs).2.pending = xs.2.pending := by
  induction rows generalizing xs with
  | nil => rfl
  | cons r rows ih => unfold State.addRows; split <;> simp [ih]
@[simp] theorem State.lightAdd_pending (s : State) (w : Work) (sp : Space) (o : ReadOutcome) :
    (s.lightAdd w sp o).pending = s.pending := by
  unfold State.lightAdd; simp only []
  repeat' split
  all_goals simp
@[simp] theorem State.settleInto_pending (s : State) (w : Work) (d : Light) (dp : Space) :
    (s.settleInto w d dp).pending = s.pending := by simp [State.settleInto]
@[simp] theorem State.lightSettle_pending (s : State) (w : Work) (dp : Space) (o : ReadOutcome) :
    (s.lightSettle w dp o).pending = s.pending := by simp [State.lightSettle]
@[simp] theorem State.lighterRun_pending (s : State) (die n op : Nat) (k : State → Work → State)
    (hk : ∀ u w, State.SameQueue u (k u w)) :
    (s.lighterRun die n op k).pending = s.pending := by
  have hk := fun u w => (State.sameQueue_iff _ _).1 (hk u w)
  unfold State.lighterRun; simp only []; split
  · rfl
  · split
    next t heq => exact State.pending_of_eq (s.lighterFront_pending die n) heq
    next w t heq =>
      have ht := State.pending_of_eq (s.lighterFront_pending die n) heq
      repeat' split
      all_goals simp [hk, ht]
@[simp] theorem State.lighterResume_pending (s : State) (die n : Nat) :
    (s.lighterResume die n).pending = s.pending := by rfl
@[simp] theorem State.lighterFlush_pending (s : State) (die n : Nat) : (s.lighterFlush die n).pending = s.pending := by
  rfl

/-! ## Wharf -/

@[simp] theorem State.contextTakes_pending (s : State) (n id : Nat) : (s.contextTakes n id).pending = s.pending := by
  unfold State.contextTakes; split <;> simp
@[simp] theorem State.lighterTakes_pending (s : State) (n id : Nat) : (s.lighterTakes n id).pending = s.pending := by
  unfold State.lighterTakes; simp only []; split
  · rfl
  · split
    · rfl
    next it t heq =>
      have ht := State.pending_of_eq (s.dequeue_pending n) heq
      split <;> simp [ht]
@[simp] theorem State.noteNotice_pending (s : State) (p n : Nat) (it : Item) :
    (s.noteNotice p n it).pending = s.pending := by simp [State.noteNotice]
@[simp] theorem State.unitTakes_pending (s : State) (n id : Nat) : (s.unitTakes n id).pending = s.pending := by
  unfold State.unitTakes; simp only []; split
  · rfl
  next it t heq =>
    have ht := State.pending_of_eq (s.dequeue_pending n) heq
    repeat' split
    all_goals simp [ht]
@[simp] theorem State.berthTurn_pending (s : State) (n : Nat) : (s.berthTurn n).pending = s.pending := by
  simp [State.berthTurn]

/-! ## Detect -/

@[simp] theorem State.jobLoss_pending (s : State) (own : BitVec 128) (result : Word) (total : BitVec 128) :
    (s.jobLoss own result total).2.pending = s.pending := by
  unfold State.jobLoss; simp only []
  repeat' split
  all_goals simp
@[simp] theorem State.writeLoss_pending (s : State) (p : Nat) (loss : Word) :
    (s.writeLoss p loss).pending = s.pending := by simp [State.writeLoss]
@[simp] theorem State.detection_pending (s : State) (p : Nat) : (s.detection p).pending = s.pending := by
  simp [State.detection]

/-! ## Features -/

@[simp] theorem State.conflict_pending (s : State) (kind index loser holder : Nat) :
    (s.conflict kind index loser holder).pending = s.pending := by simp [State.conflict]
@[simp] theorem State.requestSide_pending (s : State) (n : Nat) (w : Word) :
    (s.requestSide n w).pending = s.pending := by simp [State.requestSide]
@[simp] theorem State.pulse_pending (s : State) (n : Nat) : (s.pulse n).pending = s.pending := by rfl
@[simp] theorem State.stepMark_pending (s : State) (p : Nat) : (s.stepMark p).pending = s.pending := by
  simp [State.stepMark]
@[simp] theorem State.requestTimer_pending (s : State) (t : Nat) (w : Word) :
    (s.requestTimer t w).pending = s.pending := by simp [State.requestTimer]
@[simp] theorem State.startClaim_pending (s : State) (c : ClaimRec) : (s.startClaim c).pending = s.pending := by
  unfold State.startClaim; split <;> simp
@[simp] theorem State.dropClaims_pending (s : State) (old new : List ClaimRec) :
    (s.dropClaims old new).pending = s.pending := by
  refine State.pending_foldl _ (fun s x => ?_) _ _
  simp only []; repeat' split
  all_goals simp
@[simp] theorem State.calibrate_pending (s : State) (item : Nat) : (s.calibrate item).pending = s.pending := by
  simp [State.calibrate]
@[simp] theorem State.unlearn_pending (s : State) (p : Nat) : (s.unlearn p).pending = s.pending := by rfl

/-! ## Stash -/

@[simp] theorem State.stashWaits_pending (s : State) (p : Nat) (v : Version) (space : Bool) :
    (s.stashWaits p v space).pending = s.pending := by simp [State.stashWaits]
@[simp] theorem State.bindReaders_pending (s : State) (p mb : Nat) : (s.bindReaders p mb).pending = s.pending := by
  unfold State.bindReaders; split <;> simp
@[simp] theorem State.subtractReaders_pending (s : State) (p : Nat) (block : Word) (tag : Byte) (n : Nat) :
    (s.subtractReaders p block tag n).2.pending = s.pending := by simp [State.subtractReaders]
@[simp] theorem State.lastTile_pending (s : State) (p : Nat) (block : Word) (mb : Half) (step : DWord) :
    (s.lastTile p block mb step).pending = s.pending := by
  unfold State.lastTile; simp only []; split <;> simp
@[simp] theorem State.dropReaders_pending (s : State) (p : Nat) (step : DWord) :
    (s.dropReaders p step).pending = s.pending := by simp [State.dropReaders]
@[simp] theorem State.newVersion_pending (s : State) (p : Nat) (b : WeightBlock) (v : Version) :
    (s.newVersion p b v).pending = s.pending := by rfl
@[simp] theorem State.applyBlock_pending (s : State) (p : Nat) (b : WeightBlock) :
    (s.applyBlock p b).2.pending = s.pending := by simp [State.applyBlock]
@[simp] theorem State.stage_pending (s : State) (p : Nat) (g : StepProgram) (e : StashEntry) :
    (s.stage p g e).2.pending = s.pending := by
  unfold State.stage
  repeat' split
  all_goals simp
@[simp] theorem State.redirectTile_pending (s : State) (p mb : Nat) (step : DWord) (ws : List Word) :
    (s.redirectTile p mb step ws).2.pending = s.pending := by
  unfold State.redirectTile; split
  · rfl
  next g _ =>
    refine State.pending_foldl_snd _ (fun x b => ?_) _ _
    split
    · rfl
    next t =>
      split
      next e range _ _ =>
        split
        · rfl
        · split
          next u heq => exact State.pending_of_eq (t.stage_pending p g e) heq
          next u _ heq => exact State.pending_of_eq (t.stage_pending p g e) heq
      · rfl
@[simp] theorem State.redirectTiles_pending (s : State) (p mb : Nat) (step : DWord) (l : List (List Word)) :
    (s.redirectTiles p mb step l).2.pending = s.pending := by
  induction l generalizing s with
  | nil => rfl
  | cons ws rest ih =>
    unfold State.redirectTiles; split
    next t heq => exact State.pending_of_eq (s.redirectTile_pending p mb step ws) heq
    next x t heq =>
      have ht := State.pending_of_eq (s.redirectTile_pending p mb step ws) heq
      split
      next u hu => exact State.pending_of_eq ((ih t).trans ht) hu
      next xs u hu => exact State.pending_of_eq ((ih t).trans ht) hu
@[simp] theorem State.redirectItem_pending (s : State) (x : Posted) (f : List Word → List Word) :
    (s.redirectItem x f).pending = s.pending := by simp [State.redirectItem]
@[simp] theorem State.redirectPosted_pending (s : State) (p : Nat) (g : StepProgram) (e : StashEntry) :
    (s.redirectPosted p g e).pending = s.pending := by
  unfold State.redirectPosted; simp only []; split
  · rfl
  · split
    · rfl
    · split
      next sp a t heq =>
        have ht := State.pending_of_eq (s.stage_pending p g e) heq
        simp [ht]
      next t _ heq => exact State.pending_of_eq (s.stage_pending p g e) heq
@[simp] theorem State.formMirrored_pending (s : State) (p : Nat) (e : StashEntry) :
    (s.formMirrored p e).pending = s.pending := by simp [State.formMirrored]
@[simp] theorem State.stashCopied_pending (s : State) (p : Nat) (block : Word) :
    (s.stashCopied p block).pending = s.pending := by
  unfold State.stashCopied; simp only []
  repeat' split
  all_goals simp
@[simp] theorem State.stashLimit_pending (s : State) (p : Nat) (block : Word) :
    (s.stashLimit p block).pending = s.pending := by simp [State.stashLimit]

/-! ## MfControl -/

@[simp] theorem State.mfCode_pending (s : State) (code : Nat) (x : Place) : (s.mfCode code x).pending = s.pending := by
  rfl
@[simp] theorem State.mfRefuse_pending (s : State) (code : Nat) : (s.mfRefuse code).pending = s.pending :=
  State.mfCode_pending ..
@[simp] theorem State.mfLoad_pending (s : State) : s.mfLoad.pending = s.pending := by simp [State.mfLoad]
@[simp] theorem State.mfRejected_pending (s : State) (code : Nat) (x : Place) :
    (s.mfRejected code x).pending = s.pending := by simp [State.mfRejected]
@[simp] theorem State.mfVerified_pending (s : State) : s.mfVerified.pending = s.pending := by
  unfold State.mfVerified
  repeat' split
  all_goals simp
@[simp] theorem State.feedWarnings_pending (s : State) (v : View) : (s.feedWarnings v).pending = s.pending := by
  refine State.pending_foldl _ (fun s x => ?_) _ _
  repeat' split
  all_goals simp
@[simp] theorem State.mfChecked_pending (s : State) : s.mfChecked.pending = s.pending := by
  unfold State.mfChecked; simp only []
  repeat' split
  all_goals simp
@[simp] theorem State.mfDiscard_pending (s : State) : s.mfDiscard.pending = s.pending := by simp [State.mfDiscard]
@[simp] theorem State.programCluster_pending (s : State) (p : Nat) (cfg : PartCfg) (keep mine : Bool) (die l : Nat) :
    (s.programCluster p cfg keep mine die l).pending = s.pending := by unfold State.programCluster; split <;> simp
@[simp] theorem State.layImages_pending (s before : State) (p : Nat) (olds : List CtxRec) (cfg : PartCfg) :
    (s.layImages before p olds cfg).pending = s.pending := by
  refine State.pending_foldl _ (fun s die => ?_) _ _
  simp only []; split
  · rfl
  · refine State.pending_foldl _ (fun s r => ?_) _ _
    repeat' split
    all_goals simp
@[simp] theorem State.dropClusters_pending (s : State) (p : Nat) (owned : Nat → Nat → Bool) :
    (s.dropClusters p owned).pending = s.pending := by simp [State.dropClusters]
@[simp] theorem State.programBerths_pending (s : State) (p : Nat) (rs : List BerthRange) (tag : Byte) (fresh : Bool) :
    (s.programBerths p rs tag fresh).pending = s.pending := by simp [State.programBerths]
@[simp] theorem State.copyImages_pending (s : State) (p : Nat) (g : StepProgram) :
    (s.copyImages p g).pending = s.pending := by
  unfold State.copyImages
  repeat' split
  all_goals simp
@[simp] theorem State.setScratch_pending (s : State) (die units : Nat) :
    (s.setScratch die units).pending = s.pending := by simp [State.setScratch]
@[simp] theorem State.wakeLinks_pending (s : State) (old ports : List PortRec) :
    (s.wakeLinks old ports).pending = s.pending := by simp [State.wakeLinks]
@[simp] theorem State.darkenExtras_pending (s : State) (ports : List PortRec) :
    (s.darkenExtras ports).pending = s.pending := by simp [State.darkenExtras]
@[simp] theorem State.startDiscovery_pending (s : State) : s.startDiscovery.pending = s.pending := by rfl
@[simp] theorem State.freshPart_pending (s : State) (p : Nat) (cfg : PartCfg) (standby amends : Bool) :
    (s.freshPart p cfg standby amends).pending = s.pending := by simp [State.freshPart]
@[simp] theorem State.programParts_pending (s : State) (v : View) (keep : Bool) (prev : Nat → Nat → Option Nat)
    (tag : Byte) :
    (s.programParts v keep prev tag).pending = s.pending := by
  have hc : ∀ (r : PartRec) (d : Nat) (l : List Nat) (u : State), (l.foldl (fun u l =>
      u.programCluster r.id (v.partCfg r.id r) keep (decide (prev d l = some r.id)) d l) u).pending = u.pending :=
    fun r d => State.pending_foldl _ (by simp)
  simp [State.programParts, hc]
@[simp] theorem State.program_pending (s : State) (v : View) (tag : Byte) (amends : Bool) :
    (s.program v tag amends).pending = s.pending := by simp [State.program]
@[simp] theorem State.commitTime_pending (s : State) : s.commitTime.pending = s.pending := by rfl
@[simp] theorem State.sendStore_pending (s : State) (p : Nat) : (s.sendStore p).pending = s.pending := by
  unfold State.sendStore; split <;> simp
@[simp] theorem State.sendStores_pending (s : State) : s.sendStores.pending = s.pending := by simp [State.sendStores]
@[simp] theorem State.commitLoaded_pending (s : State) : s.commitLoaded.pending = s.pending := by
  simp [State.commitLoaded]
@[simp] theorem State.mfAmend_pending (s : State) : s.mfAmend.pending = s.pending := by simp [State.mfAmend]
@[simp] theorem State.amendChecked_pending (s : State) : s.amendChecked.pending = s.pending := by
  unfold State.amendChecked; simp only []
  repeat' split
  all_goals simp
@[simp] theorem State.mfWithdraw_pending (s : State) : s.mfWithdraw.pending = s.pending := by simp [State.mfWithdraw]
@[simp] theorem State.commitStaged_pending (s : State) : s.commitStaged.pending = s.pending := by
  simp [State.commitStaged]
@[simp] theorem State.mfCommit_pending (s : State) : s.mfCommit.pending = s.pending := by simp [State.mfCommit]
@[simp] theorem State.installPart_pending (s : State) (v : View) (p : Nat) (tag : Byte) :
    (s.installPart v p tag).pending = s.pending := by unfold State.installPart; split <;> simp
@[simp] theorem State.layCommitted_pending (s before : State) (p : Nat) :
    (s.layCommitted before p).pending = s.pending := by unfold State.layCommitted; split <;> simp
@[simp] theorem State.programPart_pending (s : State) (v : View) (p : Nat) (tag : Byte) (first : Bool) :
    (s.programPart v p tag first).pending = s.pending := by simp [State.programPart]
@[simp] theorem State.commitRecord_pending (s : State) (p phase : Nat) :
    (s.commitRecord p phase).pending = s.pending := by simp [State.commitRecord]
@[simp] theorem State.commitPart_pending (s : State) (p : Nat) : (s.commitPart p).pending = s.pending := by
  simp [State.commitPart]
@[simp] theorem State.partitionCommit_pending (s : State) (p : Nat) : (s.partitionCommit p).pending = s.pending := by
  unfold State.partitionCommit
  repeat' split
  all_goals simp
@[simp] theorem State.routeSwitch_pending (s : State) (p : Nat) : (s.routeSwitch p).pending = s.pending := by rfl
@[simp] theorem State.routeRetire_pending (s : State) (p : Nat) : (s.routeRetire p).pending = s.pending := by rfl
@[simp] theorem State.routePhase_pending (s : State) (p : Nat) : (s.routePhase p).pending = s.pending := by
  unfold State.routePhase; split <;> simp
@[simp] theorem State.amendAction_pending (s : State) (p : Nat) (halted : Bool) :
    (s.amendAction p halted).pending = s.pending := by simp [State.amendAction]
@[simp] theorem State.mfCommand_pending (s : State) (cmd : Nat) : (s.mfCommand cmd).pending = s.pending := by
  unfold State.mfCommand; split <;> simp

/-! ## Power -/

@[simp] theorem State.ptError_pending (s : State) (b : Nat) : (s.ptError b).pending = s.pending := by rfl
@[simp] theorem State.allDies_pending (s : State) (f : PtDie → PtDie) : (s.allDies f).pending = s.pending := by
  simp [State.allDies]
@[simp] theorem State.setLimits_pending (s : State) (f : Limits → Limits) : (s.setLimits f).pending = s.pending := by
  rfl
@[simp] theorem State.setEnvelope_pending (s : State) (value : Word) : (s.setEnvelope value).pending = s.pending := by
  simp [State.setEnvelope]
@[simp] theorem State.setHeadroom_pending (s : State) (value : Word) : (s.setHeadroom value).pending = s.pending := by
  simp [State.setHeadroom]
@[simp] theorem State.coolantTick_pending (s : State) : s.coolantTick.pending = s.pending := by
  unfold State.coolantTick; split <;> simp
@[simp] theorem State.fvTick_pending (s : State) (die mhz : Nat) : (s.fvTick die mhz).pending = s.pending := by
  simp [State.fvTick]
@[simp] theorem State.setDies_pending (s : State) (f : Nat → Nat → PtDie → PtDie) :
    (s.setDies f).pending = s.pending := by simp [State.setDies]
@[simp] theorem State.cutDuty_pending (s : State) : s.cutDuty.pending = s.pending := by simp [State.cutDuty]
@[simp] theorem State.cutPower_pending (s : State) : s.cutPower.pending = s.pending := by simp [State.cutPower]
@[simp] theorem State.restorePower_pending (s : State) : s.restorePower.pending = s.pending := by
  simp [State.restorePower]
@[simp] theorem State.addInterval_pending (s : State) (e : PowerEstimate) : (s.addInterval e).pending = s.pending := by
  rfl
@[simp] theorem State.formEstimate_pending (s : State) (e : PowerEstimate) :
    (s.formEstimate e).pending = s.pending := by simp [State.formEstimate]
@[simp] theorem State.estimateTick_pending (s : State) (e : PowerEstimate) :
    (s.estimateTick e).pending = s.pending := by simp [State.estimateTick]
@[simp] theorem State.burstLimit_pending (s : State) (peakW : Nat) : (s.burstLimit peakW).pending = s.pending := by
  simp [State.burstLimit]
@[simp] theorem State.ceilingTick_pending (s : State) (meanW : Nat) : (s.ceilingTick meanW).pending = s.pending := by
  unfold State.ceilingTick; simp only []
  repeat' split
  all_goals simp
@[simp] theorem State.addEnergy_pending (s : State) (p uj : Nat) : (s.addEnergy p uj).pending = s.pending := by rfl
@[simp] theorem State.countEnergy_pending (s : State) : s.countEnergy.pending = s.pending := by
  unfold State.countEnergy; simp only []; split <;> simp
@[simp] theorem State.measureTick_pending (s : State) (m : PowerMeasure) : (s.measureTick m).pending = s.pending := by
  simp [State.measureTick]
@[simp] theorem State.disagreeTick_pending (s : State) : s.disagreeTick.pending = s.pending := by
  simp [State.disagreeTick]
@[simp] theorem State.sensorTick_pending (s : State) (sensor : Byte) : (s.sensorTick sensor).pending = s.pending := by
  simp [State.sensorTick]
@[simp] theorem State.clearSensor_pending (s : State) : s.clearSensor.pending = s.pending := by simp [State.clearSensor]
@[simp] theorem State.observe_pending (s : State) (p : Nat) : (s.observe p).pending = s.pending := by
  unfold State.observe; split <;> simp
@[simp] theorem State.fullRate_pending (s : State) : s.fullRate.pending = s.pending := by simp [State.fullRate]
@[simp] theorem State.fillRate_pending (s : State) : s.fillRate.pending = s.pending := by simp [State.fillRate]
@[simp] theorem State.allocate_pending (s : State) : s.allocate.pending = s.pending := by simp [State.allocate]
@[simp] theorem State.boundary_pending (s : State) (p pc : Nat) : (s.boundary p pc).pending = s.pending := by
  unfold State.boundary; simp only []
  repeat' split
  all_goals simp
@[simp] theorem State.release_pending (s : State) (die : Nat) : (s.release die).pending = s.pending := by rfl
@[simp] theorem State.releaseAll_pending (s : State) : s.releaseAll.pending = s.pending := by simp [State.releaseAll]
@[simp] theorem State.waveOpen_pending (s : State) (die wave : Nat) : (s.waveOpen die wave).pending = s.pending := by
  simp [State.waveOpen]
@[simp] theorem State.warnFall_pending (s : State) : s.warnFall.pending = s.pending := by
  unfold State.warnFall; simp only []
  repeat' split
  all_goals simp
@[simp] theorem State.warnHeld_pending (s : State) : s.warnHeld.pending = s.pending := by simp [State.warnHeld]
@[simp] theorem State.warnRise_pending (s : State) : s.warnRise.pending = s.pending := by simp [State.warnRise]
@[simp] theorem State.warnRelease_pending (s : State) : s.warnRelease.pending = s.pending := by simp [State.warnRelease]
@[simp] theorem State.droop_pending (s : State) (die : Nat) : (s.droop die).pending = s.pending := by simp [State.droop]
@[simp] theorem State.droopEnd_pending (s : State) (die : Nat) : (s.droopEnd die).pending = s.pending := by
  simp [State.droopEnd]
@[simp] theorem State.dropPoint_pending (s : State) (die i : Nat) : (s.dropPoint die i).pending = s.pending := by
  simp [State.dropPoint]
@[simp] theorem State.saveTrim_pending (s : State) (die : Nat) : (s.saveTrim die).pending = s.pending := by
  simp [State.saveTrim]
@[simp] theorem State.marginCheck_pending (s : State) (die slack : Nat) :
    (s.marginCheck die slack).pending = s.pending := by simp [State.marginCheck]
@[simp] theorem State.marginLower_pending (s : State) (die : Nat) : (s.marginLower die).pending = s.pending := by
  simp [State.marginLower]
@[simp] theorem State.tideStart_pending (s : State) (p : Nat) : (s.tideStart p).pending = s.pending := by
  simp [State.tideStart]
@[simp] theorem State.tideReset_pending (s : State) : s.tideReset.pending = s.pending := by simp [State.tideReset]
@[simp] theorem State.tideStop_pending (s : State) : s.tideStop.pending = s.pending := by rfl
@[simp] theorem State.tideOffer_pending (s : State) (p : Nat) : (s.tideOffer p).2.pending = s.pending := by rfl
@[simp] theorem State.tideResult_pending (s : State) (g nc psum : Nat) :
    (s.tideResult g nc psum).pending = s.pending := by simp [State.tideResult]
@[simp] theorem State.flowAhead_pending (s : State) (flows : List Nat) :
    (s.flowAhead flows).2.pending = s.pending := by simp [State.flowAhead]
@[simp] theorem State.aimCoolant_pending (s : State) (readings : List Tray) :
    (s.aimCoolant readings).pending = s.pending := by simp [State.aimCoolant]
@[simp] theorem State.takeTray_pending (s : State) (r : Tray) : (s.takeTray r).pending = s.pending := by
  simp [State.takeTray]
@[simp] theorem State.coolantStale_pending (s : State) : s.coolantStale.pending = s.pending := by
  simp [State.coolantStale]
@[simp] theorem State.coolantDefault_pending (s : State) : s.coolantDefault.pending = s.pending := by
  simp [State.coolantDefault]
@[simp] theorem State.startQuiesce_pending (s : State) (source : Nat) (floor : Bool) :
    (s.startQuiesce source floor).pending = s.pending := by simp [State.startQuiesce]
@[simp] theorem State.flowStops_pending (s : State) (pin : Bool) : (s.flowStops pin).pending = s.pending := by
  simp [State.flowStops]
@[simp] theorem State.quiesced_pending (s : State) : s.quiesced.pending = s.pending := by simp [State.quiesced]
@[simp] theorem State.resumePower_pending (s : State) : s.resumePower.pending = s.pending := by simp [State.resumePower]
@[simp] theorem State.quiesceEnds_pending (s : State) : s.quiesceEnds.pending = s.pending := by simp [State.quiesceEnds]
@[simp] theorem State.ptResume_pending (s : State) : s.ptResume.pending = s.pending := by simp [State.ptResume]
@[simp] theorem State.spotAtLimit_pending (s : State) (i : Nat) : (s.spotAtLimit i).pending = s.pending := by
  simp [State.spotAtLimit]
@[simp] theorem State.readPair_pending (s : State) (i r0 r1 : Nat) : (s.readPair i r0 r1).pending = s.pending := by
  simp [State.readPair]
@[simp] theorem State.spotUpdate_pending (s : State) (u : SpotUpdate) : (s.spotUpdate u).pending = s.pending := by
  simp [State.spotUpdate]
@[simp] theorem State.thermalEvent_pending (s : State) (u : SpotUpdate) : (s.thermalEvent u).pending = s.pending := by
  simp [State.thermalEvent]
@[simp] theorem State.thermalTick_pending (s : State) (us : List SpotUpdate) :
    (s.thermalTick us).pending = s.pending := by simp [State.thermalTick]
@[simp] theorem State.thermalQuiesce_pending (s : State) (i : Nat) : (s.thermalQuiesce i).pending = s.pending := by
  simp [State.thermalQuiesce]
@[simp] theorem State.floorRelease_pending (s : State) (die : Nat) : (s.floorRelease die).pending = s.pending := by
  unfold State.floorRelease; simp
@[simp] theorem State.pairSuspect_pending (s : State) (i r0 r1 : Nat) :
    (s.pairSuspect i r0 r1).pending = s.pending := by simp [State.pairSuspect]
@[simp] theorem State.spotFault_pending (s : State) (i model : Nat) : (s.spotFault i model).pending = s.pending := by
  simp [State.spotFault]
@[simp] theorem State.pairClear_pending (s : State) (i : Nat) : (s.pairClear i).pending = s.pending := by
  simp [State.pairClear]
@[simp] theorem State.thermTrip_pending (s : State) (comparator : Nat) :
    (s.thermTrip comparator).pending = s.pending := by simp [State.thermTrip]
@[simp] theorem State.closeEnergy_pending (s : State) (p : Nat) (trained : Bool) :
    (s.closeEnergy p trained).pending = s.pending := by simp [State.closeEnergy]

/-! ## Lading -/

@[simp] theorem State.ladingStart_pending (s : State) (p : Nat) (first : DWord) (atFill : Bool) :
    (s.ladingStart p first atFill).pending = s.pending := by simp [State.ladingStart]
@[simp] theorem State.ladingTakes_pending (s : State) (p : Nat) (step : DWord) (entries : List Bytes)
    (lading : Option GuestLading) :
    (s.ladingTakes p step entries lading).pending = s.pending := by unfold State.ladingTakes; split <;> simp
@[simp] theorem State.ladingStep_pending (s : State) (p : Nat) (replayed skipped : Bool) (result : Nat) (data : Bytes) :
    (s.ladingStep p replayed skipped result data).pending = s.pending := by simp [State.ladingStep]
@[simp] theorem State.partnerId_pending (s : State) (p : Nat) : (s.partnerId p).2.pending = s.pending := by
  unfold State.partnerId; simp only []
  repeat' split
  all_goals simp
@[simp] theorem State.secError_pending (s : State) (b : Nat) : (s.secError b).pending = s.pending := by rfl
@[simp] theorem State.ladingIssue_pending (s : State) (p : Nat) : (s.ladingIssue p).pending = s.pending := by
  simp [State.ladingIssue]
@[simp] theorem State.ladingAuto_pending (s : State) (p : Nat) : (s.ladingAuto p).pending = s.pending := by
  simp [State.ladingAuto]

/-! ## Ethernet -/

@[simp] theorem State.gwError_pending (s : State) (b : Nat) : (s.gwError b).pending = s.pending := by rfl
@[simp] theorem State.takePn_pending (s : State) (dst : Bytes) : (s.takePn dst).2.pending = s.pending := by
  unfold State.takePn
  repeat' split
  all_goals simp
@[simp] theorem State.frameBoundary_pending (s : State) (n : Nat) : (s.frameBoundary n).pending = s.pending := by rfl
@[simp] theorem State.ownPrio_pending (s : State) (field : Nat) : (s.ownPrio field).2.pending = s.pending := by rfl
@[simp] theorem State.sendWaiting_pending (fuel : Nat) (served : Sparse Nat) (s : State) :
    (State.sendWaiting fuel served s).pending = s.pending := by
  induction fuel generalizing served s with
  | zero => rfl
  | succ fuel ih => unfold State.sendWaiting; simp only []; split <;> simp [ih]
@[simp] theorem State.flushTx_pending (s : State) : s.flushTx.pending = s.pending := by simp [State.flushTx]
@[simp] theorem State.queueFrame_pending (s : State) (prio : Nat) (f : Bytes) :
    (s.queueFrame prio f).pending = s.pending := by simp [State.queueFrame]
@[simp] theorem State.sendFrame_pending (s : State) (prio : Nat) (f : Bytes) :
    (s.sendFrame prio f).pending = s.pending := by simp [State.sendFrame]
@[simp] theorem State.numberFrame_pending (s : State) : s.numberFrame.2.pending = s.pending := by rfl
@[simp] theorem State.tftpRequest_pending (s : State) : s.tftpRequest.pending = s.pending := by simp [State.tftpRequest]

/-! ## DataFetch -/

@[simp] theorem State.addRead_pending (s : State) (r : FetchRead) : (s.addRead r).pending = s.pending := by rfl
@[simp] theorem State.startRead_pending (s : State) (r : FetchRead) (pos : Nat) (x : DataSource) :
    (s.startRead r pos x).pending = s.pending := by simp [State.startRead]
@[simp] theorem State.retryRead_pending (s : State) (r : FetchRead) : (s.retryRead r).pending = s.pending := by
  unfold State.retryRead; split <;> simp
@[simp] theorem State.issueRead_pending (s : State) (p : Nat) (f : MbFetch) (j : Nat × Nat) :
    (s.issueRead p f j).pending = s.pending := by
  unfold State.issueRead; simp only []; split <;> simp
@[simp] theorem State.pumpOne_pending (s : State) (p : Nat) (f : MbFetch) : (s.pumpOne p f).pending = s.pending := by
  unfold State.pumpOne
  rw [State.modFetch_pending, State.pending_foldl_snd]
  intro acc j; split <;> simp
@[simp] theorem State.pumpFetch_pending (s : State) (p : Nat) : (s.pumpFetch p).pending = s.pending := by
  unfold State.pumpFetch; split <;> simp
@[simp] theorem State.pumpAll_pending (s : State) : s.pumpAll.pending = s.pending := by simp [State.pumpAll]
@[simp] theorem State.startFetch_pending (s : State) (p : Nat) (step : DWord) (mb region : Nat) :
    (s.startFetch p step mb region).pending = s.pending := by unfold State.startFetch; split <;> simp
@[simp] theorem State.formDigest_pending (s : State) (p : Nat) : (s.formDigest p).pending = s.pending := by
  unfold State.formDigest; split <;> simp
@[simp] theorem State.landRecord_pending (s : State) (p : Nat) (g : StepProgram) (region j piece : Nat) (data : Bytes) :
    (s.landRecord p g region j piece data).pending = s.pending := by unfold State.landRecord; split <;> simp
@[simp] theorem State.keepPiece_pending (s : State) (r : FetchRead) (n : Nat) (data : Bytes) :
    (s.keepPiece r n data).2.pending = s.pending := by simp [State.keepPiece]
@[simp] theorem State.recordArrives_pending (s : State) (r : FetchRead) (data : Bytes) :
    (s.recordArrives r data).pending = s.pending := by
  unfold State.recordArrives; simp only []
  repeat' split
  all_goals simp
@[simp] theorem State.qpFails_pending (s : State) (qp : Nat) (syndrome : Byte) :
    (s.qpFails qp syndrome).pending = s.pending := by simp [State.qpFails]
@[simp] theorem State.roceIn_pending (s : State) (b : Bytes) : (s.roceIn b).pending = s.pending := by
  unfold State.roceIn
  repeat' split
  all_goals simp
@[simp] theorem State.readEnds_pending (s : State) (p : Nat) (step : DWord) (sample : Nat) (o : RdmaOutcome) :
    (s.readEnds p step sample o).pending = s.pending := by
  unfold State.readEnds
  repeat' split
  all_goals simp
@[simp] theorem State.dropReads_pending (s : State) (p : Nat) : (s.dropReads p).pending = s.pending := by
  simp [State.dropReads]
@[simp] theorem State.fetchTimeout_pending (s : State) (p : Nat) : (s.fetchTimeout p).pending = s.pending := by
  unfold State.fetchTimeout; simp only []
  repeat' split
  all_goals simp

/-! ## Logbook -/

@[simp] theorem State.compose_pending (s : State) (p kind : Nat) (step : DWord) (rs : List (Half × Bytes)) :
    (s.compose p kind step rs).2.pending = s.pending := by simp [State.compose]
@[simp] theorem State.logCommand_pending (s : State) (p lba blocks : Nat) :
    (s.logCommand p lba blocks).2.pending = s.pending := by simp [State.logCommand]
@[simp] theorem State.dataCommand_pending (s : State) (p : Nat) (op : NvmeOp) (lba skip blocks : Nat) :
    (s.dataCommand p op lba skip blocks).2.pending = s.pending := by simp [State.dataCommand]
@[simp] theorem State.ringPlace_pending (s : State) (blocks : Nat) : (s.ringPlace blocks).2.pending = s.pending := by
  rfl
@[simp] theorem State.endCommand_pending (s : State) (cid : Nat) : (s.endCommand cid).2.pending = s.pending := by
  simp [State.endCommand]
@[simp] theorem State.countWritten_pending (s : State) (blocks : Nat) :
    (s.countWritten blocks).pending = s.pending := by rfl
@[simp] theorem State.submit_pending (s : State) (p : Nat) (step : Bool) (e : Bytes) :
    (s.submit p step e).2.pending = s.pending := by simp [State.submit]
@[simp] theorem State.ringForced_pending (s : State) (p : Nat) : (s.ringForced p).pending = s.pending := by
  simp [State.ringForced]
@[simp] theorem State.writeEntry_pending (s : State) (p kind : Nat) (rs : List (Half × Bytes)) :
    (s.writeEntry p kind rs).pending = s.pending := by
  rw [State.writeEntry]; split
  next e t ht =>
    have ht := State.pending_of_eq (s.compose_pending ..) ht
    split
    next ok u hu =>
      have hu := State.pending_of_eq (t.submit_pending ..) hu
      split
      · exact hu.trans ht
      · rw [State.ringForced_pending]; exact hu.trans ht
@[simp] theorem State.resubmitHeld_pending (s : State) (p : Nat) : (s.resubmitHeld p).pending = s.pending := by
  simp [State.resubmitHeld]
@[simp] theorem State.resubmit_pending (s : State) (p : Nat) : (s.resubmit p).pending = s.pending := by
  refine State.pending_foldl _ (fun s u => ?_) _ _
  split <;> simp
@[simp] theorem State.writeLabel_pending (s : State) (l : DriveLabel) : (s.writeLabel l).pending = s.pending := by
  simp [State.writeLabel]
@[simp] theorem State.relabel_pending (s : State) : s.relabel.pending = s.pending := by
  unfold State.relabel; split <;> simp
@[simp] theorem State.snapImage_pending (s : State) (p : Nat) (slot : Bool) :
    (s.snapImage p slot).2.pending = s.pending := by rfl
@[simp] theorem State.snapRecord_pending (s : State) (p : Nat) (step : DWord) (slot : Bool) (state : Nat)
    (digest : Bytes) :
    (s.snapRecord p step slot state digest).pending = s.pending := by rfl
@[simp] theorem State.capture_pending (s : State) (p : Nat) (forced : Bool) :
    (s.capture p forced).2.pending = s.pending := by unfold State.capture; split <;> simp
@[simp] theorem State.spoilSnapshot_pending (s : State) (p : Nat) : (s.spoilSnapshot p).pending = s.pending := by
  unfold State.spoilSnapshot; split <;> simp
@[simp] theorem State.spoilAll_pending (s : State) : s.spoilAll.pending = s.pending := by simp [State.spoilAll]
@[simp] theorem State.resetDrive_pending (s : State) (d : Nat) : (s.resetDrive d).pending = s.pending := by
  simp [State.resetDrive]
@[simp] theorem State.entryFailed_pending (s : State) : s.entryFailed.pending = s.pending := by rfl
@[simp] theorem State.nvmeTimeout_pending (s : State) (d cid : Nat) : (s.nvmeTimeout d cid).pending = s.pending := by
  unfold State.nvmeTimeout; split <;> simp
@[simp] theorem State.nvmeEnds_pending (s : State) (d cid : Nat) : (s.nvmeEnds d cid).pending = s.pending := by
  unfold State.nvmeEnds; split <;> simp
@[simp] theorem State.commandEnds_pending (s : State) (cid : Nat) : (s.commandEnds cid).pending = s.pending := by
  simp [State.commandEnds]
@[simp] theorem State.snapService_pending (s : State) : s.snapService.pending = s.pending := by simp [State.snapService]
@[simp] theorem State.driveFails_pending (s : State) (d : Nat) : (s.driveFails d).pending = s.pending := by
  simp [State.driveFails]
@[simp] theorem State.driveWorks_pending (s : State) (d blocks : Nat) :
    (s.driveWorks d blocks).pending = s.pending := by simp [State.driveWorks]
@[simp] theorem State.snapLinkUp_pending (s : State) (rate : BitVec 2) (width : BitVec 4) :
    (s.snapLinkUp rate width).pending = s.pending := by simp [State.snapLinkUp]

/-! ## Slack -/

@[simp] theorem State.releasePart_pending (s : State) (p : Nat) : (s.releasePart p).pending = s.pending := by
  simp [State.releasePart]
@[simp] theorem State.beginStep_pending (s : State) (p : Nat) : (s.beginStep p).pending = s.pending := by
  simp [State.beginStep]
@[simp] theorem State.takeExcusals_pending (s : State) (p : Nat) : (s.takeExcusals p).pending = s.pending := by
  simp [State.takeExcusals]
@[simp] theorem State.tryBegin_pending (s : State) (p : Nat) : (s.tryBegin p).pending = s.pending := by
  simp [State.tryBegin]
@[simp] theorem State.tryBeginAll_pending (s : State) : s.tryBeginAll.pending = s.pending := by simp [State.tryBeginAll]
@[simp] theorem State.freshSeq_pending (s : State) (p : Nat) (step : DWord) :
    (s.freshSeq p step).pending = s.pending := by simp [State.freshSeq]
@[simp] theorem State.forceHalt_pending (s : State) (p cause : Nat) : (s.forceHalt p cause).pending = s.pending := by
  simp [State.forceHalt]
@[simp] theorem State.closeAlways_pending (s : State) (p : Nat) (replayed : Bool) :
    (s.closeAlways p replayed).pending = s.pending := by simp [State.closeAlways]
@[simp] theorem State.enterFillWait_pending (s : State) (p : Nat) : (s.enterFillWait p).pending = s.pending := by
  unfold State.enterFillWait; simp only []; split <;> simp
@[simp] theorem State.fillAfter_pending (s : State) (p : Nat) : (s.fillAfter p).pending = s.pending := by
  simp [State.fillAfter]
@[simp] theorem State.closeStep_pending (s : State) (p : Nat) : (s.closeStep p).pending = s.pending := by
  unfold State.closeStep; simp only []; split <;> simp
@[simp] theorem State.entryHalted_pending (s : State) (p : Nat) : (s.entryHalted p).pending = s.pending := by
  simp [State.entryHalted]
@[simp] theorem State.deferSnapshot_pending (s : State) (p : Nat) : (s.deferSnapshot p).pending = s.pending := by
  simp [State.deferSnapshot]
@[simp] theorem State.entryAction_pending (s : State) (p : Nat) : (s.entryAction p).pending = s.pending := by
  rw [State.entryAction]; split
  next e t ht =>
    have ht := State.pending_of_eq (s.compose_pending ..) ht
    simp [ht]
@[simp] theorem State.snapAction_pending (s : State) (p : Nat) : (s.snapAction p).pending = s.pending := by
  simp [State.snapAction]
@[simp] theorem State.replayDone_pending (s : State) (p : Nat) : (s.replayDone p).pending = s.pending := by
  simp [State.replayDone]
@[simp] theorem State.replayMismatch_pending (s : State) (p type : Nat) :
    (s.replayMismatch p type).pending = s.pending := by
  rw [State.replayMismatch, State.haltWith_pending, State.modPart_pending, State.modSeq_pending,
    State.writeEntry_pending, State.modLog_pending, State.raiseJr_pending, State.recovery_pending]
@[simp] theorem State.replayClose_pending (s : State) (p : Nat) (r : ReplayStep) :
    (s.replayClose p r).pending = s.pending := by
  unfold State.replayClose; simp only []
  repeat' split
  all_goals simp
@[simp] theorem State.replayCompare_pending (s : State) (p : Nat) : (s.replayCompare p).pending = s.pending := by
  unfold State.replayCompare; simp only []
  repeat' split
  all_goals simp
@[simp] theorem State.replayCommits_pending (s : State) (p : Nat) (r : ReplayStep) :
    (s.replayCommits p r).pending = s.pending := by
  unfold State.replayCommits
  rw [State.amendCheck_pending]
  refine State.pending_foldl _ (fun s b => ?_) _ _
  split <;> simp
@[simp] theorem State.peerAgrees_pending (s : State) : s.peerAgrees.2.pending = s.pending := by rfl
@[simp] theorem State.tellKeeper_pending (s : State) (p : Nat) : (s.tellKeeper p).2.pending = s.pending := by
  simp [State.tellKeeper]
@[simp] theorem State.keeperSize_pending (s : State) (p : Nat) : (s.keeperSize p).pending = s.pending := by
  simp [State.keeperSize]
@[simp] theorem State.tellSize_pending (s : State) (p old : Nat) : (s.tellSize p old).pending = s.pending := by
  simp [State.tellSize]
@[simp] theorem State.commitAction_pending (s : State) (p : Nat) : (s.commitAction p).pending = s.pending := by
  unfold State.commitAction; split <;> simp
@[simp] theorem State.stateRecord_pending (s : State) (p : Nat) (own partner : Bytes) (result : Nat) :
    (s.stateRecord p own partner result).pending = s.pending := by rfl
@[simp] theorem State.compareDigests_pending (s : State) (p : Nat) (own partner : Bytes) :
    (s.compareDigests p own partner).pending = s.pending := by simp [State.compareDigests]
@[simp] theorem State.digestAlone_pending (s : State) (p : Nat) (own : Bytes) :
    (s.digestAlone p own).pending = s.pending := by simp [State.digestAlone]
@[simp] theorem State.digestAction_pending (s : State) (p : Nat) : (s.digestAction p).pending = s.pending := by
  unfold State.digestAction; simp only []
  repeat' split
  all_goals simp
@[simp] theorem State.takeCadence_pending (s : State) (p : Nat) : (s.takeCadence p).pending = s.pending := by rfl
@[simp] theorem State.slackOpen_pending (s : State) (p : Nat) : (s.slackOpen p).pending = s.pending := by
  simp [State.slackOpen]
@[simp] theorem State.digestsMeet_pending (s : State) (p : Nat) : (s.digestsMeet p).pending = s.pending := by
  unfold State.digestsMeet; split <;> simp
@[simp] theorem State.partnerDigest_pending (s : State) (p : Nat) (d : Bytes) :
    (s.partnerDigest p d).pending = s.pending := by simp [State.partnerDigest]
@[simp] theorem State.excessDone_pending (s : State) (p : Nat) : (s.excessDone p).pending = s.pending := by
  unfold State.excessDone; split <;> simp
@[simp] theorem State.excessAll_pending (s : State) : s.excessAll.pending = s.pending := by simp [State.excessAll]
@[simp] theorem State.entryWritten_pending (s : State) (p : Nat) : (s.entryWritten p).pending = s.pending := by
  unfold State.entryWritten; split <;> simp
@[simp] theorem State.stillHeld_pending (s : State) (p : Nat) : (s.stillHeld p).pending = s.pending := by
  simp [State.stillHeld]
@[simp] theorem State.powerBack_pending (before s : State) : (before.powerBack s).pending = s.pending := by
  simp [State.powerBack]
@[simp] theorem State.quiesceOver_pending (s : State) : s.quiesceOver.pending = s.pending := by simp [State.quiesceOver]
@[simp] theorem State.ptResumed_pending (s : State) : s.ptResumed.pending = s.pending := by simp [State.ptResumed]
@[simp] theorem State.snapWritten_pending (s : State) (p : Nat) : (s.snapWritten p).pending = s.pending := by
  unfold State.snapWritten; split <;> simp
@[simp] theorem State.noDriveFor_pending (s : State) (p : Nat) : (s.noDriveFor p).pending = s.pending := by
  unfold State.noDriveFor; split <;> simp
@[simp] theorem State.noDrive_pending (s : State) : s.noDrive.pending = s.pending := by
  unfold State.noDrive; simp only []
  repeat' split
  all_goals simp

/-! ## Body -/

@[simp] theorem State.goOn_pending (s : State) (p : Nat) : (s.goOn p).pending = s.pending := by rfl
@[simp] theorem State.bodyStep_pending (s : State) (p op : Nat) (k : State → BodyIns → State)
    (hk : ∀ u i, State.SameQueue u (k u i)) :
    (s.bodyStep p op k).pending = s.pending := by
  have hk := fun u i => (State.sameQueue_iff _ _).1 (hk u i)
  unfold State.bodyStep; simp only []; split
  · simp
  · rw [hk]; simp
@[simp] theorem State.bodyLoop_pending (s : State) (p : Nat) (i : BodyIns) : (s.bodyLoop p i).pending = s.pending := by
  rfl
@[simp] theorem State.bodyEndloop_pending (s : State) (p : Nat) : (s.bodyEndloop p).pending = s.pending := by rfl
@[simp] theorem State.bodyFetch_pending (s : State) (p : Nat) (i : BodyIns) :
    (s.bodyFetch p i).pending = s.pending := by unfold State.bodyFetch; split <;> simp
@[simp] theorem State.readImages_pending (s : State) (p : Nat) (g : StepProgram) (first n : Nat) :
    (s.readImages p g first n).2.pending = s.pending := by
  unfold State.readImages
  repeat' split
  all_goals simp
@[simp] theorem State.applyBlocks_pending (s : State) (p : Nat) (bs : List WeightBlock) :
    (s.applyBlocks p bs).2.pending = s.pending := by
  induction bs generalizing s with
  | nil => rfl
  | cons b bs ih => simp [State.applyBlocks, ih]
@[simp] theorem State.postOne_pending (s : State) (p n cls : Nat) (wb : Bool) (step : DWord) (x : PostImage) :
    (s.postOne p n cls wb step x).pending = s.pending := by simp [State.postOne]
@[simp] theorem State.postImage_pending (s : State) (p n cls : Nat) (wb : Bool) (x : PostImage) :
    (s.postImage p n cls wb x).pending = s.pending := by
  unfold State.postImage
  repeat' split
  all_goals simp
@[simp] theorem State.bindOnce_pending (s : State) (p mb : Nat) : (s.bindOnce p mb).pending = s.pending := by
  simp [State.bindOnce]
@[simp] theorem State.lateAdd_pending (s : State) (p : Nat) (c : PartCfg) (o : DWord) (x : LateImage) :
    (s.lateAdd p c o x).2.pending = s.pending := by
  unfold State.lateAdd; simp only []; split <;> simp
@[simp] theorem State.lateAdds_pending (p : Nat) (c : PartCfg) (o : DWord) (xs : List LateImage) (s : State) :
    (State.lateAdds p c o xs s).2.pending = s.pending := by
  induction xs generalizing s with
  | nil => rfl
  | cons x xs ih => unfold State.lateAdds; simp only []; split <;> simp [ih]
@[simp] theorem State.takeLate_pending (s : State) (p : Nat) : (s.takeLate p).2.pending = s.pending := by
  unfold State.takeLate; split
  next o c _ _ =>
    split
    · rfl
    · split
      · rfl
      · split
        next t heq =>
          have ht := State.pending_of_eq (State.lateAdds_pending p c o _ s) heq
          simp [ht]
        next t heq =>
          have ht := State.pending_of_eq (State.lateAdds_pending p c o _ s) heq
          simp only []; split <;> simp [ht]
  · rfl
@[simp] theorem State.bodyPost_pending (s : State) (p : Nat) (i : BodyIns) : (s.bodyPost p i).pending = s.pending := by
  rw [State.bodyPost]; split
  · rfl
  next g _ =>
    extract_lets q mb peaks first cls
    split
    · rw [State.modSeq_pending]
    · cases peaks with
      | none => rfl
      | some pk =>
        dsimp -zeta only
        split
        next t ht =>
          rw [State.rewind_pending]
          exact State.pending_of_eq (s.readImages_pending ..) ht
        next images t ht =>
          have ht := State.pending_of_eq (s.readImages_pending ..) ht
          extract_lets images part blocks w
          have hw : w.pending = s.pending := by simp [w, ht]
          split
          · cases part with
            | none => simp [ht]
            | some x =>
              dsimp only
              split <;> simp [ht]
          · refine State.ite_pending_eq (by simp [ht]) ?_
            split <;> simp [hw]
@[simp] theorem State.bodyWait_pending (s : State) (p : Nat) (i : BodyIns) : (s.bodyWait p i).pending = s.pending := by
  unfold State.bodyWait; split <;> simp
@[simp] theorem State.bodyReduce_pending (s : State) (p : Nat) (i : BodyIns) :
    (s.bodyReduce p i).pending = s.pending := by simp [State.bodyReduce]
@[simp] theorem State.lossRecord_pending (s : State) (p c : Nat) : (s.lossRecord p c).2.pending = s.pending := by
  unfold State.lossRecord; split <;> simp
@[simp] theorem State.bodyLoss_pending (s : State) (p : Nat) (i : BodyIns) (total : BitVec 128) :
    (s.bodyLoss p i total).pending = s.pending := by
  unfold State.bodyLoss; simp only []
  repeat' split
  all_goals simp
@[simp] theorem State.bodyVerdict_pending (s : State) (p : Nat) : (s.bodyVerdict p).pending = s.pending := by
  simp [State.bodyVerdict]
@[simp] theorem State.lateIn_pending (s : State) (p : Nat) (skip : Bool) : (s.lateIn p skip).pending = s.pending := by
  unfold State.lateIn; split <;> simp
@[simp] theorem State.verdictResult_pending (s : State) (p : Nat) (nonfinite spike : Bool) :
    (s.verdictResult p nonfinite spike).pending = s.pending := by simp [State.verdictResult]
@[simp] theorem State.resumePart_pending (s : State) (p : Nat) (xs : List (Nat × Nat)) :
    (s.resumePart p xs).2.pending = s.pending := by
  induction xs generalizing s with
  | nil => rfl
  | cons x xs ih => unfold State.resumePart; simp only []; split <;> simp [ih]
@[simp] theorem State.bodyEnd_pending (s : State) (p : Nat) : (s.bodyEnd p).pending = s.pending := by
  unfold State.bodyEnd; split
  · simp
  · split
    next t heq => exact State.pending_of_eq (s.resumePart_pending p _) heq
    next x t heq =>
      have ht := State.pending_of_eq (s.resumePart_pending p _) heq
      simp [ht]
@[simp] theorem State.takePeak_pending (s : State) (p : Nat) (w : DWord) : (s.takePeak p w).pending = s.pending := by
  unfold State.takePeak; simp only []
  repeat' split
  all_goals simp

/-! ## Links -/

@[simp] theorem State.linkError_pending (s : State) (k b : Nat) : (s.linkError k b).pending = s.pending := by rfl
@[simp] theorem State.feedCheck_pending (s : State) (p : Nat) : (s.feedCheck p).pending = s.pending := by
  simp [State.feedCheck]
@[simp] theorem State.feedCheckAll_pending (s : State) : s.feedCheckAll.pending = s.pending := by
  simp [State.feedCheckAll]
@[simp] theorem State.discoveryStep_pending (s : State) : s.discoveryStep.pending = s.pending := by
  simp [State.discoveryStep]
@[simp] theorem State.giveUpRetrain_pending (s : State) (r : PortRec) : (s.giveUpRetrain r).pending = s.pending := by
  simp [State.giveUpRetrain]
@[simp] theorem State.portPart_pending (s : State) (r : PortRec) : (s.portPart r).pending = s.pending := by
  simp [State.portPart]
@[simp] theorem State.portBelow_pending (s : State) (k : Nat) : (s.portBelow k).pending = s.pending := by
  unfold State.portBelow; split <;> simp
@[simp] theorem State.portDeadline_pending (s : State) (port : Nat) : (s.portDeadline port).pending = s.pending := by
  unfold State.portDeadline; split <;> simp
@[simp] theorem State.decide_pending (s : State) (proceed byDefault : Bool) :
    (s.decide_ proceed byDefault).pending = s.pending := by simp [State.decide_]
@[simp] theorem State.setLinkState_pending (s : State) (k : Nat) (x : LinkState) :
    (s.setLinkState k x).pending = s.pending := by rfl
@[simp] theorem State.laneService_pending (s : State) : s.laneService.pending = s.pending := by simp [State.laneService]
@[simp] theorem State.countRetrain_pending (s : State) (k : Nat) : (s.countRetrain k).pending = s.pending := by rfl
@[simp] theorem State.linkFaults_pending (s : State) (k cause : Nat) : (s.linkFaults k cause).pending = s.pending := by
  simp [State.linkFaults]
@[simp] theorem State.retrainLink_pending (s : State) (k : Nat) : (s.retrainLink k).pending = s.pending := by rfl
@[simp] theorem State.laneFails_pending (s : State) (k : Nat) (tx : Bool) (lane : BitVec 3) :
    (s.laneFails k tx lane).pending = s.pending := by simp [State.laneFails]
@[simp] theorem State.linkProbe_pending (s : State) (k : Nat) (present : Bool) :
    (s.linkProbe k present).pending = s.pending := by simp [State.linkProbe]
@[simp] theorem State.linkEqualised_pending (s : State) (k : Nat) : (s.linkEqualised k).pending = s.pending := by
  simp [State.linkEqualised]
@[simp] theorem State.linkTimeout_pending (s : State) (k : Nat) (bad : List (Bool × BitVec 3)) :
    (s.linkTimeout k bad).pending = s.pending := by simp [State.linkTimeout]
@[simp] theorem State.linkLocked_pending (s : State) (k : Nat) (laneMap : BitVec 24) :
    (s.linkLocked k laneMap).pending = s.pending := by simp [State.linkLocked]
@[simp] theorem State.sendIdent_pending (s : State) (k : Nat) : (s.sendIdent k).pending = s.pending := by rfl
@[simp] theorem State.linkRtt_pending (s : State) (k : Nat) (rtt : Word) : (s.linkRtt k rtt).pending = s.pending := by
  simp [State.linkRtt]
@[simp] theorem State.linkIdent_pending (s : State) (k : Nat) (b : Bytes) : (s.linkIdent k b).pending = s.pending := by
  simp [State.linkIdent]
@[simp] theorem State.linkActive_pending (s : State) (k : Nat) (r : PortRec) :
    (s.linkActive k r).pending = s.pending := by simp [State.linkActive]
@[simp] theorem State.checkFeed_pending (s : State) (k : Nat) : (s.checkFeed k).pending = s.pending := by
  simp [State.checkFeed]
@[simp] theorem State.linkCheck_pending (s : State) (k : Nat) : (s.linkCheck k).pending = s.pending := by
  unfold State.linkCheck; simp only []
  repeat' split
  all_goals simp
@[simp] theorem State.linkEnable_pending (s : State) (k : Nat) : (s.linkEnable k).pending = s.pending := by
  unfold State.linkEnable; split <;> simp
@[simp] theorem State.linkDisable_pending (s : State) (k : Nat) : (s.linkDisable k).pending = s.pending := by
  simp [State.linkDisable]
@[simp] theorem State.linkRetrain_pending (s : State) (k : Nat) : (s.linkRetrain k).pending = s.pending := by
  simp [State.linkRetrain]
@[simp] theorem State.linkCommand_pending (s : State) (k cmd : Nat) : (s.linkCommand k cmd).pending = s.pending := by
  unfold State.linkCommand; split <;> simp
@[simp] theorem State.flitLane_pending (s : State) (k : Nat) : (s.flitLane k).2.pending = s.pending := by rfl
@[simp] theorem State.linkTransient_pending (s : State) (k : Nat) (seq : DWord) :
    (s.linkTransient k seq).pending = s.pending := by simp [State.linkTransient]
@[simp] theorem State.flit_pending (s : State) (k : Nat) (f : FlitRx) : (s.flit k f).pending = s.pending := by
  simp [State.flit]
@[simp] theorem State.fecWindow_pending (s : State) (k : Nat) (lane : BitVec 3) (corrected : Word) (high : Bool) :
    (s.fecWindow k lane corrected high).pending = s.pending := by simp [State.fecWindow]
@[simp] theorem State.linkControl_pending (s : State) (c : Instr) (k cmd : Nat) :
    (s.linkControl c k cmd).pending = s.pending := by simp [State.linkControl]

/-! ## Fabric -/

@[simp] theorem State.tagFallback_pending (s : State) (pkt : Packet) : (s.tagFallback pkt).pending = s.pending := by
  unfold State.tagFallback; split <;> simp
@[simp] theorem State.hopTime_pending (s : State) (r : PortRec) (ns : Nat) : (s.hopTime r ns).pending = s.pending := by
  simp [State.hopTime]
@[simp] theorem State.sendPacket_pending (s : State) (pkt : Packet) (h : Hop) (ingress : Option Nat) (ns : Nat) :
    (s.send_ pkt h ingress ns).pending = s.pending := by simp [State.send_]
@[simp] theorem State.noRoute_pending (s : State) (pkt : Packet) (parts : List Nat) :
    (s.noRoute pkt parts).pending = s.pending := by simp [State.noRoute]
@[simp] theorem State.deliver_pending (s : State) (pkt : Packet) : (s.deliver pkt).pending = s.pending := by
  simp [State.deliver]
@[simp] theorem State.forward_pending (s : State) (pkt : Packet) (ingress : Option Nat) (ns : Nat) (parts : List Nat) :
    (s.forward pkt ingress ns parts).pending = s.pending := by
  unfold State.forward
  repeat' split
  all_goals simp
@[simp] theorem State.inject_pending (s : State) (p : Nat) (pkt : Packet) : (s.inject p pkt).pending = s.pending := by
  unfold State.inject; split <;> simp
@[simp] theorem State.setRed_pending (s : State) (r : Reduction) : (s.setRed r).pending = s.pending := by rfl
@[simp] theorem State.reduced_pending (s : State) (p : Nat) (g : Half) : (s.reduced p g).pending = s.pending := by rfl
@[simp] theorem State.peaksDone_pending (s : State) (key : RedKey) (first : Nat) (v : Bytes) :
    (s.peaksDone key first v).pending = s.pending := by
  refine State.pending_foldl _ (fun s x => ?_) _ _
  simp only []; repeat' split
  all_goals simp
@[simp] theorem State.class0Done_pending (s : State) (key : RedKey) (v : Bytes) :
    (s.class0Done key v).pending = s.pending := by
  unfold State.class0Done; simp only []; split <;> simp
@[simp] theorem State.tideIn_pending (s : State) (key : RedKey) (g : Group) (m : Half) (v : Bytes) :
    (s.tideIn key g m v).pending = s.pending := by simp [State.tideIn]
@[simp] theorem State.class0Ends_pending (s : State) (key : RedKey) (g : Group) (r : Reduction) :
    (s.class0Ends key g r).pending = s.pending := by simp [State.class0Ends]
@[simp] theorem State.class0_pending (s : State) (key : RedKey) (m : Half) (v : Bytes) :
    (s.class0 key m v).pending = s.pending := by unfold State.class0; split <;> simp
@[simp] theorem State.scaleIn_pending (s : State) (key : RedKey) (m : Half) (i : BitVec 3) (b : Bytes) :
    (s.scaleIn key m i b).pending = s.pending := by unfold State.scaleIn; split <;> simp
@[simp] theorem State.forwardRed_pending (s : State) (key : RedKey) (g : Group) :
    (s.forwardRed key g).pending = s.pending := by unfold State.forwardRed; split <;> simp
@[simp] theorem State.scaleClose_pending (s : State) (key : RedKey) : (s.scaleClose key).pending = s.pending := by
  unfold State.scaleClose; split <;> simp
@[simp] theorem State.termIn_pending (s : State) (key : RedKey) (t : RedTerm) :
    (s.termIn key t).pending = s.pending := by
  unfold State.termIn
  repeat' split
  all_goals simp
@[simp] theorem State.round_pending (s : State) (key : RedKey) : (s.round key).pending = s.pending := by
  unfold State.round; simp only []
  repeat' split
  all_goals simp
@[simp] theorem State.selfExcused_pending (s : State) (p : Nat) (key : RedKey) (action : Byte) :
    (s.selfExcused p key action).pending = s.pending := by simp [State.selfExcused]
@[simp] theorem State.excusal_pending (s : State) (key : RedKey) (m : Half) (action : Byte) (engine : Half) :
    (s.excusal key m action engine).pending = s.pending := by unfold State.excusal; split <;> simp

/-! ## Net -/

@[simp] theorem State.macsecDrop_pending (s : State) : s.macsecDrop.pending = s.pending := by simp [State.macsecDrop]
@[simp] theorem State.macsecIn_pending (s : State) (f : Bytes) (x : MacsecRx) :
    (s.macsecIn f x).2.pending = s.pending := by unfold State.macsecIn; split <;> simp
@[simp] theorem State.sendPfc_pending (s : State) (prio : Nat) (xoff : Bool) :
    (s.sendPfc prio xoff).pending = s.pending := by rfl
@[simp] theorem State.buffered_pending (s : State) (prio bytes : Nat) :
    (s.buffered prio bytes).pending = s.pending := by simp [State.buffered]
@[simp] theorem State.setPaused_pending (s : State) (prio : Nat) (v : Bool) :
    (s.setPaused prio v).pending = s.pending := by rfl
@[simp] theorem State.pfcIn_pending (s : State) (b : Bytes) : (s.pfcIn b).pending = s.pending := by simp [State.pfcIn]
@[simp] theorem State.pfcStuck_pending (s : State) (prio : Nat) : (s.pfcStuck prio).pending = s.pending := by
  simp [State.pfcStuck]
@[simp] theorem State.applyEts_pending (s : State) : s.applyEts.pending = s.pending := by simp [State.applyEts]
@[simp] theorem State.setPrioCfg_pending (s : State) (value : Word) : (s.setPrioCfg value).pending = s.pending := by
  simp [State.setPrioCfg]
@[simp] theorem State.setEts_pending (s : State) (hi : Bool) (value : Word) :
    (s.setEts hi value).pending = s.pending := by simp [State.setEts]
@[simp] theorem State.closeSession_pending (s : State) (n : Nat) : (s.closeSession n).pending = s.pending := by
  unfold State.closeSession; simp only []; split <;> simp
@[simp] theorem State.closeSessions_pending (s : State) (f : Session → Bool) :
    (s.closeSessions f).pending = s.pending := by simp [State.closeSessions]
@[simp] theorem State.sessionExpires_pending (s : State) (n : Nat) : (s.sessionExpires n).pending = s.pending := by
  simp [State.sessionExpires]
@[simp] theorem State.ethUpTo_pending (s : State) (phy : Byte) : (s.ethUpTo phy).pending = s.pending := by
  simp [State.ethUpTo]
@[simp] theorem State.ethDown_pending (s : State) (cause : Byte) : (s.ethDown cause).pending = s.pending := by
  simp [State.ethDown]
@[simp] theorem State.passDrop_pending (s : State) : s.passDrop.pending = s.pending := by rfl
@[simp] theorem State.passThrough_pending (s : State) (f : Bytes) : (s.passThrough f).pending = s.pending := by
  simp [State.passThrough]
@[simp] theorem State.fcsError_pending (s : State) : s.fcsError.pending = s.pending := by rfl
@[simp] theorem State.frameIn_pending (s : State) (f : Bytes) (x : MacsecRx)
    (cct mrp : State → NetAddr → Bytes → State) (hc : ∀ u a d, State.SameQueue u (cct u a d))
    (hm : ∀ u a d, State.SameQueue u (mrp u a d)) :
    (s.frameIn f x cct mrp).pending = s.pending := by
  have hc := fun u a d => (State.sameQueue_iff _ _).1 (hc u a d)
  have hm := fun u a d => (State.sameQueue_iff _ _).1 (hm u a d)
  unfold State.frameIn; simp only []
  repeat' split
  all_goals simp [hc, hm]

/-! ## Spares -/

@[simp] theorem State.remap_pending (s : State) (p lost spare : Nat) : (s.remap p lost spare).pending = s.pending := by
  rfl
@[simp] theorem State.fillRecord_pending (s : State) (p : Nat) (x : FillState) :
    (s.fillRecord p x).pending = s.pending := by simp [State.fillRecord]
@[simp] theorem State.fillTo_pending (s : State) (p : Nat) (x : FillState) : (s.fillTo p x).pending = s.pending := by
  simp [State.fillTo]
@[simp] theorem State.escalate_pending (s : State) (p : Nat) : (s.escalate p).pending = s.pending := by
  simp [State.escalate]
@[simp] theorem State.claimSpare_pending (s : State) (p : Nat) : (s.claimSpare p).pending = s.pending := by
  unfold State.claimSpare; split <;> simp
@[simp] theorem State.nextSpare_pending (s : State) (p : Nat) : (s.nextSpare p).pending = s.pending := by
  simp [State.nextSpare]

/-! ## Jobs -/

@[simp] theorem State.hostEntry_pending (s : State) (p sess : Nat) (rec : Bytes) :
    (s.hostEntry p sess rec).pending = s.pending := by
  rw [State.hostEntry, State.countLading_pending, State.writeEntry_pending]
@[simp] theorem State.pairUp_pending (s : State) (p : Nat) : (s.pairUp p).2.pending = s.pending := by
  unfold State.pairUp; split <;> simp
@[simp] theorem State.freshJob_pending (s : State) (p : Nat) (first : DWord) :
    (s.freshJob p first).pending = s.pending := by simp [State.freshJob]
@[simp] theorem State.jobStart_pending (s : State) (p sess : Nat) (rec : Bytes) :
    (s.jobStart p sess rec).2.pending = s.pending := by
  rw [State.jobStart]; split
  · rfl
  · split
    · rfl
    · split
      next keeps t ht =>
        have ht := State.pending_of_eq (s.tellKeeper_pending p) ht
        split
        · exact ht
        · split
          next pairs u hu =>
            have hu := State.pending_of_eq (t.pairUp_pending p) hu
            split
            · exact hu.trans ht
            · dsimp only
              rw [State.tryBegin_pending, State.tideStart_pending, State.feedCheck_pending, State.raiseJr_pending,
                State.modPart_pending, State.modLog_pending, State.modRun_pending, State.withJr_pending,
                State.hostEntry_pending, State.writeLabel_pending, State.modPart_pending, State.pending_ite,
                State.freshJob_pending, ite_self, hu, ht]
@[simp] theorem State.jobStop_pending (s : State) (p sess : Nat) (rec : Bytes) :
    (s.jobStop p sess rec).2.pending = s.pending := by simp [State.jobStop]
@[simp] theorem State.leaveHalted_pending (s : State) (p : Nat) : (s.leaveHalted p).pending = s.pending := by rfl
@[simp] theorem State.restarted_pending (s : State) (p action : Nat) : (s.restarted p action).pending = s.pending := by
  simp [State.restarted]
@[simp] theorem State.jobRetry_pending (s : State) (p sess : Nat) (rec : Bytes) :
    (s.jobRetry p sess rec).2.pending = s.pending := by simp [State.jobRetry]
@[simp] theorem State.dropStepData_pending (s : State) (p : Nat) (step : DWord) :
    (s.dropStepData p step).pending = s.pending := by simp [State.dropStepData]
@[simp] theorem State.jobSkip_pending (s : State) (p sess : Nat) (rec : Bytes) :
    (s.jobSkip p sess rec).2.pending = s.pending := by
  obtain ⟨u, hu, hp⟩ : ∃ u, s.hostEntry p sess rec = u ∧ u.pending = s.pending := ⟨_, rfl, s.hostEntry_pending ..⟩
  rw [State.jobSkip, hu]
  simp [hp]
@[simp] theorem State.jobResume_pending (s : State) (p sess : Nat) (rec : Bytes) :
    (s.jobResume p sess rec).2.pending = s.pending := by
  obtain ⟨r, hr⟩ : ∃ r, (if (s.part p).cause = 6 then s.resubmit p else s) = r := ⟨_, rfl⟩
  have hrs : r.pending = s.pending := by rw [← hr]; simp
  obtain ⟨u, hu, hp⟩ : ∃ u, r.hostEntry p sess rec = u ∧ u.pending = s.pending :=
    ⟨_, rfl, (r.hostEntry_pending ..).trans hrs⟩
  rw [State.jobResume]
  simp only [hr, hu]
  simp [hp]
@[simp] theorem State.readLabel_pending (s : State) : s.readLabel.pending = s.pending := by simp [State.readLabel]
@[simp] theorem State.readSnapshot_pending (s : State) (p : Nat) (step : DWord) :
    (s.readSnapshot p step).pending = s.pending := by unfold State.readSnapshot; split <;> simp
@[simp] theorem State.restoreClaim_pending (s : State) (p : Nat) (lost : Half) :
    (s.restoreClaim p lost).pending = s.pending := by simp [State.restoreClaim]
@[simp] theorem State.jobRestore_pending (s : State) (p sess : Nat) (rec : Bytes) :
    (s.jobRestore p sess rec).2.pending = s.pending := by
  rw [State.jobRestore]
  split
  · rfl
  · split
    · rfl
    · split
      next keeps t ht =>
        have ht := State.pending_of_eq (s.tellKeeper_pending p) ht
        split
        · exact ht
        · extract_lets chained entered j ready flushed restoring seqReset logged loaded fed
          have hChained : chained.pending = s.pending := by
            dsimp only [chained]; split
            · simp [ht]
            · exact ht
          clear_value chained
          have hEntered : entered.pending = s.pending := (State.writeEntry_pending ..).trans hChained
          clear_value entered
          have hReady : ready.pending = s.pending := (State.withJr_pending ..).trans hEntered
          clear_value ready
          have hFlushed : flushed.pending = s.pending :=
            (State.freshSeq_pending ..).trans ((State.flushPartition_pending ..).trans hReady)
          clear_value flushed
          have hLogged : logged.pending = s.pending :=
            (State.modLog_pending ..).trans ((State.modSeq_pending ..).trans ((State.modPart_pending ..).trans hFlushed))
          clear_value logged
          have hLoaded : loaded.pending = s.pending := by
            dsimp only [loaded]; split
            · exact (State.readSnapshot_pending ..).trans hLogged
            · exact hLogged
          clear_value loaded
          have hFed : fed.pending = s.pending :=
            (State.tideStart_pending ..).trans
              ((State.feedCheck_pending ..).trans ((State.unlearn_pending ..).trans hLoaded))
          clear_value fed
          dsimp only; split
          · exact (State.restoreClaim_pending ..).trans hFed
          · exact hFed
@[simp] theorem State.haltNotice_pending (s : State) (p : Nat) (step : DWord) (mode cause : Byte) :
    (s.haltNotice p step mode cause).pending = s.pending := by simp [State.haltNotice]
@[simp] theorem State.readyPacket_pending (s : State) (p : Nat) (g : Half) (step : DWord) (m : Half) :
    (s.readyPacket p g step m).pending = s.pending := by simp [State.readyPacket]
@[simp] theorem State.straggler_pending (s : State) (p : Nat) (g m : Half) :
    (s.straggler p g m).pending = s.pending := by simp [State.straggler]
@[simp] theorem State.guestSize_pending (s : State) (guest : Half) (size : DWord) :
    (s.guestSize guest size).pending = s.pending := by
  unfold State.guestSize; simp only []
  repeat' split
  all_goals simp
@[simp] theorem State.keeperTakes_pending (s : State) (item : KeeperItem) :
    (s.keeperTakes item).pending = s.pending := by
  unfold State.keeperTakes
  repeat' split
  all_goals simp

/-! ## Restore -/

@[simp] theorem State.regenPost_pending (s : State) (p : Nat) (step : DWord) (i : BodyIns) :
    (s.regenPost p step i).pending = s.pending := by
  unfold State.regenPost; split
  · rfl
  next g _ =>
    simp only []; split
    next t heq => exact State.pending_of_eq (s.readImages_pending p g _ _) heq
    next images t heq =>
      have ht := State.pending_of_eq (s.readImages_pending p g _ _) heq
      simp [ht]
@[simp] theorem State.regenAll_pending (s : State) (p : Nat) (step : DWord) :
    (s.regenAll p step).pending = s.pending := by unfold State.regenAll; split <;> simp
@[simp] theorem State.freshImages_pending (s : State) (p : Nat) : (s.freshImages p).pending = s.pending := by
  unfold State.freshImages; split <;> simp
@[simp] theorem State.takeStore_pending (s : State) (p : Nat) (g : GuestImage) :
    (s.takeStore p g).pending = s.pending := by simp [State.takeStore]
@[simp] theorem State.takeGuest_pending (s : State) (p : Nat) (g : GuestImage) :
    (s.takeGuest p g).pending = s.pending := by simp [State.takeGuest]
@[simp] theorem State.reinstate_pending (s : State) (p : Nat) (i : SnapImage) :
    (s.reinstate p i).pending = s.pending := by simp [State.reinstate]
@[simp] theorem State.restoreBytes_pending (s : State) (p : Nat) (i : SnapImage) :
    (s.restoreBytes p i).pending = s.pending := by
  unfold State.restoreBytes; simp only []; split <;> simp
@[simp] theorem State.restoreUnits_pending (s : State) (p : Nat) (i : SnapImage) :
    (s.restoreUnits p i).pending = s.pending := by simp [State.restoreUnits]
@[simp] theorem State.latestSlot_pending (s : State) (p : Nat) : (s.latestSlot p).pending = s.pending := by
  unfold State.latestSlot; split <;> simp
@[simp] theorem State.loadImage_pending (s : State) (p : Nat) (step : DWord) (keeper : Bool)
    (guest : Option GuestImage) :
    (s.loadImage p step keeper guest).pending = s.pending := by
  unfold State.loadImage; split
  · simp
  · simp
  · rfl
@[simp] theorem State.beginReplay_pending (s : State) (p : Nat) (step last : DWord) (keeper : Bool)
    (guest : Option GuestImage) :
    (s.beginReplay p step last keeper guest).pending = s.pending := by
  rw [State.beginReplay]; split
  · rw [State.tryBegin_pending, State.modPart_pending, State.modRun_pending, State.raiseJr_pending,
      State.modLog_pending, State.regenAll_pending, State.writeEntry_pending, State.modLog_pending,
      State.recovery_pending, State.modSeq_pending, State.modPart_pending]
  · rw [State.tryBegin_pending, State.replayDone_pending, State.modPart_pending, State.modRun_pending,
      State.raiseJr_pending, State.modLog_pending, State.regenAll_pending, State.writeEntry_pending,
      State.modLog_pending, State.recovery_pending, State.modSeq_pending, State.modPart_pending]
@[simp] theorem State.restoreLoaded_pending (s : State) (p : Nat) (last : DWord) (digestsOk : Bool)
    (guest : Option GuestImage) :
    (s.restoreLoaded p last digestsOk guest).pending = s.pending := by
  unfold State.restoreLoaded
  repeat' split
  all_goals simp

/-! ## Fill -/

@[simp] theorem State.startFill_pending (s : State) (p : Nat) (lost : Half) :
    (s.startFill p lost).pending = s.pending := by simp [State.startFill]
@[simp] theorem State.losePartner_pending (s : State) (p : Nat) : (s.losePartner p).pending = s.pending := by
  unfold State.losePartner; simp only []; split <;> simp
@[simp] theorem State.dropLate_pending (s : State) (p : Nat) (lost : Half) :
    (s.dropLate p lost).pending = s.pending := by simp [State.dropLate]
@[simp] theorem State.waitForFill_pending (s : State) (p : Nat) (step : DWord) (mode : Byte) :
    (s.waitForFill p step mode).pending = s.pending := by simp [State.waitForFill]
@[simp] theorem State.someSpare_pending (s : State) (p : Nat) : (s.someSpare p).2.pending = s.pending := by
  unfold State.someSpare; split <;> simp
@[simp] theorem State.follow_pending (s : State) (p : Nat) (lost : Half) (queued : List Half) :
    (s.follow p lost queued).pending = s.pending := by simp [State.follow]
@[simp] theorem State.deviceLost_pending (s : State) (p : Nat) (lost : Half) (step : DWord) (mode : Byte) :
    (s.deviceLost p lost step mode).pending = s.pending := by
  unfold State.deviceLost; simp only []
  repeat' split
  all_goals simp
@[simp] theorem State.declares_pending (s : State) (p : Nat) (lost : Half) :
    (s.declares p lost).pending = s.pending := by simp [State.declares]
@[simp] theorem State.heartbeat_pending (s : State) (p : Nat) : (s.heartbeat p).pending = s.pending := by
  simp [State.heartbeat]
@[simp] theorem State.partnerSilent_pending (s : State) (p : Nat) : (s.partnerSilent p).pending = s.pending := by
  unfold State.partnerSilent; split <;> simp
@[simp] theorem State.memberSilent_pending (s : State) (p : Nat) (m : Half) :
    (s.memberSilent p m).pending = s.pending := by simp [State.memberSilent]
@[simp] theorem State.lossNotice_pending (s : State) (p : Nat) (lost : Half) (step : DWord) (mode : Byte) :
    (s.lossNotice p lost step mode).pending = s.pending := by simp [State.lossNotice]
@[simp] theorem State.jobDeclare_pending (s : State) (p sess : Nat) (rec : Bytes) :
    (s.jobDeclare p sess rec).2.pending = s.pending := by simp [State.jobDeclare]
@[simp] theorem State.claimed_pending (s : State) (c : Claim) : (s.claimed c).pending = s.pending := by
  simp [State.claimed]
@[simp] theorem State.claimAnswered_pending (s : State) (p : Nat) (accepted : Bool) :
    (s.claimAnswered p accepted).pending = s.pending := by simp [State.claimAnswered]
@[simp] theorem State.claimUnanswered_pending (s : State) (p : Nat) : (s.claimUnanswered p).pending = s.pending := by
  simp [State.claimUnanswered]
@[simp] theorem State.remapped_pending (s : State) (p : Nat) : (s.remapped p).pending = s.pending := by
  simp [State.remapped]
@[simp] theorem State.spareFails_pending (s : State) (p : Nat) : (s.spareFails p).pending = s.pending := by
  simp [State.spareFails]
@[simp] theorem State.spareTakes_pending (s : State) (p : Nat) (g : GuestImage) :
    (s.spareTakes p g).pending = s.pending := by unfold State.spareTakes; split <;> simp
@[simp] theorem State.followsCopy_pending (s : State) (p : Nat) (equal : Bool) :
    (s.followsCopy p equal).pending = s.pending := by simp [State.followsCopy]
@[simp] theorem State.copied_pending (s : State) (p : Nat) (equal : Bool) (guest : Option GuestImage) :
    (s.copied p equal guest).pending = s.pending := by
  rw [State.copied]; split
  · simp
  · split
    · rfl
    · extract_lets n t u
      have ht : t.pending = s.pending := by
        rw [State.fillTo_pending, State.modFill_pending]
      clear_value t
      split
      · split <;> simp [ht]
      · split
        · have hu : u.pending = s.pending := by
            rw [State.fillTo_pending, State.modFill_pending, ht]
          clear_value u
          split <;> simp [hu]
        · split <;> simp [ht]
@[simp] theorem State.afterFill_pending (s : State) (p : Nat) : (s.afterFill p).pending = s.pending := by
  simp [State.afterFill]
@[simp] theorem State.fillOver_pending (s : State) (p : Nat) : (s.fillOver p).pending = s.pending := by
  unfold State.fillOver; split <;> simp
@[simp] theorem State.newPartner_pending (s : State) (p : Nat) (r : Option PoolRec) :
    (s.newPartner p r).pending = s.pending := by rfl
@[simp] theorem State.regenerated_pending (s : State) (p : Nat) : (s.regenerated p).pending = s.pending := by
  simp [State.regenerated]
@[simp] theorem State.queueExpires_pending (s : State) (p : Nat) : (s.queueExpires p).pending = s.pending := by
  simp [State.queueExpires]
@[simp] theorem State.jobAct_pending (s : State) (p action sess : Nat) (rec : Bytes) :
    (s.jobAct p action sess rec).2.pending = s.pending := by
  unfold State.jobAct
  repeat' split
  all_goals simp
@[simp] theorem State.job_pending (s : State) (sess : Nat) (rec : Bytes) : (s.job sess rec).2.pending = s.pending := by
  simp [State.job]

/-! ## Security -/

@[simp] theorem State.toLifecycle_pending (s : State) (x : Lifecycle) : (s.toLifecycle x).pending = s.pending := by
  simp [State.toLifecycle]
@[simp] theorem State.putMail_pending (s : State) (b : Bytes) : (s.putMail b).pending = s.pending := by
  simp [State.putMail]
@[simp] theorem State.installKey_pending (s : State) (args : Bytes) : (s.installKey args).pending = s.pending := by
  unfold State.installKey; split <;> simp
@[simp] theorem State.slotRevoked_pending (s : State) (kind slot : Nat) :
    (s.slotRevoked kind slot).pending = s.pending := by simp [State.slotRevoked]
@[simp] theorem State.ownerDo_pending (s : State) (cmd : Nat) (args : Bytes) :
    (s.ownerDo cmd args).pending = s.pending := by unfold State.ownerDo; split <;> simp
@[simp] theorem State.ownerExecute_pending (s : State) (i3c : Bool) : (s.ownerExecute i3c).pending = s.pending := by
  simp [State.ownerExecute]
@[simp] theorem State.clearMail_pending (s : State) : s.clearMail.pending = s.pending := by simp [State.clearMail]
@[simp] theorem State.secCommand_pending (s : State) (i3c : Bool) (cmd : Nat) :
    (s.secCommand i3c cmd).pending = s.pending := by unfold State.secCommand; split <;> simp
@[simp] theorem State.ownerCommand_pending (s : State) (c : Instr) (i3c : Bool) (cmd : Nat) (device counter : DWord)
    (args sig : Bytes) :
    (s.ownerCommand c i3c cmd device counter args sig).pending = s.pending := by simp [State.ownerCommand]

/-! ## Bringup -/

@[simp] theorem State.deviceReset_pending (s : State) : s.deviceReset.pending = s.pending := by rfl
@[simp] theorem State.addCause_pending (s : State) (w : Word) : (s.addCause w).pending = s.pending := by rfl
@[simp] theorem State.bootStart_pending (s : State) : s.bootStart.pending = s.pending := by simp [State.bootStart]
@[simp] theorem State.alwaysOnRises_pending (s : State) : s.alwaysOnRises.pending = s.pending := by
  simp [State.alwaysOnRises]
@[simp] theorem State.stageCharges_pending (s : State) : s.stageCharges.pending = s.pending := by
  simp [State.stageCharges]
@[simp] theorem State.railsUp_pending (s : State) : s.railsUp.pending = s.pending := by simp [State.railsUp]
@[simp] theorem State.brownsOut_pending (s : State) : s.brownsOut.pending = s.pending := by simp [State.brownsOut]
@[simp] theorem State.stageOpens_pending (s : State) : s.stageOpens.pending = s.pending := by rfl
@[simp] theorem State.stageCloses_pending (s : State) : s.stageCloses.pending = s.pending := by simp [State.stageCloses]
@[simp] theorem State.alwaysOnFalls_pending (s : State) : s.alwaysOnFalls.pending = s.pending := by rfl
@[simp] theorem State.resetFalls_pending (s : State) : s.resetFalls.pending = s.pending := by rfl
@[simp] theorem State.resetRises_pending (s : State) : s.resetRises.pending = s.pending := by simp [State.resetRises]
@[simp] theorem State.snapLinkDown_pending (s : State) : s.snapLinkDown.pending = s.pending := by
  simp [State.snapLinkDown]
@[simp] theorem State.clockLost_pending (s : State) (clk : RefClk) : (s.clockLost clk).pending = s.pending := by
  unfold State.clockLost; split <;> simp
@[simp] theorem State.imageRefused_pending (s : State) (b : Bytes) (why : Nat) :
    (s.imageRefused b why).pending = s.pending := by simp [State.imageRefused]
@[simp] theorem State.bootFirmware_pending (s : State) (b : Bytes) (recovery flashOk : Bool) :
    (s.bootFirmware b recovery flashOk).pending = s.pending := by simp [State.bootFirmware]
@[simp] theorem State.recoveryStarts_pending (s : State) : s.recoveryStarts.pending = s.pending := by
  simp [State.recoveryStarts]
@[simp] theorem State.mgmtLocks_pending (s : State) : s.mgmtLocks.pending = s.pending := by simp [State.mgmtLocks]
@[simp] theorem State.storeAbsent_pending (s : State) (x : StoreItem) : (s.storeAbsent x).pending = s.pending := by
  unfold State.storeAbsent; split <;> simp
@[simp] theorem State.imageVerified_pending (s : State) (kat : Bool) (b : Bytes) (absent : List StoreItem) :
    (s.imageVerified kat b absent).pending = s.pending := by simp [State.imageVerified]
@[simp] theorem State.newAttempt_pending (s : State) : s.newAttempt.pending = s.pending := by simp [State.newAttempt]
@[simp] theorem State.tftpTimeout_pending (s : State) : s.tftpTimeout.pending = s.pending := by simp [State.tftpTimeout]
@[simp] theorem State.recovered_pending (s : State) (b : Bytes) (flashOk : Bool) :
    (s.recovered b flashOk).pending = s.pending := by simp [State.recovered]
@[simp] theorem State.setReady_pending (s : State) (b : Nat) : (s.setReady b).pending = s.pending := by
  simp [State.setReady]
@[simp] theorem State.readied_pending (s : State) (b : Nat) : (s.readied b).pending = s.pending := by
  unfold State.readied; split <;> simp
@[simp] theorem State.functionReady_pending (s : State) (b : Nat) : (s.functionReady b).pending = s.pending := by
  simp [State.functionReady]
@[simp] theorem State.darken_pending (s : State) (ld : Nat) : (s.darken ld).pending = s.pending := by
  simp [State.darken]
@[simp] theorem State.linkDieLost_pending (s : State) (ld : Nat) : (s.linkDieLost ld).pending = s.pending := by
  simp [State.linkDieLost]
@[simp] theorem State.bringupFails_pending (s : State) (b : Nat) (cause : Byte) :
    (s.bringupFails b cause).pending = s.pending := by simp [State.bringupFails]
@[simp] theorem State.dieLost_pending (s : State) (die : Nat) : (s.dieLost die).pending = s.pending := by
  simp [State.dieLost]
@[simp] theorem State.bondFails_pending (s : State) (stack bond : Nat) :
    (s.bondFails stack bond).pending = s.pending := by simp [State.bondFails]
@[simp] theorem State.belowWidth_pending (s : State) : s.belowWidth.pending = s.pending := by simp [State.belowWidth]
@[simp] theorem State.packageLane_pending (s : State) (link : Nat) (up : Bool) (lane : Nat) :
    (s.packageLane link up lane).pending = s.pending := by simp [State.packageLane]
@[simp] theorem State.escalateMgmt_pending (s : State) (cause : Nat) : (s.escalateMgmt cause).pending = s.pending := by
  simp [State.escalateMgmt]
@[simp] theorem State.mgmtRestart_pending (s : State) (cause : Nat) : (s.mgmtRestart cause).pending = s.pending := by
  unfold State.mgmtRestart; simp only []
  repeat' split
  all_goals simp
@[simp] theorem State.mgmtBack_pending (s : State) : s.mgmtBack.pending = s.pending := by simp [State.mgmtBack]
@[simp] theorem State.mgmtServiceClear_pending (s : State) : s.mgmtServiceClear.pending = s.pending := by
  simp [State.mgmtServiceClear]

/-! ## Mgmt -/

@[simp] theorem State.inputChanged_pending (s : State) (addr : Nat) (old new : Word) :
    (s.inputChanged addr old new).pending = s.pending := by simp [State.inputChanged]
@[simp] theorem State.setInput_pending (s : State) (i : BoardInput) (v : Word) :
    (s.setInput i v).pending = s.pending := by unfold State.setInput; split <;> simp
@[simp] theorem State.inputActs_pending (s : State) (i : BoardInput) : (s.inputActs i).pending = s.pending := by
  unfold State.inputActs; split <;> simp
@[simp] theorem State.boardWrite_pending (s : State) (i : BoardInput) (value : Word) :
    (s.boardWrite i value).pending = s.pending := by simp [State.boardWrite]
@[simp] theorem State.trayTempWrite_pending (s : State) (value : Word) :
    (s.trayTempWrite value).pending = s.pending := by simp [State.trayTempWrite]
@[simp] theorem State.trayFlowWrite_pending (s : State) (value : Word) :
    (s.trayFlowWrite value).pending = s.pending := by simp [State.trayFlowWrite]
@[simp] theorem State.headroomWrite_pending (s : State) (value : Word) :
    (s.headroomWrite value).pending = s.pending := by simp [State.headroomWrite]
@[simp] theorem State.leak_pending (s : State) (pin : Nat) : (s.leak pin).pending = s.pending := by simp [State.leak]
@[simp] theorem State.timerOut_pending (s : State) (t : Nat) : (s.timerOut t).pending = s.pending := by
  simp [State.timerOut]
@[simp] theorem State.telemetryOut_pending (s : State) (t : Nat) : (s.telemetryOut t).pending = s.pending := by
  simp [State.telemetryOut]
@[simp] theorem State.timerExpires_pending (s : State) (t : Nat) : (s.timerExpires t).pending = s.pending := by
  simp [State.timerExpires]
@[simp] theorem State.restoreUser_pending (s : State) : s.restoreUser.pending = s.pending := by simp [State.restoreUser]
@[simp] theorem State.clearCounts_pending (s : State) : s.clearCounts.pending = s.pending := by rfl
@[simp] theorem State.hmCommand_pending (s : State) (cmd : Nat) : (s.hmCommand cmd).pending = s.pending := by
  unfold State.hmCommand; split <;> simp
@[simp] theorem State.jtagScan_pending (s : State) (ins : JtagIns) : (s.jtagScan ins).pending = s.pending := by rfl

/-! ## RegRead -/

@[simp] theorem State.logData_pending (s : State) (i : Nat) : (s.logData i).2.pending = s.pending := by
  unfold State.logData; split <;> simp
@[simp] theorem State.timerLeft_pending (s : State) (t : Nat) : (s.timerLeft t).2.pending = s.pending := by
  simp [State.timerLeft]
@[simp] theorem State.peekTimer_pending (s : State) (o : Nat) : (s.peekTimer o).2.pending = s.pending := by
  unfold State.peekTimer; split <;> simp
@[simp] theorem State.peekHm_pending (s : State) (o : Nat) : (s.peekHm o).2.pending = s.pending := by
  unfold State.peekHm; split <;> simp
@[simp] theorem State.peekMf_pending (s : State) (o : Nat) : (s.peekMf o).2.pending = s.pending := by
  unfold State.peekMf; split <;> simp
@[simp] theorem State.redBusy_pending (s : State) : s.redBusy.2.pending = s.pending := by simp [State.redBusy]
@[simp] theorem State.peekFabric_pending (s : State) (o : Nat) : (s.peekFabric o).2.pending = s.pending := by
  unfold State.peekFabric; split <;> simp
@[simp] theorem State.pilotReg_pending (s : State) (c : Cluster) : (s.pilotReg c).2.pending = s.pending := by
  simp [State.pilotReg]
@[simp] theorem State.countCycles_pending (s : State) (d phys : Nat) : (s.countCycles d phys).pending = s.pending := by
  rfl
@[simp] theorem State.peekCluster_pending (s : State) (d phys o : Nat) :
    (s.peekCluster d phys o).2.pending = s.pending := by unfold State.peekCluster; split <;> simp
@[simp] theorem State.peek_pending (s : State) (x : Block) (n : Nat) : (s.peek x n).2.pending = s.pending := by
  unfold State.peek; split <;> simp

/-- Setting a register that a read clears leaves the waiting commands alone. -/
def RcReg.KeepsQueue (r : RcReg) : Prop := ∀ u v, State.SameQueue u (r.set u v)

theorem rcOfCluster_keepsQueue {d c o : Nat} {r : RcReg} (h : rcOfCluster d c o = some r) : r.KeepsQueue := by
  unfold rcOfCluster at h
  split at h <;> cases h <;> simp [RcReg.KeepsQueue, rcCluster]

theorem rcOfMemDie_keepsQueue {d o : Nat} {r : RcReg} (h : rcOfMemDie d o = some r) : r.KeepsQueue := by
  unfold rcOfMemDie at h
  split at h <;> cases h <;> simp [RcReg.KeepsQueue, rcMemDie, rcMemAux, rcCache, rc]

theorem rcOfLink_keepsQueue {k o : Nat} {r : RcReg} (h : rcOfLink k o = some r) : r.KeepsQueue := by
  unfold rcOfLink at h
  split at h <;> cases h <;> simp [RcReg.KeepsQueue, rcLink]

theorem rcOfFabric_keepsQueue {o : Nat} {r : RcReg} (h : rcOfFabric o = some r) : r.KeepsQueue := by
  unfold rcOfFabric at h
  split at h <;> cases h <;> simp [RcReg.KeepsQueue, rc]

theorem rcOfGw_keepsQueue {o : Nat} {r : RcReg} (h : rcOfGw o = some r) : r.KeepsQueue := by
  unfold rcOfGw at h
  split at h <;> cases h <;> simp [RcReg.KeepsQueue, rcGw, rc]

theorem rcOfPt_keepsQueue {o : Nat} {r : RcReg} (h : rcOfPt o = some r) : r.KeepsQueue := by
  unfold rcOfPt at h
  split at h <;> cases h <;> simp [RcReg.KeepsQueue, rc]

theorem rcOfPtDie_keepsQueue {d o : Nat} {r : RcReg} (h : rcOfPtDie d o = some r) : r.KeepsQueue := by
  unfold rcOfPtDie at h
  split at h <;> cases h <;> simp [RcReg.KeepsQueue, rc]

theorem rcOfJrPart_keepsQueue {p o : Nat} {r : RcReg} (h : rcOfJrPart p o = some r) : r.KeepsQueue := by
  unfold rcOfJrPart at h
  split at h <;> cases h <;> simp [RcReg.KeepsQueue, rcPart, rc]

theorem rcOfStash_keepsQueue {p o : Nat} {r : RcReg} (h : rcOfStash p o = some r) : r.KeepsQueue := by
  unfold rcOfStash at h
  split at h <;> cases h <;> simp [RcReg.KeepsQueue, rcStash, rc]

theorem rcOfBerth_keepsQueue {n o : Nat} {r : RcReg} (h : rcOfBerth n o = some r) : r.KeepsQueue := by
  unfold rcOfBerth at h
  split at h <;> cases h <;> simp [RcReg.KeepsQueue, rc]

theorem rcAt_keepsQueue {b : Block} {o : Nat} {r : RcReg} (h : rcAt b o = some r) : r.KeepsQueue := by
  unfold rcAt at h
  split at h
  case h_4 => exact rcOfPt_keepsQueue h
  case h_5 => exact rcOfPtDie_keepsQueue h
  case h_7 => exact rcOfJrPart_keepsQueue h
  case h_8 => exact rcOfGw_keepsQueue h
  case h_9 => exact rcOfLink_keepsQueue h
  case h_10 => exact rcOfFabric_keepsQueue h
  case h_11 => exact rcOfBerth_keepsQueue h
  case h_12 => exact rcOfCluster_keepsQueue h
  case h_15 => exact rcOfMemDie_keepsQueue h
  case h_16 => exact rcOfStash_keepsQueue h
  case h_17 => cases h
  all_goals cases h; simp [RcReg.KeepsQueue, rc, rcTimed]

theorem RcReg.read_pending (r : RcReg) (upd : Word) (s : State) (h : r.KeepsQueue) :
    (r.read upd s).2.pending = s.pending := by
  have h := fun u v => (State.sameQueue_iff _ _).1 (h u v)
  unfold RcReg.read; split <;> simp [h]
@[simp] theorem State.readAt_pending (s : State) (b : Block) (o : Nat) (upd : Word) :
    (s.readAt b o upd).2.pending = s.pending := by
  unfold State.readAt; split
  · rfl
  · split
    next r hr => exact RcReg.read_pending _ _ _ (rcAt_keepsQueue hr)
    next => simp
@[simp] theorem State.readReg_pending (s : State) (addr : Nat) (upd : Word) :
    (s.readReg addr upd).2.pending = s.pending := by simp [State.readReg]

/-! ## Registers -/

@[simp] theorem keyed_pending (key : Nat) (v : Word) (s : State) (k : Nat → State) (hk : ∀ c, State.SameQueue s (k c)) :
    (keyed key v s k).pending = s.pending := by
  have hk := fun c => (State.sameQueue_iff _ _).1 (hk c)
  unfold keyed; split <;> simp [hk]
@[simp] theorem State.writeTimer_pending (s : State) (o : Nat) (v : Word) :
    (s.writeTimer o v).pending = s.pending := by unfold State.writeTimer; split <;> simp
@[simp] theorem State.writeHm_pending (s : State) (o : Nat) (v : Word) : (s.writeHm o v).pending = s.pending := by
  unfold State.writeHm; split <;> simp
@[simp] theorem State.writeMail_pending (s : State) (i : Nat) (v : Word) : (s.writeMail i v).pending = s.pending := by
  simp [State.writeMail]
@[simp] theorem State.writeSec_pending (s : State) (i3c : Bool) (o : Nat) (v : Word) :
    (s.writeSec i3c o v).pending = s.pending := by unfold State.writeSec; split <;> simp
@[simp] theorem State.writeSecPart_pending (s : State) (p o : Nat) (v : Word) :
    (s.writeSecPart p o v).pending = s.pending := by unfold State.writeSecPart; split <;> simp
@[simp] theorem State.ptCommand_pending (s : State) (cmd : Nat) : (s.ptCommand cmd).pending = s.pending := by
  unfold State.ptCommand; split <;> simp
@[simp] theorem State.writeWarn_pending (s : State) (v : Word) : (s.writeWarn v).pending = s.pending := by
  simp [State.writeWarn]
@[simp] theorem State.writePt_pending (s : State) (o : Nat) (v : Word) : (s.writePt o v).pending = s.pending := by
  unfold State.writePt; split <;> simp
@[simp] theorem State.writeMf_pending (s : State) (o : Nat) (v : Word) : (s.writeMf o v).pending = s.pending := by
  unfold State.writeMf; split <;> simp
@[simp] theorem State.writeJr_pending (s : State) (o : Nat) (v : Word) : (s.writeJr o v).pending = s.pending := by
  unfold State.writeJr; split <;> simp
@[simp] theorem State.gwCommand_pending (s : State) (drive cmd : Nat) :
    (s.gwCommand drive cmd).pending = s.pending := by unfold State.gwCommand; split <;> simp
@[simp] theorem State.writeGw_pending (s : State) (o : Nat) (v : Word) : (s.writeGw o v).pending = s.pending := by
  unfold State.writeGw; split <;> simp
@[simp] theorem State.writeLink_pending (s : State) (k o : Nat) (v : Word) :
    (s.writeLink k o v).pending = s.pending := by unfold State.writeLink; split <;> simp
@[simp] theorem State.discoveryCommand_pending (s : State) (cmd : Nat) :
    (s.discoveryCommand cmd).pending = s.pending := by unfold State.discoveryCommand; split <;> simp
@[simp] theorem State.writeFabric_pending (s : State) (o : Nat) (v : Word) :
    (s.writeFabric o v).pending = s.pending := by unfold State.writeFabric; split <;> simp
@[simp] theorem State.writeBerth_pending (s : State) (n o : Nat) (v : Word) :
    (s.writeBerth n o v).pending = s.pending := by unfold State.writeBerth; split <;> simp
@[simp] theorem State.clCommand_pending (s : State) (d c : Nat) (slot : BitVec 1) (cmd : Nat) :
    (s.clCommand d c slot cmd).pending = s.pending := by unfold State.clCommand; split <;> simp
@[simp] theorem State.writeCluster_pending (s : State) (d c o : Nat) (v : Word) :
    (s.writeCluster d c o v).pending = s.pending := by unfold State.writeCluster; split <;> simp
@[simp] theorem State.writeMem_pending (s : State) (o : Nat) (v : Word) : (s.writeMem o v).pending = s.pending := by
  unfold State.writeMem; split <;> simp
@[simp] theorem State.lighterCommand_pending (s : State) (d n cmd : Nat) :
    (s.lighterCommand d n cmd).pending = s.pending := by unfold State.lighterCommand; split <;> simp
@[simp] theorem State.writeMemDie_pending (s : State) (d o : Nat) (v : Word) :
    (s.writeMemDie d o v).pending = s.pending := by unfold State.writeMemDie; split <;> simp
@[simp] theorem State.poke_pending (s : State) (i3c : Bool) (x : Block) (n : Nat) (w : Word) :
    (s.poke i3c x n w).pending = s.pending := by unfold State.poke; split <;> simp
@[simp] theorem State.writeReg_pending (s : State) (i3c : Bool) (addr : Nat) (v : Word) :
    (s.writeReg i3c addr v).pending = s.pending := by simp [State.writeReg]

/-! ## I3c -/

@[simp] theorem State.i3cReply_pending (s : State) (b : Bytes) : (s.i3cReply b).pending = s.pending := by rfl
@[simp] theorem State.i3cError_pending (s : State) (kind : Nat) : (s.i3cError kind).pending = s.pending := by
  simp [State.i3cError]
@[simp] theorem State.i3cWords_pending (n addr : Nat) (b : Bytes) (s : State) :
    (State.i3cWords n addr b s).pending = s.pending := by
  induction n generalizing addr b s with
  | zero => rfl
  | succ n ih => simp [State.i3cWords, ih]
@[simp] theorem State.i3cWrite_pending (s : State) (b : Bytes) (parityOk : Bool) :
    (s.i3cWrite b parityOk).pending = s.pending := by simp [State.i3cWrite]
@[simp] theorem State.i3cReads_pending (n addr : Nat) (s : State) :
    (State.i3cReads n addr s).2.pending = s.pending := by
  induction n generalizing addr s with
  | zero => rfl
  | succ n ih => simp [State.i3cReads, ih]
@[simp] theorem State.i3cRead_pending (s : State) (addr : Option Word) (len : Nat) (parityOk : Bool) :
    (s.i3cRead addr len parityOk).pending = s.pending := by
  unfold State.i3cRead; simp only []
  repeat' split
  all_goals simp
@[simp] theorem State.ccc_pending (s : State) (f : State → State) (hf : State.SameQueue s (f s)) :
    (s.ccc f).pending = s.pending := by
  have hf := (State.sameQueue_iff _ _).1 hf
  unfold State.ccc; split <;> simp [hf]
@[simp] theorem State.i3cAssign_pending (s : State) (addr : BitVec 7) (reply : Bytes) :
    (s.i3cAssign addr reply).pending = s.pending := by simp [State.i3cAssign]

/-! ## Cct -/

@[simp] theorem State.answer_pending (s : State) (via : Option NetAddr) (x : CctResp) :
    (s.answer via x).pending = s.pending := by simp [State.answer]
@[simp] theorem State.openSession_pending (s : State) (n : Nat) (r : CctReq) :
    (s.openSession n r).pending = s.pending := by simp [State.openSession]
@[simp] theorem State.cctOpenReq_pending (s : State) (r : CctReq) : (s.cctOpenReq r).pending = s.pending := by
  unfold State.cctOpenReq; split <;> simp
@[simp] theorem State.takeManifest_pending (s : State) (n : Nat) (old b : Bytes) :
    (s.takeManifest n old b).pending = s.pending := by rfl
@[simp] theorem State.manifestAt_pending (s : State) (n off : Nat) (b : Bytes) :
    (s.manifestAt n off b).2.pending = s.pending := by simp [State.manifestAt]
@[simp] theorem State.cctManifest_pending (s : State) (n : Nat) (pl : Bytes) :
    (s.cctManifest n pl).2.pending = s.pending := by simp [State.cctManifest]
@[simp] theorem State.cctPut_pending (s : State) (n : Nat) (pl : Bytes) : (s.cctPut n pl).2.pending = s.pending := by
  simp [State.cctPut]
@[simp] theorem State.takeItems_pending (n k room : Nat) (s : State) :
    (State.takeItems n k room s).2.pending = s.pending := by
  induction k generalizing room s with
  | zero => rfl
  | succ k ih =>
    unfold State.takeItems; split
    · rfl
    · simp only []; repeat' split
      all_goals simp [ih]
@[simp] theorem State.cctTake_pending (s : State) (n : Nat) (pl : Bytes) : (s.cctTake n pl).2.pending = s.pending := by
  simp [State.cctTake]
@[simp] theorem State.cctFrame_pending (s : State) (f : Bytes) : (s.cctFrame f).2.pending = s.pending := by
  simp [State.cctFrame]
@[simp] theorem State.cctConnect_pending (s : State) (pl : Bytes) : (s.cctConnect pl).2.pending = s.pending := by
  simp [State.cctConnect]
@[simp] theorem State.cctDisconnect_pending (s : State) (pl : Bytes) : (s.cctDisconnect pl).2.pending = s.pending := by
  simp [State.cctDisconnect]
@[simp] theorem State.mrpRun_pending (xs : List MrpOp) (s : State) : (State.mrpRun xs s).2.pending = s.pending := by
  induction xs generalizing s with
  | nil => rfl
  | cons x xs ih => unfold State.mrpRun; simp only []; split <;> simp [ih]
@[simp] theorem State.cctMrp_pending (s : State) (n : Nat) (pl : Bytes) : (s.cctMrp n pl).2.pending = s.pending := by
  simp [State.cctMrp]
@[simp] theorem State.cctJob_pending (s : State) (n : Nat) (pl : Bytes) : (s.cctJob n pl).2.pending = s.pending := by
  simp [State.cctJob]
@[simp] theorem State.cctDo_pending (s : State) (n : Nat) (r : CctReq) : (s.cctDo n r).2.pending = s.pending := by
  unfold State.cctDo; split <;> simp
@[simp] theorem State.cctRun_pending (s : State) (n : Nat) (r : CctReq) : (s.cctRun n r).pending = s.pending := by
  simp [State.cctRun]
@[simp] theorem State.cctTurn_pending (n fuel : Nat) (r : CctReq) (s : State) :
    (State.cctTurn n fuel r s).pending = s.pending := by
  induction fuel generalizing r s with
  | zero => rfl
  | succ fuel ih =>
    unfold State.cctTurn; simp only []
    repeat' split
    all_goals simp [ih]
@[simp] theorem State.sessionRequest_pending (s : State) (n : Nat) (r : CctReq) :
    (s.sessionRequest n r).pending = s.pending := by
  unfold State.sessionRequest; simp only []
  repeat' split
  all_goals simp
@[simp] theorem State.request_pending (s : State) (r : CctReq) : (s.request r).pending = s.pending := by
  simp [State.request]
@[simp] theorem State.datagram_pending (mrp : Bool) (s : State) (via : Option NetAddr) (d : Bytes) :
    (State.datagram mrp s via d).pending = s.pending := by simp [State.datagram]
@[simp] theorem State.arrives_pending (s : State) (opcode : Byte) (sess : Half) (seq : Word) (pl : Bytes) :
    (s.arrives opcode sess seq pl).pending = s.pending := by simp [State.arrives]
@[simp] theorem State.jobRequest_pending (s : State) (sess : Half) (seq : Word) (p : Byte) (action : Nat)
    (step arg : DWord) :
    (s.jobRequest sess seq p action step arg).pending = s.pending := by simp [State.jobRequest]

/-- The command answers a next state, whose waiting commands are those of `s`. -/
def State.QueueKeptBy (s : State) (x : Out) : Prop := ∃ t, x = .next t ∧ t.pending = s.pending

theorem State.after_pending {s : State} {x : Out} (h : s.QueueKeptBy x) : (s.after x).pending = s.pending := by
  obtain ⟨t, rfl, ht⟩ := h
  exact ht

theorem execRcRead_queueKept (addr upd : Word) (s : State) : s.QueueKeptBy (execRcRead addr upd s) := by
  unfold execRcRead; split
  · exact ⟨_, rfl, by simp⟩
  · split
    · split
      next v t ht =>
        have ht : t.pending = s.pending := State.pending_of_eq (s.readReg_pending ..) ht
        exact ⟨_, rfl, ht⟩
    · exact ⟨_, rfl, rfl⟩

theorem execLighterCopy_queueKept (die : BitVec 3) (n : BitVec 4) (o : ReadOutcome) (s : State) :
    s.QueueKeptBy (execLighterCopy die n o s) := by
  refine ⟨_, rfl, State.lighterRun_pending _ _ _ _ _ fun t w => (State.sameQueue_iff _ _).2 ?_⟩
  dsimp only; split
  · split <;> simp
  · rfl

theorem execLighterAdd_queueKept (die : BitVec 3) (n : BitVec 4) (o : ReadOutcome) (s : State) :
    s.QueueKeptBy (execLighterAdd die n o s) := by
  refine ⟨_, rfl, State.lighterRun_pending _ _ _ _ _ fun t w => (State.sameQueue_iff _ _).2 ?_⟩
  split
  · simp
  · rfl

theorem execLighterSettle_queueKept (die : BitVec 3) (n : BitVec 4) (o : ReadOutcome) (s : State) :
    s.QueueKeptBy (execLighterSettle die n o s) := by
  refine ⟨_, rfl, State.lighterRun_pending _ _ _ _ _ fun t w => (State.sameQueue_iff _ _).2 ?_⟩
  split
  · simp
  · rfl

theorem execLighterClear_queueKept (die : BitVec 3) (n : BitVec 4) (s : State) :
    s.QueueKeptBy (execLighterClear die n s) := by
  refine ⟨_, rfl, State.lighterRun_pending _ _ _ _ _ fun t w => (State.sameQueue_iff _ _).2 ?_⟩
  dsimp only; split
  · simp
  · rfl

/-- Every command but the end of a management restart, which runs what waited, is one function of the state. -/
theorem exec_queueKept_of_ne_restartComplete (c : Instr) (s : State) (hc : c ≠ .managementRestartComplete) :
    s.QueueKeptBy (exec c s) := by
  cases c with
  | managementRestartComplete => exact absurd rfl hc
  | lighterCopy die n o => exact execLighterCopy_queueKept die n o s
  | lighterAdd die n o => exact execLighterAdd_queueKept die n o s
  | lighterSettle die n o => exact execLighterSettle_queueKept die n o s
  | lighterClear die n => exact execLighterClear_queueKept die n s
  | rcRead addr upd => exact execRcRead_queueKept addr upd s
  | _ => exact ⟨_, rfl, by simp⟩

/-- A command that waited runs as it does at any other time; what is none of those that wait does nothing. -/
theorem State.redoCmd_eq (s : State) (c : Instr) : s.redoCmd c = s.after (exec c s) ∨ s.redoCmd c = s := by
  cases c
  case registerWrite | rcRead | i3cPrivateWrite | i3cPrivateRead | boardInputChange | trayReading | headroomWrite
      | envelopeWrite | prioCfgWrite | etsShareWrite | sideCfgWrite | timerCfgWrite | restoreFactory
      | clearFaultCounts | load | commit | amend | withdraw | discard | selfTest | haltSlot | resumeSlot
      | lighterResume | lighterFlush | scrubNow | berthFlush | proceed | discoveryHalt | enable | disable | retrain
      | ethRetrain | pcieRetrain | driveReset | forceSnapshot | clearSensorFault | ptResume | tideReset | issue
      | claim | setManifestKey | revokeManifestKey | setHostKey | revokeHostKey | installSak | removePeer
      | raiseMinSvn | forceNetworkBoot | release | decommission | clearMailbox =>
    exact .inl rfl
  all_goals exact .inr rfl

@[simp] theorem State.redoCmd_pending (s : State) (c : Instr) : (s.redoCmd c).pending = s.pending := by
  by_cases hc : c = .managementRestartComplete
  · subst hc; rfl
  · obtain h | h := s.redoCmd_eq c
    · rw [h]; exact State.after_pending (exec_queueKept_of_ne_restartComplete c s hc)
    · rw [h]
@[simp] theorem State.redo_pending (s : State) (d : Deferred) : (s.redo d).pending = s.pending := by
  unfold State.redo; split <;> simp
@[simp] theorem State.restartOver_pending (s : State) : s.restartOver.pending = s.pending := by simp [State.restartOver]

/-! ## Every command -/

theorem exec_queueKept (c : Instr) (s : State) : s.QueueKeptBy (exec c s) := by
  by_cases hc : c = .managementRestartComplete
  · subst hc
    exact ⟨_, rfl, by simp⟩
  · exact exec_queueKept_of_ne_restartComplete c s hc

end Sys2Proof.Machine
open Sys2Proof Sys2Proof.Machine

/-- Settles O2: each command is one function of the state, and every function of the state that a command runs leaves
the waiting commands alone; the end of a management restart runs what waited, each of which does the same. -/
theorem everyCommandKeepsTheQueue : Obligations.EveryCommandKeepsTheQueue := by
  unfold Obligations.EveryCommandKeepsTheQueue
  exact exec_queueKept

end

section
/-!
One step (R38): the command at the front of the queue, or the tick of an empty queue, whose frame is that of each part of the
tick in turn (R323, R368, R380, R394, R489).
-/

namespace Sys2Proof.Machine

/-! ## The updates that a tick makes -/

theorem State.modRun_same (s : State) (p : Nat) (f : PartRun → PartRun) : SameBut [.runs] s (s.modRun p f) := by
  constructor; intro f hf; cases f
  case runs => exact absurd (List.mem_singleton.2 rfl) hf
  all_goals rfl

theorem State.modLink_same (s : State) (k : Nat) (f : Link → Link) : SameBut [.links] s (s.modLink k f) := by
  constructor; intro f hf; cases f
  case links => exact absurd (List.mem_singleton.2 rfl) hf
  all_goals rfl

theorem State.modLinkCtr_same (s : State) (k : Nat) (f : LinkCounters → LinkCounters) :
    SameBut [.linkCtrs] s (s.modLinkCtr k f) := by
  constructor; intro f hf; cases f
  case linkCtrs => exact absurd (List.mem_singleton.2 rfl) hf
  all_goals rfl

theorem State.modKx_same (s : State) (f : Kx → Kx) : SameBut [.kx] s (s.modKx f) := by
  constructor; intro f hf; cases f
  case kx => exact absurd (List.mem_singleton.2 rfl) hf
  all_goals rfl

theorem State.withMem_same (s : State) (m : Mem) : SameBut [.mem] s { s with mem := m } := by
  constructor; intro f hf; cases f
  case mem => exact absurd (List.mem_singleton.2 rfl) hf
  all_goals rfl

/-! ## The counters of time (R38, R489) -/

theorem State.countTime_same (s : State) : SameBut [.hm] s s.countTime := State.withHm_same _ _ _ (by decide)

theorem State.countTime_time (s : State) :
    s.countTime.hm.time = if s.boot.phase = .held then s.hm.time else s.hm.time + 1 := by
  simp only [State.countTime, apply_ite Hm.time, ite_self]

theorem State.countTime_aon (s : State) (h : s.supply.alwaysOn = false) : s.countTime.hm.aon = s.hm.aon := by
  simp only [State.countTime, h, Bool.false_eq_true, if_false]; split <;> rfl

theorem State.gateTick_same (s : State) : SameBut [.runs] s s.gateTick :=
  SameBut.ite (SameBut.refl _ s) (SameBut.foldl _ (fun u p => u.modRun_same p _) _ s)

/-- No step of a partition runs, so none is timed (R489). -/
theorem State.gateTick_eq_self (s : State) (h : ∀ e ∈ s.parts, e.2.state.live = false) : s.gateTick = s := by
  have hf : s.parts.filter (fun e => e.2.state.live) = [] := by simpa [List.filter_eq_nil_iff] using h
  simp [State.gateTick, hf]

/-! ## Banks in copy (R323) -/

theorem State.bankTick_same (s : State) : SameBut [.mem] s s.bankTick :=
  SameBut.ite (SameBut.refl _ s) (s.withMem_same _)

theorem State.bankTick_eq_self (s : State) (h : s.mem.bankTicks = []) : s.bankTick = s := if_pos h

theorem State.byte_bankTick (s : State) (sp : Space) (a : Nat) : s.bankTick.byte sp a = s.byte sp a := by
  unfold State.bankTick; split
  · rfl
  · cases sp <;> rfl

theorem State.byte_congr {s t : State} (h : t.mem = s.mem) (sp : Space) (a : Nat) : t.byte sp a = s.byte sp a := by
  simp only [State.byte, h]

/-! ## Identity records (R368) -/

theorem State.identTick_same (s : State) : SameBut [.links] s s.identTick :=
  SameBut.ite (SameBut.refl _ s) (SameBut.foldl _ (fun u k => SameBut.ite (u.modLink_same k _) (SameBut.refl _ u)) _ s)

theorem State.foldl_eq_self {α : Type} (f : State → α → State) (s : State) (l : List α) (h : ∀ a ∈ l, f s a = s) :
    l.foldl f s = s := by
  induction l with
  | nil => rfl
  | cons a l ih =>
    rw [List.foldl_cons, h a (by simp)]
    exact ih (fun b hb => h b (by simp [hb]))

theorem State.identTick_eq_self (s : State) (h : ∀ k, k < 16 → (s.link k).state ≠ .ident) : s.identTick = s := by
  unfold State.identTick; split
  · rfl
  · refine State.foldl_eq_self _ s _ (fun k hk => if_neg ?_)
    simp [State.linkIn, h k (List.mem_range.1 hk)]

/-! ## The ports of the plan (R360, R363, R380) -/

/-- What the ports change as they send. -/
abbrev portFields : List Field := [.kx, .links, .linkCtrs]

theorem State.modEgress_same (s : State) (n : Nat) (f : PortEgress → PortEgress) : SameBut portFields s (s.modEgress n f) :=
  (s.modKx_same _).mono (by decide)

theorem State.resendFlit_same (s : State) (k : Nat) : SameBut portFields s (s.resendFlit k) :=
  ((s.modLink_same k _).mono (by decide)).then (State.modLinkCtr_same _ k _) (by decide)

theorem State.sendFlit_same (s : State) (k : Nat) (x : Packet) (i : Nat) : SameBut portFields s (s.sendFlit k x i) := by
  have h := fun f g => SameBut.then ((s.modLink_same k f).mono (gs := portFields) (by decide))
    (State.modLinkCtr_same _ k g) (by decide)
  exact SameBut.ite (h ..) ((h ..).then (State.modKx_same ..) (by decide))

theorem State.beginPacket_same (s : State) (n : Nat) (x : Packet) : SameBut portFields s (s.beginPacket n x) :=
  SameBut.ite (SameBut.refl _ s) (((s.modKx_same _).mono (by decide)).trans (State.modEgress_same ..))

theorem State.serveFlit_same (s : State) (r : PortRec) (k : Nat) (x : Packet) (t : Turn) :
    SameBut portFields s (s.serveFlit r k x t) := by
  have h := fun i f => ((s.beginPacket_same r.port x).trans (State.sendFlit_same _ k x i)).trans
    (State.modEgress_same _ r.port f)
  exact SameBut.ite ((h ..).then (State.modKx_same ..) (by decide)) (h ..)

theorem State.stalled_same (s : State) (r : PortRec) : SameBut portFields s (s.stalled r) :=
  SameBut.foldl _ (fun u k => (u.modLinkCtr_same k _).mono (by decide)) _ s

theorem State.servePort_same (r : PortRec) (fuel : Nat) (s : State) : SameBut portFields s (State.servePort r fuel s) := by
  induction fuel generalizing s with
  | zero => exact SameBut.refl _ s
  | succ fuel ih =>
    unfold State.servePort; simp only []
    split
    · exact SameBut.refl _ s
    · split
      · exact ((s.resendFlit_same _).trans (State.modEgress_same ..)).trans (ih _)
      · split
        · split
          · exact (s.serveFlit_same ..).trans (ih _)
          · exact SameBut.refl _ s
        · exact SameBut.ite (s.modEgress_same ..) ((s.modEgress_same ..).trans (State.stalled_same ..))

theorem State.portTick_same (s : State) (r : PortRec) : SameBut portFields s (s.portTick r) :=
  (s.modEgress_same ..).trans (State.servePort_same ..)

theorem State.serveRelay_same (n fuel : Nat) (s : State) : SameBut portFields s (State.serveRelay n fuel s) := by
  induction fuel generalizing s with
  | zero => exact SameBut.refl _ s
  | succ fuel ih =>
    unfold State.serveRelay; simp only []
    split
    · exact s.modEgress_same ..
    · split
      · exact SameBut.refl _ s
      · exact (((s.modKx_same _).mono (by decide)).trans (State.modEgress_same ..)).trans (ih _)

theorem State.relayTick_same (s : State) (n : Nat) : SameBut portFields s (s.relayTick n) :=
  SameBut.ite (SameBut.refl _ s) ((s.modEgress_same ..).trans (State.serveRelay_same ..))

theorem State.fabricTick_same (s : State) : SameBut portFields s s.fabricTick := by
  unfold State.fabricTick
  exact SameBut.foldl _ (fun u r => (u.relayTick_same r.port).trans ((u.relayTick r.port).portTick_same r)) _ s

theorem State.fabricTick_eq_self (s : State) (h : s.mfAux.dev.ports = []) : s.fabricTick = s := by
  simp [State.fabricTick, h]

/-! ## Receive buffers of the Ethernet port (R394) -/

/-- What a buffer's emptying changes: what it holds, and the pause frame that goes out. -/
abbrev bufferFields : List Field := [.free, .gw, .gwAux]

theorem State.modPrio_same (s : State) (n : Nat) (f : Prio → Prio) : SameBut bufferFields s (s.modPrio n f) :=
  (s.modGw_same _).mono (by decide)

theorem State.sendPfc_same (s : State) (prio : Nat) (xoff : Bool) : SameBut bufferFields s (s.sendPfc prio xoff) := by
  have hsent : SameBut [.gwAux] s.draw.2 (s.sendPfc prio xoff) := by
    unfold State.sendPfc
    exact State.modGwAux_same ..
  exact (s.draw_same.mono (by decide)).then hsent (by decide)

theorem State.buffered_same (s : State) (prio bytes : Nat) : SameBut bufferFields s (s.buffered prio bytes) := by
  have held := fun f => (s.draw_same.mono (gs := bufferFields) (by decide)).trans (State.modPrio_same _ prio f)
  have sent := fun f g x => ((held f).trans (State.modPrio_same _ prio g)).trans (State.sendPfc_same _ prio x)
  exact SameBut.ite (sent ..) (SameBut.ite (sent ..) (held _))

theorem State.drainTick_same (s : State) : SameBut bufferFields s s.drainTick :=
  SameBut.foldl _ (fun u n => SameBut.ite (u.buffered_same n 0) (SameBut.refl _ u)) _ s

theorem State.drainTick_eq_self (s : State) (h : ∀ n, n < 8 → (s.prio n).xoff = false) : s.drainTick = s := by
  refine State.foldl_eq_self _ s _ (fun n hn => if_neg ?_)
  simp [h n (List.mem_range.1 hn)]

/-! ## The idle step (log entry 6) -/

/-- After the counters, a tick leaves the Harbourmaster's registers alone. -/
theorem State.idle_same_countTime (s : State) :
    SameBut [.free, .mem, .runs, .kx, .links, .linkCtrs, .gw, .gwAux] s.countTime s.idle :=
  (((((State.gateTick_same _).mono (by decide)).then (State.bankTick_same _) (by decide)).then (State.identTick_same _)
    (by decide)).then (State.fabricTick_same _) (by decide)).then (State.drainTick_same _) (by decide)

theorem State.idle_hm (s : State) : s.idle.hm = s.countTime.hm := s.idle_same_countTime.same .hm (by decide)

theorem State.sameBytes_idle (s : State) : SameBytes s s.idle := by
  intro sp a
  have after : s.idle.mem = s.countTime.gateTick.bankTick.mem :=
    (((State.identTick_same _).mono (gs := [.links, .kx, .linkCtrs, .free, .gw, .gwAux]) (by decide)).then
      (State.fabricTick_same _) (by decide)).then (State.drainTick_same _) (by decide) |>.same .mem (by decide)
  have before : s.countTime.gateTick.mem = s.mem :=
    (s.countTime_same.mono (gs := [.hm, .runs]) (by decide)).then (State.gateTick_same _) (by decide)
      |>.same .mem (by decide)
  rw [State.byte_congr after, State.byte_bankTick, State.byte_congr before]

/-- Where nothing is under way, only the counters move. -/
theorem State.idle_eq_countTime (s : State) (hport : s.mfAux.dev.ports = []) (hlive : ∀ e ∈ s.parts, e.2.state.live = false)
    (hbank : s.mem.bankTicks = []) (hident : ∀ k, k < 16 → (s.link k).state ≠ .ident)
    (hxoff : ∀ n, n < 8 → (s.prio n).xoff = false) : s.idle = s.countTime := by
  rw [State.idle, State.gateTick_eq_self s.countTime hlive, State.bankTick_eq_self s.countTime hbank,
    State.identTick_eq_self s.countTime hident, State.fabricTick_eq_self s.countTime hport,
    State.drainTick_eq_self s.countTime hxoff]

end Sys2Proof.Machine

open Sys2Proof Sys2Proof.Machine

/-- Settles O1: the counters come first, and each later part of the tick has a frame of its own. -/
theorem stepRunsTheFrontCommand : Obligations.StepRunsTheFrontCommand := by
  refine ⟨fun c s rest => rfl, fun s hq => ⟨s.idle, by rw [step, hq], ?_, fun haon => ?_, s.sameBytes_idle, ?_, ?_⟩⟩
  · rw [State.idle_hm, State.countTime_time]
  · rw [State.idle_hm, State.countTime_aon s haon]
  · exact (s.countTime_same.mono (by decide)).then s.idle_same_countTime (by decide)
  · intro hport hlive hbank hident hxoff
    rw [s.idle_eq_countTime hport hlive hbank hident hxoff]
    exact s.countTime_same

end

section
/-!
Acceptance of event records (R40, R538).
-/

namespace Sys2Proof.Machine

/-! ## One record into the log -/

theorem Events.append_room (e : Events) (r : EventRec) (h : e.log.length < 4096) :
    e.append r = (false, { e with log := e.log ++ [{ ev := r, read := false }] }) := by
  have hl : e.log.length + 1 ≤ logCapacity := h
  simp [Events.append, hl]

theorem State.toBerth_disabled (s : State) (r : EventRec) (h : bit s.events.berth 14 = false) : s.toBerth r = s := by
  simp [State.toBerth, h]

theorem State.modI3c_same (s : State) (x : I3c) : SameBut [.i3c] s { s with i3c := x } := by
  constructor; intro f hf; cases f
  case i3c => exact absurd (List.mem_singleton.2 rfl) hf
  all_goals rfl

/-- The signal of a record sets a pending bit and may send an in-band interrupt. -/
theorem State.signal_same_i3c (s : State) (r : EventRec) : SameBut [.events, .i3c] s (s.signal r) := by
  have he := (s.modEvents_same (fun e => { e with pending := setBit e.pending r.block })).mono (gs := [.events, .i3c])
    (by decide)
  exact SameBut.ite (SameBut.ite (he.then (State.modI3c_same ..) (by decide)) he) (SameBut.refl _ s)

/-- It leaves the ring, the numbers and the log alone. -/
theorem State.signal_events (s : State) (r : EventRec) :
    ∃ p, (s.signal r).events = { s.events with pending := p } := by
  unfold State.signal
  split
  · exact ⟨_, (apply_ite State.events _ _ _).trans (ite_self _)⟩
  · exact ⟨_, rfl⟩

/-- A record as a log with room takes it: numbered, at the end of the log (R40, R538). -/
def State.enters (s : State) (r : EventRec) : State :=
  s.modEvents (fun e => { e with seq := e.seq + 1, log := e.log ++ [{ ev := { r with seq := e.seq }, read := false }] })

/-- With room in the log and no event berth, an accepted record takes the next number and enters the log. -/
theorem State.acceptOne_room (s : State) (r : EventRec) (hlog : s.events.log.length < 4096)
    (hberth : bit s.events.berth 14 = false) :
    s.acceptOne r = (false, (s.enters r).signal { r with seq := s.events.seq }) := by
  simp only [State.acceptOne, Events.append_room { s.events with seq := s.events.seq + 1 } _ hlog]
  exact congrArg (fun u => (false, State.signal u _)) (State.toBerth_disabled (s.enters r) _ hberth)

theorem State.accept_room (s : State) (r : EventRec) (hlog : s.events.log.length < 4096)
    (hberth : bit s.events.berth 14 = false) :
    s.accept r = (s.enters r).signal { r with seq := s.events.seq } := by
  simp [State.accept, s.acceptOne_room r hlog hberth]

end Sys2Proof.Machine

open Sys2Proof Sys2Proof.Machine

/-- Settles O13: what the ring gives up is accepted, with room in the log and no event berth. -/
theorem eventRecordsAreNumbered : Obligations.EventRecordsAreNumbered := by
  intro s die r rest htake hlog hberth
  have hfrom : s.acceptFrom die = (s.modEvents (fun e => { e with ring := rest })).accept r := by
    simp only [State.acceptFrom, htake]; rfl
  rw [State.accept_room (s.modEvents (fun e => { e with ring := rest })) r hlog hberth] at hfrom
  obtain ⟨p, hp⟩ := State.signal_events ((s.modEvents (fun e => { e with ring := rest })).enters r)
    { r with seq := s.events.seq }
  refine ⟨_, congrArg Host.Outcome.next hfrom, congrArg Events.ring hp, congrArg Events.seq hp, congrArg Events.log hp, ?_⟩
  exact ((s.modEvents_same _).trans (State.modEvents_same ..)).mono (by decide) |>.trans (State.signal_same_i3c ..)

end

section
/-!
A compute die whose bring-up takes up a replacement (R129) that no spare is left for (R130): the partition of the cluster halts,
which withdraws its descriptors (R31), and with the last item of an old berth descriptor an amendment is complete (R76, R78).
-/

namespace Sys2Proof.Machine

/-! ## A device that halts a partition as it becomes ready -/

/-- A cluster that the slipway has retired (R129). -/
def Cluster.worn (logical : Option (BitVec 8)) : Cluster :=
  { Cluster.first 0 with logical := logical, state := .retired }

/-- The spares of die 0 are used up, and cluster 3, retired, still holds its number. -/
def wornClusters : Sparse Cluster :=
  (3, Cluster.worn (some 3)) :: [250, 251, 252, 253, 254, 255].map (fun n => (n, Cluster.worn none))

/-- A partition of that cluster: a BODY of nothing, without regions or sources. -/
def PartCfg.ofCluster3 : PartCfg :=
  { part := { id := 0, timeSlice := false, quantumUs := 0, masks := [2 ^ 3] }, share := 0, berths := [], remaps := [],
    routes := [], groups := [], policy := Policy.of [], mirror := none, recovery := defaultRecovery, hasRecovery := false,
    program := { control := Control.of [], regions := [], order := DataOrder.of [], sources := [], scopes := [], blocks := [],
                 ties := [], body := [], images := [], contexts := [] } }

/-- The intake of a context: a command berth of partition 0. -/
def BerthCfg.ofContext (consumer : Word) : BerthCfg := { BerthCfg.zero with kind := 2, consumer := consumer }

/-- The intake holds one item under its old descriptor (R76). -/
def Berth.oneOldItem : Berth :=
  { Berth.zero with cfg := BerthCfg.ofContext 1, old := some (BerthCfg.ofContext 0), oldItems := 1, occupancy := 1, tail := 1 }

/-- Firmware runs and hm is ready; partition 0 is in BODY; of an amendment only that berth's old descriptor is left. -/
def State.lastSpareUsed : State :=
  { State.reset with
    boot := { Boot.held with phase := .firmware }, hm := { Hm.zero with ready := 3 },
    mf := { Mf.zero with active := true, amendState := .retiring }, clusters := wornClusters,
    berths := [(1, Berth.oneOldItem)],
    parts := [(0, { Part.zero with state := .running, cfg := some PartCfg.ofCluster3 })],
    runs := [(0, { PartRun.zero with seq := { Sequencer.zero with phase := .body } })] }

theorem State.mayReady_lastSpareUsed : State.lastSpareUsed.mayReady 16 = true := by decide

theorem State.slipwayOpen_lastSpareUsed : (State.lastSpareUsed.resumeSlipway 0).slipwayOpen 0 = false := by
  decide +kernel

theorem State.amendState_functionReady_lastSpareUsed :
    (State.lastSpareUsed.functionReady 16).mf.amendState = .none := by decide +kernel

end Sys2Proof.Machine

open Sys2Proof Sys2Proof.Machine

/-- Refutes O7: FUNCTION_READY of a compute die does not keep the Manifest slots. Its bring-up takes up the replacement of
cluster 3 (R129); no spare is left, so that the number becomes unserviceable and partition 0 halts with cause 11 (R130); the halt
withdraws the partition's descriptors (R31), with the last item under a berth's old descriptor (R76); nothing of the amendment is
open then, and the shadow slot becomes the active one (R78). -/
theorem not_bootRecoveryAndReadiness : ¬ Obligations.BootRecoveryAndReadiness := by
  rintro ⟨-, h⟩
  obtain ⟨hready, -⟩ := h State.lastSpareUsed 16
  obtain ⟨t, ht, -, -, -, -, -, hmf⟩ := hready State.mayReady_lastSpareUsed (fun _ _ => State.slipwayOpen_lastSpareUsed)
  have hrun : State.lastSpareUsed.functionReady 16 = t := Host.Outcome.next.inj ht
  have hstate := State.amendState_functionReady_lastSpareUsed
  rw [hrun, hmf] at hstate
  exact absurd hstate (by decide)

end

section
/-!
The results of slack water (R31, R194, R201, R439 to R441) in a partition's registers, and that nothing that follows its second
action changes them: of each function that commits, snapshots, the entry, the close, a replay and the begin of the next step run,
in the order of the model's files, one rule says so (a simp lemma, as those of the waiting commands are).
-/

namespace Sys2Proof.Machine

/-! ## The results of slack water -/

/-- What the first two actions of slack water leave in a partition's registers: the detection record, the cadence, and how the
digests compared. -/
structure SlackResults where
  detect : Bytes
  cadence : Word
  lastEqual : Bool
  mismatch : Bool

def Part.results (x : Part) : SlackResults :=
  { detect := x.detect, cadence := x.cadence, lastEqual := x.lastEqual, mismatch := x.mismatch }

/-- Those of every partition. -/
def resultsOf (m : Sparse Part) (p : Nat) : SlackResults := (m.get (fun _ => Part.zero) p).results

@[simp] abbrev State.results (s : State) : Nat → SlackResults := resultsOf s.parts

theorem State.results_apply (s : State) (p : Nat) : s.results p = (s.part p).results := rfl

/-- The same results stand in both states. -/
def State.SameResults (s t : State) : Prop := t.results = s.results

@[simp] theorem State.sameResults_iff (s t : State) : State.SameResults s t ↔ t.results = s.results := by
  unfold State.SameResults; exact ⟨id, id⟩

@[simp] theorem State.parts_ite (c : Prop) [Decidable c] (s t : State) :
    (if c then s else t).parts = if c then s.parts else t.parts := apply_ite _ _ _ _

@[simp] theorem resultsOf_ite (c : Prop) [Decidable c] (m n : Sparse Part) :
    resultsOf (if c then m else n) = if c then resultsOf m else resultsOf n := apply_ite _ _ _ _

/-- A fold over any list keeps the results that each of its steps keeps. -/
@[simp] theorem State.results_foldl {α : Type} (f : State → α → State) (h : ∀ s a, State.SameResults s (f s a))
    (l : List α) (s : State) : (l.foldl f s).results = s.results := by
  induction l generalizing s with
  | nil => rfl
  | cons a l ih => rw [List.foldl_cons, ih, h]

/-- The same for a fold that carries a state beside what it gathers. -/
@[simp] theorem State.results_foldl_snd {α β : Type} (f : β × State → α → β × State)
    (h : ∀ x a, State.SameResults x.2 (f x a).2) (l : List α) (x : β × State) :
    (l.foldl f x).2.results = x.2.results := by
  induction l generalizing x with
  | nil => rfl
  | cons a l ih => rw [List.foldl_cons, ih, h]

theorem State.results_of_eq {α : Type} {x : α × State} {a : α} {s t : State} (h : x.2.results = s.results)
    (hx : x = (a, t)) : t.results = s.results := by subst hx; exact h

theorem State.results_congr {s t : State} (h : t.parts = s.parts) : t.results = s.results := by
  rw [State.results, h]

/-- Registers of a partition that are none of these may be written. -/
@[simp] theorem State.setPart_results (s : State) (p : Nat) (x : Part)
    (h : x.detect = (s.part p).detect ∧ x.cadence = (s.part p).cadence ∧ x.lastEqual = (s.part p).lastEqual
      ∧ x.mismatch = (s.part p).mismatch) : (s.setPart p x).results = s.results := by
  obtain ⟨hd, hc, he, hm⟩ := h
  funext q
  rw [State.results_apply, State.results_apply, State.part_setPart]
  split
  next hq => rw [← hq, Part.results, hd, hc, he, hm]; rfl
  · rfl

@[simp] theorem State.modPart_results (s : State) (p : Nat) (f : Part → Part)
    (h : ∀ x, (f x).detect = x.detect ∧ (f x).cadence = x.cadence ∧ (f x).lastEqual = x.lastEqual
      ∧ (f x).mismatch = x.mismatch) : (s.modPart p f).results = s.results := s.setPart_results p _ (h _)

/-! ## What follows -/

@[simp] theorem State.detectLink_results (s : State) (k n : Nat) : (s.detectLink k n).results = s.results := by rfl
@[simp] theorem State.modDrive_results (s : State) (d : Nat) (f : Drive → Drive) :
    (s.modDrive d f).results = s.results := by simp [State.modDrive]
@[simp] theorem State.putCells_results (s : State) (sp : Space) (a n : Nat) (mid : Cells) :
    (s.putCells sp a n mid).results = s.results := by rfl
@[simp] theorem State.store_results (s : State) (sp : Space) (a : Nat) (b : Bytes) :
    (s.store sp a b).results = s.results := by rfl
@[simp] theorem State.clearBytes_results (s : State) (sp : Space) (a n : Nat) :
    (s.clearBytes sp a n).results = s.results := by rfl
@[simp] theorem State.copyBytes_results (s : State) (src : Space) (a : Nat) (dst : Space) (dest n : Nat) :
    (s.copyBytes src a dst dest n).results = s.results := by rfl
@[simp] theorem State.touch_results (s : State) (v : Via) (write : Bool) (sp : Space) (a n : Nat) :
    (s.touch v write sp a n).results = s.results := by simp [State.touch]
@[simp] theorem State.emptyCache_results (s : State) (die : Nat) : (s.emptyCache die).results = s.results := by rfl
@[simp] theorem State.releaseOld_results (s : State) (n : Nat) : (s.releaseOld n).results = s.results := by
  unfold State.releaseOld; simp only []; split <;> simp
@[simp] theorem State.placeBerth_results (s : State) (n : Nat) (c : BerthCfg) (tag : Byte) :
    (s.placeBerth n c tag).results = s.results := by simp [State.placeBerth]
@[simp] theorem State.refuseWaiting_results (s : State) (n : Nat) : (s.refuseWaiting n).results = s.results := by
  simp [State.refuseWaiting]
@[simp] theorem State.programBerth_results (s : State) (n : Nat) (c : BerthCfg) (tag : Byte) :
    (s.programBerth n c tag).results = s.results := by simp [State.programBerth]
@[simp] theorem State.freshBerth_results (s : State) (n : Nat) (c : BerthCfg) (tag : Byte) :
    (s.freshBerth n c tag).results = s.results := by rfl
@[simp] theorem State.takeSeq_results (s : State) : s.takeSeq.2.results = s.results := by rfl
@[simp] theorem State.clearSums_results (s : State) (p : Nat) : (s.clearSums p).results = s.results := by
  simp [State.clearSums]
@[simp] theorem State.pinPlaces_results (s : State) (p : Nat) : (s.pinPlaces p).results = s.results := by
  unfold State.pinPlaces; split
  · rfl
  · refine State.results_foldl _ (fun s b => ?_) _ _
    simp only []; split <;> simp
@[simp] theorem State.addRecord_results (s : State) (p type : Nat) (body : Bytes) :
    (s.addRecord p type body).results = s.results := by rfl
@[simp] theorem State.ladingOverflow_results (s : State) (p : Nat) : (s.ladingOverflow p).results = s.results := by
  simp [State.ladingOverflow]
@[simp] theorem State.recovery_results (s : State) (p kind : Nat) (detail : Bytes) :
    (s.recovery p kind detail).results = s.results := by simp [State.recovery]
@[simp] theorem State.countLading_results (s : State) (p i : Nat) : (s.countLading p i).results = s.results := by rfl
@[simp] theorem State.send_results (s : State) (p : Nat) (n : Notice) : (s.send p n).results = s.results := by rfl
@[simp] theorem State.retag_results (s : State) : s.retag.results = s.results := by simp [State.retag]
@[simp] theorem State.amendCheck_results (s : State) : s.amendCheck.results = s.results := by simp [State.amendCheck]
@[simp] theorem State.withdraw_results (s : State) (p : Nat) : (s.withdraw p).results = s.results := by
  simp [State.withdraw]
@[simp] theorem State.enterHalted_results (s : State) (p cause mode : Nat) :
    (s.enterHalted p cause mode).results = s.results := by simp [State.enterHalted]
@[simp] theorem State.haltWith_results (s : State) (p cause mode : Nat) :
    (s.haltWith p cause mode).results = s.results := by simp [State.haltWith]
@[simp] theorem State.halt_results (s : State) (p cause : Nat) : (s.halt p cause).results = s.results := by
  simp [State.halt]
@[simp] theorem State.keepSums_results (s : State) (p : Nat) : (s.keepSums p).results = s.results := by
  simp [State.keepSums]
@[simp] theorem State.conflict_results (s : State) (kind index loser holder : Nat) :
    (s.conflict kind index loser holder).results = s.results := by simp [State.conflict]
@[simp] theorem State.requestSide_results (s : State) (n : Nat) (w : Word) :
    (s.requestSide n w).results = s.results := by simp [State.requestSide]
@[simp] theorem State.pulse_results (s : State) (n : Nat) : (s.pulse n).results = s.results := by rfl
@[simp] theorem State.stepMark_results (s : State) (p : Nat) : (s.stepMark p).results = s.results := by
  simp [State.stepMark]
@[simp] theorem State.requestTimer_results (s : State) (t : Nat) (w : Word) :
    (s.requestTimer t w).results = s.results := by simp [State.requestTimer]
@[simp] theorem State.startClaim_results (s : State) (c : ClaimRec) : (s.startClaim c).results = s.results := by
  unfold State.startClaim; split <;> simp
@[simp] theorem State.dropClaims_results (s : State) (old new : List ClaimRec) :
    (s.dropClaims old new).results = s.results := by
  refine State.results_foldl _ (fun s x => ?_) _ _
  simp only []; repeat' split
  all_goals simp
@[simp] theorem State.unlearn_results (s : State) (p : Nat) : (s.unlearn p).results = s.results := by rfl
@[simp] theorem State.programCluster_results (s : State) (p : Nat) (cfg : PartCfg) (keep mine : Bool) (die l : Nat) :
    (s.programCluster p cfg keep mine die l).results = s.results := by unfold State.programCluster; split <;> simp
@[simp] theorem State.layImages_results (s before : State) (p : Nat) (olds : List CtxRec) (cfg : PartCfg) :
    (s.layImages before p olds cfg).results = s.results := by
  refine State.results_foldl _ (fun s die => ?_) _ _
  simp only []; split
  · rfl
  · refine State.results_foldl _ (fun s r => ?_) _ _
    repeat' split
    all_goals simp
@[simp] theorem State.dropClusters_results (s : State) (p : Nat) (owned : Nat → Nat → Bool) :
    (s.dropClusters p owned).results = s.results := by simp [State.dropClusters]
@[simp] theorem State.programBerths_results (s : State) (p : Nat) (rs : List BerthRange) (tag : Byte) (fresh : Bool) :
    (s.programBerths p rs tag fresh).results = s.results := by simp [State.programBerths]
@[simp] theorem State.copyImages_results (s : State) (p : Nat) (g : StepProgram) :
    (s.copyImages p g).results = s.results := by
  unfold State.copyImages
  repeat' split
  all_goals simp
@[simp] theorem State.setScratch_results (s : State) (die units : Nat) :
    (s.setScratch die units).results = s.results := by simp [State.setScratch]
@[simp] theorem State.wakeLinks_results (s : State) (old ports : List PortRec) :
    (s.wakeLinks old ports).results = s.results := by simp [State.wakeLinks]
@[simp] theorem State.darkenExtras_results (s : State) (ports : List PortRec) :
    (s.darkenExtras ports).results = s.results := by simp [State.darkenExtras]
@[simp] theorem State.commitTime_results (s : State) : s.commitTime.results = s.results := by rfl
@[simp] theorem State.sendStore_results (s : State) (p : Nat) : (s.sendStore p).results = s.results := by
  unfold State.sendStore; split <;> simp
@[simp] theorem State.installPart_results (s : State) (v : View) (p : Nat) (tag : Byte) :
    (s.installPart v p tag).results = s.results := by unfold State.installPart; split <;> simp
@[simp] theorem State.layCommitted_results (s before : State) (p : Nat) :
    (s.layCommitted before p).results = s.results := by unfold State.layCommitted; split <;> simp
@[simp] theorem State.programPart_results (s : State) (v : View) (p : Nat) (tag : Byte) (first : Bool) :
    (s.programPart v p tag first).results = s.results := by simp [State.programPart]
@[simp] theorem State.commitRecord_results (s : State) (p phase : Nat) :
    (s.commitRecord p phase).results = s.results := by simp [State.commitRecord]
@[simp] theorem State.commitPart_results (s : State) (p : Nat) : (s.commitPart p).results = s.results := by
  simp [State.commitPart]
@[simp] theorem State.partitionCommit_results (s : State) (p : Nat) : (s.partitionCommit p).results = s.results := by
  unfold State.partitionCommit
  repeat' split
  all_goals simp
@[simp] theorem State.routeSwitch_results (s : State) (p : Nat) : (s.routeSwitch p).results = s.results := by rfl
@[simp] theorem State.routeRetire_results (s : State) (p : Nat) : (s.routeRetire p).results = s.results := by rfl
@[simp] theorem State.routePhase_results (s : State) (p : Nat) : (s.routePhase p).results = s.results := by
  unfold State.routePhase; split <;> simp
@[simp] theorem State.amendAction_results (s : State) (p : Nat) (halted : Bool) :
    (s.amendAction p halted).results = s.results := by simp [State.amendAction]
@[simp] theorem State.setLimits_results (s : State) (f : Limits → Limits) : (s.setLimits f).results = s.results := by
  rfl
@[simp] theorem State.release_results (s : State) (die : Nat) : (s.release die).results = s.results := by rfl
@[simp] theorem State.tideStop_results (s : State) : s.tideStop.results = s.results := by rfl
@[simp] theorem State.tideOffer_results (s : State) (p : Nat) : (s.tideOffer p).2.results = s.results := by rfl
@[simp] theorem State.closeEnergy_results (s : State) (p : Nat) (trained : Bool) :
    (s.closeEnergy p trained).results = s.results := by simp [State.closeEnergy]
@[simp] theorem State.ladingStep_results (s : State) (p : Nat) (replayed skipped : Bool) (result : Nat) (data : Bytes) :
    (s.ladingStep p replayed skipped result data).results = s.results := by simp [State.ladingStep]
@[simp] theorem State.partnerId_results (s : State) (p : Nat) : (s.partnerId p).2.results = s.results := by
  unfold State.partnerId; simp only []
  repeat' split
  all_goals simp
@[simp] theorem State.secError_results (s : State) (b : Nat) : (s.secError b).results = s.results := by rfl
@[simp] theorem State.ladingIssue_results (s : State) (p : Nat) : (s.ladingIssue p).results = s.results := by
  simp [State.ladingIssue]
@[simp] theorem State.ladingAuto_results (s : State) (p : Nat) : (s.ladingAuto p).results = s.results := by
  simp [State.ladingAuto]
@[simp] theorem State.takePn_results (s : State) (dst : Bytes) : (s.takePn dst).2.results = s.results := by
  unfold State.takePn
  repeat' split
  all_goals simp
@[simp] theorem State.frameBoundary_results (s : State) (n : Nat) : (s.frameBoundary n).results = s.results := by rfl
@[simp] theorem State.ownPrio_results (s : State) (field : Nat) : (s.ownPrio field).2.results = s.results := by rfl
@[simp] theorem State.sendWaiting_results (fuel : Nat) (served : Sparse Nat) (s : State) :
    (State.sendWaiting fuel served s).results = s.results := by
  induction fuel generalizing served s with
  | zero => rfl
  | succ fuel ih => unfold State.sendWaiting; simp only []; split <;> simp [ih]
@[simp] theorem State.flushTx_results (s : State) : s.flushTx.results = s.results := by simp [State.flushTx]
@[simp] theorem State.queueFrame_results (s : State) (prio : Nat) (f : Bytes) :
    (s.queueFrame prio f).results = s.results := by simp [State.queueFrame]
@[simp] theorem State.sendFrame_results (s : State) (prio : Nat) (f : Bytes) :
    (s.sendFrame prio f).results = s.results := by simp [State.sendFrame]
@[simp] theorem State.numberFrame_results (s : State) : s.numberFrame.2.results = s.results := by rfl
@[simp] theorem State.addRead_results (s : State) (r : FetchRead) : (s.addRead r).results = s.results := by rfl
@[simp] theorem State.startRead_results (s : State) (r : FetchRead) (pos : Nat) (x : DataSource) :
    (s.startRead r pos x).results = s.results := by simp [State.startRead]
@[simp] theorem State.retryRead_results (s : State) (r : FetchRead) : (s.retryRead r).results = s.results := by
  unfold State.retryRead; split <;> simp
@[simp] theorem State.issueRead_results (s : State) (p : Nat) (f : MbFetch) (j : Nat × Nat) :
    (s.issueRead p f j).results = s.results := by
  unfold State.issueRead; simp only []; split <;> simp
@[simp] theorem State.pumpOne_results (s : State) (p : Nat) (f : MbFetch) : (s.pumpOne p f).results = s.results := by
  unfold State.pumpOne
  refine (State.results_congr (State.modFetch_parts ..)).trans (State.results_foldl_snd _ (fun acc j => ?_) _ _)
  split <;> simp
@[simp] theorem State.pumpFetch_results (s : State) (p : Nat) : (s.pumpFetch p).results = s.results := by
  unfold State.pumpFetch; split <;> simp
@[simp] theorem State.formDigest_results (s : State) (p : Nat) : (s.formDigest p).results = s.results := by
  unfold State.formDigest; split <;> simp
@[simp] theorem State.compose_results (s : State) (p kind : Nat) (step : DWord) (rs : List (Half × Bytes)) :
    (s.compose p kind step rs).2.results = s.results := by simp [State.compose]
@[simp] theorem State.logCommand_results (s : State) (p lba blocks : Nat) :
    (s.logCommand p lba blocks).2.results = s.results := by simp [State.logCommand]
@[simp] theorem State.dataCommand_results (s : State) (p : Nat) (op : NvmeOp) (lba skip blocks : Nat) :
    (s.dataCommand p op lba skip blocks).2.results = s.results := by simp [State.dataCommand]
@[simp] theorem State.ringPlace_results (s : State) (blocks : Nat) : (s.ringPlace blocks).2.results = s.results := by
  rfl
@[simp] theorem State.submit_results (s : State) (p : Nat) (step : Bool) (e : Bytes) :
    (s.submit p step e).2.results = s.results := by simp [State.submit]
@[simp] theorem State.ringForced_results (s : State) (p : Nat) : (s.ringForced p).results = s.results := by
  simp [State.ringForced]
@[simp] theorem State.writeEntry_results (s : State) (p kind : Nat) (rs : List (Half × Bytes)) :
    (s.writeEntry p kind rs).results = s.results := by
  rw [State.writeEntry]; split
  next e t ht =>
    have ht := State.results_of_eq (s.compose_results ..) ht
    split
    next ok u hu =>
      have hu := State.results_of_eq (t.submit_results ..) hu
      split
      · exact hu.trans ht
      · rw [State.ringForced_results]; exact hu.trans ht
@[simp] theorem State.snapImage_results (s : State) (p : Nat) (slot : Bool) :
    (s.snapImage p slot).2.results = s.results := by rfl
@[simp] theorem State.snapRecord_results (s : State) (p : Nat) (step : DWord) (slot : Bool) (state : Nat)
    (digest : Bytes) :
    (s.snapRecord p step slot state digest).results = s.results := by rfl
@[simp] theorem State.capture_results (s : State) (p : Nat) (forced : Bool) :
    (s.capture p forced).2.results = s.results := by unfold State.capture; split <;> simp
@[simp] theorem State.releasePart_results (s : State) (p : Nat) : (s.releasePart p).results = s.results := by
  simp [State.releasePart]
@[simp] theorem State.beginStep_results (s : State) (p : Nat) : (s.beginStep p).results = s.results := by
  simp [State.beginStep]
@[simp] theorem State.takeExcusals_results (s : State) (p : Nat) : (s.takeExcusals p).results = s.results := by
  simp [State.takeExcusals]
@[simp] theorem State.tryBegin_results (s : State) (p : Nat) : (s.tryBegin p).results = s.results := by
  simp [State.tryBegin]
@[simp] theorem State.closeAlways_results (s : State) (p : Nat) (replayed : Bool) :
    (s.closeAlways p replayed).results = s.results := by simp [State.closeAlways]
@[simp] theorem State.enterFillWait_results (s : State) (p : Nat) : (s.enterFillWait p).results = s.results := by
  unfold State.enterFillWait; simp only []; split <;> simp
@[simp] theorem State.fillAfter_results (s : State) (p : Nat) : (s.fillAfter p).results = s.results := by
  simp [State.fillAfter]
@[simp] theorem State.closeStep_results (s : State) (p : Nat) : (s.closeStep p).results = s.results := by
  unfold State.closeStep; simp only []; split <;> simp
@[simp] theorem State.entryHalted_results (s : State) (p : Nat) : (s.entryHalted p).results = s.results := by
  simp [State.entryHalted]
@[simp] theorem State.deferSnapshot_results (s : State) (p : Nat) : (s.deferSnapshot p).results = s.results := by
  simp [State.deferSnapshot]
@[simp] theorem State.entryAction_results (s : State) (p : Nat) : (s.entryAction p).results = s.results := by
  rw [State.entryAction]; split
  next e t ht =>
    have ht := State.results_of_eq (s.compose_results ..) ht
    simp [ht]
@[simp] theorem State.snapAction_results (s : State) (p : Nat) : (s.snapAction p).results = s.results := by
  simp [State.snapAction]
@[simp] theorem State.replayDone_results (s : State) (p : Nat) : (s.replayDone p).results = s.results := by
  simp [State.replayDone]
@[simp] theorem State.replayMismatch_results (s : State) (p type : Nat) :
    (s.replayMismatch p type).results = s.results := by
  rw [State.replayMismatch, State.haltWith_results, State.modPart_results,
    State.results_congr (State.modSeq_parts ..), State.writeEntry_results, State.results_congr (State.modLog_parts ..),
    State.results_congr (State.raiseJr_parts ..), State.recovery_results]
  exact fun x => ⟨rfl, rfl, rfl, rfl⟩
@[simp] theorem State.replayClose_results (s : State) (p : Nat) (r : ReplayStep) :
    (s.replayClose p r).results = s.results := by
  unfold State.replayClose; simp only []
  repeat' split
  all_goals simp
@[simp] theorem State.replayCompare_results (s : State) (p : Nat) : (s.replayCompare p).results = s.results := by
  unfold State.replayCompare; simp only []
  repeat' split
  all_goals simp
@[simp] theorem State.replayCommits_results (s : State) (p : Nat) (r : ReplayStep) :
    (s.replayCommits p r).results = s.results := by
  unfold State.replayCommits
  rw [State.amendCheck_results]
  refine State.results_foldl _ (fun s b => ?_) _ _
  split <;> simp
@[simp] theorem State.peerAgrees_results (s : State) : s.peerAgrees.2.results = s.results := by rfl
@[simp] theorem State.tellKeeper_results (s : State) (p : Nat) : (s.tellKeeper p).2.results = s.results := by
  simp [State.tellKeeper]
@[simp] theorem State.keeperSize_results (s : State) (p : Nat) : (s.keeperSize p).results = s.results := by
  simp [State.keeperSize]
@[simp] theorem State.tellSize_results (s : State) (p old : Nat) : (s.tellSize p old).results = s.results := by
  simp [State.tellSize]
@[simp] theorem State.commitAction_results (s : State) (p : Nat) : (s.commitAction p).results = s.results := by
  unfold State.commitAction; split <;> simp

end Sys2Proof.Machine
end

section
/-!
The first two actions of slack water (Table 12.8): the detection record with its events (R194, R203), and the exchange and the
comparison of the state digests (R439, R440).
-/

namespace Sys2Proof.Machine

/-! ## Action 1: the detection record (R194, R201, R441) -/

theorem State.modLog_same (s : State) (p : Nat) (f : StepLog → StepLog) : SameBut [.runs] s (s.modLog p f) := by
  unfold State.modLog
  exact State.modRun_same ..

theorem State.modSeq_same (s : State) (p : Nat) (f : Sequencer → Sequencer) : SameBut [.runs] s (s.modSeq p f) := by
  unfold State.modSeq
  exact State.modRun_same ..

theorem State.addRecord_same (s : State) (p type : Nat) (b : Bytes) : SameBut [.runs] s (s.addRecord p type b) := by
  unfold State.addRecord
  exact State.modLog_same ..

theorem State.send_same (s : State) (p : Nat) (n : Notice) : SameBut [.jr] s (s.send p n) := by
  constructor; intro f hf; cases f
  case jr => exact absurd (List.mem_singleton.2 rfl) hf
  all_goals rfl

theorem State.modPart_same (s : State) (p : Nat) (f : Part → Part) : SameBut [.parts] s (s.modPart p f) := by
  constructor; intro f hf; cases f
  case parts => exact absurd (List.mem_singleton.2 rfl) hf
  all_goals rfl

/-- The detector as the record of the step shows it: a step that halts or is skipped takes no loss in (R194). -/
def State.detects (s : State) (p : Nat) : Detector :=
  if (s.seq p).halts || (s.seq p).skips then s.det p
  else (s.det p).takeLoss (match s.cfg? p with
    | some c => max 1 c.policy.spikeWindow
    | none => 1)

/-- The record of the step is formed and kept, before its events. -/
def State.formRecord (s : State) (p : Nat) : State :=
  let b := detectionBytes (s.part p).step (s.seq p) (s.detects p)
  ((s.modDet p (fun _ => s.detects p)).modPart p (fun x => { x with detect := b })).addRecord p recDetection b

theorem State.formRecord_same (s : State) (p : Nat) : SameBut [.parts, .runs] s (s.formRecord p) :=
  (((s.modRun_same p _).mono (by decide)).then (State.modPart_same _ p _) (by decide)).then (State.addRecord_same ..)
    (by decide)

theorem State.part_formRecord (s : State) (p : Nat) :
    (s.formRecord p).part p
      = { s.part p with detect := detectionBytes (s.part p).step (s.seq p) (s.detects p) } := by
  rw [State.formRecord, State.part_congr ((State.addRecord_same ..).same .parts (by decide)), State.part_modPart,
    if_pos rfl, State.part_congr (State.modDet_parts ..)]

theorem State.log_formRecord (s : State) (p : Nat) : ∃ rs, (s.formRecord p).log p = { s.log p with records := rs } := by
  refine ⟨(s.log p).records ++ [(BitVec.ofNat 16 recDetection,
    detectionBytes (s.part p).step (s.seq p) (s.detects p))], ?_⟩
  rw [State.formRecord, State.addRecord, State.log_modLog, if_pos rfl]
  rw [State.log, State.run_congr (State.modPart_runs ..), State.modDet, State.run_modRun, if_pos rfl]; rfl

/-- Events alone have been told, behind those that wait on the ring. -/
structure State.OnlyTells (s t : State) : Prop where
  same : SameBut [.events] s t
  ring : s.events.ring ⊆ t.events.ring

theorem State.OnlyTells.trans {s t u : State} (h : s.OnlyTells t) (g : t.OnlyTells u) : s.OnlyTells u :=
  ⟨h.same.trans g.same, List.Subset.trans h.ring g.ring⟩

theorem State.hold_ring (s : State) (r : EventRec) : (s.hold r).events.ring = s.events.ring := by
  unfold State.hold
  split
  · split <;> rfl
  · rfl

/-- While records are accepted, a die's record comes last on the ring (R40). -/
theorem State.raiseDie_ring (s : State) (code die : Nat) (part : Option Nat) (b : Bytes) (h : s.reporting = true) :
    (s.raiseDie code die part b).events.ring = s.events.ring ++ [s.record code die part b false] := by
  simp [State.raiseDie, h]

theorem State.raiseStep_onlyTells (s : State) (code p : Nat) (b : Bytes) : s.OnlyTells (s.raiseStep code p b) := by
  refine ⟨State.raiseDie_same .., ?_⟩
  by_cases h : s.reporting = true
  · rw [State.raiseStep, State.raiseDie_ring _ _ _ _ _ h]
    exact List.subset_append_left _ _
  · simp [State.raiseStep, State.raiseDie, h, State.hold_ring]

theorem State.raisedAt_raiseStep (s : State) (code p : Nat) (b : Bytes) : RaisedAt s (s.raiseStep code p b) code gwIndex := by
  intro h
  rw [State.raiseStep, State.raiseDie_ring _ _ _ _ _ h]
  exact ⟨_, List.mem_append_right _ (List.mem_singleton.2 rfl), rfl, rfl⟩

theorem State.onlyTells_if (s : State) (c : Prop) [Decidable c] (code p : Nat) (b : Bytes) :
    s.OnlyTells (if c then s.raiseStep code p b else s) := by
  split
  · exact s.raiseStep_onlyTells code p b
  · exact ⟨SameBut.refl _ s, List.Subset.refl _⟩

/-- What the record shows as counted is told, where it is not 0 (R203). -/
def State.tellCount (s : State) (p : Nat) (d : Detector) : State :=
  if d.count ≠ 0 then s.raiseStep 0xB010 p (wordLe 4 d.count ++ natLe 1 d.mask.toNat) else s

/-- The record's events come after it: that of the counts, and those of the verdict and the spike test. -/
theorem State.detection_onlyTells (s : State) (p : Nat) :
    ((s.formRecord p).tellCount p (s.detects p)).OnlyTells (s.detection p) := by
  have h := fun u c (_ : Decidable c) code b => State.onlyTells_if u c code p b
  exact ((((h _ _ _ _ _).trans (h _ _ _ _ _)).trans (h _ _ _ _ _)).trans (h _ _ _ _ _)).trans (h _ _ _ _ _)

theorem State.tellCount_onlyTells (s : State) (p : Nat) (d : Detector) : s.OnlyTells (s.tellCount p d) :=
  State.onlyTells_if ..

/-- Action 1 forms the record and tells its events. -/
theorem State.detection_same (s : State) (p : Nat) : SameBut [.events] (s.formRecord p) (s.detection p) :=
  ((s.formRecord p).tellCount_onlyTells p _).trans (s.detection_onlyTells p) |>.same

theorem Detector.takeLoss_count (d : Detector) (window : Nat) : (d.takeLoss window).count = d.count := by
  unfold Detector.takeLoss
  split
  · rfl
  · split <;> rfl

theorem State.detects_count (s : State) (p : Nat) : (s.detects p).count = (s.det p).count := by
  unfold State.detects
  split
  · rfl
  · exact Detector.takeLoss_count ..

theorem State.reporting_congr {s t : State} (hhm : t.hm = s.hm) (haux : t.hmAux = s.hmAux) :
    t.reporting = s.reporting := by simp only [State.reporting, hhm, haux]

theorem State.raisedAt_detection (s : State) (p : Nat) (h : (s.det p).count ≠ 0) :
    RaisedAt s (s.detection p) 0xB010 gwIndex := by
  intro hrep
  have hform : (s.formRecord p).reporting = true :=
    (State.reporting_congr ((s.formRecord_same p).same .hm (by decide))
      ((s.formRecord_same p).same .hmAux (by decide))).trans hrep
  have hring := (s.detection_onlyTells p).ring
  rw [State.tellCount, if_pos (s.detects_count p ▸ h)] at hring
  obtain ⟨r, hr, hcode⟩ := (s.formRecord p).raisedAt_raiseStep 0xB010 p _ hform
  exact ⟨r, hring hr, hcode⟩

/-! ## Action 2: the digests (R439, R440) -/

theorem State.stateRecord_results (s : State) (p : Nat) (own partner : Bytes) (r : Nat) :
    (s.stateRecord p own partner r).results = s.results := State.addRecord_results ..

theorem State.forceHalt_results (s : State) (p cause : Nat) : (s.forceHalt p cause).results = s.results := by
  rw [State.forceHalt, State.results_congr (State.modSeq_parts ..), State.haltWith_results]

/-- The comparison of the digests is what the registers of the partition keep of it, whatever follows. -/
theorem State.compareDigests_results (s : State) (p : Nat) (own partner : Bytes) :
    (s.compareDigests p own partner).results p =
      { detect := (s.part p).detect, cadence := (s.part p).cadence, lastEqual := decide (own = partner),
        mismatch := if own = partner then (s.part p).mismatch else true } := by
  have hmod : ∀ f, (s.modPart p f).part p = f (s.part p) := fun f => by rw [State.part_modPart, if_pos rfl]
  unfold State.compareDigests
  split
  next heq =>
    rw [State.commitAction_results, State.stateRecord_results, State.results_apply, hmod, decide_eq_true heq]
    rfl
  next hne =>
    rw [State.commitAction_results, State.stateRecord_results, State.forceHalt_results,
      State.results_congr (State.raiseJr_parts ..), State.results_apply, hmod, decide_eq_false hne]
    rfl

/-- Whatever way action 2 goes, the detection record and the cadence stay. -/
theorem State.digestAction_keeps (s : State) (p : Nat) :
    ((s.digestAction p).part p).detect = (s.part p).detect ∧ ((s.digestAction p).part p).cadence = (s.part p).cadence := by
  have hkept : ∀ u : State, u.results p = s.results p →
      (u.part p).detect = (s.part p).detect ∧ (u.part p).cadence = (s.part p).cadence := fun u h =>
    ⟨congrArg SlackResults.detect h, congrArg SlackResults.cadence h⟩
  unfold State.digestAction
  split
  · exact hkept _ (by rw [State.commitAction_results, State.stateRecord_results])
  · split
    · exact hkept _ (by rw [State.digestAlone, State.commitAction_results, State.stateRecord_results])
    · simp only []
      split
      · next d _ =>
        have h := State.compareDigests_results ((s.send p (.digest (s.part p).step
          (s.shardDigest p ++ s.mirrorDigest p))).modLog p (fun l => { l with ownDigest := some (s.shardDigest p) })) p
          (s.shardDigest p) d
        exact ⟨congrArg SlackResults.detect h, congrArg SlackResults.cadence h⟩
      · exact hkept _ (by
          rw [State.results_congr (State.modSeq_parts ..), State.results_congr (State.modLog_parts ..), State.send_results])

/-- With a partner that is there and has sent nothing yet, both digests go to it, and slack water waits for its own. -/
theorem State.digestAction_waits (s : State) (p : Nat) (hm : (s.mirror? p).isSome = true)
    (hlost : (s.part p).partnerLost = false) (hnone : (s.log p).partnerDigest = none) :
    s.digestAction p = ((s.send p (.digest (s.part p).step (s.shardDigest p ++ s.mirrorDigest p))).modLog p
      (fun l => { l with ownDigest := some (s.shardDigest p) })).modSeq p (fun q => { q with phase := .slack 2 }) := by
  obtain ⟨m, hm⟩ := Option.isSome_iff_exists.1 hm
  have hlog : (((s.send p (.digest (s.part p).step (s.shardDigest p ++ s.mirrorDigest p))).modLog p
      (fun l => { l with ownDigest := some (s.shardDigest p) })).log p).partnerDigest = none := by
    rw [State.log_modLog, if_pos rfl]; exact hnone
  simp only [State.digestAction, hm, hlost, Bool.false_eq_true, if_false, hlog]

/-! ## Slack water opens -/

theorem State.slackOpen_still (s : State) (p : Nat)
    (h : (s.seq p).phase ≠ .ended ∨ s.stepBusy p = true ∨ s.hmAux.restarting = true) : s.slackOpen p = s := if_pos h

/-- A step without a halt opens its slack water: the cadence is taken, and actions 1 and 2 follow. -/
theorem State.slackOpen_eq (s : State) (p : Nat) (hphase : (s.seq p).phase = .ended) (hbusy : s.stepBusy p = false)
    (hrest : s.hmAux.restarting = false) (happly : (s.det p).applyHalt = false) (hcause : (s.seq p).cause = 0) :
    s.slackOpen p = ((s.takeCadence p).detection p).digestAction p := by
  have hd : ((s.takeCadence p).det p).applyHalt = false := happly
  have hc : ((s.takeCadence p).seq p).cause = 0 := hcause
  simp [State.slackOpen, hphase, hbusy, hrest, hd, hc]

theorem State.part_takeCadence (s : State) (p : Nat) : (s.takeCadence p).part p = { s.part p with
    cadence := BitVec.ofNat 32 (if (s.part p).sharedFeed then (s.recoveryOf p).cofeedEvery
      else (s.recoveryOf p).snapshotEvery) } := by
  rw [State.takeCadence, State.part_modPart, if_pos rfl]

/-- A step that is neither halted nor skipped has its loss taken in (R194). -/
theorem State.detects_trained (s : State) (p : Nat) (c : PartCfg) (hcfg : s.cfg? p = some c) (hcause : (s.seq p).cause = 0)
    (hverdict : (s.seq p).verdict ≠ some .skip) :
    s.detects p = (s.det p).takeLoss (max 1 c.policy.spikeWindow) := by
  simp [State.detects, Sequencer.halts, Sequencer.skips, hcause, hverdict, hcfg]

/-- A partition of which a step ends with its cadence taken and its detection record formed. -/
def State.opened (s : State) (p : Nat) : State := (s.takeCadence p).detection p

theorem State.opened_same (s : State) (p : Nat) : SameBut [.events, .parts, .runs] s (s.opened p) :=
  (((State.modPart_same s p _).mono (by decide)).then (State.formRecord_same _ p) (by decide)).then
    (State.detection_same _ p) (by decide)

theorem State.part_opened (s : State) (p : Nat) (c : PartCfg) (hcfg : s.cfg? p = some c) (hcause : (s.seq p).cause = 0)
    (hverdict : (s.seq p).verdict ≠ some .skip) :
    (s.opened p).part p = { s.part p with
      cadence := BitVec.ofNat 32 (if (s.part p).sharedFeed then c.recovery.cofeedEvery else c.recovery.snapshotEvery)
      detect := detectionBytes (s.part p).step (s.seq p) ((s.det p).takeLoss (max 1 c.policy.spikeWindow)) } := by
  have htaken := s.part_takeCadence p
  have hcfg' : (s.takeCadence p).cfg? p = some c := by rw [State.cfg?, htaken]; exact hcfg
  have hdetects := (s.takeCadence p).detects_trained p c hcfg' hcause hverdict
  have hparts : (s.opened p).parts = ((s.takeCadence p).formRecord p).parts :=
    ((s.takeCadence p).detection_same p).same .parts (by decide)
  rw [State.part_congr hparts, State.part_formRecord, hdetects, htaken, State.recoveryOf, hcfg]
  rfl

theorem State.log_opened (s : State) (p : Nat) : ((s.opened p).log p).partnerDigest = (s.log p).partnerDigest := by
  have hruns : (s.opened p).runs = ((s.takeCadence p).formRecord p).runs :=
    ((s.takeCadence p).detection_same p).same .runs (by decide)
  obtain ⟨rs, hrs⟩ := (s.takeCadence p).log_formRecord p
  rw [State.log, State.run_congr hruns, ← State.log, hrs]
  rfl

/-- The digests are those of the memory and of what the Manifest gives the partition. -/
theorem State.digests_congr {s t : State} {p : Nat} (hcfg : t.cfg? p = s.cfg? p) (hmem : t.mem = s.mem) :
    t.shardDigest p = s.shardDigest p ∧ t.mirrorDigest p = s.mirrorDigest p := by
  constructor
  · simp only [State.shardDigest, State.shardRanges, hcfg, hmem]
  · simp only [State.mirrorDigest, State.mirror?, hcfg, hmem]

/-- Slack water of a step that is neither halted nor skipped. -/
theorem State.slackOpen_record (s : State) (p : Nat) (c : PartCfg) (hcfg : s.cfg? p = some c)
    (hopen : s.slackOpen p = (s.opened p).digestAction p) (hcause : (s.seq p).cause = 0)
    (hverdict : (s.seq p).verdict ≠ some .skip) :
    ((s.slackOpen p).part p).detect
        = detectionBytes (s.part p).step (s.seq p) ((s.det p).takeLoss (max 1 c.policy.spikeWindow))
      ∧ ((s.slackOpen p).part p).cadence = BitVec.ofNat 32 (if (s.part p).sharedFeed then c.recovery.cofeedEvery
          else c.recovery.snapshotEvery) := by
  obtain ⟨hdetect, hcadence⟩ := (s.opened p).digestAction_keeps p
  rw [s.part_opened p c hcfg hcause hverdict] at hdetect hcadence
  rw [hopen]
  exact ⟨hdetect, hcadence⟩

/-- Where a partner is there, both digests go to it and its own are awaited (R439). -/
theorem State.slackOpen_mirror (s : State) (p : Nat) (c : PartCfg) (hcfg : s.cfg? p = some c)
    (hopen : s.slackOpen p = (s.opened p).digestAction p) (hcause : (s.seq p).cause = 0)
    (hverdict : (s.seq p).verdict ≠ some .skip) (hm : c.mirror.isSome = true) (hlost : (s.part p).partnerLost = false)
    (hnone : (s.log p).partnerDigest = none) :
    ((s.slackOpen p).seq p).phase = .slack 2 ∧ ((s.slackOpen p).log p).ownDigest = some (s.shardDigest p)
      ∧ Sent1 p (.digest (s.part p).step (s.shardDigest p ++ s.mirrorDigest p)) s (s.slackOpen p)
      ∧ ((s.det p).count ≠ 0 → RaisedAt s (s.slackOpen p) 0xB010 gwIndex)
      ∧ SameBut [.events, .parts, .runs, .jr] s (s.slackOpen p) := by
  have hpart := s.part_opened p c hcfg hcause hverdict
  have hsame := s.opened_same p
  have hcfg' : (s.opened p).cfg? p = s.cfg? p := by rw [State.cfg?, hpart]; rfl
  have hmirror : ((s.opened p).mirror? p).isSome = true := by rw [State.mirror?, hcfg', hcfg]; exact hm
  have hlost' : ((s.opened p).part p).partnerLost = false := by rw [hpart]; exact hlost
  have hstep : ((s.opened p).part p).step = (s.part p).step := by rw [hpart]
  obtain ⟨hshard, hmir⟩ := State.digests_congr hcfg' (hsame.same .mem (by decide))
  have hjr : (s.opened p).jr = s.jr := hsame.same .jr (by decide)
  rw [hopen, (s.opened p).digestAction_waits p hmirror hlost' ((s.log_opened p).trans hnone), hshard, hmir, hstep]
  refine ⟨?_, ?_, ?_, fun hcount hrep => s.takeCadence p |>.raisedAt_detection p hcount hrep, ?_⟩
  · rw [State.seq_modSeq, if_pos rfl]
  · rw [State.log_modSeq, State.log_modLog, if_pos rfl]
  · show (s.opened p).jr.sent ++ _ = s.jr.sent ++ _
    rw [hjr]
  · exact (((hsame.mono (by decide)).then (State.send_same ..) (by decide)).then (State.modLog_same ..) (by decide)).then
      (State.modSeq_same ..) (by decide)

/-! ## The partner's digest arrives (R440) -/

/-- The partner's digest is kept. -/
def State.partnerHeld (s : State) (p : Nat) (d : Bytes) : State :=
  s.modLog p (fun l => { l with partnerDigest := some (padTo 48 d) })

theorem State.log_partnerHeld (s : State) (p : Nat) (d : Bytes) :
    (s.partnerHeld p d).log p = { s.log p with partnerDigest := some (padTo 48 d) } := by
  rw [State.partnerHeld, State.log_modLog, if_pos rfl]

theorem State.seq_partnerHeld (s : State) (p : Nat) (d : Bytes) : (s.partnerHeld p d).seq p = s.seq p :=
  State.seq_modLog ..

theorem State.partnerDigest_eq (s : State) (p : Nat) (d : Bytes) (hm : (s.mirror? p).isSome = true)
    (hlive : (s.part p).state.live = true) : s.partnerDigest p d = (s.partnerHeld p d).digestsMeet p := by
  simp [State.partnerDigest, State.partnerHeld, hlive, Option.isSome_iff_ne_none.1 hm]

theorem State.digestsMeet_early (s : State) (p : Nat) (h : (s.seq p).phase ≠ .slack 2) : s.digestsMeet p = s := by
  unfold State.digestsMeet
  split
  next hp _ _ => exact absurd hp h
  · rfl

theorem State.digestsMeet_both (s : State) (p : Nat) (own d : Bytes) (hp : (s.seq p).phase = .slack 2)
    (ho : (s.log p).ownDigest = some own) (hd : (s.log p).partnerDigest = some d) (hr : s.hmAux.restarting = false) :
    s.digestsMeet p = s.compareDigests p own d := by
  simp [State.digestsMeet, hp, ho, hd, hr]

/-! ## The two commands -/

theorem exec_slackWaterOpen (p : BitVec 6) (s : State) :
    exec (.slackWaterOpen p) s = .next (s.slackOpen p.toNat) := rfl

theorem exec_partnerDigestReceive (p : BitVec 6) (d : Bytes) (s : State) :
    exec (.partnerDigestReceive p d) s = .next (s.partnerDigest p.toNat d) := rfl

end Sys2Proof.Machine

open Sys2Proof Sys2Proof.Machine

/-- Settles O49: slack water goes on from action 1, whose record stays; the digests are compared when both are here, and nothing
that the step's end then does takes back what the comparison gave. -/
theorem slackWater : Obligations.SlackWater := by
  intro s p
  refine ⟨fun h => by rw [exec_slackWaterOpen, s.slackOpen_still p.toNat h],
    fun c hphase hbusy hrest happly hcause hcfg hverdict => ⟨_, exec_slackWaterOpen p s, ?_⟩,
    fun d hm hlive => ⟨fun hphase => ?_, ?_⟩⟩
  · have hopen := s.slackOpen_eq p.toNat hphase hbusy hrest happly hcause
    obtain ⟨hdetect, hcadence⟩ := s.slackOpen_record p.toNat c hcfg hopen hcause hverdict
    exact ⟨hdetect, hcadence, s.slackOpen_mirror p.toNat c hcfg hopen hcause hverdict⟩
  · have harrives := (s.partnerDigest_eq p.toNat d hm hlive).trans
      ((s.partnerHeld p.toNat d).digestsMeet_early p.toNat (by rw [State.seq_partnerHeld]; exact hphase))
    refine ⟨_, (exec_partnerDigestReceive p d s).trans (congrArg _ harrives), by rw [State.log_partnerHeld],
      fun q hq => ?_, State.modLog_same ..⟩
    rw [State.partnerHeld, State.modLog, State.run_modRun, if_neg hq.symm]
  · intro own hphase hown hrest
    have harrives := (s.partnerDigest_eq p.toNat d hm hlive).trans
      ((s.partnerHeld p.toNat d).digestsMeet_both p.toNat own (padTo 48 d) (by rw [State.seq_partnerHeld]; exact hphase)
        (by rw [State.log_partnerHeld]; exact hown) (by rw [State.log_partnerHeld]) hrest)
    have hresults := (s.partnerHeld p.toNat d).compareDigests_results p.toNat own (padTo 48 d)
    refine ⟨_, (exec_partnerDigestReceive p d s).trans (congrArg _ harrives),
      congrArg SlackResults.lastEqual hresults, fun hne => ?_⟩
    have hmismatch := congrArg SlackResults.mismatch hresults
    exact hmismatch.trans (if_neg hne)

end

section
/-!
The commands of MF_CONTROL (Table 2.12): a write that the Harbourmaster serves runs its command, a refused one changes MF_REJECT
alone (R63), and an amendment is over only when no berth keeps an old descriptor (R78).
-/

namespace Sys2Proof.Machine

/-! ## Served and refused commands (R63, R530) -/

theorem State.guardWrite_serves (s : State) (c : Instr) (b a : Nat) (k : State → State) (h : s.serves b) :
    s.guardWrite c b a k = k s := by
  obtain ⟨h0, hr, hb⟩ := h
  exact s.guardWrite_ready c b a k h0 hr hb

theorem exec_load (s : State) (h : s.serves readyHm) : exec .load s = .next s.mfLoad :=
  congrArg Host.Outcome.next (s.guardWrite_serves _ _ _ _ h)

theorem exec_discard (s : State) (h : s.serves readyHm) : exec .discard s = .next s.mfDiscard :=
  congrArg Host.Outcome.next (s.guardWrite_serves _ _ _ _ h)

theorem exec_commit (s : State) (h : s.serves readyHm) : exec .commit s = .next s.mfCommit :=
  congrArg Host.Outcome.next (s.guardWrite_serves _ _ _ _ h)

theorem exec_amend (s : State) (h : s.serves readyHm) : exec .amend s = .next s.mfAmend :=
  congrArg Host.Outcome.next (s.guardWrite_serves _ _ _ _ h)

theorem exec_withdraw (s : State) (h : s.serves readyHm) : exec .withdraw s = .next s.mfWithdraw :=
  congrArg Host.Outcome.next (s.guardWrite_serves _ _ _ _ h)

theorem State.modMf_same (s : State) (f : Mf → Mf) : SameBut [.mf] s (s.modMf f) := by
  constructor; intro f hf; cases f
  case mf => exact absurd (List.mem_singleton.2 rfl) hf
  all_goals rfl

theorem State.mfCode_same (s : State) (code : Nat) (x : Place) : SameBut [.mf] s (s.mfCode code x) :=
  s.modMf_same (fun m => { m with reject := BitVec.ofNat 32 (code + x.1 * 256 + x.2.1 * 65536),
                                  rejectDetail := BitVec.ofNat 32 x.2.2 })

theorem State.mfCode_mf (s : State) (code : Nat) (x : Place) : (s.mfCode code x).mf =
    { s.mf with reject := BitVec.ofNat 32 (code + x.1 * 256 + x.2.1 * 65536), rejectDetail := BitVec.ofNat 32 x.2.2 } := rfl

/-- A refusal names no section and no entry (Table 2.13). -/
theorem State.mfRefuse_notValid (s : State) :
    (s.mfRefuse 0x17).mf = { s.mf with reject := 0xFFFFFF17, rejectDetail := 0xFFFF } := rfl

theorem State.mfRefuse_busy (s : State) :
    (s.mfRefuse 0x16).mf = { s.mf with reject := 0xFFFFFF16, rejectDetail := 0xFFFF } := rfl

/-- What the statements say of a command that is refused with code 0x17, and with 0x16. -/
theorem State.refusal_notValid (s : State) (c : Instr) (h : exec c s = .next (s.mfRefuse 0x17)) :
    ∃ t, exec c s = .next t ∧ t.mf = { s.mf with reject := 0xFFFFFF17, rejectDetail := 0xFFFF } ∧ SameBut [.mf] s t :=
  ⟨_, h, s.mfRefuse_notValid, s.mfCode_same ..⟩

theorem State.refusal_busy (s : State) (c : Instr) (h : exec c s = .next (s.mfRefuse 0x16)) :
    ∃ t, exec c s = .next t ∧ t.mf = { s.mf with reject := 0xFFFFFF16, rejectDetail := 0xFFFF } ∧ SameBut [.mf] s t :=
  ⟨_, h, s.mfRefuse_busy, s.mfCode_same ..⟩

/-! ## A staged amendment whose commit does not end it -/

/-- The device has no partition, and an amendment is staged whose shadow Manifest has none. Berth 1 still holds an item of
partition 0 under its old descriptor. -/
def State.keepsOldDescriptor : State :=
  { State.reset with
    boot := { Boot.held with phase := .firmware }, hm := { Hm.zero with ready := 0x13 },
    mf := { Mf.zero with active := true, loadState := .committed, amendState := .staged },
    berths := [(1, Berth.oneOldItem)] }

theorem State.serves_keepsOldDescriptor : State.keepsOldDescriptor.serves readyHm := by unfold State.serves; decide

theorem State.commitReady_keepsOldDescriptor :
    State.keepsOldDescriptor.commitReady (View.of State.keepsOldDescriptor.mf.shadow) = true := by decide

theorem State.amendState_commit_keepsOldDescriptor :
    State.keepsOldDescriptor.mfCommit.mf.amendState = .committing := by decide +kernel

end Sys2Proof.Machine

open Sys2Proof Sys2Proof.Machine

/-- Refutes O15: the statement asks nothing of the berths. A commit of a staged amendment programs those of the device's partitions
and of the shadow Manifest's (R66, R72), and no other; an old descriptor in a berth whose partition is none of these stays, and
while a berth keeps one the amendment is not over (R78): it is COMMITTING still. -/
theorem not_manifestChecksAndCommit : ¬ Obligations.ManifestChecksAndCommit := by
  rintro ⟨-, h⟩
  obtain ⟨-, hstaged, -, -⟩ := h State.keepsOldDescriptor State.serves_keepsOldDescriptor
  obtain ⟨t, ht, -, -, hover, -⟩ := hstaged (by decide) rfl rfl rfl State.commitReady_keepsOldDescriptor
  have hrun : State.keepsOldDescriptor.mfCommit = t :=
    Host.Outcome.next.inj ((exec_commit _ State.serves_keepsOldDescriptor).symm.trans ht)
  rw [← hrun, State.amendState_commit_keepsOldDescriptor] at hover
  exact absurd hover (by decide)

end

section
/-!
What an event of the Harbourmaster leaves in the log (R40, R537, R538): a berth write touches no record of the log, so that a
raised record stands there, with the number that was next.
-/

namespace Sys2Proof.Machine

/-! ## A berth write leaves the log alone (R336 to R343) -/

@[simp] theorem State.hold_eventLog (s : State) (r : EventRec) : (s.hold r).events.log = s.events.log := by
  unfold State.hold
  split
  · split <;> rfl
  · rfl

@[simp] theorem State.raiseDie_eventLog (s : State) (code die : Nat) (part : Option Nat) (b : Bytes) (q : Bool) :
    (s.raiseDie code die part b q).events.log = s.events.log := by
  unfold State.raiseDie; simp only []
  split
  · rfl
  · exact s.hold_eventLog _

@[simp] theorem State.raiseBerth_eventLog (s : State) (quiet : Option Nat) (n code : Nat) (b : Bytes) :
    (s.raiseBerth quiet n code b).events.log = s.events.log := s.raiseDie_eventLog ..

@[simp] theorem State.ringStore_events (s : State) (c : BerthCfg) (a : Nat) (b : Bytes) :
    (s.ringStore c a b).events = s.events := (s.ringStore_same c a b).same .events (by decide)

@[simp] theorem State.putSlot_eventLog (s : State) (n cls flags valid producer : Nat) (step : DWord) (drops : Nat)
    (b : Bytes) : (s.putSlot n cls flags valid producer step drops b).events.log = s.events.log := by
  simp [State.putSlot]

theorem State.eventLog_ite (c : Prop) [Decidable c] (s t : State) :
    (if c then s else t).events.log = if c then s.events.log else t.events.log := 
  apply_ite (fun u : State => u.events.log) _ _ _

@[simp] theorem State.dropSlots_eventLog (s : State) (quiet : Option Nat) (n k : Nat) (step : DWord) :
    (s.dropSlots quiet n k step).events.log = s.events.log := by
  simp [State.dropSlots, State.eventLog_ite]

@[simp] theorem State.levelAfter_eventLog (quiet : Option Nat) (fuel n before : Nat) (step : DWord) (s : State) :
    (State.levelAfter fuel quiet n before step s).events.log = s.events.log := by
  induction fuel generalizing n before s with
  | zero => rfl
  | succ fuel ih => simp [State.levelAfter, State.eventLog_ite, ih]

@[simp] theorem State.level_eventLog (s : State) (quiet : Option Nat) (n before : Nat) (step : DWord) :
    (s.level quiet n before step).events.log = s.events.log := State.levelAfter_eventLog ..

@[simp] theorem State.enqueueSlot_eventLog (s : State) (quiet : Option Nat) (n : Nat) (m : BerthMsg) (i : Nat) :
    (s.enqueueSlot quiet n m i).events.log = s.events.log := by simp [State.enqueueSlot]

@[simp] theorem State.feed_eventLog (quiet : Option Nat) (n : Nat) (m : BerthMsg) (fuel i : Nat) (s : State) :
    (State.feed quiet n m fuel i s).2.events.log = s.events.log := by
  induction fuel generalizing i s with
  | zero => rfl
  | succ fuel ih =>
    unfold State.feed; simp only []
    split
    · simp [ih, State.eventLog_ite]
    · rfl

/-- A fold over any list keeps the log that each of its steps keeps. -/
theorem State.eventLog_foldl {α : Type} (f : State → α → State) (h : ∀ s a, (f s a).events.log = s.events.log)
    (l : List α) (s : State) : (l.foldl f s).events.log = s.events.log := by
  induction l generalizing s with
  | nil => rfl
  | cons a l ih => rw [List.foldl_cons, ih, h]

@[simp] theorem State.fillFree_eventLog (s : State) (n : Nat) (b : Bytes) :
    (s.fillFree n b).events.log = s.events.log :=
  State.eventLog_foldl _ (fun _ _ => by simp) _ s

@[simp] theorem State.acceptMessage_eventLog (s : State) (quiet : Option Nat) (n : Nat) (m : BerthMsg) :
    (s.acceptMessage quiet n m).events.log = s.events.log := by
  unfold State.acceptMessage; simp only []
  split
  · split
    · exact State.eventLog_foldl _ (fun _ _ => by simp) _ s
    · simp
  · split
    · split <;> simp
    · simp

@[simp] theorem State.berthWrite_eventLog (s : State) (quiet : Option Nat) (n : Nat) (m : BerthMsg) :
    (s.berthWrite quiet n m).2.events.log = s.events.log := by
  unfold State.berthWrite; simp only []
  repeat' split
  all_goals simp

@[simp] theorem State.toBerth_eventLog (s : State) (r : EventRec) : (s.toBerth r).events.log = s.events.log := by
  unfold State.toBerth
  split
  · exact s.berthWrite_eventLog ..
  · rfl

@[simp] theorem State.signal_eventLog (s : State) (r : EventRec) : (s.signal r).events.log = s.events.log := by
  obtain ⟨p, hp⟩ := s.signal_events r
  rw [hp]

/-! ## An accepted record (R40, R538) -/

/-- A record enters the log behind every other; an unread one is lost only where the log is full. -/
theorem Events.append_log (e : Events) (r : EventRec) :
    ∃ pre, (e.append r).2.log = pre ++ [{ ev := r, read := false }] ∧ ((e.append r).1 = true → pre ≠ []) := by
  unfold Events.append; simp only []
  split
  · exact ⟨e.log, rfl, fun h => nomatch h⟩
  · next hfull =>
    have hlen : 4096 ≤ e.log.length := by
      rw [List.length_append, List.length_singleton, logCapacity] at hfull
      omega
    refine ⟨e.log.drop 1, List.drop_append_of_le_length (by omega), fun _ hnil => ?_⟩
    have := congrArg List.length hnil
    simp only [List.length_drop, List.length_nil] at this
    omega

/-- It displaces the oldest record alone. -/
theorem Events.mem_append_log (e : Events) (r : EventRec) {l : LogRec} (h : l ∈ e.log.tail) : l ∈ (e.append r).2.log := by
  unfold Events.append; simp only []
  split
  · exact List.mem_append_left _ (List.mem_of_mem_tail h)
  · rw [List.drop_one, List.tail_append_of_ne_nil (List.ne_nil_of_mem (List.mem_of_mem_tail h))]
    exact List.mem_append_left _ h

theorem State.acceptOne_eventLog (s : State) (r : EventRec) :
    (s.acceptOne r).2.events.log
      = (({ s.events with seq := s.events.seq + 1 } : Events).append { r with seq := s.events.seq }).2.log := by
  simp [State.acceptOne]

/-- An accepted record stands in the log under the next number, also where its entry makes the loss of another be told. -/
theorem State.mem_accept (s : State) (r : EventRec) :
    { ev := { r with seq := s.events.seq }, read := false } ∈ (s.accept r).events.log := by
  obtain ⟨pre, hlog, hlost⟩ := ({ s.events with seq := s.events.seq + 1 } : Events).append_log { r with seq := s.events.seq }
  rw [← State.acceptOne_eventLog] at hlog
  unfold State.accept; simp only []
  split
  next h =>
    have hpre : pre ≠ [] := hlost (by simp only [Bool.and_eq_true] at h; exact h.1)
    rw [State.acceptOne_eventLog]
    refine Events.mem_append_log _ _ ?_
    show _ ∈ (s.acceptOne r).2.events.log.tail
    rw [hlog, List.tail_append_of_ne_nil hpre]
    exact List.mem_append_right _ (List.mem_singleton.2 rfl)
  next => rw [hlog]; exact List.mem_append_right _ (List.mem_singleton.2 rfl)

/-- An event of the Harbourmaster is reported (R40, R537). -/
theorem State.reports_raiseHm (s : State) (code : Nat) (part : Option Nat) (b : Bytes) :
    Reports s (s.raiseHm code part b) code := by
  intro hrep
  have hraise : s.raiseHm code part b = s.accept (s.record code 0 part b false) := by
    simp [State.raiseHm, State.raise, hrep]
  rw [hraise]
  exact ⟨_, s.mem_accept _, rfl, rfl⟩

/-- It is one of the command's first, where nothing before it touches events or what decides that they are reported. -/
theorem Reports.of_before {s u t : State} {code : Nat} (hhm : u.hm = s.hm) (haux : u.hmAux = s.hmAux)
    (hevents : u.events = s.events) (h : Reports u t code) : Reports s t code := by
  intro hrep
  rw [← hevents]
  exact h ((State.reporting_congr hhm haux).trans hrep)

end Sys2Proof.Machine

end

section
/-!
The states of an amendment (R60, R69, R73): what AMEND, the checks and WITHDRAW leave of MF_ and of the rest.
-/

namespace Sys2Proof.Machine

/-! ## Reports of the Manifest block -/

theorem State.modMfAux_same (s : State) (f : MfAux → MfAux) : SameBut [.mfAux] s (s.modMfAux f) := by
  constructor; intro f hf; cases f
  case mfAux => exact absurd (List.mem_singleton.2 rfl) hf
  all_goals rfl

/-- A command that writes MF_ and then raises its event. -/
theorem State.raisedAfterMf {fs : List Field} {s u : State} (h : SameBut fs s u) (hfs : fs ⊆ [.mf, .mfAux]) (code : Nat)
    (part : Option Nat) (b : Bytes) :
    (u.raiseHm code part b).mf = u.mf ∧ Reports s (u.raiseHm code part b) code
      ∧ SameBut (fs ++ eventFields) s (u.raiseHm code part b) := by
  have hout : ∀ f ∉ [Field.mf, .mfAux], f.same s u := fun f hf => h.same f (fun hm => hf (hfs hm))
  exact ⟨State.raiseHm_mf .., (u.reports_raiseHm code part b).of_before (hout .hm (by decide)) (hout .hmAux (by decide))
    (hout .events (by decide)), (h.mono (fun _ => List.mem_append_left _)).then (State.raiseHm_same ..)
    (fun _ => List.mem_append_right _)⟩

/-- What a feed warning changes. -/
abbrev warnFields : List Field := .mf :: eventFields

/-- A mirror partner on the device's own feed is told of (R64). -/
def State.feedWarning (s : State) (p partner : Nat) : State :=
  (s.modMf (fun x => { x with warn := setBit x.warn 0 })).raiseHm 0x3008 (some p) (natLe 1 p ++ natLe 2 partner)

theorem State.feedWarning_same (s : State) (p partner : Nat) : SameBut warnFields s (s.feedWarning p partner) :=
  ((s.modMf_same _).mono (by decide)).then (State.raiseHm_same ..) (by decide)

/-- Two states whose MF_ blocks differ in MF_WARN alone. -/
def State.OnlyWarns (s t : State) : Prop := SameBut warnFields s t ∧ ∃ w, t.mf = { s.mf with warn := w }

theorem State.OnlyWarns.refl (s : State) : s.OnlyWarns s := ⟨SameBut.refl _ s, s.mf.warn, rfl⟩

theorem State.OnlyWarns.trans {s t u : State} (h : s.OnlyWarns t) (g : t.OnlyWarns u) : s.OnlyWarns u := by
  obtain ⟨hsame, v, hmf⟩ := h
  obtain ⟨gsame, w, gmf⟩ := g
  exact ⟨hsame.trans gsame, w, by rw [gmf, hmf]⟩

theorem State.feedWarning_onlyWarns (s : State) (p partner : Nat) : s.OnlyWarns (s.feedWarning p partner) :=
  ⟨s.feedWarning_same p partner, setBit s.mf.warn 0, State.raiseHm_mf ..⟩

theorem State.feedWarnings_onlyWarns (s : State) (v : View) : s.OnlyWarns (s.feedWarnings v) := by
  unfold State.feedWarnings
  generalize List.range v.partCount = ps
  induction ps generalizing s with
  | nil => exact .refl s
  | cons p ps ih =>
    rw [List.foldl_cons]
    refine State.OnlyWarns.trans ?_ (ih _)
    split
    · split
      · exact s.feedWarning_onlyWarns p _
      · exact .refl s
    · exact .refl s

/-! ## AMEND (R60, R63) -/

theorem State.mfAmend_busy (s : State) (h : s.mf.amendState.busy = true) : s.mfAmend = s.mfRefuse 0x16 := if_pos h

theorem State.mfAmend_taken (s : State) (hreceiving : s.mf.loadState = .receiving) (hbytes : s.amendBytes = true)
    (hidle : s.mf.amendState.busy = false) :
    s.mfAmend = s.modMf (fun m =>
      { m with loadState := s.restState, amendState := .checking, slotHeld := true, owner := none }) := by
  simp [State.mfAmend, hreceiving, hbytes, hidle]

/-! ## The checks of an amendment (R69) -/

/-- An amendment that fails: the incoming slot is given up, and MF_REJECT says what failed. -/
def State.amendRejected (s : State) (code : Nat) (x : Place) : State :=
  (s.mfCode code x).modMf (fun m => { m with amendState := .rejected, slotHeld := false, incoming := [] })

theorem State.amendRejected_mf (s : State) (code : Nat) (x : Place) : (s.amendRejected code x).mf =
    { s.mf with amendState := .rejected, slotHeld := false, incoming := [],
                reject := BitVec.ofNat 32 (code + x.1 * 256 + x.2.1 * 65536), rejectDetail := BitVec.ofNat 32 x.2.2 } := rfl

theorem State.amendRejected_same (s : State) (code : Nat) (x : Place) : SameBut [.mf] s (s.amendRejected code x) :=
  (s.mfCode_same code x).trans (State.modMf_same ..)

theorem State.amendChecked_fails (s : State) (h : s.mf.amendState = .checking) (code : Nat) (x : Place)
    (hx : s.amendChecks (View.of s.mf.activeBytes) (View.of s.mf.incoming) = some (code, x)) :
    s.amendChecked
      = (s.amendRejected code x).raiseHm 0x3005 none (wordLe 4 (s.amendRejected code x).mf.reject) := by
  simp only [State.amendChecked, h, hx, ne_eq, not_true_eq_false, if_false]
  rfl

/-- An amendment that passes: its shadow Manifest and its plan stand, and every partition of the plan is pending. -/
def State.amendStaged (s : State) : State :=
  let am := View.of s.mf.incoming
  ((s.draw.2.mfCode 0 nowhere).modMf (fun m =>
    { m with amendState := .staged, shadow := shadowBytes (View.of s.mf.activeBytes) am, shadowId := am.header.manifestId,
             pend := partBits (am.plan.map (·.part)), done := 0 })).modMfAux
    (fun a => { a with plan := am.plan, shadowDigest := natLe 48 s.draw.1 })

theorem State.amendStaged_mf (s : State) : s.amendStaged.mf =
    { (s.mfCode 0 nowhere).mf with
      amendState := .staged, shadow := shadowBytes (View.of s.mf.activeBytes) (View.of s.mf.incoming),
      shadowId := (View.of s.mf.incoming).header.manifestId,
      pend := partBits ((View.of s.mf.incoming).plan.map (·.part)), done := 0 } := rfl

theorem State.amendStaged_plan (s : State) : s.amendStaged.mfAux.plan = (View.of s.mf.incoming).plan := rfl

theorem State.amendStaged_same (s : State) : SameBut [.free, .mf, .mfAux] s s.amendStaged := by
  have hcode := (s.draw_same.mono (gs := [.free, .mf, .mfAux]) (by decide)).then (State.mfCode_same _ 0 nowhere) (by decide)
  unfold State.amendStaged
  exact (hcode.then (State.modMf_same ..) (by decide)).then (State.modMfAux_same ..) (by decide)

theorem State.amendChecked_passes (s : State) (h : s.mf.amendState = .checking)
    (hx : s.amendChecks (View.of s.mf.activeBytes) (View.of s.mf.incoming) = none) :
    s.amendChecked = (s.amendStaged.feedWarnings (View.of (shadowBytes (View.of s.mf.activeBytes)
      (View.of s.mf.incoming)))).raiseHm 0x3004 none (wordLe 8 (View.of s.mf.incoming).header.manifestId) := by
  simp only [State.amendChecked, h, hx, ne_eq, not_true_eq_false, if_false]
  rfl

/-- The staged amendment stands behind the warnings and the event of its checks. -/
theorem State.amendChecked_stages (s : State) (h : s.mf.amendState = .checking)
    (hx : s.amendChecks (View.of s.mf.activeBytes) (View.of s.mf.incoming) = none) :
    (∃ w, s.amendChecked.mf = { s.amendStaged.mf with warn := w }) ∧ s.amendChecked.mfAux = s.amendStaged.mfAux
      ∧ SameBut [.free, .mf, .mfAux, .events, .i3c, .mem, .berths] s s.amendChecked := by
  obtain ⟨hsame, hmf⟩ := s.amendStaged.feedWarnings_onlyWarns
    (View.of (shadowBytes (View.of s.mf.activeBytes) (View.of s.mf.incoming)))
  rw [s.amendChecked_passes h hx, State.raiseHm_mf, State.raiseHm_mfAux]
  exact ⟨hmf, hsame.same .mfAux (by decide),
    ((s.amendStaged_same.mono (by decide)).then hsame (by decide)).then (State.raiseHm_same ..) (by decide)⟩

/-! ## WITHDRAW (R73) -/

/-- A staged amendment is discarded. -/
def State.amendWithdrawn (s : State) : State :=
  (s.modMf (fun m => { m with amendState := .none, shadow := [], slotHeld := false, incoming := [], pend := 0 })).modMfAux
    (fun a => { a with plan := [], shadowDigest := [] })

theorem State.amendWithdrawn_mf (s : State) : s.amendWithdrawn.mf =
    { s.mf with amendState := .none, shadow := [], slotHeld := false, incoming := [], pend := 0 } := rfl

theorem State.amendWithdrawn_same (s : State) : SameBut [.mf, .mfAux] s s.amendWithdrawn :=
  ((s.modMf_same _).mono (by decide)).then (State.modMfAux_same ..) (by decide)

theorem State.mfWithdraw_staged (s : State) (h : s.mf.amendState = .staged) (hdone : s.mf.done = 0) :
    s.mfWithdraw = s.amendWithdrawn.raiseHm 0x300B none (wordLe 8 s.mf.shadowId) := by
  simp [State.mfWithdraw, State.amendWithdrawn, h, hdone]

theorem State.mfWithdraw_notValid (s : State) (h : s.mf.amendState ≠ .staged ∨ s.mf.done ≠ 0) :
    s.mfWithdraw = s.mfRefuse 0x17 := if_pos h

theorem exec_amendmentChecksComplete (s : State) : exec .amendmentChecksComplete s = .next s.amendChecked := rfl

end Sys2Proof.Machine

open Sys2Proof Sys2Proof.Machine

/-- Settles O16: each command writes MF_ first and raises its event after it, so that MF_ keeps what was written and the event is
the command's first; a feed warning, between the two, touches MF_WARN alone. -/
theorem amendmentStates : Obligations.AmendmentStates := by
  intro s
  refine ⟨fun hs hreceiving hbytes hidle => ?_, fun hs hbusy => ?_, fun hchecking => ⟨fun hpass => ?_, fun code x hfail => ?_⟩,
    fun hs hstaged hdone => ?_, fun hs hnot => ?_⟩
  · exact ⟨_, (exec_amend s hs).trans (congrArg _ (s.mfAmend_taken hreceiving hbytes hidle)), rfl, s.modMf_same _⟩
  · exact s.refusal_busy _ ((exec_amend s hs).trans (congrArg _ (s.mfAmend_busy hbusy)))
  · obtain ⟨⟨w, hmf⟩, haux, hsame⟩ := s.amendChecked_stages hchecking hpass
    rw [State.amendStaged_mf] at hmf
    exact ⟨_, exec_amendmentChecksComplete s, by rw [hmf], by rw [hmf], by rw [hmf], by rw [hmf], by rw [hmf, State.mfCode_mf],
      by rw [haux, State.amendStaged_plan], hsame⟩
  · obtain ⟨hmf, hreports, hsame⟩ := State.raisedAfterMf (s.amendRejected_same code x) (by decide) 0x3005 none
      (wordLe 4 (s.amendRejected code x).mf.reject)
    replace hmf := hmf.trans (s.amendRejected_mf code x)
    exact ⟨_, (exec_amendmentChecksComplete s).trans (congrArg _ (s.amendChecked_fails hchecking code x hfail)),
      by rw [hmf], by rw [hmf], by rw [hmf], by rw [hmf], hreports, hsame⟩
  · obtain ⟨hmf, hreports, hsame⟩ := State.raisedAfterMf s.amendWithdrawn_same (by decide) 0x300B none (wordLe 8 s.mf.shadowId)
    replace hmf := hmf.trans s.amendWithdrawn_mf
    exact ⟨_, (exec_withdraw s hs).trans (congrArg _ (s.mfWithdraw_staged hstaged hdone)), by rw [hmf], by rw [hmf],
      by rw [hmf], by rw [hmf], by rw [hmf], by rw [hmf], hreports, hsame⟩
  · exact s.refusal_notValid _ ((exec_withdraw s hs).trans (congrArg _ (s.mfWithdraw_notValid hnot)))

end

section
/-!
A request of an open session (R405 to R407): its datagram is read back as what the host sent, it runs when its turn has come, and
its response is the last that the port sent; and what the response changes (R392, R512).
-/

namespace Sys2Proof.Machine

/-! ## The datagram of a request (Table 11.4) -/

/-- The number of the bytes between two others. -/
theorem leAt_field (a b c : Bytes) : leAt (a ++ b ++ c) a.length b.length = leNat b := by
  simp [leAt, slice]

theorem leNat_wordLe {w : Nat} (k : Nat) (v : BitVec w) (h : w = 8 * k) : leNat (wordLe k v) = v.toNat := by
  subst h
  rw [wordLe, leNat_natLe]
  exact Nat.mod_eq_of_lt (by have := v.isLt; rwa [Nat.pow_mul] at this)

/-- The header before the payload. -/
def CctReq.header (r : CctReq) : Bytes :=
  natLe 1 1 ++ [r.opcode] ++ wordLe 2 r.sess ++ wordLe 4 r.seq ++ natLe 4 r.payload.length ++ zeros 4

theorem CctReq.wire_eq (r : CctReq) : r.wire = r.header ++ r.payload := rfl

theorem CctReq.length_header (r : CctReq) : r.header.length = 16 := rfl

theorem CctReq.length_wire (r : CctReq) : r.wire.length = r.payload.length + 16 := by
  rw [r.wire_eq, List.length_append, r.length_header, Nat.add_comm]

theorem CctReq.drop_wire (r : CctReq) : r.wire.drop 16 = r.payload := rfl

theorem CctReq.wire_version (r : CctReq) : leAt r.wire 0 1 = 1 := rfl

theorem CctReq.wire_opcode (r : CctReq) : leAt r.wire 1 1 = r.opcode.toNat := rfl

theorem CctReq.wire_sess (r : CctReq) : leAt r.wire 2 2 = r.sess.toNat :=
  (leAt_field (natLe 1 1 ++ [r.opcode]) (wordLe 2 r.sess)
    (wordLe 4 r.seq ++ natLe 4 r.payload.length ++ zeros 4 ++ r.payload)).trans (leNat_wordLe 2 r.sess rfl)

theorem CctReq.wire_seq (r : CctReq) : leAt r.wire 4 4 = r.seq.toNat :=
  (leAt_field (natLe 1 1 ++ [r.opcode] ++ wordLe 2 r.sess) (wordLe 4 r.seq)
    (natLe 4 r.payload.length ++ zeros 4 ++ r.payload)).trans (leNat_wordLe 4 r.seq rfl)

theorem CctReq.wire_payloadLength (r : CctReq) (h : r.payload.length ≤ cctMax) : leAt r.wire 8 4 = r.payload.length := by
  have hfield := (leAt_field (natLe 1 1 ++ [r.opcode] ++ wordLe 2 r.sess ++ wordLe 4 r.seq) (natLe 4 r.payload.length)
    (zeros 4 ++ r.payload)).trans (leNat_natLe 4 r.payload.length)
  refine Eq.trans ?_ (hfield.trans (Nat.mod_eq_of_lt ?_))
  · rfl
  · exact Nat.lt_of_le_of_lt h (by decide)

/-- The Gateway reads the request that the host sent. -/
theorem State.datagram_wire (s : State) (r : CctReq) (hhears : s.hears r.mrp = true) (hlen : r.payload.length ≤ cctMax)
    (hvia : r.via = none) : State.datagram r.mrp s none r.wire = s.request r := by
  have hmalformed : ¬ (r.wire.length < 16 ∨ leAt r.wire 0 1 ≠ 1 ∨ leAt r.wire 8 4 ≠ r.wire.length - 16
      ∨ cctMax + 16 < r.wire.length) := by
    rw [r.wire_version, r.wire_payloadLength hlen, r.length_wire]
    omega
  simp only [State.datagram, hhears, Bool.not_true, Bool.false_eq_true, if_false, if_neg hmalformed, r.wire_opcode,
    r.wire_sess, r.wire_seq, r.drop_wire, BitVec.ofNat_toNat, BitVec.setWidth_eq, ← hvia]

/-! ## What a response changes (R392, R405, R512) -/

theorem State.modSec_same (s : State) (f : Sec → Sec) : SameBut [.sec] s (s.modSec f) := by
  constructor; intro f hf; cases f
  case sec => exact absurd (List.mem_singleton.2 rfl) hf
  all_goals rfl

theorem State.modPeer_same (s : State) (n : Nat) (f : Peer → Peer) : SameBut [.sec] s (s.modPeer n f) :=
  s.modSec_same (fun c => { c with peers := c.peers.modify (fun _ => Peer.none) n f })

theorem State.secError_same (s : State) (b : Nat) : SameBut [.sec] s (s.secError b) :=
  s.modSec_same (fun c => { c with error := setBit c.error b })

theorem State.modSession_same (s : State) (n : Nat) (f : Session → Session) : SameBut [.gw] s (s.modSession n f) :=
  s.modGw_same (fun g => { g with sessions := g.sessions.modify (fun _ => Session.closed) n f })

theorem State.frameBoundary_same (s : State) (n : Nat) : SameBut [.gw] s (s.frameBoundary n) := by
  unfold State.frameBoundary
  exact s.modGw_same _

/-- A packet number of a peer changes, and its end is told (R512). -/
theorem State.takePn_same (s : State) (dst : Bytes) : SameBut (.sec :: eventFields) s (s.takePn dst).2 := by
  unfold State.takePn
  split
  · exact SameBut.refl _ s
  · split
    · exact SameBut.refl _ s
    · split
      · exact SameBut.refl _ s
      · have hnumber := fun i f => (s.modPeer_same i f).mono (gs := .sec :: eventFields) (by decide)
        simp only []
        split
        · exact ((hnumber ..).then (State.secError_same ..) (by decide)).then (State.raiseHm_same ..) (by decide)
        · exact hnumber ..

theorem State.sendWaiting_same (fuel : Nat) (served : Sparse Nat) (s : State) :
    SameBut [.gwAux] s (State.sendWaiting fuel served s) := by
  induction fuel generalizing served s with
  | zero => exact SameBut.refl _ s
  | succ fuel ih =>
    unfold State.sendWaiting; simp only []
    split
    · exact SameBut.refl _ s
    · exact (s.modGwAux_same _).trans (ih ..)

/-- Sending frames adds no response. -/
theorem State.sendWaiting_sent (fuel : Nat) (served : Sparse Nat) (s : State) :
    (State.sendWaiting fuel served s).gwAux.sent = s.gwAux.sent := by
  induction fuel generalizing served s with
  | zero => rfl
  | succ fuel ih =>
    unfold State.sendWaiting; simp only []
    split
    · rfl
    · exact ih ..

theorem State.queueFrame_same (s : State) (prio : Nat) (f : Bytes) : SameBut [.gwAux] s (s.queueFrame prio f) :=
  (s.modGwAux_same _).trans (State.sendWaiting_same ..)

theorem State.queueFrame_sent (s : State) (prio : Nat) (f : Bytes) : (s.queueFrame prio f).gwAux.sent = s.gwAux.sent :=
  State.sendWaiting_sent ..

/-- A frame of the port: what it changes, and that no response and no session is among it. -/
structure State.FrameSent (s t : State) : Prop where
  same : SameBut sendFields s t
  sent : t.gwAux.sent = s.gwAux.sent
  session : ∀ n, t.session n = s.session n

theorem State.FrameSent.refl (s : State) : s.FrameSent s := ⟨SameBut.refl _ s, rfl, fun _ => rfl⟩

theorem State.FrameSent.trans {s t u : State} (h : s.FrameSent t) (g : t.FrameSent u) : s.FrameSent u :=
  ⟨h.same.trans g.same, g.sent.trans h.sent, fun n => (g.session n).trans (h.session n)⟩

theorem State.frameBoundary_frameSent (s : State) (n : Nat) : s.FrameSent (s.frameBoundary n) :=
  ⟨(s.frameBoundary_same n).mono (by decide), rfl, fun _ => rfl⟩

theorem State.takePn_frameSent (s : State) (dst : Bytes) : s.FrameSent (s.takePn dst).2 := by
  have hsame := s.takePn_same dst
  exact ⟨hsame.mono (by decide), congrArg GwAux.sent (hsame.same .gwAux (by decide)),
    State.session_congr (hsame.same .gw (by decide))⟩

theorem State.queueFrame_frameSent (s : State) (prio : Nat) (f : Bytes) : s.FrameSent (s.queueFrame prio f) := by
  have hsame := s.queueFrame_same prio f
  exact ⟨hsame.mono (by decide), s.queueFrame_sent prio f, State.session_congr (hsame.same .gw (by decide))⟩

theorem State.sendFrame_frameSent (s : State) (prio : Nat) (f : Bytes) : s.FrameSent (s.sendFrame prio f) := by
  have hnumbered := (s.frameBoundary_frameSent prio).trans (State.takePn_frameSent _ (f.take 6))
  unfold State.sendFrame; simp only []
  split
  · exact .refl s
  · split
    · exact hnumbered.trans (State.queueFrame_frameSent ..)
    · exact hnumbered

theorem State.numberFrame_frameSent (s : State) : s.FrameSent s.numberFrame.2 :=
  ⟨(s.modGwAux_same (fun a => { a with frames := a.frames + 1 })).mono (by decide), rfl, fun _ => rfl⟩

theorem State.ownPrio_frameSent (s : State) (field : Nat) : s.FrameSent (s.ownPrio field).2 := s.frameBoundary_frameSent _

/-- A response stands among those sent, and its frame goes out behind it. -/
theorem State.answer_frameSent (s : State) (via : Option NetAddr) (x : CctResp) :
    (s.modGwAux (fun a => { a with sent := a.sent ++ [x] })).FrameSent (s.answer via x) := by
  unfold State.answer
  exact ((State.ownPrio_frameSent ..).trans (State.numberFrame_frameSent _)).trans (State.sendFrame_frameSent ..)

theorem State.answer_same (s : State) (via : Option NetAddr) (x : CctResp) : SameBut sendFields s (s.answer via x) :=
  ((s.modGwAux_same _).mono (gs := sendFields) (by decide)).trans (s.answer_frameSent via x).same

theorem State.answer_last (s : State) (via : Option NetAddr) (x : CctResp) :
    (s.answer via x).gwAux.sent.getLast? = some x := by
  rw [(s.answer_frameSent via x).sent]
  exact List.getLast?_concat

theorem State.answer_session (s : State) (via : Option NetAddr) (x : CctResp) (n : Nat) :
    (s.answer via x).session n = s.session n := (s.answer_frameSent via x).session n

/-! ## A request whose turn has come (R406, R407) -/

/-- A request runs: its response is the last sent, and what it changes beyond its command are the port and its session. -/
theorem State.cctRun_answers (s : State) (n : Nat) (r : CctReq) :
    (s.cctRun n r).gwAux.sent.getLast? = some (r.reply (s.cctDo n r).1.1 (s.cctDo n r).1.2)
      ∧ SameBut sendFields (s.cctDo n r).2 (s.cctRun n r)
      ∧ ((s.cctRun n r).session n).held = ((s.cctDo n r).2.session n).held := by
  have hkept : ∀ u : State, ∀ f : Session → Session, SameBut sendFields u
      (if (u.session n).isOpen then u.modSession n f else u) := fun u f =>
    SameBut.ite ((u.modSession_same n f).mono (by decide)) (SameBut.refl _ u)
  refine ⟨State.answer_last .., (hkept ..).trans (State.answer_same ..), ?_⟩
  unfold State.cctRun; simp only []
  rw [State.answer_session]
  split
  · rw [State.session_modSession, if_pos rfl]
  · rfl

/-- No request is held behind it, so that none follows. -/
theorem State.cctTurn_alone (s : State) (n fuel : Nat) (r : CctReq) (hwait : s.awaitsMgmt r = false)
    (hheld : ((s.cctRun n r).session n).held = []) : State.cctTurn n (fuel + 1) r s = s.cctRun n r := by
  simp [State.cctTurn, hwait, hheld]

/-- A request of the command transport (R405). -/
abbrev CctReq.ofCct (op : Byte) (sess : Half) (seq : Word) (pl : Bytes) : CctReq :=
  { mrp := false, opcode := op, sess := sess, seq := seq, payload := pl }

/-- The next request of an open session takes its turn. -/
theorem State.request_turn (s : State) (r : CctReq) (hhears : s.hears r.mrp = true)
    (hprotocol : decide (r.opcode = 0x80) = r.mrp) (hop : r.opcode ≠ 0x01) (hsess : r.sess.toNat < 64)
    (hopen : (s.session r.sess.toNat).isOpen = true) (hseq : (s.session r.sess.toNat).nextSeq = r.seq) :
    s.request r = State.cctTurn r.sess.toNat (cctWindow + 1) r s := by
  have hturn : s.sessionRequest r.sess.toNat r = State.cctTurn r.sess.toNat (cctWindow + 1) r s := by
    simp [State.sessionRequest, hseq]
  rw [← hturn]
  simp only [State.request, hhears, hprotocol, bne_self_eq_false, Bool.not_true, Bool.false_eq_true, if_false, if_neg hop,
    if_pos (And.intro hsess hopen)]

/-- A request of the command transport comes in by a frame of its own. -/
theorem State.arrives_request (s : State) (op : Byte) (sess : Half) (seq : Word) (pl : Bytes)
    (hhears : s.hears false = true) (hop : op ≠ 0x80) (hlen : pl.length ≤ cctMax) :
    s.arrives op sess seq pl
      = s.heard.request (.ofCct op sess seq pl) := by
  simp only [State.arrives, decide_eq_false hop, hhears, Bool.not_true, Bool.false_eq_true, if_false]
  exact s.heard.datagram_wire (CctReq.ofCct op sess seq pl) hhears hlen rfl

/-- A request of the command transport whose turn has come, and which needs no management core: it is answered, and changes
what its command changes and the port. -/
theorem State.arrives_answers (s : State) (op : Byte) (sess : Half) (seq : Word) (pl : Bytes) (h : s.turn sess seq)
    (hop : op ≠ 0x01 ∧ op ≠ 0x30 ∧ op ≠ 0x80) (hlen : pl.length ≤ cctMax) {reply : Reply} {u : State}
    (hdo : s.heard.cctDo sess.toNat (CctReq.ofCct op sess seq pl) = (reply, u))
    (hgw : u.gw = s.gw) :
    Answered (s.arrives op sess seq pl) op sess seq (BitVec.ofNat 8 reply.1) reply.2
      ∧ SameBut sendFields u (s.arrives op sess seq pl) := by
  obtain ⟨hhears, hsess, hopen, hseq, hheld⟩ := h
  obtain ⟨hopOpen, hopJob, hopMrp⟩ := hop
  obtain ⟨hlast, hsame, hsession⟩ := s.heard.cctRun_answers sess.toNat
    (CctReq.ofCct op sess seq pl)
  rw [hdo] at hlast hsame hsession
  have hwait : s.heard.awaitsMgmt (CctReq.ofCct op sess seq pl) = false := by
    simp only [State.awaitsMgmt, decide_eq_false hopJob, decide_eq_false hopMrp, Bool.or_false, Bool.and_false]
  rw [s.arrives_request op sess seq pl hhears hopMrp hlen,
    s.heard.request_turn (.ofCct op sess seq pl) hhears (decide_eq_false hopMrp) hopOpen hsess hopen hseq,
    s.heard.cctTurn_alone _ _ _ hwait (hsession.trans ((congrArg Session.held (State.session_congr hgw _)).trans hheld))]
  exact ⟨by rw [Answered, hlast, decide_eq_false hopMrp]; rfl, hsame⟩

end Sys2Proof.Machine

end

section
/-!
The incoming slot of the Manifest store (R60, R61, R409): LOAD and DISCARD, and the bytes that MANIFEST_DATA brings at each
offset.
-/

namespace Sys2Proof.Machine

/-! ## LOAD and DISCARD (R61, R63) -/

theorem State.mfLoad_notValid (s : State) (h : s.mf.loadState ≠ .receiving ∨ s.amendBytes = true) :
    s.mfLoad = s.mfRefuse 0x17 := if_pos h

theorem State.mfLoad_busy (s : State) (hreceiving : s.mf.loadState = .receiving) (hbytes : s.amendBytes = false)
    (h : s.jobRunning = true ∨ s.mf.amendState.busy = true) : s.mfLoad = s.mfRefuse 0x16 := by
  simp [State.mfLoad, hreceiving, hbytes, h]

theorem State.mfLoad_taken (s : State) (hreceiving : s.mf.loadState = .receiving) (hbytes : s.amendBytes = false)
    (hjob : s.jobRunning = false) (hidle : s.mf.amendState.busy = false) :
    s.mfLoad = s.modMf (fun m => { m with loadState := .verifying, owner := none }) := by
  simp [State.mfLoad, hreceiving, hbytes, hjob, hidle]

theorem State.mfDiscard_notValid (s : State)
    (h : s.mf.loadState = .verifying ∨ s.mf.loadState = .checking ∨ s.mf.slotHeld = true) :
    s.mfDiscard = s.mfRefuse 0x17 := if_pos h

theorem State.mfDiscard_clears (s : State) (hverifying : s.mf.loadState ≠ .verifying)
    (hchecking : s.mf.loadState ≠ .checking) (hheld : s.mf.slotHeld = false) :
    s.mfDiscard = s.modMf (fun m =>
      { m with incoming := [], owner := none, loadState := s.restState,
               amendState := if m.amendState = .receiving then .none else m.amendState }) := by
  simp [State.mfDiscard, hverifying, hchecking, hheld]

/-! ## Bytes at an offset of the slot (R60, R61, R409) -/

theorem State.takeManifest_same (s : State) (n : Nat) (old b : Bytes) : SameBut [.mf] s (s.takeManifest n old b) := by
  unfold State.takeManifest
  exact (s.modMf_same _).trans (State.modMf_same ..)

/-- Apart from the slot, its owner and its state, bytes that come in bear on MF_AMEND_STATE alone. -/
theorem State.takeManifest_mf (s : State) (n : Nat) (old b : Bytes) :
    ∃ a, (s.takeManifest n old b).mf = { s.mf with
      incoming := old ++ b, owner := some (BitVec.ofNat 6 n), loadState := .receiving, amendState := a } := ⟨_, rfl⟩

/-- In an owned slot no Manifest begins. -/
theorem Mf.startsAt0_owned (m : Mf) (hreceiving : m.loadState = .receiving) (howner : m.owner.isSome = true) :
    m.startsAt0 = false := by
  simp [Mf.startsAt0, hreceiving, howner]

section
variable (s : State) (n off : Nat) (b : Bytes) (hready : s.ready (readyCompute 0) = true)
include hready

theorem State.manifestAt_held (h : s.mf.slotHeld = true) : s.manifestAt n off b = (0x03, s) := by
  simp [State.manifestAt, hready, h]

theorem State.manifestAt_begins (h : s.mf.slotHeld = false) (hstart : s.mf.startsAt0 = true) (hb : b ≠ []) :
    s.manifestAt n 0 b = (0, s.takeManifest n [] b) := by
  simp [State.manifestAt, hready, h, hstart, hb]

theorem State.manifestAt_misplaced (h : s.mf.slotHeld = false) (hreceiving : s.mf.loadState = .receiving)
    (howner : s.mf.owner = some (BitVec.ofNat 6 n)) (hoff : off ≠ s.mf.incoming.length) :
    s.manifestAt n off b = (0x04, s) := by
  have hstart := s.mf.startsAt0_owned hreceiving (by rw [howner]; rfl)
  simp [State.manifestAt, hready, h, hreceiving, howner, hoff, hstart]

theorem State.manifestAt_goesOn (h : s.mf.slotHeld = false) (hreceiving : s.mf.loadState = .receiving)
    (howner : s.mf.owner = some (BitVec.ofNat 6 n)) (hoff : off = s.mf.incoming.length)
    (hroom : s.mf.incoming.length + b.length ≤ manifestMax) :
    s.manifestAt n off b = (0, s.takeManifest n s.mf.incoming b) := by
  have hstart := s.mf.startsAt0_owned hreceiving (by rw [howner]; rfl)
  have hfits : ¬ manifestMax < s.mf.incoming.length + b.length := Nat.not_lt.2 hroom
  simp [State.manifestAt, hready, h, hreceiving, howner, hoff, hstart, hfits]

end

/-! ## MANIFEST_DATA (R409) -/

theorem State.cctDo_manifestData (s : State) (n : Nat) (sess : Half) (seq off : Word) (b : Bytes) {st : Nat} {u : State}
    (h : s.manifestAt n off.toNat b = (st, u)) :
    s.cctDo n (.ofCct 0x10 sess seq (wordLe 4 off ++ b))
      = ((st, if st = 0 then natLe 4 u.mf.incoming.length else []), u) := by
  have hlen : ¬ (wordLe 4 off ++ b).length < 4 := by simp [wordLe, length_natLe]
  have hdrop : (wordLe 4 off ++ b).drop 4 = b := rfl
  show s.cctManifest n (wordLe 4 off ++ b) = _
  simp only [State.cctManifest, if_neg hlen, leAt_wordLe_append, hdrop, h]

theorem State.heard_same (s : State) : SameBut [.gwAux] s s.heard := s.modGwAux_same _

/-- MANIFEST_DATA in its turn is answered with what the slot says of its offset. -/
theorem exec_manifestData_answers (s : State) (sess : Half) (seq off : Word) (b : Bytes) (hturn : s.turn sess seq)
    (hlen : b.length ≤ 8188) {st : Nat} {u : State} (h : s.heard.manifestAt sess.toNat off.toNat b = (st, u))
    (hsame : SameBut [.mf] s.heard u) :
    ∃ t, exec (.manifestData sess seq off b) s = .next t
      ∧ Answered t 0x10 sess seq (BitVec.ofNat 8 st) (if st = 0 then natLe 4 u.mf.incoming.length else [])
      ∧ SameBut sendFields u t := by
  have hmax : (wordLe 4 off ++ b).length ≤ cctMax := by
    have hmax : cctMax = 8192 := rfl
    simp only [List.length_append, wordLe, length_natLe, hmax]
    omega
  exact ⟨_, rfl, s.arrives_answers 0x10 sess seq _ hturn (by decide) hmax
    (s.heard.cctDo_manifestData sess.toNat sess seq off b h) (hsame.same .gw (by decide))⟩

/-- Bytes that the slot takes: MF_RX_LEN is returned, and the active Manifest stays. -/
theorem exec_manifestData_taken (s : State) (sess : Half) (seq off : Word) (old b : Bytes) (hturn : s.turn sess seq)
    (hlen : b.length ≤ 8188)
    (h : s.heard.manifestAt sess.toNat off.toNat b = (0, s.heard.takeManifest sess.toNat old b)) :
    ∃ t, exec (.manifestData sess seq off b) s = .next t
      ∧ Answered t 0x10 sess seq 0 (natLe 4 (old.length + b.length))
      ∧ (∃ a, t.mf = { s.mf with incoming := old ++ b, owner := some (BitVec.ofNat 6 sess.toNat), loadState := .receiving,
                                 amendState := a })
      ∧ SameBut (.mf :: sendFields) s t := by
  have htake := s.heard.takeManifest_same sess.toNat old b
  obtain ⟨a, hmf⟩ := s.heard.takeManifest_mf sess.toNat old b
  obtain ⟨t, hexec, hanswered, hsame⟩ := exec_manifestData_answers s sess seq off b hturn hlen h htake
  rw [if_pos rfl, hmf, List.length_append] at hanswered
  exact ⟨t, hexec, hanswered, ⟨a, (hsame.same .mf (by decide)).trans hmf⟩,
    ((s.heard_same.mono (by decide)).then htake (by decide)).then hsame (by decide)⟩

/-- Bytes that the slot does not take. -/
theorem exec_manifestData_refused (s : State) (sess : Half) (seq off : Word) (b : Bytes) (hturn : s.turn sess seq)
    (hlen : b.length ≤ 8188) {st : Nat} (hst : st ≠ 0) (h : s.heard.manifestAt sess.toNat off.toNat b = (st, s.heard)) :
    ∃ t, exec (.manifestData sess seq off b) s = .next t ∧ Answered t 0x10 sess seq (BitVec.ofNat 8 st) []
      ∧ SameBut sendFields s t := by
  obtain ⟨t, hexec, hanswered, hsame⟩ := exec_manifestData_answers s sess seq off b hturn hlen h (SameBut.refl _ _)
  rw [if_neg hst] at hanswered
  exact ⟨t, hexec, hanswered, (s.heard_same.mono (by decide)).trans hsame⟩

end Sys2Proof.Machine

open Sys2Proof Sys2Proof.Machine

/-- Settles O14: the two commands are one update of MF_ or a refusal each; the bytes at an offset are taken, answered 0x04 or
answered 0x03 by what the slot is, and the request's response goes out behind that. -/
theorem manifestSlots : Obligations.ManifestSlots := by
  refine ⟨fun s hs => ⟨fun hreceiving hbytes => ⟨fun hjob hidle => ?_, fun hbusy => ?_⟩, fun hnot => ?_,
    fun hverifying hchecking hheld => ?_, fun hnot => ?_⟩,
    fun s sess seq off b hturn hready hb hlen => ⟨fun hheld hoff hstart => ?_,
      fun hheld hreceiving howner hoff hroom => ?_, fun hheld hreceiving howner hoff => ?_, fun hheld => ?_⟩⟩
  · exact ⟨_, (exec_load s hs).trans (congrArg _ (s.mfLoad_taken hreceiving hbytes hjob hidle)), rfl, s.modMf_same _⟩
  · exact s.refusal_busy _ ((exec_load s hs).trans (congrArg _ (s.mfLoad_busy hreceiving hbytes hbusy)))
  · exact s.refusal_notValid _ ((exec_load s hs).trans (congrArg _ (s.mfLoad_notValid hnot)))
  · exact ⟨_, (exec_discard s hs).trans (congrArg _ (s.mfDiscard_clears hverifying hchecking hheld)), rfl, rfl, rfl, rfl,
      rfl, s.modMf_same _⟩
  · exact s.refusal_notValid _ ((exec_discard s hs).trans (congrArg _ (s.mfDiscard_notValid hnot)))
  · subst hoff
    obtain ⟨t, hexec, hanswered, ⟨a, hmf⟩, hsame⟩ := exec_manifestData_taken s sess seq 0 [] b hturn hlen
      (s.heard.manifestAt_begins sess.toNat b hready hheld hstart hb)
    rw [List.length_nil, Nat.zero_add] at hanswered
    exact ⟨t, hexec, hanswered, by rw [hmf]; rfl, by rw [hmf], by rw [hmf], by rw [hmf], by rw [hmf], hsame⟩
  · obtain ⟨t, hexec, hanswered, ⟨a, hmf⟩, hsame⟩ := exec_manifestData_taken s sess seq off s.mf.incoming b hturn hlen
      (s.heard.manifestAt_goesOn sess.toNat off.toNat b hready hheld hreceiving howner hoff hroom)
    exact ⟨t, hexec, hanswered, by rw [hmf], by rw [hmf], hsame⟩
  · exact exec_manifestData_refused s sess seq off b hturn hlen (by decide)
      (s.heard.manifestAt_misplaced sess.toNat off.toNat b hready hheld hreceiving howner hoff)
  · exact exec_manifestData_refused s sess seq off b hturn hlen (by decide)
      (s.heard.manifestAt_held sess.toNat off.toNat b hready hheld)

end

section
/-!
An intake that an amendment has given over to the event records (R76, R538): its old items go with the step that a verdict halts
(R31, Table 5.6), the amendment is complete with them (R78), and the event that says so is written into the berth.
-/

namespace Sys2Proof.Machine

/-! ## A berth that is an intake by its old descriptor alone -/

/-- A marked-drop berth of partition 0 whose two slots take one event record each; its consumer is a host session. -/
def BerthCfg.ofEvents : BerthCfg := { BerthCfg.zero with kind := 0x103, ringHi := 0x10, consumer := 0xC000 }

/-- The berth still holds one item of the context's intake that it was before the amendment. -/
def Berth.wasIntake : Berth :=
  { Berth.zero with cfg := BerthCfg.ofEvents, old := some (BerthCfg.ofContext 0), oldItems := 1, occupancy := 1 }

/-- Partition 0 in BODY has sent its flags; event records go to berth 1, whose old descriptor is all that is left of an
amendment. -/
def State.eventsIntoIntake : State :=
  { State.reset with
    boot := { Boot.held with phase := .firmware }, hm := { Hm.zero with ready := 3 },
    events := { Events.zero with berth := 0x4001 }, mf := { Mf.zero with active := true, amendState := .retiring },
    berths := [(1, Berth.wasIntake)],
    parts := [(0, { Part.zero with state := .running, cfg := some PartCfg.ofCluster3 })],
    runs := [(0, { PartRun.zero with seq := { Sequencer.zero with phase := .body, verdictSent := true } })] }

theorem Policy.discards_ofCluster3 : (PartCfg.ofCluster3.policy.verdict true false).discards = true := by decide

theorem State.occupancy_verdictResult_eventsIntoIntake :
    ((State.eventsIntoIntake.verdictResult 0 true false).berth 1).occupancy = 1 := by decide +kernel

theorem exec_verdictResult (p : BitVec 6) (nonfinite spike : Bool) (s : State) :
    exec (.verdictResult p nonfinite spike) s = .next (s.verdictResult p.toNat nonfinite spike) := rfl

end Sys2Proof.Machine

open Sys2Proof Sys2Proof.Machine

/-- Refutes O48: an intake need not end empty. Berth 1 is partition 0's intake by its old descriptor alone and takes event records
by its new one. The verdict halts the step, which withdraws the berth's item (R31); with it the old descriptor is released (R76)
and the amendment complete (R78), and the record of event 0x3007 goes into the event berth (R538), which is that berth. -/
theorem not_verdictsAct : ¬ Obligations.VerdictsAct := by
  rintro ⟨⟨-, h⟩, -⟩
  obtain ⟨t, ht, -, -, -, hdiscards, -⟩ := h State.eventsIntoIntake 0 true false PartCfg.ofCluster3 rfl rfl rfl rfl
  obtain ⟨-, hempty⟩ := hdiscards Policy.discards_ofCluster3
  have hzero := hempty 1 (by decide) rfl rfl (by decide)
  have hrun : State.eventsIntoIntake.verdictResult 0 true false = t :=
    Host.Outcome.next.inj ((exec_verdictResult 0 true false _).symm.trans ht)
  rw [← hrun, State.occupancy_verdictResult_eventsIntoIntake] at hzero
  exact absurd hzero (by decide)

end

section
/-!
A partition in a step: its state lets the sequencer run and a phase of the step is open. What every block may do to a partition
keeps it in its step: the boundary of an instruction (R466), a halt, which is pending until slack water (R31, R425), and the end
of an amendment (R78).
-/

namespace Sys2Proof.Machine

/-! ## In a step -/

/-- The sequencer of a partition runs, and a phase of a step is open. -/
def State.inStep (s : State) (p : Nat) : Prop := (s.part p).state.steps = true ∧ (s.seq p).phase ≠ .none

theorem State.seq_congr {s t : State} (h : t.runs = s.runs) (p : Nat) : t.seq p = s.seq p := by
  rw [State.seq, State.run_congr h, State.seq]

theorem State.inStep_congr {s t : State} {p : Nat} (hpart : (t.part p).state = (s.part p).state) (hseq : t.seq p = s.seq p)
    (h : s.inStep p) : t.inStep p := by
  rw [State.inStep, hpart, hseq]; exact h

theorem SameBut.inStep {fs : List Field} {s t : State} {p : Nat} (h : SameBut fs s t) (hparts : Field.parts ∉ fs)
    (hruns : Field.runs ∉ fs) (hs : s.inStep p) : t.inStep p :=
  State.inStep_congr (by rw [State.part_congr (h.same .parts hparts)]) (State.seq_congr (h.same .runs hruns) p) hs

theorem State.inStep_modPart {s : State} {p : Nat} (q : Nat) (f : Part → Part)
    (hf : ∀ x, x.state.steps = true → (f x).state.steps = true) (h : s.inStep p) : (s.modPart q f).inStep p := by
  refine ⟨?_, h.2⟩
  rw [State.part_modPart]
  split
  next hq => exact hf _ (hq ▸ h.1)
  · exact h.1

theorem State.inStep_modSeq {s : State} {p : Nat} (q : Nat) (f : Sequencer → Sequencer)
    (hf : ∀ x, x.phase ≠ .none → (f x).phase ≠ .none) (h : s.inStep p) : (s.modSeq q f).inStep p := by
  refine ⟨h.1, ?_⟩
  rw [State.seq_modSeq]
  split
  next hq => exact hf _ (hq ▸ h.2)
  · exact h.2

theorem State.seq_modLading (s : State) (p q : Nat) (f : Lading → Lading) : (s.modLading p f).seq q = s.seq q := by
  unfold State.seq State.modLading; rw [State.run_modRun]; split <;> simp_all

theorem State.seq_modDet (s : State) (p q : Nat) (f : Detector → Detector) : (s.modDet p f).seq q = s.seq q := by
  unfold State.seq State.modDet; rw [State.run_modRun]; split <;> simp_all

theorem State.seq_countLading (s : State) (p i q : Nat) : (s.countLading p i).seq q = s.seq q := State.seq_modLading ..

/-- A fold over any list keeps a partition in its step that each of its steps keeps there. -/
theorem State.inStep_foldl {α : Type} {p : Nat} (f : State → α → State) (hf : ∀ s a, s.inStep p → (f s a).inStep p)
    (l : List α) {s : State} (h : s.inStep p) : (l.foldl f s).inStep p := by
  induction l generalizing s with
  | nil => exact h
  | cons a l ih => exact ih (hf s a h)

/-! ## The boundary of an instruction (R466) -/

theorem State.modPtDie_same (s : State) (d : Nat) (f : PtDie → PtDie) : SameBut [.ptDies] s (s.modPtDie d f) := by
  constructor; intro f hf; cases f
  case ptDies => exact absurd (List.mem_singleton.2 rfl) hf
  all_goals rfl

theorem State.modPtAux_same (s : State) (f : PtAux → PtAux) : SameBut [.ptAux] s (s.modPtAux f) := by
  constructor; intro f hf; cases f
  case ptAux => exact absurd (List.mem_singleton.2 rfl) hf
  all_goals rfl

theorem State.modPt_same (s : State) (f : Pt → Pt) : SameBut [.pt] s (s.modPt f) := by
  constructor; intro f hf; cases f
  case pt => exact absurd (List.mem_singleton.2 rfl) hf
  all_goals rfl

/-- What the controller sets: the settings of the dies and of the links, each of a size that is free. -/
abbrev powerFields : List Field := [.free, .ptDies, .ptAux]

theorem State.setDies_same (s : State) (f : Nat → Nat → PtDie → PtDie) : SameBut powerFields s (s.setDies f) :=
  SameBut.foldl _ (fun s _ => (s.draw_same.mono (by decide)).then (State.modPtDie_same ..) (by decide)) _ s

theorem State.cutPower_same (s : State) : SameBut powerFields s s.cutPower :=
  (s.setDies_same _).ite ((s.setDies_same _).ite ((s.setDies_same _).ite
    (SameBut.foldl _ (fun s _ => (s.draw_same.mono (by decide)).then (State.modPtAux_same ..) (by decide)) _ s)))

theorem State.fullRate_same (s : State) : SameBut powerFields s s.fullRate :=
  SameBut.foldl _ (fun s _ => (s.modPtDie_same ..).mono (by decide)) _ s

theorem State.allocate_same (s : State) : SameBut powerFields s s.allocate :=
  (s.cutPower_same.ite (SameBut.refl _ s)).ite
    (s.fullRate_same.ite ((s.setDies_same _).trans (State.setDies_same _ _)))

theorem State.observe_same (s : State) (p : Nat) : SameBut [.free, .ptAux] s (s.observe p) := by
  unfold State.observe
  split
  · exact SameBut.refl _ s
  · exact (((s.draw_same.trans (State.draw_same _)).trans (State.draw_same _)).mono (by decide)).then
      (State.modPtAux_same ..) (by decide)

theorem State.inStep_boundary {s : State} {p : Nat} (pc : Nat) (h : s.inStep p) : (s.boundary p pc).inStep p := by
  have htold : ((s.observe p).modSeq p (fun q => { q with reported := some pc })).inStep p :=
    State.inStep_modSeq p _ (fun _ hx => hx) ((s.observe_same p).inStep (by decide) (by decide) h)
  have htide : ∀ u : State, u.inStep p →
      (if u.ptAux.tideOn then u.setLimits (fun l => { l with tide := some u.ptAux.tideAlloc }) else u).inStep p :=
    fun u hu => ((State.modPt_same u _).ite (SameBut.refl _ u)).inStep (by decide) (by decide) hu
  have hpower : ∀ u : State, u.inStep p → (if bit u.pt.config 1 then u.allocate else u).inStep p :=
    fun u hu => (u.allocate_same.ite (SameBut.refl _ u)).inStep (by decide) (by decide) hu
  exact hpower _ (htide _ htold)

/-- An instruction of BODY runs in a step (R420, R424). -/
theorem State.inStep_of_bodyRuns {s b : State} {p op : Nat} {i : BodyIns} (h : s.bodyRuns p op i b) : b.inStep p := by
  obtain ⟨hat, rfl⟩ := h
  have hbegun : (s.tryBegin p).inStep p := by
    unfold State.bodyAt at hat; simp only [] at hat
    split at hat
    · exact nomatch hat
    · split at hat
      next hruns =>
        obtain ⟨-, hsteps, hphase, -⟩ := hruns
        exact ⟨hsteps, by rw [hphase]; decide⟩
      · exact nomatch hat
  have hended : ((s.tryBegin p).endRewind p).inStep p := by
    unfold State.endRewind
    split
    · exact State.inStep_modPart p _ (fun _ _ => by dsimp only; split <;> rfl) hbegun
    · exact hbegun
  split
  · exact hended
  · exact State.inStep_boundary _ hended

theorem State.bodyStep_of_bodyRuns {s b : State} {p op : Nat} {i : BodyIns} (h : s.bodyRuns p op i b)
    (k : State → BodyIns → State) : s.bodyStep p op k = k b i := by
  obtain ⟨hat, rfl⟩ := h
  simp only [State.bodyStep, hat]

/-! ## The end of an amendment, and what is withdrawn (R31, R76, R78) -/

theorem State.releaseOld_same (s : State) (n : Nat) : SameBut [.events, .berths] s (s.releaseOld n) := by
  unfold State.releaseOld; simp only []
  split
  · exact SameBut.refl _ s
  · exact (SameBut.refl _ s).ite (((State.setBerth_same ..).mono (by decide)).then (State.raiseBerth_same ..) (by decide))

/-- What an amendment that is complete may change: the slots, and the tags of berths and routes. -/
abbrev amendFields : List Field := [.events, .i3c, .mf, .mfAux, .mem, .berths, .kx]

theorem State.withKx_same (s : State) (k : Kx) : SameBut [.kx] s { s with kx := k } := by
  constructor; intro f hf; cases f
  case kx => exact absurd (List.mem_singleton.2 rfl) hf
  all_goals rfl

theorem State.withMf_same (s : State) (m : Mf) (a : MfAux) : SameBut [.mf, .mfAux] s { s with mf := m, mfAux := a } := by
  constructor; intro f hf; cases f
  case mf => exact absurd (List.mem_cons_self ..) hf
  case mfAux => exact absurd (List.mem_cons_of_mem _ (List.mem_singleton.2 rfl)) hf
  all_goals rfl

theorem State.retag_same (s : State) : SameBut [.berths, .kx] s s.retag := by
  unfold State.retag; simp only []
  exact SameBut.then (SameBut.foldl _ (fun u n => (u.modBerth_same n _).mono (by decide)) _ s) (State.withKx_same _ _)
    (by decide)

theorem State.amendCheck_same (s : State) : SameBut amendFields s s.amendCheck := by
  unfold State.amendCheck; simp only []
  refine (SameBut.refl _ s).ite ?_
  exact ((s.retag_same.mono (by decide)).then (State.withMf_same _ _ _) (by decide)).then (State.raiseHm_same ..) (by decide)

theorem State.parts_foldl {α : Type} (f : State → α → State) (hf : ∀ s a, (f s a).parts = s.parts) (l : List α)
    (s : State) : (l.foldl f s).parts = s.parts := by
  induction l generalizing s with
  | nil => rfl
  | cons a l ih => rw [List.foldl_cons, ih, hf]

@[simp] theorem State.releaseOld_parts (s : State) (n : Nat) : (s.releaseOld n).parts = s.parts :=
  (s.releaseOld_same n).same .parts (by decide)

@[simp] theorem State.amendCheck_parts (s : State) : s.amendCheck.parts = s.parts := s.amendCheck_same.same .parts (by decide)

@[simp] theorem State.withdraw_parts (s : State) (p : Nat) : (s.withdraw p).parts = s.parts := by
  unfold State.withdraw
  rw [State.modSeq_parts, State.amendCheck_parts]
  exact State.parts_foldl _ (fun u n => (State.releaseOld_parts _ n).trans (u.modBerth_parts n _)) _ s

theorem State.inStep_withdraw {s : State} {p : Nat} (q : Nat) (h : s.inStep p) : (s.withdraw q).inStep p := by
  unfold State.withdraw
  refine State.inStep_modSeq q _ (fun _ hx => hx) ((State.amendCheck_same _).inStep (by decide) (by decide) ?_)
  refine State.inStep_foldl _ (fun u n hu => ?_) _ h
  exact (State.releaseOld_same _ n).inStep (by decide) (by decide) ((u.modBerth_same n _).inStep (by decide) (by decide) hu)

/-! ## A halt (R425, R426) -/

theorem State.inStep_countLading {s : State} {p : Nat} (q i : Nat) (h : s.inStep p) : (s.countLading q i).inStep p :=
  State.inStep_congr (s := s) rfl (s.seq_countLading q i p) h

/-- A partition that is in no step enters HALTED at once; any other stays in its step. -/
theorem State.inStep_enterHalted {s : State} {p q : Nat} (cause mode : Nat) (hq : (s.seq q).phase = .none)
    (h : s.inStep p) : (s.enterHalted q cause mode).inStep p := by
  have hne : q ≠ p := fun heq => h.2 (heq ▸ hq)
  refine (State.raiseHm_same ..).inStep (by decide) (by decide) (State.inStep_countLading q 6 (State.inStep_congr ?_ ?_ h))
  · rw [State.part_congr (State.modSeq_parts ..), State.part_setPart, if_neg hne]
  · rw [State.seq_modSeq, if_neg hne]; rfl

/-- A pending halt leaves every partition as it is. -/
theorem State.haltWith_parts {s : State} {p : Nat} (cause mode : Nat) (hp : (s.seq p).phase ≠ .none) :
    (s.haltWith p cause mode).parts = s.parts := by
  have hsent : ∀ (c : Prop) [Decidable c] (n : Notice), (if c then s else s.send p n).parts = s.parts
      ∧ (if c then s else s.send p n).seq p = s.seq p := fun c _ n => by split <;> exact ⟨rfl, rfl⟩
  unfold State.haltWith; simp only []
  split
  · rfl
  · rw [if_neg (by rw [(hsent _ _).2]; exact hp)]
    split
    · rw [State.modSeq_parts, State.withdraw_parts, State.modSeq_parts, (hsent _ _).1]
    · rw [State.modSeq_parts, (hsent _ _).1]

/-- A halt, of this partition or of another, is pending until slack water: this one stays in its step. -/
theorem State.inStep_haltWith {s : State} {p : Nat} (q cause mode : Nat) (h : s.inStep p) :
    (s.haltWith q cause mode).inStep p := by
  unfold State.haltWith; simp only []
  split
  · exact h
  · generalize hu : (if cause = 7 ∨ (cause = 1 ∧ (s.seq q).phase ≠ .none) then s
      else s.send q (.halt (s.part q).step (BitVec.ofNat 8 mode) (BitVec.ofNat 8 cause))) = u
    have hsent : u.inStep p := by
      rw [← hu]
      exact ((SameBut.refl _ s).ite (s.send_same q _)).inStep (by decide) (by decide) h
    have hpending := State.inStep_modSeq q
      (fun q => { q with pendingHalt := some (BitVec.ofNat 8 cause, BitVec.ofNat 8 mode) }) (fun _ hx => hx) hsent
    split
    next hq => exact State.inStep_enterHalted cause mode hq hsent
    · split
      · refine State.inStep_modSeq q _ (fun x hx => ?_) (State.inStep_withdraw q hpending)
        dsimp only
        split
        · exact nofun
        · exact hx
      · exact hpending

end Sys2Proof.Machine
end

section
/-!
A rewind for a local fault (R443, R444): it counts one in the partition's register, and neither the halt of one rewind too many nor
the restart of BODY or of its apply pass changes that count.
-/

namespace Sys2Proof.Machine

/-! ## What is flushed -/

theorem State.flushBerth_parts (s : State) (n : Nat) : (s.flushBerth n).parts = s.parts := by
  unfold State.flushBerth; simp only []
  split
  · rfl
  · rw [State.raiseBerth_parts, State.releaseOld_parts, State.setBerth_parts]

theorem State.dropFlights_parts (s : State) (p : Nat) : (s.dropFlights p).parts = s.parts := by
  unfold State.dropFlights
  exact State.parts_foldl _ (fun u k => u.setClusterAt_parts k _) _ s

theorem State.modContexts_parts (s : State) (p : Nat) (f : Ctx → Ctx) : (s.modContexts p f).parts = s.parts := by
  unfold State.modContexts
  exact State.parts_foldl _ (fun u k => u.setClusterAt_parts k _) _ s

theorem State.flushPartition_parts (s : State) (p : Nat) : (s.flushPartition p).parts = s.parts := by
  unfold State.flushPartition
  rw [State.amendCheck_parts, State.modContexts_parts, State.dropFlights_parts, State.parts_foldl, State.parts_foldl]
  · exact State.flushBerth_parts
  · exact fun u dn => u.modLighter_parts dn.1 dn.2 _

/-! ## The restarts -/

@[simp] theorem State.touch_parts (s : State) (v : Via) (w : Bool) (sp : Space) (a n : Nat) :
    (s.touch v w sp a n).parts = s.parts := (s.touch_same v w sp a n).same .parts (by decide)

@[simp] theorem State.clearBytes_parts (s : State) (sp : Space) (a n : Nat) : (s.clearBytes sp a n).parts = s.parts := rfl

theorem State.clearSums_parts (s : State) (p : Nat) : (s.clearSums p).parts = s.parts := by
  unfold State.clearSums
  rw [State.parts_foldl]
  exact fun u r => by rw [State.clearBytes_parts, State.touch_parts]

@[simp] theorem State.writeStash_parts (s : State) (p gone : Nat) : (s.writeStash p gone).parts = s.parts := rfl

theorem State.unapply_parts (s : State) (p : Nat) : (s.unapply p).parts = s.parts := by
  unfold State.unapply
  simp only [State.parts_ite, State.writeStash_parts, State.modStash_parts, ite_self]
  rw [State.parts_foldl]
  exact fun u w => u.modStash_parts p _

theorem State.restartBody_parts (s : State) (p : Nat) : (s.restartBody p).parts = s.parts := by
  unfold State.restartBody
  rw [State.modSeq_parts, State.modDet_parts, State.unapply_parts, State.clearSums_parts]

theorem State.restartApply_parts (s : State) (p : Nat) : (s.restartApply p).parts = s.parts := rfl

/-! ## The count -/

@[simp] theorem State.countLading_parts (s : State) (p i : Nat) : (s.countLading p i).parts = s.parts := rfl

theorem State.ladingOverflow_frame (s : State) (p q : Nat) :
    (s.ladingOverflow p).parts = s.parts ∧ (s.ladingOverflow p).seq q = s.seq q := by
  unfold State.ladingOverflow
  split
  · exact ⟨rfl, rfl⟩
  · exact ⟨State.raiseHm_parts .., (State.seq_congr (State.raiseHm_runs ..) q).trans (s.seq_modLading p q _)⟩

theorem State.recovery_frame (s : State) (p kind q : Nat) (b : Bytes) :
    (s.recovery p kind b).parts = s.parts ∧ (s.recovery p kind b).seq q = s.seq q := by
  have hrecord : ∀ r, (s.addRecord p recRecovery r).seq q = s.seq q := fun r => s.seq_modLog p q _
  unfold State.recovery; simp only []
  split
  · split
    · exact ⟨rfl, (State.seq_modLading ..).trans (hrecord _)⟩
    · obtain ⟨hparts, hseq⟩ := (s.addRecord p recRecovery (natLe 1 kind ++ zeros 7 ++ padTo 24 b)).ladingOverflow_frame p q
      exact ⟨hparts, hseq.trans (hrecord _)⟩
  · exact ⟨rfl, hrecord _⟩

/-- A rewind that is counted and told: its registers, its record and event 0x4004 (R444). -/
def State.rewound (s : State) (p code : Nat) : State :=
  let x := s.part p
  let s := (s.setPart p { x with rewinds := satAdd x.rewinds 1 }).modSeq p
    (fun q => { q with rewindsInStep := q.rewindsInStep + 1 })
  ((s.recovery p 1 (natLe 1 (b2n x.applyPassed) ++ natLe 2 code)).countLading p 0).raiseJr 0x4004 p
    (wordLe 8 x.step ++ natLe 1 (b2n x.applyPassed) ++ natLe 2 code)

theorem State.rewind_eq (s : State) (p code : Nat) (h : s.inStep p) :
    s.rewind p code =
      if ((s.rewound p code).recoveryOf p).rewindLimit < ((s.rewound p code).seq p).rewindsInStep then
        (s.rewound p code).halt p 8
      else if (s.part p).applyPassed then
        (((s.rewound p code).flushPartition p).modPart p (fun x => { x with state := .rewinding })).restartApply p
      else (((s.rewound p code).flushPartition p).modPart p (fun x => { x with state := .rewinding })).restartBody p := by
  obtain ⟨hsteps, hphase⟩ := h
  simp only [State.rewind, hsteps, hphase, Bool.not_true, Bool.false_eq_true, or_self, if_false]
  rfl

theorem State.part_rewound (s : State) (p code : Nat) :
    (s.rewound p code).part p = { s.part p with rewinds := satAdd (s.part p).rewinds 1 } := by
  have hparts : (s.rewound p code).parts
      = (s.setPart p { s.part p with rewinds := satAdd (s.part p).rewinds 1 }).parts := by
    rw [State.rewound, State.raiseJr_parts, State.countLading_parts, (State.recovery_frame _ p 1 p _).1, State.modSeq_parts]
  rw [State.part_congr hparts, State.part_setPart, if_pos rfl]

theorem State.phase_rewound (s : State) (p code : Nat) : ((s.rewound p code).seq p).phase = (s.seq p).phase := by
  rw [State.rewound, State.seq_congr (State.raiseJr_runs ..), State.seq_countLading, (State.recovery_frame _ p 1 p _).2,
    State.seq_modSeq, if_pos rfl]
  rfl

/-- A rewind in a step counts one in the partition's register, whichever way it goes on. -/
theorem State.rewinds_rewind (s : State) (p code : Nat) (h : s.inStep p) :
    ((s.rewind p code).part p).rewinds = satAdd (s.part p).rewinds 1 := by
  have hcount : ∀ u : State, u.parts = (s.rewound p code).parts → (u.part p).rewinds = satAdd (s.part p).rewinds 1 :=
    fun u hu => by rw [State.part_congr hu, State.part_rewound]
  have hmod : ∀ u : State, (u.part p).rewinds = satAdd (s.part p).rewinds 1 →
      ((u.modPart p (fun x => { x with state := .rewinding })).part p).rewinds = satAdd (s.part p).rewinds 1 :=
    fun u hu => by rw [State.part_modPart, if_pos rfl]; exact hu
  have hflushed := hmod _ (hcount _ (State.flushPartition_parts _ p))
  rw [State.rewind_eq s p code h]
  split
  · unfold State.halt
    exact hcount _ (State.haltWith_parts _ _ (by rw [State.phase_rewound]; exact h.2))
  · split
    · rw [State.part_congr (State.restartApply_parts ..)]; exact hflushed
    · rw [State.part_congr (State.restartBody_parts ..)]; exact hflushed

end Sys2Proof.Machine
end

section
/-!
Late contributions that REDUCE adds in (R442): where every codeword of a sum image could be read, the adds change memories and
counts alone; where one could not, its row may be lost and partitions halted for it (R318, R324), but each stays in its step.
-/

namespace Sys2Proof.Machine

/-! ## A codeword that cannot be read (R318, R324) -/

theorem State.modMem_same (s : State) (f : Mem → Mem) : SameBut [.mem] s (s.modMem f) := s.withMem_same _

theorem State.poisonAt_same (s : State) (sp : Space) (a n : Nat) : SameBut [.mem] s (s.poisonAt sp a n) := s.withMem_same _

theorem State.countUe_same (s : State) (sp : Space) (die : Nat) : SameBut [.memDies] s (s.countUe sp die) := by
  constructor; intro f hf; cases f
  case memDies => exact absurd (List.mem_singleton.2 rfl) hf
  all_goals rfl

theorem State.startBank_same (s : State) (stack pc bank : Nat) : SameBut [.mem] s (s.startBank stack pc bank) :=
  (SameBut.refl _ s).ite (s.withMem_same _)

/-- The partitions of a lost row halt; each stays in its step until slack water. -/
theorem State.inStep_loseRow {s : State} {p : Nat} (stack pc row : Nat) (h : s.inStep p) :
    (s.loseRow stack pc row).inStep p := by
  unfold State.loseRow
  refine (State.service_same _ 1 true).inStep (by decide) (by decide)
    ((State.raiseDie_same ..).inStep (by decide) (by decide) ?_)
  refine State.inStep_foldl _ (fun u q hu => State.inStep_haltWith q 11 _ hu) _ ?_
  refine State.inStep_foldl _ (fun u g hu => (u.poisonAt_same .near g 256).inStep (by decide) (by decide) hu) _ ?_
  exact (s.modMem_same _).inStep (by decide) (by decide) h

theorem State.inStep_rowFaultAt {s : State} {p : Nat} (a : Nat) (h : s.inStep p) : (s.rowFaultAt a).inStep p := by
  unfold State.rowFaultAt State.rowFault; simp only []
  split
  · exact h
  · split
    · exact State.inStep_loseRow _ _ _ ((s.modMem_same _).inStep (by decide) (by decide) h)
    · have hlocked : ∀ m, ({ (s.modMem m) with mem := { (s.modMem m).mem with
          locked := (s.modMem m).mem.locked ++ [(Space.near.unit a, pseudoChannel (Space.near.offset a),
            rowOf (Space.near.offset a))] } } : State).inStep p := fun m =>
        (State.withMem_same _ _).inStep (by decide) (by decide) ((s.modMem_same m).inStep (by decide) (by decide) h)
      split
      · exact (State.startBank_same ..).inStep (by decide) (by decide) (hlocked _)
      · exact hlocked _

theorem State.inStep_readLost {s : State} {p : Nat} (sp : Space) (a r : Nat) (h : s.inStep p) :
    (s.readLost sp a r).inStep p := by
  have hcounted : ((s.poisonAt sp a 1).countUe sp (sp.dieOf a)).inStep p :=
    (((s.poisonAt_same sp a 1).mono (fs := [.mem]) (gs := [.mem, .memDies]) (by decide)).then (State.countUe_same ..)
      (by decide)).inStep (by decide) (by decide) h
  have hraised : ∀ code die b, (((s.poisonAt sp a 1).countUe sp (sp.dieOf a)).raiseDie code die none b).inStep p :=
    fun _ _ _ => (State.raiseDie_same ..).inStep (by decide) (by decide) hcounted
  unfold State.readLost; simp only []
  split
  · split
    · exact State.inStep_rowFaultAt _ (hraised _ _ _)
    · exact hraised _ _ _
  · exact hraised _ _ _
  · exact hraised _ _ _

/-! ## What adding keeps -/

/-- A partition keeps its sequencer, its logbook and its registers, except that its apply commit point may pass; nothing goes to
the job. -/
structure State.KeepsRun (p : Nat) (s t : State) : Prop where
  jr : t.jr = s.jr
  seq : t.seq p = s.seq p
  log : t.log p = s.log p
  part : ∃ passed, t.part p = { s.part p with applyPassed := passed }

theorem State.KeepsRun.trans {p : Nat} {s t u : State} (h : State.KeepsRun p s t) (g : State.KeepsRun p t u) :
    State.KeepsRun p s u := by
  obtain ⟨a, ha⟩ := h.part
  obtain ⟨b, hb⟩ := g.part
  exact ⟨g.jr.trans h.jr, g.seq.trans h.seq, g.log.trans h.log, b, by rw [hb, ha]⟩

theorem SameBut.keepsRun {fs : List Field} {s t : State} (h : SameBut fs s t) (p : Nat) (hparts : Field.parts ∉ fs)
    (hruns : Field.runs ∉ fs) (hjr : Field.jr ∉ fs) : State.KeepsRun p s t :=
  ⟨h.same .jr hjr, State.seq_congr (h.same .runs hruns) p, by rw [State.log, State.run_congr (h.same .runs hruns), State.log],
    (s.part p).applyPassed, State.part_congr (h.same .parts hparts) p⟩

theorem State.KeepsRun.refl (p : Nat) (s : State) : State.KeepsRun p s s :=
  (SameBut.refl [] s).keepsRun p (by decide) (by decide) (by decide)

theorem State.KeepsRun.inStep {p : Nat} {s t : State} (h : State.KeepsRun p s t) (hs : s.inStep p) : t.inStep p := by
  obtain ⟨a, ha⟩ := h.part
  exact State.inStep_congr (by rw [ha]) h.seq hs

theorem State.keepsRun_foldl {α : Type} {p : Nat} (f : State → α → State) (hf : ∀ s a, State.KeepsRun p s (f s a))
    (l : List α) (s : State) : State.KeepsRun p s (l.foldl f s) := by
  induction l generalizing s with
  | nil => exact State.KeepsRun.refl p s
  | cons a l ih => exact (hf s a).trans (ih _)

/-- What a read, or adds that read, leave: where they could be read the partition keeps its run, and it stays in its step in any
case. -/
structure State.Adds (p : Nat) (s : State) (ok : Prop) (t : State) : Prop where
  keeps : ok → State.KeepsRun p s t
  stays : s.inStep p → t.inStep p

theorem State.KeepsRun.adds {p : Nat} {s t : State} (h : State.KeepsRun p s t) (ok : Prop) : State.Adds p s ok t :=
  ⟨fun _ => h, h.inStep⟩

theorem State.Adds.failed {p : Nat} {s t : State} {ok ok' : Prop} (h : State.Adds p s ok t) (hok : ¬ ok') :
    State.Adds p s ok' t := ⟨fun h' => absurd h' hok, h.stays⟩

/-- What follows a read that succeeded. -/
theorem State.Adds.followed {p : Nat} {s t u : State} {ok ok' : Prop} (h : State.Adds p s ok t) (hok : ok)
    (g : State.Adds p t ok' u) : State.Adds p s ok' u :=
  ⟨fun h' => (h.keeps hok).trans (g.keeps h'), fun hs => g.stays (h.stays hs)⟩

/-! ## Reads (R318, R319) -/

theorem State.readMem_adds (p : Nat) (s : State) (via : Option Via) (sp : Space) (a n r : Nat) :
    State.Adds p s ((s.readMem via sp a n r .good).1 = true) (s.readMem via sp a n r .good).2 := by
  have htouched : State.KeepsRun p s (match via with
      | some v => s.touch v false sp a n
      | none => s) := by
    split
    · exact (s.touch_same ..).keepsRun p (by decide) (by decide) (by decide)
    · exact State.KeepsRun.refl p s
  unfold State.readMem; simp only []
  split
  · exact ⟨(nofun), fun hs => State.inStep_readLost _ _ _ (htouched.inStep hs)⟩
  · split
    · exact htouched.adds _
    · exact htouched.adds _

theorem State.readRanges_adds (p : Nat) (v : Via) (sp : Space) (r : Nat) (rs : List Range) (s : State) :
    State.Adds p s ((s.readRanges v sp r .good rs).1 = true) (s.readRanges v sp r .good rs).2 := by
  induction rs generalizing s with
  | nil => exact (State.KeepsRun.refl p s).adds _
  | cons x rs ih =>
    have hread := s.readMem_adds p (some v) sp x.1 x.2 r
    unfold State.readRanges; simp only []
    split
    next hok => exact hread.followed hok (ih _)
    next => exact hread.failed (nofun)

/-! ## One image (R312, R316, R442) -/

theorem State.keepsRun_commitPoint (p : Nat) (s : State) (w : Work) : State.KeepsRun p s (s.commitPoint w) := by
  unfold State.commitPoint
  split
  · refine ⟨rfl, rfl, rfl, ?_⟩
    rw [State.part_modPart]
    split
    next hp => exact ⟨true, by rw [hp]⟩
    · exact ⟨_, rfl⟩
  · exact State.KeepsRun.refl p s

theorem State.keepsRun_modDet (p q : Nat) (s : State) (f : Detector → Detector) : State.KeepsRun p s (s.modDet q f) := by
  refine ⟨rfl, s.seq_modDet q p f, ?_, (s.part p).applyPassed, rfl⟩
  unfold State.log State.modDet; rw [State.run_modRun]; split <;> simp_all

theorem State.keepsRun_withMem (p : Nat) (s : State) (m : Mem) : State.KeepsRun p s { s with mem := m } :=
  (s.withMem_same m).keepsRun p (by decide) (by decide) (by decide)

theorem State.keepsRun_settleInto (p : Nat) (s : State) (w : Work) (d : Light) (dp : Space) :
    State.KeepsRun p s (s.settleInto w d dp) := by
  have hcount : ∀ (u : State) k, State.KeepsRun p u (u.countNonfinite w.part 1 k) := fun u k => by
    unfold State.countNonfinite
    split
    · exact State.KeepsRun.refl p u
    · exact u.keepsRun_modDet p _ _
  unfold State.settleInto
  refine State.KeepsRun.trans ?_ (hcount _ _)
  refine State.KeepsRun.trans ?_ (State.keepsRun_foldl _ (fun u r => u.keepsRun_withMem p _) _ _)
  refine State.KeepsRun.trans ?_ (State.keepsRun_withMem p _ _)
  refine State.KeepsRun.trans ?_ (State.keepsRun_withMem p _ _)
  refine (s.keepsRun_commitPoint p w).trans (State.keepsRun_foldl _ (fun u r => ?_) _ _)
  exact (u.touch_same ..).keepsRun p (by decide) (by decide) (by decide)

theorem State.countAdds_same (s : State) (die sectors cuts bad : Nat) :
    SameBut [.memAux] s (s.countAdds die sectors cuts bad) := by
  constructor; intro f hf; cases f
  case memAux => exact absurd (List.mem_singleton.2 rfl) hf
  all_goals rfl

/-- A row of an ADD whose target no index table names: a source or a target that cannot be read stops it. -/
theorem State.addOne_adds (p : Nat) (w : Work) (d : Light) (hd : d.indexed = false) (sp : Space) (r : Nat) (x : AddRun)
    (s : State) :
    State.Adds p s ((State.addOne w d sp .good r (x, s)).1.stop = 0) (State.addOne w d sp .good r (x, s)).2 := by
  unfold State.addOne
  simp only [hd, ite_self, Bool.not_true, Bool.false_eq_true, false_and, if_false]
  generalize (if d.srcPanel = true then (_, _) else (_, _) : Range) = src
  have hsrc := s.readMem_adds p (some w.via) sp src.1 src.2 w.ident
  generalize s.readMem (some w.via) sp src.1 src.2 w.ident .good = read at hsrc ⊢
  obtain ⟨_ | _, t⟩ := read
  case false => exact hsrc.failed (by simp)
  case true =>
    have hdst := (t.yieldLines (d.dst + r * d.dstStride * 32) (d.sectors * 32)).readMem_adds p none .near
      (d.dst + r * d.dstStride * 32) (d.sectors * 32) w.ident
    simp only [if_true, Bool.not_true, Bool.false_or]
    generalize (t.yieldLines (d.dst + r * d.dstStride * 32) (d.sectors * 32)).readMem none .near
      (d.dst + r * d.dstStride * 32) (d.sectors * 32) w.ident .good = read at hdst ⊢
    have hread := hsrc.followed rfl (((t.keepsRun_withMem p _).adds True).followed trivial hdst)
    obtain ⟨_ | _, u⟩ := read
    case false => exact hread.failed (by simp)
    case true =>
      refine hread.followed rfl (State.KeepsRun.adds ?_ _)
      refine ((u.keepsRun_commitPoint p w).trans ?_).trans (State.keepsRun_withMem p _ _)
      exact (State.countAdds_same ..).keepsRun p (by decide) (by decide) (by decide)

theorem State.addRows_stopped (w : Work) (d : Light) (sp : Space) (o : ReadOutcome) (rs : List Nat) (xs : AddRun × State)
    (h : xs.1.stop ≠ 0) : State.addRows w d sp o rs xs = xs := by
  cases rs with
  | nil => rfl
  | cons r rs => exact if_pos h

theorem State.addRows_adds (p : Nat) (w : Work) (d : Light) (hd : d.indexed = false) (sp : Space) (rs : List Nat) (x : AddRun)
    (s : State) :
    State.Adds p s ((State.addRows w d sp .good rs (x, s)).1.stop = 0) (State.addRows w d sp .good rs (x, s)).2 := by
  induction rs generalizing x s with
  | nil => exact (State.KeepsRun.refl p s).adds _
  | cons r rs ih =>
    have hrow := State.addOne_adds p w d hd sp r x s
    unfold State.addRows
    split
    · exact (State.KeepsRun.refl p s).adds _
    · by_cases hok : (State.addOne w d sp .good r (x, s)).1.stop = 0
      · exact hrow.followed hok (ih _ _)
      · rw [State.addRows_stopped _ _ _ _ _ _ hok]
        exact hrow.failed hok

theorem State.lateAdd_adds (p : Nat) (s : State) (q : Nat) (c : PartCfg) (o : DWord) (x : LateImage) :
    State.Adds p s ((s.lateAdd q c o x).1 = true) (s.lateAdd q c o x).2 := by
  unfold State.lateAdd; simp only []
  split
  next hread => exact (State.readRanges_adds ..).failed (nofun)
  next hread =>
    refine (State.readRanges_adds ..).followed (by simpa using hread) ?_
    simp only [decide_eq_true_eq]
    refine State.Adds.followed (ok := True) ?_ trivial (State.addRows_adds p _ _ rfl _ _ _ _)
    exact (State.keepsRun_settleInto ..).adds True

theorem State.lateAdds_adds (p q : Nat) (c : PartCfg) (o : DWord) (xs : List LateImage) (s : State) :
    State.Adds p s ((State.lateAdds q c o xs s).1 = true) (State.lateAdds q c o xs s).2 := by
  induction xs generalizing s with
  | nil => exact (State.KeepsRun.refl p s).adds _
  | cons x xs ih =>
    have himage := s.lateAdd_adds p q c o x
    unfold State.lateAdds; simp only []
    split
    next hok => exact himage.followed hok (ih _)
    next => exact himage.failed (nofun)

end Sys2Proof.Machine
end

section
/-!
REDUCE and VERDICT (Table 12.3): what each sends to the job, and the sequencer past them (R195, R442).
-/

namespace Sys2Proof.Machine

/-! ## On to the next instruction -/

theorem OnlySeq.of_runs {p : Nat} {q : Sequencer} {s t u : State} (h : OnlySeq p q t u) (hruns : t.runs = s.runs) :
    OnlySeq p q s u := by
  obtain ⟨hp, hothers⟩ := h
  exact ⟨by rw [hp, State.run_congr hruns], fun r hr => (hothers r hr).trans (State.run_congr hruns r)⟩

theorem State.onlySeq_modSeq (s : State) (p : Nat) (f : Sequencer → Sequencer) :
    OnlySeq p (f (s.seq p)) s (s.modSeq p f) := by
  unfold State.modSeq
  exact ⟨by rw [State.run_modRun, if_pos rfl]; rfl, fun r hr => by rw [State.run_modRun, if_neg (Ne.symm hr)]⟩

theorem OnlySeq.trans {p : Nat} {q r : Sequencer} {s t u : State} (h : OnlySeq p q s t) (g : OnlySeq p r t u) :
    OnlySeq p r s u := by
  obtain ⟨hp, hothers⟩ := h
  obtain ⟨gp, gothers⟩ := g
  exact ⟨by rw [gp, hp], fun x hx => (gothers x hx).trans (hothers x hx)⟩

theorem OnlySeq.seq {p : Nat} {q : Sequencer} {s t : State} (h : OnlySeq p q s t) : t.seq p = q := by
  rw [State.seq, h.1]

theorem State.goOn_same (s : State) (p : Nat) : SameBut [.runs] s (s.goOn p) := s.modSeq_same p _

theorem State.onlySeq_goOn (s : State) (p : Nat) : OnlySeq p (s.pastIns p) s (s.goOn p) := s.onlySeq_modSeq p _

/-- The place past an instruction is the same whatever else the sequencer has noted before. -/
theorem State.pastIns_congr {s t : State} {p : Nat} (hcfg : t.cfg? p = s.cfg? p) (hpc : (t.seq p).pc = (s.seq p).pc)
    (hend : (t.seq p).partEnd = (s.seq p).partEnd) : (t.pastIns p).pc = (s.pastIns p).pc := by
  simp only [State.pastIns, State.bodyOf, Sequencer.past, hcfg, hpc, hend]
  split <;> rfl

theorem State.pastIns_lateAdded (s : State) (p : Nat) : (s.pastIns p).lateAdded = (s.seq p).lateAdded := by
  unfold State.pastIns Sequencer.past; split <;> rfl

/-- An instruction that sends one message, notes something in the sequencer, and is past. -/
def State.sendsOn (s : State) (p : Nat) (n : Notice) (f : Sequencer → Sequencer) : State :=
  ((s.send p n).modSeq p f).goOn p

theorem State.sendsOn_same (s : State) (p : Nat) (n : Notice) (f : Sequencer → Sequencer) :
    SameBut [.runs, .jr] s (s.sendsOn p n f) :=
  (((s.send_same p n).mono (by decide)).then (State.modSeq_same _ p f) (by decide)).then (State.goOn_same _ p) (by decide)

theorem State.sent1_sendsOn (s : State) (p : Nat) (n : Notice) (f : Sequencer → Sequencer) :
    Sent1 p n s (s.sendsOn p n f) := rfl

theorem State.onlySeq_sendsOn (s : State) (p : Nat) (n : Notice) (f : Sequencer → Sequencer) :
    OnlySeq p ((f (s.seq p)).past ((s.bodyOf p).length - 1)) s (s.sendsOn p n f) := by
  have hnoted := (State.onlySeq_modSeq (s.send p n) p f).of_runs (s := s) rfl
  have hpast := hnoted.trans (State.onlySeq_goOn _ p)
  rwa [State.pastIns, hnoted.seq] at hpast

/-! ## Late contributions before REDUCE (R442) -/

theorem State.takeLate_nothing {s : State} {p : Nat} (h : (s.log p).lateOrigin = none
    ∨ (s.log p).lateOrigin = some (s.part p).step ∨ (s.seq p).lateAdded = true) : s.takeLate p = (true, s) := by
  unfold State.takeLate
  split
  next o _ horigin _ =>
    rw [horigin] at h
    refine if_pos ?_
    rcases h with hnone | hown | hadded
    · exact nomatch hnone
    · exact Or.inl (Option.some.inj hown)
    · exact Or.inr hadded
  · rfl

section
variable {s : State} {p : Nat} {o : DWord} {c : PartCfg} (horigin : (s.log p).lateOrigin = some o)
  (hcfg : s.cfg? p = some c) (hother : o ≠ (s.part p).step) (hnot : (s.seq p).lateAdded = false)
include horigin hcfg hother hnot

/-- Descriptors of the excused step are still to be done. -/
theorem State.takeLate_waits (hposted : (s.seq p).posted.any (fun x => decide (x.step = o)) = true) :
    s.takeLate p = (false, s) := by
  simp [State.takeLate, horigin, hcfg, hother, hnot, hposted]

variable (hdone : (s.seq p).posted.any (fun x => decide (x.step = o)) = false)
include hdone

theorem State.takeLate_unread {t : State} (h : State.lateAdds p c o (s.lateImages p) s = (false, t)) :
    s.takeLate p = (false, t.rewind p 0x900D) := by
  simp [State.takeLate, horigin, hcfg, hother, hnot, hdone, h]

end

/-- The folds of an excused step's groups are told (R442). -/
def State.tellFolds (s : State) (p : Nat) (o : DWord) (gs : List Half) : State :=
  gs.foldl (fun s g => (s.countLading p 3).raiseJr 0x400B p (wordLe 2 g ++ wordLe 8 o)) s

/-- The sums of the excused step are in, once for this step; a contribution that waited is recorded as folded (R442). -/
def State.foldsIn (s : State) (p : Nat) (o : DWord) : State :=
  let s := s.modSeq p (fun q => { q with lateAdded := true })
  if !(s.part p).latePending then s
  else
    let s := s.modPart p (fun x => { x with latePending := false, lateFolds := satAdd x.lateFolds 1 })
    s.tellFolds p o (s.log p).lateGroups

theorem State.takeLate_adds {s t : State} {p : Nat} {o : DWord} {c : PartCfg} (horigin : (s.log p).lateOrigin = some o)
    (hcfg : s.cfg? p = some c) (hother : o ≠ (s.part p).step) (hnot : (s.seq p).lateAdded = false)
    (hdone : (s.seq p).posted.any (fun x => decide (x.step = o)) = false)
    (h : State.lateAdds p c o (s.lateImages p) s = (true, t)) : s.takeLate p = (true, t.foldsIn p o) := by
  simp only [State.takeLate, horigin, hcfg, hother, hnot, hdone, h, Bool.false_eq_true, or_self, if_false, State.foldsIn]
  split <;> rfl

/-! ## What is recorded of a fold -/

/-- What the telling of folds may change: the event path and the lading record's counts. -/
abbrev foldFields : List Field := .runs :: eventFields

theorem State.countLading_same (s : State) (p i : Nat) : SameBut [.runs] s (s.countLading p i) := by
  unfold State.countLading State.modLading
  exact s.modRun_same p _

theorem State.tellFold_same (s : State) (p : Nat) (b : Bytes) :
    SameBut foldFields s ((s.countLading p 3).raiseJr 0x400B p b) :=
  ((s.countLading_same p 3).mono (by decide)).then (State.raiseHm_same ..) (by decide)

theorem State.tellFolds_same (s : State) (p : Nat) (o : DWord) (gs : List Half) :
    SameBut foldFields s (s.tellFolds p o gs) := SameBut.foldl _ (fun s _ => s.tellFold_same p _) gs s

theorem State.seq_tellFolds (s : State) (p q : Nat) (o : DWord) (gs : List Half) :
    (s.tellFolds p o gs).seq q = s.seq q := by
  unfold State.tellFolds
  induction gs generalizing s with
  | nil => rfl
  | cons g gs ih => rw [List.foldl_cons, ih, State.seq_congr (State.raiseJr_runs ..), State.seq_countLading]

/-- The last group's event stands in the log, whatever the log has lost before it. -/
theorem State.logged_tellFolds (s : State) (p : Nat) (o : DWord) (gs : List Half) (h : gs ≠ []) :
    Logged s (s.tellFolds p o gs) 0x400B := by
  intro hrep
  obtain ⟨front, g, rfl⟩ := (List.eq_nil_or_concat gs).resolve_left h
  have hlast : s.tellFolds p o (front ++ [g]) = ((s.tellFolds p o front).countLading p 3).raiseJr 0x400B p
      (wordLe 2 g ++ wordLe 8 o) := by rw [State.tellFolds, List.foldl_append]; rfl
  have hsame := s.tellFolds_same p o front
  rw [List.concat_eq_append, hlast]
  obtain ⟨l, hl, hcode, -⟩ := State.reports_raiseHm ((s.tellFolds p o front).countLading p 3) 0x400B (some p)
    (natLe 1 p ++ (wordLe 2 g ++ wordLe 8 o))
    ((State.reporting_congr (hsame.same .hm (by decide)) (hsame.same .hmAux (by decide))).trans hrep)
  exact ⟨l, hl, hcode⟩

theorem State.foldsIn_same (s : State) (p : Nat) (o : DWord) : SameBut (.parts :: foldFields) s (s.foldsIn p o) := by
  have hadded := (s.modSeq_same p (fun q => { q with lateAdded := true })).mono (gs := .parts :: foldFields) (by decide)
  unfold State.foldsIn; simp only []
  exact hadded.ite ((hadded.then (State.modPart_same _ p _) (by decide)).then (State.tellFolds_same ..) (by decide))

theorem State.seq_foldsIn (s : State) (p : Nat) (o : DWord) :
    (s.foldsIn p o).seq p = { s.seq p with lateAdded := true } := by
  have hadded : (s.modSeq p (fun q => { q with lateAdded := true })).seq p = { s.seq p with lateAdded := true } := by
    rw [State.seq_modSeq, if_pos rfl]
  unfold State.foldsIn; simp only []
  split
  · exact hadded
  · rw [State.seq_tellFolds, State.seq_congr (State.modPart_runs ..), hadded]

theorem State.part_foldsIn (s : State) (p : Nat) (o : DWord) : (s.foldsIn p o).part p =
    if (s.part p).latePending then { s.part p with latePending := false, lateFolds := satAdd (s.part p).lateFolds 1 }
    else s.part p := by
  have hpart : (s.modSeq p (fun q => { q with lateAdded := true })).part p = s.part p :=
    State.part_congr (State.modSeq_parts ..) p
  unfold State.foldsIn; simp only [hpart]
  by_cases hpending : (s.part p).latePending = true
  · rw [if_neg (by simp [hpending]), if_pos hpending, State.part_congr ((State.tellFolds_same ..).same .parts (by decide)),
      State.part_modPart, if_pos rfl, hpart]
  · rw [if_pos (by simp [hpending]), if_neg hpending, hpart]

theorem Logged.of_events {s t u : State} {code : Nat} (h : Logged s t code) (hevents : u.events = t.events) :
    Logged s u code := by
  unfold Logged
  rw [hevents]
  exact h

theorem State.logged_foldsIn (s : State) (p : Nat) (o : DWord) (hpending : (s.part p).latePending = true)
    (hgroups : (s.log p).lateGroups ≠ []) : Logged s (s.foldsIn p o) 0x400B := by
  have hpart : (s.modSeq p (fun q => { q with lateAdded := true })).part p = s.part p :=
    State.part_congr (State.modSeq_parts ..) p
  have hlog : ∀ f : Part → Part, ((s.modSeq p (fun q => { q with lateAdded := true })).modPart p f).log p = s.log p :=
    fun f => by rw [State.log, State.run_congr (State.modPart_runs ..), ← State.log, State.log_modSeq]
  unfold State.foldsIn; simp only [hpart, hpending, Bool.not_true, Bool.false_eq_true, if_false, hlog]
  exact fun hrep => State.logged_tellFolds _ p o _ hgroups hrep

/-! ## REDUCE and VERDICT -/

/-- A group that the device says it is ready for, at a time (R442). -/
def Sequencer.noteReady (g : Half) (now : DWord) (q : Sequencer) : Sequencer :=
  { q with ownReady := q.ownReady ++ [g], readyAt := q.readyAt ++ [(g, now)] }

/-- Ready goes to the coordinator, and BODY goes on (R442). -/
def State.saysReady (s : State) (p : Nat) (g : Half) : State :=
  s.sendsOn p (.ready g (s.part p).step) (Sequencer.noteReady g s.hm.time)

theorem Sequencer.past_noteReady (g : Half) (now : DWord) (q : Sequencer) (last : Nat) : (q.noteReady g now).past last =
    { q.past last with ownReady := q.ownReady ++ [g], readyAt := q.readyAt ++ [(g, now)] } := by
  unfold Sequencer.past Sequencer.noteReady; split <;> rfl

theorem State.onlySeq_saysReady (s : State) (p : Nat) (g : Half) :
    OnlySeq p { s.pastIns p with
      ownReady := (s.seq p).ownReady ++ [g], readyAt := (s.seq p).readyAt ++ [(g, s.hm.time)] } s (s.saysReady p g) := by
  have h := s.onlySeq_sendsOn p (.ready g (s.part p).step) (Sequencer.noteReady g s.hm.time)
  rwa [Sequencer.past_noteReady] at h

/-- A group whose contribution is out, or excused. -/
def State.outOrExcused (s : State) (p : Nat) (g : Half) : Prop :=
  (s.seq p).reduced.contains g = true ∨ (s.seq p).ownReady.contains g = true
    ∨ (s.seq p).excused.any (fun x => decide (x.1 = g) && decide (x.2.1 = BitVec.ofNat 16 (s.me p))) = true

theorem State.not_outOrExcused {s : State} {p : Nat} {g : Half} (hreduced : (s.seq p).reduced.contains g = false)
    (hready : (s.seq p).ownReady.contains g = false)
    (hexcused : (s.seq p).excused.any (fun x => decide (x.1 = g) && decide (x.2.1 = BitVec.ofNat 16 (s.me p))) = false) :
    ¬ s.outOrExcused p g := by
  rintro (h | h | h)
  · exact Bool.false_ne_true (hreduced.symm.trans h)
  · exact Bool.false_ne_true (hready.symm.trans h)
  · exact Bool.false_ne_true (hexcused.symm.trans h)

theorem State.bodyReduce_passes {s : State} {p : Nat} {i : BodyIns} (h : s.outOrExcused p (BitVec.ofNat 16 i.a)) :
    s.bodyReduce p i = s.goOn p := if_pos h

theorem State.bodyReduce_waits {s t : State} {p : Nat} {i : BodyIns} (h : ¬ s.outOrExcused p (BitVec.ofNat 16 i.a))
    (hlate : s.takeLate p = (false, t)) : s.bodyReduce p i = t := by
  simp only [State.bodyReduce, hlate, Bool.not_false, if_true]
  exact if_neg h

theorem State.bodyReduce_ready {s t : State} {p : Nat} {i : BodyIns} (h : ¬ s.outOrExcused p (BitVec.ofNat 16 i.a))
    (hlate : s.takeLate p = (true, t)) : s.bodyReduce p i = t.saysReady p (BitVec.ofNat 16 i.a) := by
  simp only [State.bodyReduce, hlate, Bool.not_true, Bool.false_eq_true, if_false]
  exact (if_neg h).trans rfl

/-- What stands behind a REDUCE that has added late contributions in: the partition has kept its run while they were added, so that
ready and the fold's record speak of what the step held before. -/
theorem State.ready_foldsIn {s t : State} {p : Nat} (o : DWord) (g : Half) (h : State.KeepsRun p s t) :
    (((t.foldsIn p o).saysReady p g).seq p).lateAdded = true
      ∧ (((t.foldsIn p o).saysReady p g).seq p).pc = (t.pastIns p).pc
      ∧ g ∈ (((t.foldsIn p o).saysReady p g).seq p).ownReady
      ∧ Sent1 p (.ready g (s.part p).step) s ((t.foldsIn p o).saysReady p g)
      ∧ ((s.part p).latePending = true → (((t.foldsIn p o).saysReady p g).part p).latePending = false
        ∧ (((t.foldsIn p o).saysReady p g).part p).lateFolds = satAdd (s.part p).lateFolds 1
        ∧ ((s.log p).lateGroups ≠ [] → Logged t ((t.foldsIn p o).saysReady p g) 0x400B))
      ∧ SameBut [.events, .i3c, .mem, .berths, .parts, .runs, .jr] t ((t.foldsIn p o).saysReady p g) := by
  obtain ⟨hjr, -, hlog, a, hpart⟩ := h
  have hfolds := t.foldsIn_same p o
  have hsays : SameBut [.runs, .jr] (t.foldsIn p o) ((t.foldsIn p o).saysReady p g) := State.sendsOn_same ..
  have hsays_part := State.part_congr (hsays.same .parts (by decide)) p
  have hcfg : (t.foldsIn p o).cfg? p = t.cfg? p := by
    rw [State.cfg?, State.part_foldsIn, State.cfg?]; split <;> rfl
  have hstep : ((t.foldsIn p o).part p).step = (s.part p).step := by
    rw [State.part_foldsIn, hpart]; split <;> rfl
  rw [((t.foldsIn p o).onlySeq_saysReady p g).seq, hsays_part, State.part_foldsIn]
  refine ⟨?_, ?_, List.mem_append_right _ (List.mem_singleton.2 rfl), ?_, fun hpending => ?_,
    (hfolds.mono (by decide)).then hsays (by decide)⟩
  · show ((t.foldsIn p o).pastIns p).lateAdded = true
    rw [State.pastIns_lateAdded, State.seq_foldsIn]
  · refine State.pastIns_congr hcfg ?_ ?_ <;> rw [State.seq_foldsIn]
  · show (t.foldsIn p o).jr.sent ++ _ = s.jr.sent ++ _
    rw [hfolds.same .jr (by decide), hjr, hstep]
  · have hpending' : (t.part p).latePending = true := by rw [hpart]; exact hpending
    rw [if_pos hpending']
    exact ⟨rfl, by rw [hpart], fun hgroups => (t.logged_foldsIn p o hpending' (by rw [hlog]; exact hgroups)).of_events
      (hsays.same .events (by decide))⟩

theorem exec_reduce {s b : State} {p : BitVec 6} {i : BodyIns} (h : s.bodyRuns p.toNat 6 i b) :
    exec (.reduce p) s = .next (b.bodyReduce p.toNat i) := congrArg Host.Outcome.next (State.bodyStep_of_bodyRuns h _)

theorem exec_verdict {s b : State} {p : BitVec 6} {i : BodyIns} (h : s.bodyRuns p.toNat 8 i b) :
    exec (.verdict p) s = .next (b.bodyVerdict p.toNat) := congrArg Host.Outcome.next (State.bodyStep_of_bodyRuns h _)

/-- The flags are out, and whether the spike test was run (R193, R195). -/
def Sequencer.noteVerdict (notRun : Bool) (q : Sequencer) : Sequencer := { q with verdictSent := true, spikeNotRun := notRun }

theorem State.bodyVerdict_eq {s : State} {p : Nat} {c : PartCfg} (hcfg : s.cfg? p = some c) : s.bodyVerdict p =
    s.sendsOn p (.verdict (s.part p).step (decide ((s.det p).count ≠ 0)) (((s.det p).spike c.policy.spikeRatio).getD false))
      (Sequencer.noteVerdict ((s.det p).spike c.policy.spikeRatio).isNone) := by
  simp only [State.bodyVerdict, hcfg]; rfl

theorem Sequencer.past_noteVerdict (notRun : Bool) (q : Sequencer) (last : Nat) :
    (q.noteVerdict notRun).past last = (q.past last).noteVerdict notRun := by
  unfold Sequencer.past Sequencer.noteVerdict; split <;> rfl

theorem State.onlySeq_bodyVerdict {s : State} {p : Nat} {c : PartCfg} (hcfg : s.cfg? p = some c) :
    OnlySeq p { s.pastIns p with
      verdictSent := true, spikeNotRun := ((s.det p).spike c.policy.spikeRatio).isNone } s (s.bodyVerdict p) := by
  have h := s.onlySeq_sendsOn p (.verdict (s.part p).step (decide ((s.det p).count ≠ 0))
    (((s.det p).spike c.policy.spikeRatio).getD false)) (Sequencer.noteVerdict ((s.det p).spike c.policy.spikeRatio).isNone)
  rwa [Sequencer.past_noteVerdict, ← State.bodyVerdict_eq hcfg] at h

end Sys2Proof.Machine

open Sys2Proof Sys2Proof.Machine

/-- Settles O46: REDUCE is what `State.takeLate` says of the late contributions, and ready behind it; adds that are all read change
nothing that ready speaks of, and adds that are not leave the partition in its step, which a rewind counts. -/
theorem bodyReduceAndVerdict : Obligations.BodyReduceAndVerdict := by
  intro s b p i
  refine ⟨fun hruns g hg => ?_, fun c hruns hcfg => ?_⟩
  · subst hg
    have hexec := exec_reduce hruns
    refine ⟨fun hout => ?_, fun hreduced hready hexcused => ⟨fun hnothing => ?_,
      fun o c horigin hcfg hother hnot => ⟨fun hposted => ?_, fun hdone => ⟨fun b1 hadds => ?_, fun b1 hadds => ?_⟩⟩⟩⟩
    · exact ⟨_, hexec.trans (congrArg _ (State.bodyReduce_passes hout)), b.onlySeq_goOn _, b.goOn_same _⟩
    all_goals have hin := State.not_outOrExcused hreduced hready hexcused
    · exact ⟨_, hexec.trans (congrArg _ (State.bodyReduce_ready hin (State.takeLate_nothing hnothing))),
        b.onlySeq_saysReady _ _, b.sent1_sendsOn .., b.sendsOn_same ..⟩
    · exact hexec.trans (congrArg _ (State.bodyReduce_waits hin (State.takeLate_waits horigin hcfg hother hnot hposted)))
    · have hstays := (State.lateAdds_adds p.toNat p.toNat c o (b.lateImages p.toNat) b).stays
        (State.inStep_of_bodyRuns hruns)
      rw [hadds] at hstays
      exact ⟨_, hexec.trans (congrArg _ (State.bodyReduce_waits hin
        (State.takeLate_unread horigin hcfg hother hnot hdone hadds))), b1.rewinds_rewind _ _ hstays⟩
    · have hkeeps := (State.lateAdds_adds p.toNat p.toNat c o (b.lateImages p.toNat) b).keeps (by rw [hadds])
      rw [hadds] at hkeeps
      exact ⟨_, hexec.trans (congrArg _ (State.bodyReduce_ready hin
        (State.takeLate_adds horigin hcfg hother hnot hdone hadds))), State.ready_foldsIn o _ hkeeps⟩
  · rw [exec_verdict hruns]
    refine ⟨_, rfl, State.onlySeq_bodyVerdict hcfg, ?_, ?_⟩
    · rw [State.bodyVerdict_eq hcfg]; rfl
    · rw [State.bodyVerdict_eq hcfg]; exact State.sendsOn_same ..

end

section
/-!
What waits on the management ring stays there until the Harbourmaster accepts it (R40): a berth write, the notice of an entry
and the end of an amendment put records behind it, and take none away.
-/

namespace Sys2Proof.Machine

/-- Every record that waits on the ring still waits. -/
def State.RingKept (s t : State) : Prop := s.events.ring ⊆ t.events.ring

theorem State.RingKept.refl (s : State) : s.RingKept s := List.Subset.refl _

theorem State.RingKept.trans {s t u : State} (h : s.RingKept t) (g : t.RingKept u) : s.RingKept u := List.Subset.trans h g

theorem SameBut.ringKept {fs : List Field} {s t : State} (h : SameBut fs s t) (hevents : Field.events ∉ fs) : s.RingKept t := by
  rw [State.RingKept, h.same .events hevents]
  exact List.Subset.refl _

theorem State.RingKept.ite {c : Prop} [Decidable c] {s t u : State} (h : s.RingKept t) (g : s.RingKept u) :
    s.RingKept (if c then t else u) := by
  split <;> assumption

theorem State.ringKept_foldl {α : Type} (f : State → α → State) (h : ∀ s a, State.RingKept s (f s a)) (l : List α) (s : State) :
    s.RingKept (l.foldl f s) := by
  induction l generalizing s with
  | nil => exact .refl s
  | cons a l ih => exact (h s a).trans (ih _)

theorem RaisedAt.ringKept {s t u : State} {code die : Nat} (h : RaisedAt s t code die) (g : t.RingKept u) :
    RaisedAt s u code die := fun hrep => by
  obtain ⟨r, hr, hcode⟩ := h hrep
  exact ⟨r, g hr, hcode⟩

/-- Whether records are accepted is asked before what a command does ahead of its event. -/
theorem RaisedAt.of_before {s u t : State} {code die : Nat} (h : RaisedAt u t code die) (hhm : u.hm = s.hm)
    (haux : u.hmAux = s.hmAux) : RaisedAt s t code die :=
  fun hrep => h ((State.reporting_congr hhm haux).trans hrep)

/-! ## Events of the dies -/

theorem State.hold_ringKept (s : State) (r : EventRec) : s.RingKept (s.hold r) := by
  rw [State.RingKept, s.hold_ring r]
  exact List.Subset.refl _

theorem State.raiseDie_ringKept (s : State) (code die : Nat) (part : Option Nat) (b : Bytes) (q : Bool) :
    s.RingKept (s.raiseDie code die part b q) := by
  unfold State.raiseDie; simp only []
  split
  · exact List.subset_append_left _ _
  · exact s.hold_ringKept _

theorem State.raiseBerth_ringKept (s : State) (quiet : Option Nat) (n code : Nat) (b : Bytes) :
    s.RingKept (s.raiseBerth quiet n code b) := s.raiseDie_ringKept ..

theorem State.raisedAt_raiseCl (s : State) (code die phys : Nat) (b : Bytes) :
    RaisedAt s (s.raiseCl code die phys b) code (cdIndex die) := by
  intro hrep
  rw [State.raiseCl, State.raiseDie_ring _ _ _ _ _ hrep]
  exact ⟨_, List.mem_append_right _ (List.mem_singleton.2 rfl), rfl, rfl⟩

/-! ## Berth writes (R336 to R343) -/

theorem State.setBerth_ringKept (s : State) (n : Nat) (b : Berth) : s.RingKept (s.setBerth n b) :=
  (s.setBerth_same n b).ringKept (by decide)

theorem State.ringStore_ringKept (s : State) (c : BerthCfg) (a : Nat) (b : Bytes) : s.RingKept (s.ringStore c a b) :=
  (s.ringStore_same c a b).ringKept (by decide)

theorem State.putSlot_ringKept (s : State) (n cls flags valid producer : Nat) (step : DWord) (drops : Nat) (b : Bytes) :
    s.RingKept (s.putSlot n cls flags valid producer step drops b) :=
  (s.ringStore_ringKept ..).trans (State.setBerth_ringKept ..)

theorem State.dropSlots_ringKept (s : State) (quiet : Option Nat) (n k : Nat) (step : DWord) :
    s.RingKept (s.dropSlots quiet n k step) := by
  have htold := (s.setBerth_ringKept n { s.berth n with
    drops := satAdd (s.berth n).drops k, status := setBit (s.berth n).status 1 })
  unfold State.dropSlots; simp only []
  split
  · exact ((htold.trans (State.raiseBerth_ringKept ..)).ite htold).trans <|
      ((State.ringStore_ringKept ..).trans (State.ringStore_ringKept ..)).ite (State.ringStore_ringKept ..)
  · exact ((htold.trans (State.raiseBerth_ringKept ..)).ite htold).trans (State.putSlot_ringKept ..)

theorem State.levelAfter_ringKept (quiet : Option Nat) (fuel n before : Nat) (step : DWord) (s : State) :
    s.RingKept (State.levelAfter fuel quiet n before step s) := by
  induction fuel generalizing n before s with
  | zero => exact .refl s
  | succ fuel ih =>
    unfold State.levelAfter; simp only []
    refine .ite (.refl s) (.ite ?_ ((s.setBerth_ringKept ..).ite (.refl s)))
    refine (s.setBerth_ringKept n { s.berth n with armed := false, status := setBit (s.berth n).status 0 }).trans ?_
    refine .ite (State.raiseBerth_ringKept ..) (.ite (.refl _) (.trans ?_ (ih ..)))
    exact (State.putSlot_ringKept ..).ite (State.dropSlots_ringKept ..)

theorem State.level_ringKept (s : State) (quiet : Option Nat) (n before : Nat) (step : DWord) :
    s.RingKept (s.level quiet n before step) := State.levelAfter_ringKept ..

theorem State.enqueueSlot_ringKept (s : State) (quiet : Option Nat) (n : Nat) (m : BerthMsg) (i : Nat) :
    s.RingKept (s.enqueueSlot quiet n m i) := (s.putSlot_ringKept ..).trans (State.level_ringKept ..)

theorem State.feed_ringKept (quiet : Option Nat) (n : Nat) (m : BerthMsg) (fuel i : Nat) (s : State) :
    s.RingKept (State.feed quiet n m fuel i s).2 := by
  induction fuel generalizing i s with
  | zero => exact .refl s
  | succ fuel ih =>
    unfold State.feed; simp only []
    split
    · exact (((s.setBerth_ringKept ..).ite (.refl s)).trans (State.enqueueSlot_ringKept ..)).trans (ih ..)
    · exact .refl s

theorem State.fillFree_ringKept (s : State) (n : Nat) (b : Bytes) : s.RingKept (s.fillFree n b) :=
  State.ringKept_foldl _ (fun u _ => u.ringStore_ringKept ..) _ s

theorem State.acceptMessage_ringKept (s : State) (quiet : Option Nat) (n : Nat) (m : BerthMsg) :
    s.RingKept (s.acceptMessage quiet n m) := by
  unfold State.acceptMessage; simp only []
  split
  · refine (State.ringKept_foldl _ (fun u i => u.enqueueSlot_ringKept ..) _ s).ite ?_
    exact ((s.fillFree_ringKept ..).trans (State.dropSlots_ringKept ..)).trans (State.level_ringKept ..)
  · split
    · exact .ite ((State.feed_ringKept ..).trans (State.setBerth_ringKept ..)) (State.feed_ringKept ..)
    · exact s.setBerth_ringKept ..

theorem State.berthWrite_ringKept (s : State) (quiet : Option Nat) (n : Nat) (m : BerthMsg) :
    s.RingKept (s.berthWrite quiet n m).2 := by
  unfold State.berthWrite; simp only []
  split
  · exact .refl s
  · split
    · exact (s.setBerth_ringKept ..).trans (State.raiseBerth_ringKept ..)
    · split
      · exact (s.setBerth_ringKept ..).trans (State.raiseBerth_ringKept ..)
      · exact s.acceptMessage_ringKept ..

/-! ## The Harbourmaster's events, and the end of an amendment (R40, R78) -/

theorem Events.append_ring (e : Events) (r : EventRec) : (e.append r).2.ring = e.ring := by
  unfold Events.append; simp only []
  split <;> rfl

theorem State.toBerth_ringKept (s : State) (r : EventRec) : s.RingKept (s.toBerth r) := by
  unfold State.toBerth
  exact (s.berthWrite_ringKept ..).ite (.refl s)

theorem State.signal_ringKept (s : State) (r : EventRec) : s.RingKept (s.signal r) := by
  obtain ⟨p, hp⟩ := s.signal_events r
  rw [State.RingKept, hp]
  exact List.Subset.refl _

theorem State.acceptOne_ringKept (s : State) (r : EventRec) : s.RingKept (s.acceptOne r).2 := by
  refine .trans (t := { s with events :=
    (({ s.events with seq := s.events.seq + 1 } : Events).append { r with seq := s.events.seq }).2 }) ?_
    ((State.toBerth_ringKept ..).trans (State.signal_ringKept ..))
  rw [State.RingKept, Events.append_ring]
  exact List.Subset.refl _

theorem State.accept_ringKept (s : State) (r : EventRec) : s.RingKept (s.accept r) := by
  unfold State.accept; simp only []
  refine .ite ((s.acceptOne_ringKept r).trans (.trans ?_ (State.acceptOne_ringKept ..))) (s.acceptOne_ringKept r)
  exact List.Subset.refl _

theorem State.raiseHm_ringKept (s : State) (code : Nat) (part : Option Nat) (b : Bytes) :
    s.RingKept (s.raiseHm code part b) := by
  simp only [State.raiseHm, State.raise, if_true]
  exact (s.accept_ringKept _).ite (s.hold_ringKept _)

theorem State.amendCheck_ringKept (s : State) : s.RingKept s.amendCheck := by
  unfold State.amendCheck; simp only []
  refine (RingKept.refl s).ite (.trans ?_ (State.raiseHm_ringKept ..))
  exact (s.retag_same.ringKept (by decide)).trans ((State.withMf_same ..).ringKept (by decide))

end Sys2Proof.Machine
end

section
/-!
The cluster that a command works on: what one update of it, of its context or of a window entry leaves there, and that every
other cluster is as it was.
-/

namespace Sys2Proof.Machine

/-! ## Places of a list -/

theorem getElem?_modifyAt {α : Type} (l : List α) (i : Nat) (f : α → α) : (modifyAt l i f)[i]? = l[i]?.map f := by
  induction l generalizing i with
  | nil => rfl
  | cons x l ih =>
    cases i with
    | zero => rfl
    | succ i => exact ih i

theorem getElem?_of_firstEntry {w : List Entry} {f : Entry → Bool} {i : Nat} {e : Entry} (h : firstEntry w f = some (i, e)) :
    w[i]? = some e := by
  unfold firstEntry at h
  split at h
  · exact nomatch h
  next k _ =>
    obtain ⟨x, hx, heq⟩ := Option.map_eq_some_iff.1 h
    cases heq
    exact hx

/-! ## The place of work -/

/-- What stands in a place of work: a cluster of the die, and the context at its position in the cluster's list. -/
structure At.stands (a : At) (s : State) : Prop where
  phys : a.phys < 256
  ctx : (s.clusterOf a).ctxs[a.idx]? = some a.ctx

theorem State.at?_stands {s : State} {id : ClusterId} {slot : BitVec 1} {a : At} (h : s.at? id slot = some a) :
    a.stands s ∧ a.slot = slot := by
  unfold State.at? at h; simp only [] at h
  split at h
  · exact nomatch h
  · split at h
    next l i hl hi =>
      split at h
      next x hx =>
        split at h
        next cfg hcfg =>
          cases h
          exact ⟨⟨id.phys.isLt, hx⟩, rfl⟩
        · exact nomatch h
      · exact nomatch h
    · exact nomatch h

theorem State.ctxOf_eq {s : State} {a : At} {x : Ctx} (h : (s.clusterOf a).ctxs[a.idx]? = some x) : s.ctxOf a = x := by
  rw [State.ctxOf, h, Option.getD_some]

/-! ## One cluster changes -/

/-- A cluster with the context at one position of its list put through `f`. -/
def Cluster.onCtx (i : Nat) (f : Ctx → Ctx) (c : Cluster) : Cluster := { c with ctxs := modifyAt c.ctxs i f }

@[simp] theorem Cluster.onCtx_store (i : Nat) (f : Ctx → Ctx) (c : Cluster) : (c.onCtx i f).store = c.store := rfl

theorem Cluster.getElem?_onCtx {c : Cluster} {i : Nat} {x : Ctx} (h : c.ctxs[i]? = some x) (f : Ctx → Ctx) :
    (c.onCtx i f).ctxs[i]? = some (f x) := by
  rw [Cluster.onCtx, getElem?_modifyAt, h, Option.map_some]

theorem State.cluster_setCluster (s : State) (die phys d p : Nat) (c : Cluster) :
    (s.setCluster die phys c).cluster d p = if clusterKey die phys = clusterKey d p then c else s.cluster d p :=
  s.clusterAt_setClusterAt _ _ c

theorem State.cluster_modCluster (s : State) (die phys d p : Nat) (f : Cluster → Cluster) :
    (s.modCluster die phys f).cluster d p
      = if clusterKey die phys = clusterKey d p then f (s.cluster die phys) else s.cluster d p :=
  s.cluster_setCluster ..

theorem State.cluster_congr {s t : State} (h : t.clusters = s.clusters) (die phys : Nat) :
    t.cluster die phys = s.cluster die phys := State.clusterAt_congr h _

theorem State.modCluster_same (s : State) (die phys : Nat) (f : Cluster → Cluster) :
    SameBut [.clusters] s (s.modCluster die phys f) := by
  constructor; intro g hg; cases g
  case clusters => exact absurd (List.mem_singleton.2 rfl) hg
  all_goals rfl

/-- A command has changed the cluster of a place of work to `c`, and no other. -/
structure OnlyCluster (a : At) (c : Cluster) (s t : State) : Prop where
  here : t.clusterOf a = c
  others : OtherClusters a.die a.phys s t

theorem OnlyCluster.refl (a : At) (s : State) : OnlyCluster a (s.clusterOf a) s s := ⟨rfl, fun _ _ _ _ _ => rfl⟩

theorem OnlyCluster.of_clusters {a : At} {c : Cluster} {s t u : State} (h : OnlyCluster a c s t)
    (hclusters : u.clusters = t.clusters) : OnlyCluster a c s u :=
  ⟨(State.cluster_congr hclusters ..).trans h.here,
    fun d p hne hd hp => (State.cluster_congr hclusters d p).trans (h.others d p hne hd hp)⟩

section
variable {a : At} {c : Cluster} {s t : State} (h : OnlyCluster a c s t) (hphys : a.phys < 256)
include h hphys

theorem OnlyCluster.modClusterOf (f : Cluster → Cluster) : OnlyCluster a (f c) s (t.modClusterOf a f) := by
  obtain ⟨hhere, hothers⟩ := h
  unfold State.modClusterOf
  refine ⟨?_, fun d p hne hd hp => ?_⟩
  · rw [State.clusterOf, State.cluster_modCluster, if_pos rfl]
    exact congrArg f hhere
  · have hkey : clusterKey a.die a.phys ≠ clusterKey d p := by
      unfold clusterKey
      omega
    rw [State.cluster_modCluster, if_neg hkey]
    exact hothers d p hne hd hp

theorem OnlyCluster.modCtx (f : Ctx → Ctx) : OnlyCluster a (c.onCtx a.idx f) s (t.modCtx a f) :=
  h.modClusterOf hphys (Cluster.onCtx a.idx f)

end

theorem OnlyCluster.ctxOf {a : At} {c : Cluster} {s t : State} {x : Ctx} (h : OnlyCluster a c s t)
    (hx : c.ctxs[a.idx]? = some x) : t.ctxOf a = x :=
  State.ctxOf_eq (h.here ▸ hx)

end Sys2Proof.Machine
end

section
/-!
Items and entries of a context: an item leaves its intake (R346), an entry that is done leaves its window (R349, R422), a context
halts. Each changes the context alone among what the clusters hold.
-/

namespace Sys2Proof.Machine

/-! ## The oldest item of a berth is taken (R337, R346) -/

theorem State.releaseWaiting_same (n fuel : Nat) (s : State) : SameBut berthFields s (State.releaseWaiting n fuel s) := by
  induction fuel generalizing s with
  | zero => exact SameBut.refl _ s
  | succ fuel ih =>
    have hb := fun u g => (State.modBerth_same u n g).mono (gs := berthFields) (by decide)
    unfold State.releaseWaiting; simp only []
    split
    · exact SameBut.refl _ s
    · exact (State.feed_same ..).trans ((hb ..).ite ((hb ..).trans (ih _)))

theorem State.dequeue_same (s : State) (n : Nat) : SameBut berthFields s (s.dequeue n).2 := by
  unfold State.dequeue; simp only []
  split
  · exact SameBut.refl _ s
  · dsimp only
    refine SameBut.trans ?_ (State.releaseWaiting_same ..)
    refine SameBut.then ?_ (State.releaseOld_same ..) (by decide)
    refine SameBut.trans ?_ (State.level_same ..)
    refine SameBut.trans ?_ (SameBut.ite ((State.raiseBerth_same ..).mono (by decide)) (SameBut.refl _ _))
    exact ((State.touch_same ..).mono (by decide)).then (State.setBerth_same ..) (by decide)

theorem State.modClusterOf_same (s : State) (a : At) (f : Cluster → Cluster) : SameBut [.clusters] s (s.modClusterOf a f) :=
  s.modCluster_same ..

theorem State.modCtx_same (s : State) (a : At) (f : Ctx → Ctx) : SameBut [.clusters] s (s.modCtx a f) :=
  s.modClusterOf_same a _

/-- What a context does when it halts in front of the entry at place `runs` (R237, R242). -/
def Ctx.halts (runs : Nat) (x : Ctx) : Ctx := { x with halted := true, runsOn := runs }

theorem State.haltCtx_eq (s : State) (a : At) (runs : Nat) : s.haltCtx a runs = s.modCtx a (Ctx.halts runs) := rfl

/-- What a context is when a descriptor has entered its window. -/
def Ctx.takes (e : Entry) (x : Ctx) : Ctx := { x with window := x.window ++ [e] }

theorem State.admitItem_eq (s : State) (a : At) (n : Nat) (it : Item) (vector : Bool) :
    s.admitItem a n it vector = (s.dequeue n).2.modCtx a (Ctx.takes (Entry.of it n vector)) := rfl

theorem State.admitItem_same (s : State) (a : At) (n : Nat) (it : Item) (vector : Bool) :
    SameBut [.events, .clusters, .mem, .berths] s (s.admitItem a n it vector) := by
  rw [State.admitItem_eq]
  exact ((s.dequeue_same n).mono (by decide)).then (State.modCtx_same ..) (by decide)

theorem OnlyCluster.admitItem {a : At} {c : Cluster} {s t : State} (h : OnlyCluster a c s t) (hphys : a.phys < 256)
    (n : Nat) (it : Item) (vector : Bool) :
    OnlyCluster a (c.onCtx a.idx (Ctx.takes (Entry.of it n vector))) s
      (t.admitItem a n it vector) :=
  (h.of_clusters ((t.dequeue_same n).same .clusters (by decide))).modCtx hphys _

/-! ## An entry is done (R271, R349, R422) -/

theorem State.modStash_same (s : State) (p : Nat) (f : Stash → Stash) : SameBut [.runs] s (s.modStash p f) :=
  s.modRun_same p _

theorem State.endWaits_same (s : State) (p : Nat) : SameBut [.runs] s (s.endWaits p) := by
  unfold State.endWaits
  refine SameBut.foldl _ (fun u w => ?_) _ s
  exact SameBut.ite (u.modStash_same p _) (SameBut.refl _ u)

theorem State.releaseStash_same (s : State) (p : Nat) : SameBut [.mem, .runs] s (s.releaseStash p) := by
  unfold State.releaseStash; simp only []
  refine (SameBut.refl _ s).ite (SameBut.then ?_ (State.store_same ..) (by decide))
  exact ((s.modStash_same p _).trans (State.endWaits_same ..)).mono (by decide)

theorem State.descriptorDone_same (s : State) (p berth : Nat) (itemSeq : DWord) :
    SameBut [.mem, .runs] s (s.descriptorDone p berth itemSeq) := by
  have hseq := fun f => (s.modSeq_same p f).mono (gs := [.mem, .runs]) (by decide)
  unfold State.descriptorDone; simp only []
  exact ((hseq _).trans (State.releaseStash_same ..)).ite (hseq _)

theorem State.entryNotice_same (s : State) (a : At) (e : Entry) (notify : Bool) (done tag source flags : Nat) :
    SameBut berthFields s (s.entryNotice a e notify done tag source flags) :=
  SameBut.ite (State.berthWrite_same ..) (SameBut.refl _ s)

theorem State.entryNotice_ringKept (s : State) (a : At) (e : Entry) (notify : Bool) (done tag source flags : Nat) :
    s.RingKept (s.entryNotice a e notify done tag source flags) :=
  State.RingKept.ite (State.berthWrite_ringKept ..) (.refl s)

/-- What a context is when the entry at place `i` of its window is gone. -/
def Ctx.drops (i : Nat) (x : Ctx) : Ctx :=
  { x with window := x.window.eraseIdx i, runsOn := if i < x.runsOn then x.runsOn - 1 else x.runsOn }

theorem State.dropEntry_eq (s : State) (a : At) (i : Nat) : s.dropEntry a i = s.modCtx a (Ctx.drops i) := rfl

section
variable (s : State) (a : At) (i : Nat) (e : Entry) (notify : Bool) (done tag source flags : Nat)

theorem State.entryDone_same_dropEntry :
    SameBut [.events, .mem, .berths, .runs] (s.dropEntry a i) (s.entryDone a i e notify done tag source flags) :=
  ((State.descriptorDone_same ..).mono (by decide)).then (State.entryNotice_same ..) (by decide)

theorem State.entryDone_same :
    SameBut [.events, .clusters, .mem, .berths, .runs] s (s.entryDone a i e notify done tag source flags) :=
  ((s.modCtx_same a (Ctx.drops i)).mono (by decide)).then (s.entryDone_same_dropEntry ..) (by decide)

theorem State.entryDone_ringKept : s.RingKept (s.entryDone a i e notify done tag source flags) :=
  (((s.modCtx_same a (Ctx.drops i)).ringKept (by decide)).trans
    ((State.descriptorDone_same ..).ringKept (by decide))).trans (State.entryNotice_ringKept ..)

variable {s a} in
theorem OnlyCluster.entryDone {c : Cluster} {r : State} (h : OnlyCluster a c r s) (hphys : a.phys < 256) :
    OnlyCluster a (c.onCtx a.idx (Ctx.drops i)) r
      (s.entryDone a i e notify done tag source flags) :=
  (h.modCtx hphys (Ctx.drops i)).of_clusters ((s.entryDone_same_dropEntry ..).same .clusters (by decide))

end

end Sys2Proof.Machine
end

section
/-!
Vector descriptors that enter the window or are refused (R237), a NOP (R213), and one whose apply pass is discarded (R212, R242).
-/

namespace Sys2Proof.Machine

/-! ## Admission (R237) -/

theorem exec_vectorDescriptorAdmit (c : ClusterId) (slot : BitVec 1) (s : State) :
    exec (.vectorDescriptorAdmit c slot) s = .next (s.vectorAdmit c slot).amendCheck := rfl

/-- A descriptor is refused with a check's code: its context halts behind the entries that it holds, and says so. -/
def State.vectorRefused (s : State) (a : At) (v : Vec) : State :=
  (s.haltCtx a (s.ctxOf a).window.length).raiseCl 0xA001 a.die a.phys
    (natLe 1 a.ctx.id ++ natLe 1 (s.checkVec a v) ++ natLe 2 v.tag)

section
variable {s : State} {c : ClusterId} {slot : BitVec 1} {a : At} {n : Nat} {it : Item} (hat : s.at? c slot = some a)
  (hhead : s.intakeHead a = some (n, it)) (hcls : it.cls = 2) (hgood : it.poisoned = false) (hopen : s.pilotOpen a = true)
include hat hhead hcls hgood hopen

theorem State.vectorAdmit_passes (hcheck : s.checkVec a (Vec.of (wordsOf 16 it.payload)) = 0) :
    s.vectorAdmit c slot = s.admitItem a n it true := by
  simp [State.vectorAdmit, hat, hhead, hcls, hgood, hopen, hcheck]

theorem State.vectorAdmit_fails (hcheck : s.checkVec a (Vec.of (wordsOf 16 it.payload)) ≠ 0) :
    s.vectorAdmit c slot = s.vectorRefused a (Vec.of (wordsOf 16 it.payload)) := by
  simp [State.vectorAdmit, hat, hhead, hcls, hgood, hopen, hcheck, State.vectorRefused]

end

theorem State.halted_of_pilotOpen {s : State} {a : At} (h : s.pilotOpen a = true) : (s.ctxOf a).halted = false := by
  simp only [State.pilotOpen, Bool.and_eq_true, Bool.not_eq_true'] at h
  exact h.1.1

theorem State.vectorRefused_same (s : State) (a : At) (v : Vec) :
    SameBut [.events, .clusters] s (s.vectorRefused a v) :=
  ((s.modCtx_same a _).mono (by decide)).then (State.raiseDie_same ..) (by decide)

theorem State.onlyCluster_vectorRefused {a : At} (hphys : a.phys < 256) (s : State) (v : Vec) :
    OnlyCluster a ((s.clusterOf a).onCtx a.idx (Ctx.halts (s.ctxOf a).window.length)) s (s.vectorRefused a v) :=
  ((OnlyCluster.refl a s).modCtx hphys _).of_clusters (State.raiseCl_clusters ..)

theorem State.raisedAt_vectorRefused (s : State) (a : At) (v : Vec) :
    RaisedAt s (s.vectorRefused a v) 0xA001 (cdIndex a.die) :=
  (State.raisedAt_raiseCl _ _ _ _ _).of_before rfl rfl

/-! ## NOP (R213) -/

theorem exec_vectorNop_done {s : State} {c : ClusterId} {slot : BitVec 1} {a : At} {i : Nat} {e : Entry}
    (hat : s.at? c slot = some a)
    (hfirst : firstEntry (s.ctxOf a).window (fun e => e.vector && decide ((Vec.of e.words).kind = 0)) = some (i, e))
    (hruns : s.entryRuns a i = true) (hfree : fenced (s.ctxOf a).window i = false) :
    exec (.vectorNop c slot) s = .next (s.entryDone a i e (Vec.of e.words).notify (Vec.of e.words).done
      (Vec.of e.words).tag 1 0) := by
  show Host.Outcome.next (s.vectorNop c slot) = _
  simp [State.vectorNop, hat, hfirst, hruns, hfree]

/-! ## A discarded apply pass (R212, R242) -/

/-- What the vector engine leaves in its cluster when it passes over a descriptor: its turn, and a status record that says
discarded. -/
def Cluster.passesOver (a : At) (v : Vec) (c : Cluster) : Cluster :=
  { c with
    lastVector := a.slot
    store := if v.statusEn then Cells.write c.store (a.ctx.lo + v.status * 128) (statusBytes 0 0 128 0 0) else c.store }

/-- A descriptor is done without running: event 0xA003 comes before its notice. -/
def State.vectorPassed (s : State) (a : At) (i : Nat) (e : Entry) : State :=
  let v := Vec.of e.words
  ((s.modClusterOf a (Cluster.passesOver a v)).raiseCl 0xA003 a.die a.phys
    (natLe 1 a.ctx.id ++ natLe 2 v.tag ++ wordLe 8 e.step)).entryDone a i e v.notify v.done v.tag 1 128

theorem exec_vectorDiscard_passed {s : State} {c : ClusterId} {slot : BitVec 1} {a : At} {i : Nat} {e : Entry} {act : Action}
    (hat : s.at? c slot = some a) (hfirst : vectorEntry (s.ctxOf a).window = some (i, e))
    (hready : s.discardReady a i e = some act) (hturn : s.vectorTurn a (s.at? c (1 - slot)) = true) :
    exec (.vectorDiscard c slot) s
      = .next (if act = .halt then (s.vectorPassed a i e).haltCtx a i else s.vectorPassed a i e) := by
  show Host.Outcome.next (s.vectorDiscard c slot) = _
  obtain rfl := (State.at?_stands hat).2
  simp only [State.vectorDiscard, hat, hfirst, hready, hturn, Bool.not_true, Bool.false_eq_true, if_false]
  rfl

theorem State.vectorPassed_same (s : State) (a : At) (i : Nat) (e : Entry) :
    SameBut [.events, .clusters, .mem, .berths, .runs] s (s.vectorPassed a i e) := by
  refine SameBut.trans ?_ (State.entryDone_same ..)
  exact ((s.modClusterOf_same a _).mono (by decide)).then (State.raiseDie_same ..) (by decide)

theorem State.raisedAt_vectorPassed (s : State) (a : At) (i : Nat) (e : Entry) :
    RaisedAt s (s.vectorPassed a i e) 0xA003 (cdIndex a.die) := by
  refine RaisedAt.ringKept ?_ (State.entryDone_ringKept ..)
  exact (State.raisedAt_raiseCl _ _ _ _ _).of_before rfl rfl

theorem State.onlyCluster_vectorPassed {a : At} (hphys : a.phys < 256) (s : State) (i : Nat) (e : Entry) :
    OnlyCluster a (((s.clusterOf a).passesOver a (Vec.of e.words)).onCtx a.idx (Ctx.drops i)) s (s.vectorPassed a i e) :=
  (((OnlyCluster.refl a s).modClusterOf hphys (Cluster.passesOver a (Vec.of e.words))).of_clusters
    (State.raiseCl_clusters ..)).entryDone i e (Vec.of e.words).notify (Vec.of e.words).done (Vec.of e.words).tag 1 128 hphys

end Sys2Proof.Machine
end

section
open Sys2Proof Sys2Proof.Machine

/-- Settles O20: an admitted descriptor, a refusal and a descriptor that is done each change one context of one cluster; the records
raised before a notice or the end of an amendment stay on the ring. -/
theorem vectorAdmissionAndDiscard : Obligations.VectorAdmissionAndDiscard := by
  refine ⟨fun s c slot a n it hat hhead hcls hgood hopen => ?_, fun s c slot a i e hat => ?_⟩
  all_goals
    obtain ⟨⟨hphys, hctx⟩, rfl⟩ := State.at?_stands hat
    have hnow := State.ctxOf_eq hctx
  · refine ⟨fun hcheck => ?_, fun hcheck => ?_⟩
    · have honly := ((OnlyCluster.refl a s).admitItem hphys n it true).of_clusters
        ((State.amendCheck_same _).same .clusters (by decide))
      have hthen := honly.ctxOf (Cluster.getElem?_onCtx hctx _)
      refine ⟨_, by rw [exec_vectorDescriptorAdmit, State.vectorAdmit_passes hat hhead hcls hgood hopen hcheck], ?_, ?_, ?_,
        honly.others, ?_⟩
      · rw [hthen, hnow]; rfl
      · rw [hthen]; exact hnow ▸ State.halted_of_pilotOpen hopen
      · rw [honly.here, Cluster.onCtx_store]
      · exact ((State.admitItem_same ..).mono (by decide)).then (State.amendCheck_same _) (by decide)
    · have honly := (State.onlyCluster_vectorRefused hphys s (Vec.of (wordsOf 16 it.payload))).of_clusters
        ((State.amendCheck_same _).same .clusters (by decide))
      have hthen := honly.ctxOf (Cluster.getElem?_onCtx hctx _)
      refine ⟨_, by rw [exec_vectorDescriptorAdmit, State.vectorAdmit_fails hat hhead hcls hgood hopen hcheck], ?_, ?_, ?_,
        (s.raisedAt_vectorRefused a _).ringKept (State.amendCheck_ringKept _), honly.others, ?_⟩
      · rw [hthen]; rfl
      · rw [hthen, hnow]; rfl
      · rw [hthen]; rfl
      · exact ((State.vectorRefused_same ..).mono (by decide)).then (State.amendCheck_same _) (by decide)
  · refine ⟨fun hfirst hruns hfree => ?_, fun act hfirst hready hturn => ?_⟩
    · have honly := (OnlyCluster.refl a s).entryDone i e (Vec.of e.words).notify (Vec.of e.words).done (Vec.of e.words).tag 1 0
        hphys
      refine ⟨_, exec_vectorNop_done hat hfirst hruns hfree, ?_, ?_, honly.others, State.entryDone_same ..⟩
      · rw [honly.ctxOf (Cluster.getElem?_onCtx hctx _), hnow]; rfl
      · rw [honly.here, Cluster.onCtx_store]
    · have honly := State.onlyCluster_vectorPassed hphys s i e
      have hctx' := Cluster.getElem?_onCtx (c := (s.clusterOf a).passesOver a (Vec.of e.words)) hctx (Ctx.drops i)
      refine ⟨_, exec_vectorDiscard_passed hat hfirst hready hturn, ?_⟩
      split
      · have hhalts := honly.modCtx hphys (Ctx.halts i)
        have hthen := hhalts.ctxOf (Cluster.getElem?_onCtx hctx' _)
        rw [State.haltCtx_eq, hthen, hnow, hhalts.here]
        exact ⟨rfl, rfl, fun _ => rfl, (s.raisedAt_vectorPassed a i e).ringKept ((State.modCtx_same ..).ringKept (by decide)),
          rfl, hhalts.others, (s.vectorPassed_same a i e).then (State.modCtx_same ..) (by decide)⟩
      next hact =>
        rw [honly.ctxOf hctx', hnow, honly.here]
        exact ⟨rfl, rfl, fun h => absurd h hact, s.raisedAt_vectorPassed a i e, rfl, honly.others,
          s.vectorPassed_same a i e⟩

end

section
/-!
What the checks of the lanes leave of a descriptor's cluster (R239, R240): a run that stands has kept every context there; a
cluster that is lost is not ACTIVE any more, whatever the slipway does for it (R117, R129, R130).
-/

namespace Sys2Proof.Machine

/-! ## A halt leaves the clusters alone (R425, R426) -/

theorem State.clusters_ite (c : Prop) [Decidable c] (s t : State) :
    (if c then s else t).clusters = if c then s.clusters else t.clusters := apply_ite State.clusters _ _ _

@[simp] theorem State.send_clusters (s : State) (p : Nat) (n : Notice) : (s.send p n).clusters = s.clusters := rfl

@[simp] theorem State.withdraw_clusters (s : State) (p : Nat) : (s.withdraw p).clusters = s.clusters := by
  unfold State.withdraw
  rw [State.modSeq_clusters, (State.amendCheck_same _).same .clusters (by decide)]
  refine (SameBut.foldl (fs := [.events, .berths]) _ (fun u n => ?_) _ s).same .clusters (by decide)
  exact ((u.modBerth_same n _).mono (by decide)).trans (State.releaseOld_same ..)

@[simp] theorem State.enterHalted_clusters (s : State) (p cause mode : Nat) :
    (s.enterHalted p cause mode).clusters = s.clusters := State.raiseHm_clusters ..

theorem State.haltWith_clusters (s : State) (p cause mode : Nat) : (s.haltWith p cause mode).clusters = s.clusters := by
  simp [State.haltWith, State.clusters_ite]

theorem State.halt_clusters (s : State) (p cause : Nat) : (s.halt p cause).clusters = s.clusters := s.haltWith_clusters ..

/-! ## A lost cluster (R117, R129, R130) -/

/-- The slipway tests a spare or gives the number up: it makes no cluster ACTIVE. -/
theorem State.state_trySpare {s : State} {die phys : Nat} (old logical : Nat) (h : (s.cluster die phys).state ≠ .active) :
    ((s.trySpare die old logical).cluster die phys).state ≠ .active := by
  unfold State.trySpare; simp only []
  split
  · rw [State.cluster_modCluster]
    split
    · exact nofun
    · exact h
  · have hgiven : ((s.modCluster die old (fun c => { c with logical := none, ctxs := [] })).cluster die phys).state
        ≠ .active := by
      rw [State.cluster_modCluster]
      split
      next hkey => rwa [State.cluster, hkey, ← State.cluster]
      · exact h
    split
    · rwa [State.cluster_congr (State.halt_clusters ..), State.cluster_congr (State.raiseDie_clusters ..)]
    · rwa [State.cluster_congr (State.raiseDie_clusters ..)]

theorem State.state_clusterLost (s : State) (die phys : Nat) : ((s.clusterLost die phys).cluster die phys).state ≠ .active := by
  unfold State.clusterLost; simp only []
  split
  · assumption
  · split
    · exact State.state_trySpare _ _ (by rw [State.cluster_setCluster, if_pos rfl]; exact nofun)
    · rw [State.cluster_setCluster, if_pos rfl]; exact nofun

/-! ## A run that stands (R239, R240) -/

/-- A retried fault that passed leaves the cluster's contexts alone, unless it is promoted and the cluster lost (R534). -/
theorem State.ctxs_clusterTransient {s : State} {die phys : Nat} (kind : Nat)
    (h : ((s.clusterTransient die phys kind).cluster die phys).state = .active) :
    ((s.clusterTransient die phys kind).cluster die phys).ctxs = (s.cluster die phys).ctxs := by
  unfold State.clusterTransient at h ⊢; simp only [] at h ⊢
  split at h
  · exact absurd h (State.state_clusterLost _ _ _)
  next hnot =>
    rw [if_neg hnot, State.cluster_congr (State.transientFault_clusters ..), State.cluster_congr (State.raiseCl_clusters ..),
      State.cluster_modCluster, if_pos rfl]

theorem State.ctxs_laneFault {s : State} {a : At} {i tag : Nat} {f : LaneFault} (h : (s.laneFault a i tag f).1 = true) :
    ((s.laneFault a i tag f).2.clusterOf a).ctxs = (s.clusterOf a).ctxs := by
  cases f with
  | none => rfl
  | storeCorrected =>
    show ((s.storeCorrected a.die a.phys).cluster a.die a.phys).ctxs = _
    rw [State.storeCorrected, State.cluster_modCluster, if_pos rfl]; rfl
  | residueOnce row lane =>
    have hactive := of_decide_eq_true h
    refine (State.ctxs_clusterTransient 2 hactive).trans ?_
    rw [State.clError, State.cluster_modCluster, if_pos rfl]; rfl
  | residueTwice row lane => cases h
  | storeUe slot => cases h

end Sys2Proof.Machine
end

section
/-!
A MAP, QUANT, MASK or LSUM that runs (R207, R229 to R231, R241, R244): to its end, with its status record, its events and its
notice, or to the part before which a swap stops it.
-/

namespace Sys2Proof.Machine

/-! ## To its end (R229 to R231, R244) -/

theorem State.modDet_same (s : State) (p : Nat) (f : Detector → Detector) : SameBut [.runs] s (s.modDet p f) :=
  s.modRun_same p _

theorem State.countNonfinite_same (s : State) (p src k : Nat) : SameBut [.runs] s (s.countNonfinite p src k) :=
  (SameBut.refl _ s).ite (s.modDet_same p _)

theorem State.countKept_same (s : State) (p src k : Nat) : SameBut [.runs] s (s.countKept p src k) :=
  (SameBut.refl _ s).ite ((s.countNonfinite_same p src k).trans (State.modDet_same ..))

theorem State.noteBound_same (s : State) (p : Nat) (job : Bool) (layer : Nat) (b : Word) :
    SameBut [.runs] s (s.noteBound p job layer b) := by
  unfold State.noteBound; simp only []
  refine SameBut.ite (s.modSeq_same p _) (SameBut.ite ?_ (SameBut.ite (s.modSeq_same p _) ?_))
  · exact (s.modSeq_same p _).trans (State.countKept_same ..)
  · exact (s.modSeq_same p _).trans (State.countNonfinite_same ..)

theorem State.notePeak_same (s : State) (a : At) (v : Vec) (step : DWord) (x : VecRun) :
    SameBut [.runs, .jr] s (s.notePeak a v step x) := by
  have hseq := fun f => (s.modSeq_same a.part f).mono (gs := [.runs, .jr]) (by decide)
  unfold State.notePeak; simp only []
  exact (SameBut.refl _ s).ite ((hseq _).ite (((hseq _).then (State.send_same ..) (by decide)).ite (hseq _)))

/-- What the vector engine leaves in its cluster when a run is done: its turn, what the run wrote, and its status record. -/
def Cluster.hasRun (a : At) (v : Vec) (x : VecRun) (c : Cluster) : Cluster :=
  { c with
    store := if v.statusEn then
        Cells.write x.store (a.ctx.lo + v.status * 128) (statusBytes x.elems x.bad x.flagByte x.result x.total)
      else x.store
    lastVector := a.slot }

/-- Between the status record and the notice of a run that is done, counts and events alone change; only a QUANT sends a message to
the job, the partial peak of its scope (R147). -/
theorem State.vectorDone_told (s : State) (a : At) (i : Nat) (e : Entry) (v : Vec) (x : VecRun) :
    ∃ u, s.vectorDone a i e v x = u.entryDone a i e v.notify v.done v.tag 1 x.flagByte
      ∧ ∀ fs : List Field, [.events, .runs] ⊆ fs → (v.kind = 2 → Field.jr ∈ fs) →
        SameBut fs (s.modClusterOf a (Cluster.hasRun a v x)) u := by
  refine ⟨_, rfl, fun fs hfs hjr => ?_⟩
  have hruns : ∀ {t u : State}, SameBut [.runs] t u → SameBut fs t u :=
    fun h => h.mono (fun _ hf => hfs (List.mem_cons_of_mem _ hf))
  have hraise : ∀ (c : Prop) (_ : Decidable c) (t : State) (code : Nat) (b : Bytes),
      SameBut fs t (if c then t.raiseCl code a.die a.phys b else t) :=
    fun _ _ t _ _ => (((State.raiseDie_same t ..).mono (by decide)).mono hfs).ite (SameBut.refl _ t)
  have hpeak : ∀ t : State, SameBut fs t (if v.kind = 2 then t.notePeak a v e.step x else t) := fun t => by
    split
    next hkind => exact (State.notePeak_same ..).mono (by simp_all)
    next => exact SameBut.refl _ t
  refine SameBut.trans ?_ (SameBut.ite (hruns (State.noteBound_same ..)) (SameBut.refl _ _))
  refine SameBut.trans ?_ (hpeak _)
  refine SameBut.trans (SameBut.trans ?_ (hraise _ _ _ _ _)) (hraise _ _ _ _ _)
  refine SameBut.trans ?_ (SameBut.ite (hruns (State.modDet_same ..)) (SameBut.refl _ _))
  exact hruns (State.countNonfinite_same ..)

/-- A run that is done is what R229 to R231 say of it, where its context still stands in the cluster. -/
theorem State.vectorRan_vectorDone {s : State} {a : At} (hphys : a.phys < 256)
    (hctx : (s.clusterOf a).ctxs[a.idx]? = some a.ctx) (i : Nat) (e : Entry) (x : VecRun) :
    VectorRan a i e x s (s.vectorDone a i e (Vec.of e.words) x) := by
  obtain ⟨u, hdone, htold⟩ := s.vectorDone_told a i e (Vec.of e.words) x
  have honly := (((OnlyCluster.refl a s).modClusterOf hphys (Cluster.hasRun a (Vec.of e.words) x)).of_clusters
    ((htold [.events, .runs, .jr] (by decide) (fun _ => by decide)).same .clusters (by decide))).entryDone i e
    (Vec.of e.words).notify (Vec.of e.words).done (Vec.of e.words).tag 1 x.flagByte hphys
  have hall : ∀ fs : List Field, [.events, .clusters, .mem, .berths, .runs] ⊆ fs →
      ((Vec.of e.words).kind = 2 → Field.jr ∈ fs) → SameBut fs s (s.vectorDone a i e (Vec.of e.words) x) :=
    fun fs hfs hjr => by
      rw [hdone]
      have hstored := ((s.modClusterOf_same a (Cluster.hasRun a (Vec.of e.words) x)).mono
        (gs := [.events, .clusters, .mem, .berths, .runs]) (by decide)).mono hfs
      exact (hstored.trans (htold fs (List.Subset.trans (by decide) hfs) hjr)).then (State.entryDone_same ..) hfs
  refine ⟨?_, ?_, ?_, ?_, ?_, hall _ (by decide) (fun _ => by decide), fun hkind => ?_⟩
  · rw [hdone, honly.ctxOf (Cluster.getElem?_onCtx (c := (s.clusterOf a).hasRun a (Vec.of e.words) x) hctx _),
      State.ctxOf_eq hctx]
    rfl
  · rw [hdone, honly.here]; rfl
  · rw [hdone, honly.here]; rfl
  · rw [hdone, honly.here]; rfl
  · rw [hdone]; exact honly.others
  · exact (hall _ (List.Subset.refl _) (fun h => absurd h hkind)).same .jr (by decide)

/-! ## To a swap (R241) -/

/-- What an entry holds when its run stopped before part `n`. -/
def Entry.stopsAt (x : VecRun) (n : Nat) (e : Entry) : Entry := { e with vec := x.part n }

/-- A context with the entry at place `i` of its window put through `f`. -/
def Ctx.onEntry (i : Nat) (f : Entry → Entry) (x : Ctx) : Ctx := { x with window := modifyAt x.window i f }

/-- A cluster with other bytes in its store. -/
def Cluster.withStore (m : Cells) (c : Cluster) : Cluster := { c with store := m }

/-- A run that a swap stops before part `n`. -/
def State.vectorStops (s : State) (a : At) (i : Nat) (e : Entry) (n : Nat) : State :=
  (s.setStore a (s.vectorTo a e n).store).modEntry a i (Entry.stopsAt (s.vectorTo a e n) n)

theorem State.onlyCluster_vectorStops {a : At} (hphys : a.phys < 256) (s : State) (i : Nat) (e : Entry) (n : Nat) :
    OnlyCluster a (((s.clusterOf a).withStore (s.vectorTo a e n).store).onCtx a.idx
      (Ctx.onEntry i (Entry.stopsAt (s.vectorTo a e n) n))) s (s.vectorStops a i e n) :=
  ((OnlyCluster.refl a s).modClusterOf hphys (Cluster.withStore (s.vectorTo a e n).store)).modCtx hphys
    (Ctx.onEntry i (Entry.stopsAt (s.vectorTo a e n) n))

theorem State.vectorStopped_vectorStops {s : State} {a : At} (hphys : a.phys < 256)
    (hctx : (s.clusterOf a).ctxs[a.idx]? = some a.ctx) {i : Nat} {e : Entry} (hentry : a.ctx.window[i]? = some e) (n : Nat) :
    VectorStopped a i e n s (s.vectorStops a i e n) := by
  have honly := State.onlyCluster_vectorStops hphys s i e n
  refine ⟨?_, ?_, ?_, honly.others, (s.modClusterOf_same a _).trans (State.modCtx_same ..)⟩
  · rw [honly.ctxOf (Cluster.getElem?_onCtx (c := (s.clusterOf a).withStore (s.vectorTo a e n).store) hctx _), Ctx.onEntry,
      getElem?_modifyAt, hentry]
    rfl
  · rw [honly.here]; rfl
  · rw [honly.here]; rfl

/-! ## The descriptor at the head of the vector engine's queue (R207, R212) -/

/-- The part before which a run ends: the last, or where a swap stops it. -/
def Vec.stopsBefore (v : Vec) (done : Nat) : Option Nat → Nat
  | some k => min v.parts (done + k)
  | none => v.parts

/-- A run that the checks of the lanes let stand. -/
def State.vectorGoes (s : State) (a : At) (i : Nat) (e : Entry) (stop : Option Nat) : State :=
  if (Vec.of e.words).stopsBefore e.vec.done stop < (Vec.of e.words).parts then
    s.vectorStops a i e ((Vec.of e.words).stopsBefore e.vec.done stop)
  else s.vectorDone a i e (Vec.of e.words) (s.vectorAll a e)

theorem State.vectorGoes_none (s : State) (a : At) (i : Nat) (e : Entry) :
    s.vectorGoes a i e none = s.vectorDone a i e (Vec.of e.words) (s.vectorAll a e) := if_neg (Nat.lt_irrefl _)

theorem State.vectorGoes_some (s : State) (a : At) (i : Nat) {e : Entry} {k : Nat}
    (h : e.vec.done + k < (Vec.of e.words).parts) :
    s.vectorGoes a i e (some k) = s.vectorStops a i e (e.vec.done + k) := by
  have hmin : (Vec.of e.words).stopsBefore e.vec.done (some k) = e.vec.done + k := Nat.min_eq_right (Nat.le_of_lt h)
  rw [State.vectorGoes, hmin, if_pos h]

theorem State.vectorRun_turn {s : State} {c : ClusterId} {slot : BitVec 1} {a : At} {i : Nat} {e : Entry}
    (hat : s.at? c slot = some a) (hfirst : vectorEntry (s.ctxOf a).window = some (i, e))
    (hready : s.vectorReady a i e = true) (hturn : s.vectorTurn a (s.at? c (1 - slot)) = true) (f : LaneFault)
    (stop : Option Nat) {kind : Nat} (hkind : (Vec.of e.words).kind = kind) :
    s.vectorRun c slot kind f stop =
      if (s.laneFault a i (Vec.of e.words).tag f).1 = true then
        (s.laneFault a i (Vec.of e.words).tag f).2.vectorGoes a i e stop
      else (s.laneFault a i (Vec.of e.words).tag f).2 := by
  subst hkind
  simp only [State.vectorRun, hat, hfirst, hready, hturn, ne_eq, not_true_eq_false, Bool.not_true, Bool.false_eq_true,
    or_self, if_false]
  cases (s.laneFault a i (Vec.of e.words).tag f).1 <;> cases stop <;> rfl

end Sys2Proof.Machine

open Sys2Proof Sys2Proof.Machine

/-- Settles O21: the four kinds share one run. One that stands keeps the contexts of its cluster, so that its entry is still where
the run finds it; one that does not ends with what the checks of the lanes did. -/
theorem vectorDescriptorsRun : Obligations.VectorDescriptorsRun := by
  intro s c slot a i e f u hat hfirst hready hturn hu
  obtain ⟨⟨hphys, hctx⟩, -⟩ := State.at?_stands hat
  have hturns : ∀ stop {kind}, (Vec.of e.words).kind = kind → s.vectorRun c slot kind f stop =
      if (s.laneFault a i (Vec.of e.words).tag f).1 = true then u.vectorGoes a i e stop else u :=
    hu ▸ State.vectorRun_turn hat hfirst hready hturn f
  refine ⟨fun hok => ?_, fun hfails => ?_⟩
  · have hkept : (u.clusterOf a).ctxs[a.idx]? = some a.ctx := by rw [hu, State.ctxs_laneFault hok, hctx]
    have hentry : a.ctx.window[i]? = some e := State.ctxOf_eq hctx ▸ getElem?_of_firstEntry hfirst
    have hruns : ∀ {kind}, (Vec.of e.words).kind = kind → ∃ t, (.next (s.vectorRun c slot kind f none) : Out) = .next t
        ∧ VectorRan a i e (u.vectorAll a e) u t := fun hkind =>
      ⟨_, by rw [hturns _ hkind, if_pos hok, State.vectorGoes_none], State.vectorRan_vectorDone hphys hkept i e _⟩
    have hstops : ∀ {kind k}, e.vec.done + k < (Vec.of e.words).parts → (Vec.of e.words).kind = kind →
        ∃ t, (.next (s.vectorRun c slot kind f (some k)) : Out) = .next t ∧ VectorStopped a i e (e.vec.done + k) u t :=
      fun hk hkind => ⟨_, by rw [hturns _ hkind, if_pos hok, State.vectorGoes_some _ a i hk],
        State.vectorStopped_vectorStops hphys hkept hentry _⟩
    exact ⟨hruns, hruns, hruns, hruns, fun k hk => ⟨hstops hk, hstops hk, hstops hk⟩⟩
  · have hends : ∀ {kind}, (Vec.of e.words).kind = kind → ∀ k, (.next (s.vectorRun c slot kind f k) : Out) = .next u :=
      fun hkind k => by rw [hturns _ hkind, if_neg (by rw [hfails]; exact nofun)]
    exact ⟨hends, hends, hends, fun hkind => hends hkind none⟩

end
